-- ==== Sys2Proof/Word.lean ====
section
/-! DEFINITION. The word types of the model: a byte, a byte string (lowest address first, R7) and a 64-bit
docent register (R195). Helpers over them stand in Machine/Bits.lean. -/

namespace Sys2Proof

/-- A byte. -/
abbrev Byte := BitVec 8

/-- Bytes in ascending address order (R7: the least significant byte comes first). -/
abbrev Bytes := List Byte

/-- A docent register (R195). -/
abbrev Word64 := BitVec 64

end Sys2Proof
end

