-- ==== Sys2Proof/Syntax.lean ====
section
/-! DEFINITION. The commands of the block: one constructor for each row of spec/opcode_table.json, with the
operands the row's rule names. Numbers are plain naturals; a port is 0-15, a Wing 0-3, a die code 0, 1 or 4-7
(R354), a channel selector that of R197, a docent id that of R189. -/

namespace Sys2Proof

/-- The context of a docent (R193): P for priority-0 handlers, A for everything else. -/
inductive Ctx where
  | p | a
deriving DecidableEq, Repr

/-- Who sends a dictionary operation (R327, R330, R336): the dictionary window of a link port's function, or a
DAP session with the sequence number of its request frame; `windowRsvd` and `dapRsvd` are the same with a rsvd field of
the request not 0 (R329). -/
inductive Requester where
  | window (port : Nat)
  | dap (session seq : Nat)
  | windowRsvd (port : Nat)
  | dapRsvd (session seq : Nat)
deriving DecidableEq, Repr

/-- Where a command stands (R57, R146, R168): a line of the collection's command area, or the request entry
OD 0x3811 (sequences) or OD 0x4013 (launches) of the Host port (`false`) or the Field port (`true`). -/
inductive CmdSrc where
  | line (n : Nat)
  | seqEntry (field : Bool)
  | jobEntry (field : Bool)
deriving DecidableEq, Repr

/-- What carries ingest records (R115, R309, R314): a Mover engine of a Lobby, or the load window of a port. -/
inductive Carrier where
  | engine (lobby e : Nat)
  | loadWindow (port : Nat)
deriving DecidableEq, Repr

/-- What a HELLO flit carries (R283), and whether the certificate exchanged after it verifies. -/
structure HelloMsg where
  die : Nat
  mark : Nat
  version : Nat
  features : Nat
  certOk : Bool
deriving DecidableEq, Repr

/-- A telemetry message (R369, R288, R375): hottest junction in 0.25 C units, the readings of a Wing's pace rings of which it reports
the slowest, the power estimate in uW of each rail, whether the die records itself in service, and its ACTIVE edition hash. -/
structure Telemetry where
  temp : Int
  rings : List Nat
  power : List (Nat × Nat)
  inService : Bool
  hash : Nat
deriving DecidableEq, Repr

/-- One of the 8 pace rings of a Wing (R375). -/
structure PaceRing where
  wing : Nat
  idx : Nat
deriving DecidableEq, Repr

/-- What one die answers to the hash question of R289. -/
inductive HashAnswer where
  | hash (h : Nat)
  | none
  | unprepared
  | retraining
deriving DecidableEq, Repr

/-- One rail's reading at a PMBus poll (R370, R372): no acknowledgement in three attempts, or READ_VOUT in mV, READ_IOUT in mA and its STATUS_WORD
with whether an output or current fault stands in it. -/
structure RailReading where
  rail : Nat
  acked : Bool
  vout : Nat
  iout : Nat
  status : Nat
  faulted : Bool
deriving DecidableEq, Repr

/-- A completion for a non-posted read of the function (R310, R311, R313): bytes at an offset within the read,
with the EP bit, or an error status (Unsupported Request, Completer Abort). -/
inductive Completion where
  | data (offset : Nat) (bytes : Bytes) (ep : Bool)
  | error
deriving DecidableEq, Repr

/-- Why a DAP frame is dropped silently (R336). -/
inductive DropCause where
  | checksum | magic | version | session | mac
deriving DecidableEq, Repr

/-- How an SPDM message travels (R434): over DOE of a port, in a DAP frame of opcode 0x40, or within a session. -/
inductive SpdmVia where
  | doe (port : Nat)
  | dap
  | session (id : Nat)
deriving DecidableEq, Repr

/-- How debug unlock is reached (R452): the TAP, or OD 0x8020 by a requester. -/
inductive DbgVia where
  | tap
  | dict (req : Requester)
deriving DecidableEq, Repr

/-- The commands. -/
inductive Instr where
  /-- R26. A CXL.mem read of one 64-byte line (MemRd or MemRdData) is classified, routed to its home Wing and served from the cache or the channel. -/
  | cxlMemRead (port hpa : Nat)
  /-- R31. A CXL.mem write (MemWr or MemWrPtl) is handled by collection kind: it lands in the cache partition or write-merge buffer, or it is discarded. -/
  | cxlMemWrite (port hpa : Nat) (data : Bytes) (be : Nat) (poison : Bool)
  /-- R294. A MemSpecRd is accepted with no effect and no response. -/
  | memSpecRd (port hpa : Nat)
  /-- R294. A MemInv or MemInvNT is completed with Cmp and has no other effect. -/
  | memInv (port hpa : Nat)
  /-- R35. A 1 ms coalescing window ends and one count notice is raised when the count is not zero. -/
  | coalesceWindowEnd (kind object : Nat)
  /-- R26. DRAM lines return from a channel; they are line-decoded, decrypted and expanded, and the waiting requests are answered, with poison where needed. -/
  | channelReadComplete (id : Nat)
  /-- R32. An ACT block arrives expanded in the cache partition, and the writes held in the write-merge buffer are merged into it. -/
  | actBlockExpanded (coll wing blk : Nat)
  /-- R33. A cache line leaves the cache and is written, merged, stored as ZERO, or recompressed by collection kind. -/
  | lineLeavesCache (coll wing line : Nat)
  /-- R32. The Depot copy of a durable collection's write is held, and the write's completion is sent. -/
  | depotWriteThroughComplete (id : Nat)
  /-- R84. The last request that read an old catalogue entry completes, and the freed slot run becomes reusable. -/
  | deferredRunFree (wing tier site slot : Nat)
  /-- R91. A read of the view extent returns a stored, synthesized or poisoned header line, or a payload line, writing back dirty lines first. -/
  | compressedViewRead (port hpa : Nat)
  /-- R152. A FORK command creates c children of a parent sequence at a fork token, or returns a failure status. -/
  | fork (coll : Nat) (src : CmdSrc)
  /-- R155. A FORK forwarded from the command Wing reaches a Wing of the set; the Wing writes back the parent's dirty lines and marks the blocks shared. -/
  | forkInstant (coll : Nat) (src : CmdSrc) (wing : Nat)
  /-- R150. A TRUNCATE command drops a sequence's hold on blocks beyond n tokens and zeroes the boundary block tail. -/
  | truncate (coll : Nat) (src : CmdSrc)
  /-- R148. A RELEASE with target type 0 frees a sequence's window and the blocks no other sequence shares. -/
  | releaseSequence (coll : Nat) (src : CmdSrc)
  /-- R59. A RELEASE with target type 1 makes every block of a range ZERO and frees its slots. -/
  | releaseBlockRange (coll : Nat) (src : CmdSrc)
  /-- R147. A CREATE request makes a run of free windows of a pool into live root sequences. -/
  | create (coll : Nat) (src : CmdSrc)
  /-- R60. A FENCE command is accepted in a collection's command area. -/
  | fence (coll : Nat) (src : CmdSrc)
  /-- R60. Every earlier command and completed write has settled, so the FENCE reaches DONE and the commands waiting with after_fence start. -/
  | fenceComplete (coll : Nat) (src : CmdSrc)
  /-- R136. A PIN command pins collection lots to a tier, all or nothing. -/
  | pin (coll : Nat) (src : CmdSrc)
  /-- R137. An UNPIN command removes the command pins of the named tier. -/
  | unpin (coll : Nat) (src : CmdSrc)
  /-- R136. Every affected Wing lot resides wholly in its pinned tier, and the PIN reaches DONE. -/
  | pinMoveDone (coll : Nat) (src : CmdSrc)
  /-- R59. A command line with an opcode outside the table ends BAD_OPCODE. -/
  | undefinedCommandOpcode (coll : Nat) (src : CmdSrc)
  /-- R115. An ingest record is checked in order at its home Wing, and is then stored, or refused with a reason code. -/
  | ingestRecord (carrier : Carrier)
  /-- R128. A heat period ends: each Wing decides returns, drains, promotions and demotions, and then halves every heat. -/
  | heatPeriodEnd
  /-- R168. A JOB_LAUNCH, from a command line or from OD 0x4013:01, is checked and forwarded to the chosen Wing. -/
  | jobLaunch (coll : Nat) (src : CmdSrc)
  /-- R172. The chosen Wing admits or refuses the forwarded launch, places the rectangle, and writes line 1 and DONE. -/
  | jobAdmission (coll : Nat) (src : CmdSrc)
  /-- R176. Tiles last used by another collection have been cleared, and the job starts. -/
  | tileClearDone (job : Nat)
  /-- R164. A job's stream reads a line through the read path, a loan share or the Corridor. -/
  | jobStreamRead (job operand offset : Nat)
  /-- R164. A job's stream writes a line through the write path, with poison where it depends on poisoned input. -/
  | jobStreamWrite (job operand offset : Nat)
  /-- R177. A job ends DONE or POISON_CONSUMED; line 1 and the job-done record are written, and its resources are freed. -/
  | jobCompletion (job : Nat)
  /-- R187. A layout meets a run-time argument fault, such as a KV-GATHER index at or beyond T_p, and the job ends FAULT. -/
  | jobFault (job : Nat)
  /-- R177. A job's time_limit elapses and it ends TIMEOUT. -/
  | jobTimeout (job : Nat)
  /-- R179. A write to OD 0x4014:01 aborts the named running job. -/
  | jobAbort (req : Requester) (job : Nat)
  /-- R192. A write to OD 0x4121:01 queues trigger 0x03 for a verify pass. -/
  | verifyRequest (req : Requester) (coll : Nat)
  /-- R192. A write to OD 0x4112:01 queues trigger 0x10 for a docent. -/
  | customerTrigger (req : Requester) (value : Nat)
  /-- R200. A write to OD 0x4111:01 restarts the faulted role of a docent. -/
  | roleRestart (req : Requester) (docent : Nat)
  /-- R193. A waiting trigger is started on an idle context of a bound docent, preempting context A for priority 0. -/
  | triggerDispatch (die : Nat)
  /-- R197. Docent instruction NOP. -/
  | nop (docent : Nat) (ctx : Ctx)
  /-- R197. Docent instruction ADD. -/
  | add (docent : Nat) (ctx : Ctx)
  /-- R197. Docent instruction SUB. -/
  | sub (docent : Nat) (ctx : Ctx)
  /-- R197. Docent instruction AND. -/
  | andR (docent : Nat) (ctx : Ctx)
  /-- R197. Docent instruction OR. -/
  | orR (docent : Nat) (ctx : Ctx)
  /-- R197. Docent instruction XOR. -/
  | xor (docent : Nat) (ctx : Ctx)
  /-- R197. Docent instruction SHL. -/
  | shl (docent : Nat) (ctx : Ctx)
  /-- R197. Docent instruction SHR. -/
  | shr (docent : Nat) (ctx : Ctx)
  /-- R197. Docent instruction SRA. -/
  | sra (docent : Nat) (ctx : Ctx)
  /-- R197. Docent instruction MUL, keeping the low 64 bits. -/
  | mul (docent : Nat) (ctx : Ctx)
  /-- R197. Docent instruction MINU. -/
  | minu (docent : Nat) (ctx : Ctx)
  /-- R197. Docent instruction MAXU. -/
  | maxu (docent : Nat) (ctx : Ctx)
  /-- R197. Docent instruction ADDI. -/
  | addi (docent : Nat) (ctx : Ctx)
  /-- R197. Docent instruction ANDI. -/
  | andi (docent : Nat) (ctx : Ctx)
  /-- R197. Docent instruction ORI. -/
  | ori (docent : Nat) (ctx : Ctx)
  /-- R197. Docent instruction XORI. -/
  | xori (docent : Nat) (ctx : Ctx)
  /-- R197. Docent instruction SHLI. -/
  | shli (docent : Nat) (ctx : Ctx)
  /-- R197. Docent instruction SHRI. -/
  | shri (docent : Nat) (ctx : Ctx)
  /-- R197. Docent instruction SRAI. -/
  | srai (docent : Nat) (ctx : Ctx)
  /-- R197. Docent instruction MOVK sets one 16-bit field of a register. -/
  | movk (docent : Nat) (ctx : Ctx)
  /-- R197. Docent instruction MOVZ loads a shifted 16-bit immediate. -/
  | movz (docent : Nat) (ctx : Ctx)
  /-- R197. Docent instruction BEQ. -/
  | beq (docent : Nat) (ctx : Ctx)
  /-- R197. Docent instruction BNE. -/
  | bne (docent : Nat) (ctx : Ctx)
  /-- R197. Docent instruction BLTU. -/
  | bltu (docent : Nat) (ctx : Ctx)
  /-- R197. Docent instruction BGEU. -/
  | bgeu (docent : Nat) (ctx : Ctx)
  /-- R197. Docent instruction JMP. -/
  | jmp (docent : Nat) (ctx : Ctx)
  /-- R197. Docent instruction PARAM reads a program parameter. -/
  | param (docent : Nat) (ctx : Ctx)
  /-- R197. Docent instruction TSC reads the TSC. -/
  | tsc (docent : Nat) (ctx : Ctx)
  /-- R197. Docent instruction WAIT suspends the context until a TSC instant. -/
  | wait (docent : Nat) (ctx : Ctx)
  /-- R197. The TSC reaches a waiting docent's instant and the context resumes. -/
  | waitExpiry (docent : Nat) (ctx : Ctx)
  /-- R197. Docent instruction EVT raises a docent notice. -/
  | evt (docent : Nat) (ctx : Ctx)
  /-- R197. Docent instruction HALT ends the program with a status. -/
  | halt (docent : Nat) (ctx : Ctx)
  /-- R197. Docent instruction RDREG reads a die register. -/
  | rdreg (docent : Nat) (ctx : Ctx)
  /-- R197. Docent instruction WRREG writes a die register. -/
  | wrreg (docent : Nat) (ctx : Ctx)
  /-- R197. Docent instruction LDB loads a line-buffer word. -/
  | ldb (docent : Nat) (ctx : Ctx)
  /-- R197. Docent instruction STB stores a line-buffer word. -/
  | stb (docent : Nat) (ctx : Ctx)
  /-- R197. Docent instruction LREAD starts reading stored lines of a channel into the buffer. -/
  | lread (docent : Nat) (ctx : Ctx)
  /-- R197. Docent instruction LWRITE starts writing buffer lines to a channel with fresh check bits. -/
  | lwrite (docent : Nat) (ctx : Ctx)
  /-- R197. Docent instruction LFILL starts writing zero lines with valid check bits. -/
  | lfill (docent : Nat) (ctx : Ctx)
  /-- R229. Docent instruction LSCRUB starts scrubbing lines of a channel. -/
  | lscrub (docent : Nat) (ctx : Ctx)
  /-- R197. Docent instruction LTEST starts writing and reading back a test pattern. -/
  | ltest (docent : Nat) (ctx : Ctx)
  /-- R197. A docent channel or catalogue instruction finishes, its status word is written, and the context resumes. -/
  | docentChannelOpDone (docent : Nat) (ctx : Ctx)
  /-- R197. Docent instruction CATRD reads a catalogue entry into the buffer. -/
  | catrd (docent : Nat) (ctx : Ctx)
  /-- R197. Docent instruction CATFLIP replaces a catalogue entry atomically when it matches. -/
  | catflip (docent : Nat) (ctx : Ctx)
  /-- R197. Docent instruction SALLOC allocates slots from a share. -/
  | salloc (docent : Nat) (ctx : Ctx)
  /-- R197. Docent instruction SFREE frees slots, with deferred reuse. -/
  | sfree (docent : Nat) (ctx : Ctx)
  /-- R197. Docent instruction RUNCOPY starts a ciphertext copy of slots. -/
  | runcopy (docent : Nat) (ctx : Ctx)
  /-- R197. A RUNCOPY copy finishes and becomes visible to CWAIT. -/
  | copyComplete (docent : Nat) (ctx : Ctx) (handle : Nat)
  /-- R197. Docent instruction CWAIT waits for any outstanding copy to finish. -/
  | cwait (docent : Nat) (ctx : Ctx)
  /-- R197. Docent instruction BVERIFY verifies a block's CRC and structure inside the Wing. -/
  | bverify (docent : Nat) (ctx : Ctx)
  /-- R200. A program runs 1,048,576 instructions without a waiting instruction and faults. -/
  | watchdog (docent : Nat) (ctx : Ctx)
  /-- R224. A channel's 1 s corrected-line window ends, and the count is compared with the watermark. -/
  | correctedRateWindowEnd (wing sel : Nat)
  /-- R243. A write to OD 0x8010:01 writes back a collection's dirty lines on every Wing and drops its clean lines. -/
  | writeBackCollection (req : Requester) (coll : Nat)
  /-- R239. Split-write command READ_RAW loads the stored bytes uncorrected and reports what the decoder finds. -/
  | readRaw (wing : Nat)
  /-- R239. Split-write command WRITE_DATA stores data with device-computed check bits. -/
  | writeData (wing : Nat)
  /-- R239. Split-write command WRITE_CHECK stores check bytes and leaves the data unchanged. -/
  | writeCheck (wing : Nat)
  /-- R239. Split-write command WRITE_BOTH stores data and check bytes as given. -/
  | writeBoth (wing : Nat)
  /-- R239. Split-write command COMPUTE fills the check bytes of the window data, with no memory access. -/
  | compute (wing : Nat)
  /-- R254. A Depot rank's refresh interval expires; the refresh issues or is postponed, and a pending band change is applied. -/
  | depotRefreshDue (wing sel dimm cs : Nat)
  /-- R255. A Gallery bank's per-bank refresh falls due and issues. -/
  | galleryRefreshDue (wing sel bank : Nat)
  /-- R257. The Steward reads stack and RDIMM temperatures every 10 ms and moves channel bands. -/
  | thermalSensorPoll (temps : List (Nat × Nat × Int))
  /-- R262. A Depot rank idle for the power-down timer enters power-down. -/
  | rankPowerDown (wing sel rank : Nat)
  /-- R263. A Depot CA parity alert is retried and freezes the channel when it recurs on 3 retries. -/
  | caParityAlert (wing sel recurrences : Nat)
  /-- R263. A Depot write CRC alert is retried and freezes the channel when it recurs on 3 retries. -/
  | writeCrcAlert (wing sel recurrences : Nat)
  /-- R263. A Gallery command parity error freezes the channel. -/
  | galleryParityError (wing sel : Nat)
  /-- R263. OD 0x2803:04 = 1 freezes the selected channel. -/
  | freezeOrder (req : Requester)
  /-- R266. OD 0x2803:04 = 2 orders re-entry of the selected channel. -/
  | reenterOrder (req : Requester)
  /-- R268. OD 0x2803:04 = 3 orders evacuation of the selected channel. -/
  | evacuateOrder (req : Requester)
  /-- R267. Re-entry verify or fill ends: the epoch increments, the channel serves again, and held lines are written back. -/
  | channelFlip (wing sel : Nat)
  /-- R268. Evacuation ends: the channel retires, or returns to frozen holding the blocks that found no room. -/
  | evacuationComplete (wing sel : Nat)
  /-- R277. A DATA flit is received and is delivered in order, or classed as ahead, duplicate or impossible. -/
  | dataFlit (die cport : Nat) (flit : Bytes)
  /-- R278. A LINK flit is received; its acknowledgement, negative acknowledgement and credits are applied. -/
  | linkFlit (die cport : Nat) (flit : Bytes)
  /-- R283. A HELLO flit is received during bring-up, carrying die code, mark, version and features. -/
  | hello (die cport : Nat) (peer : HelloMsg)
  /-- R274. A flit with a failing crc, or an invalid type or rsvd bits, is discarded whole. -/
  | flitCrcFailure (die cport : Nat) (flit : Bytes)
  /-- R278. 200 ns pass since the first unacknowledged accepted flit, and the receiver sends an acknowledgement. -/
  | ackTimer (die cport : Nat)
  /-- R277. The 1.5 µs nak withholding ends without e advancing. -/
  | nakHoldoffExpiry (die cport : Nat)
  /-- R278. The replay timer reaches 1.5 µs and the sender replays from its oldest unacknowledged seq. -/
  | replayTimer (die cport : Nat)
  /-- R280. A retrain completes and replay resumes, or its third failure puts the link down. -/
  | retrainDone (die cport : Nat) (ok : Bool)
  /-- R280. A Corridor receiver loses lock. -/
  | receiverLockLoss (die cport : Nat)
  /-- R280. Receiver lock is lost beyond 50 µs and the link goes down. -/
  | lockLossTimeout (die cport : Nat)
  /-- R285. A borrower's loan fill request reaches the home Wing, which serves it and records the borrower. -/
  | loanFillRequest (borrower coll line : Nat)
  /-- R285. A loan fill reply reaches the borrower and is placed in the loan share. -/
  | loanFillReply (borrower coll line : Nat)
  /-- R286. A recall reaches a borrower, which drops the line and acknowledges. -/
  | loanRecall (borrower coll line : Nat)
  /-- R286. A recall acknowledgement reaches the home Wing; when it is the last one, the waiting write completes. -/
  | recallAck (borrower coll line : Nat)
  /-- R288. Lobby 0 sends its 10 µs heartbeat on the control stream. -/
  | lobby0Heartbeat
  /-- R291. A die receives no heartbeat for 1 ms, takes Lobby 0 as lost, and starts the emergency sequence. -/
  | heartbeatTimeout (die : Nat)
  /-- R290. The TSC master sends time-sync on every link every 10 µs. -/
  | timeSyncSend
  /-- R352. A die receives time-sync, computes its offset, slews or steps its TSC, and updates its skew state. -/
  | timeSyncReceive (die stamp delay : Nat)
  /-- R290. No time-sync arrives for 1 ms, so the die free-runs and becomes time-uncertain. -/
  | timeSyncTimeout (die : Nat)
  /-- R369. A die's 100 µs telemetry message reaches the Steward. -/
  | telemetryMessage (die : Nat) (msg : Telemetry)
  /-- R295. Mailbox command Identify. -/
  | identify (port : Nat)
  /-- R295. Mailbox command Background Operation Status. -/
  | backgroundOperationStatus (port : Nat)
  /-- R295. Mailbox command Get Supported Logs. -/
  | getSupportedLogs (port : Nat)
  /-- R295. Mailbox command Get Log, for the Command Effects Log only. -/
  | getLog (port : Nat) (commandEffects : Bool)
  /-- R295. Mailbox command Identify Memory Device reports all capacity as dynamic. -/
  | identifyMemoryDevice (port : Nat)
  /-- R295. Mailbox command Get Health Info. -/
  | getHealthInfo (port : Nat)
  /-- R296. Mailbox command Get Event Records returns the records in the log. -/
  | getEventRecords (port log : Nat)
  /-- R297. Mailbox command Clear Event Records removes records and admits waiting Dynamic Capacity events to the log. -/
  | clearEventRecords (port log : Nat) (handles : List Nat)
  /-- R295. Mailbox command Get Event Interrupt Policy. -/
  | getEventInterruptPolicy (port : Nat)
  /-- R295. Mailbox command Set Event Interrupt Policy. -/
  | setEventInterruptPolicy (port : Nat) (settings : List Nat)
  /-- R42. Mailbox command Get Dynamic Capacity Configuration reports the port's regions. -/
  | getDynamicCapacityConfiguration (port : Nat)
  /-- R44. Mailbox command Get Dynamic Capacity Extent List. -/
  | getDynamicCapacityExtentList (port : Nat)
  /-- R45. The host accepts an offered extent, which becomes mapped. -/
  | addDynamicCapacityResponse (port : Nat) (extents : List (Nat × Nat))
  /-- R45. The host releases a withdrawn extent, which becomes unmapped. -/
  | releaseDynamicCapacity (port : Nat) (extents : List (Nat × Nat))
  /-- R45. The release timeout expires; the device removes the extent and raises a forced-release event. -/
  | releaseTimeout (port coll : Nat) (view : Bool)
  /-- R298. Mailbox command Get Scan Media Capabilities. -/
  | getScanMediaCapabilities (port : Nat)
  /-- R298. Mailbox command Scan Media restarts every scrub walk for one short-period pass. -/
  | scanMedia (port start length : Nat)
  /-- R298. Every walk finishes its Scan Media pass and the background operation completes. -/
  | scanMediaComplete
  /-- R298. Mailbox command Get Scan Media Results returns zero records. -/
  | getScanMediaResults (port : Nat)
  /-- R295. Mailbox command Get Timestamp returns the TSC. -/
  | getTimestamp (port : Nat)
  /-- R295. Any other mailbox command returns Unsupported. -/
  | unsupportedMailboxCommand (port opcode : Nat)
  /-- R42. The host commits an HDM decoder; any interleave other than 1-way gives a commit error. -/
  | hdmDecoderCommit (port decoder base size ways : Nat)
  /-- R315. Bus Master Enable is cleared; the engines stop and the running descriptors are recorded ABORTED. -/
  | busMasterEnableClear (port : Nat)
  /-- R315. Bus Master Enable is set; ABORTED statuses are written and queues are rechecked. -/
  | busMasterEnableSet (port : Nat)
  /-- R316. Initiate FLR resets the function's Mover, queues, window and configuration space. -/
  | flr (port : Nat)
  /-- R316. The function becomes ready after FLR, and configuration requests complete normally. -/
  | flrReady (port : Nat)
  /-- R317. Hot reset, secondary bus reset or link down resets the function and reverts accepted extents to offered. -/
  | hotReset (port : Nat)
  /-- R317. PERST_N of a port is asserted, and the link is held down with the function reset. -/
  | perstNAssert (port : Nat)
  /-- R318. PERST_N of a port is deasserted, and link training starts. -/
  | perstNDeassert (port : Nat)
  /-- R318. A link port comes up, and Add Capacity events are raised for the extents that reverted to offered. -/
  | portLinkUp (port rate width : Nat) (flit256 cxl : Bool)
  /-- R320. The function enters D3hot and stops its Mover traffic. -/
  | d3hotEntry (port : Nat)
  /-- R363. The function returns to D0, resumes its engines and rechecks its queues. -/
  | d0Return (port : Nat)
  /-- R320. All functions are in D3 with 1 ms of no traffic, and every channel enters self-refresh. -/
  | idleSelfRefresh
  /-- R321. PME_Turn_Off is received on a port; once received on every port whose link is up, the package flush begins. -/
  | pmeTurnOff (port : Nat)
  /-- R321. The package flush ends and PME_TO_Ack is sent on each port. -/
  | d3coldFlushComplete
  /-- R322. OD 0x1102:01 = 1 treats every Gallery share as 0 to prepare for D3cold. -/
  | prepareD3cold (req : Requester)
  /-- R322. OD 0x1102:01 = 0 ends the preparation. -/
  | endD3coldPreparation (req : Requester)
  /-- R467. A wake frame for the device arrives in D3cold, and WAKE_N asserts. -/
  | wakeFrame (mac etherType udpPort : Nat)
  /-- R304. A vector or the Function Mask is unmasked with its pending bit set, and one message is sent. -/
  | msixUnmask (port : Nat) (vector : Option Nat)
  /-- R306. A queue's moderation time ends and its deferred signal is sent. -/
  | moderationExpiry (port q : Nat)
  /-- R303. Writing 1s to FN_INT_STAT clears bits and deasserts INTA when none remain set. -/
  | intStatClear (port value : Nat)
  /-- R363. A head write frees queue entries and writes a LOST_RECORDS record when records were lost. -/
  | fnEqHeadWrite (port q value : Nat)
  /-- R305. An event queue control or base write sets its fields, empties a moved or resized queue, and on enable rechecks it. -/
  | fnEqCtlWrite (port q : Nat) (base : Bool) (value : Nat)
  /-- R360. A queue filter write takes effect for the next record raised. -/
  | fnEqFilterWrite (port q value : Nat)
  /-- R308. A write to FN_MOV_TAIL makes new descriptors available to the engine. -/
  | moverDoorbell (port engine value : Nat)
  /-- R308. The restart bit moves a stopped engine to idle at the next descriptor. -/
  | moverRestart (port engine value : Nat)
  /-- R309. Mover descriptor NOP. -/
  | descriptorNop (port engine : Nat)
  /-- R309. Mover descriptor TO_DEVICE issues reads of host memory into the collection. -/
  | toDevice (port engine : Nat)
  /-- R312. Mover descriptor TO_HOST writes collection lines to host memory. -/
  | toHost (port engine : Nat)
  /-- R309. Mover descriptor INGEST streams ingest records from host memory. -/
  | ingest (port engine : Nat)
  /-- R310. A descriptor with an unlisted opcode ends BAD_OPCODE. -/
  | undefinedDescriptorOpcode (port engine : Nat)
  /-- R311. A completion for a Mover read or descriptor fetch arrives and whole lines are written onward. -/
  | readCompletion (port tag : Nat) (cpl : Completion)
  /-- R310. A Mover read completion times out; the descriptor ends TIMEOUT and the engine stops. -/
  | completionTimeout (port tag : Nat)
  /-- R314. FN_LOAD_CTL with go set parses the ingest records in the load window. -/
  | loadGo (port value : Nat)
  /-- R328. Dictionary operation READ. -/
  | read (req : Requester) (idx sub offset length : Nat)
  /-- R328. Dictionary operation WRITE sets an RW, WO or RWK entry, or a cursor. -/
  | write (req : Requester) (idx sub offset : Nat) (data : Bytes)
  /-- R328. Dictionary operation READ_STAGED. -/
  | readStaged (req : Requester) (idx sub offset length : Nat)
  /-- R342. Dictionary operation WRITE_STAGED sets an RWE entry in the STAGED edition. -/
  | writeStaged (req : Requester) (idx sub offset : Nat) (data : Bytes)
  /-- R328. Dictionary operation DESCRIBE returns an entry's metadata. -/
  | describe (req : Requester) (idx sub : Nat)
  /-- R328. Dictionary operation NEXT returns the next visible entry. -/
  | nextEntry (req : Requester) (idx sub : Nat)
  /-- R329. An undefined dictionary operation or DAP opcode returns BAD_OP. -/
  | badOp (req : Requester) (op : Nat)
  /-- R336. A DAP frame with a bad checksum, magic, version, session or mac is dropped silently. -/
  | dapFrameDrop (why : DropCause)
  /-- R333. A Neighbor Solicitation on the Field port is answered. -/
  | neighborSolicitation (source target : Nat)
  /-- R333. An ICMPv6 echo request on the Field port is answered. -/
  | icmpv6Echo (source : Nat) (payload : Bytes)
  /-- R434. SPDM request GET_VERSION. -/
  | getVersion (via : SpdmVia) (message : Bytes)
  /-- R434. SPDM request GET_CAPABILITIES. -/
  | getCapabilities (via : SpdmVia) (message : Bytes)
  /-- R434. SPDM request NEGOTIATE_ALGORITHMS. -/
  | negotiateAlgorithms (via : SpdmVia) (message : Bytes)
  /-- R434. SPDM request GET_DIGESTS. -/
  | getDigests (via : SpdmVia) (message : Bytes)
  /-- R434. SPDM request GET_CERTIFICATE. -/
  | getCertificate (via : SpdmVia) (offset length : Nat)
  /-- R434. SPDM request CHALLENGE. -/
  | challenge (via : SpdmVia) (message : Bytes)
  /-- R435. SPDM request GET_MEASUREMENTS returns signed measurements of one edition. -/
  | getMeasurements (via : SpdmVia) (index : Nat) (nonce : Bytes)
  /-- R335. SPDM KEY_EXCHANGE with mutual authentication begins a DAP session. -/
  | keyExchange (via : SpdmVia) (message : Bytes)
  /-- R335. SPDM FINISH completes the session handshake. -/
  | finish (via : SpdmVia) (message : Bytes)
  /-- R335. SPDM END_SESSION ends a DAP session. -/
  | endSession (session : Nat)
  /-- R434. SPDM HEARTBEAT within a session. -/
  | heartbeat (session : Nat)
  /-- R335. No authenticated frame arrives for the idle timeout, and the session ends. -/
  | sessionIdleTimeout (session : Nat)
  /-- R335. The Field link is lost, and every DAP session ends. -/
  | fieldLinkLoss
  /-- R338. OD 0x1020:01 = 1 takes or renews the key, or returns HELD. -/
  | keyTake (req : Requester)
  /-- R340. OD 0x1020:01 = 0 breaks the key and discards the STAGED edition. -/
  | keyRelease (req : Requester)
  /-- R339. The 2 s lease expires, the key breaks, and STAGED is discarded. -/
  | leaseExpiry
  /-- R342. Edition command 1 stages a copy of ACTIVE. -/
  | beginFromActive (req : Requester)
  /-- R342. Edition command 2 stages a copy of PREVIOUS. -/
  | beginFromPrevious (req : Requester)
  /-- R343. Edition command 3 starts validation of the STAGED edition. -/
  | validate (req : Requester)
  /-- R343. Validation ends valid or invalid, and its notice is raised. -/
  | validationDone
  /-- R342. Edition command 4 discards the STAGED edition. -/
  | discard (req : Requester)
  /-- R348. Edition command 5 confirms ACTIVE before its deadline. -/
  | confirm (req : Requester)
  /-- R345. A write of T to OD 0x7002:01 accepts a commit, and every die prepares. -/
  | commit (req : Requester) (instant : Nat)
  /-- R345. At T − 2 ms Lobby 0 collects each die's STAGED hash, failing LATE when a die is unprepared. -/
  | commitHashQuery (answers : List (Nat × HashAnswer))
  /-- R289. At T − 1 ms Lobby 0 sends go or abort to every die. -/
  | commitDecision
  /-- R345. At T every die applies the fast objects and begins quiescing the slow ones. -/
  | commitInstant
  /-- R344. The slow objects are applied and the held traffic is released. -/
  | quiesceComplete
  /-- R347. On /LM1, at acceptance plus 5 ms every object is applied under quiesce. -/
  | quiescedSwap
  /-- R348. An unconfirmed ACTIVE edition reaches its deadline and reverts to PREVIOUS. -/
  | confirmDeadline
  /-- R355. A held record's 2 µs hold ends, and it is written, or counted lost when its queue cannot be written. -/
  | recordHoldExpiry
  /-- R364. A READ of OD 0x6011:01 returns and consumes up to 32 session records. -/
  | sessionQueueRead (req : Requester)
  /-- R367. A write to OD 0x5002:02 sets the selected counter and clears its wrap bit. -/
  | counterWrite (req : Requester) (value : Nat)
  /-- R377. The Steward acts on a telemetry round: it steps VDD_WING by pace and moves the throttle stage. -/
  | telemetryRound (lobby : Nat)
  /-- R370. Every 10 ms the Steward reads each rail's voltage and current and checks for faults. -/
  | pmbusPoll (rails : List RailReading)
  /-- R372. PMB_ALERT_N asserts with a regulator fault. -/
  | pmbAlert (rail status : Nat)
  /-- R373. A die's telemetry is missing for 1 ms and its Wing voltage is raised. -/
  | telemetryLost (die : Nat)
  /-- R373. A Wing's telemetry is missing for 10 ms and the Wing is isolated. -/
  | telemetryIsolationTimeout (wing : Nat)
  /-- R374. The Steward misses a telemetry round for 10 ms, and Lobby 0 restarts it with a fallback. -/
  | stewardWatchdog
  /-- R374. The restarted Steward completes its first round and the suspension clears. -/
  | stewardRestartDone
  /-- R378. A pace ring falls below P_R and VDD_WING rises by 25 mV at once. -/
  | paceComparatorAlert (ring : PaceRing) (pace : Nat)
  /-- R384. A die reaches 115 °C, THERMTRIP_N asserts and the emergency sequence starts. -/
  | thermtrip (die : Nat)
  /-- R387. A PLL loses lock and its domain stalls or retrains. -/
  | pllLockLoss (die domain : Nat)
  /-- R387. A PLL relocks within 50 µs and traffic resumes. -/
  | pllRelock (die domain : Nat)
  /-- R387. A PLL does not relock within 50 µs, and the outcome for its domain follows. -/
  | pllRelockTimeout (die domain : Nat)
  /-- R388. The PLLs detect loss of REFCLK and hold their frequencies. -/
  | refclkLoss
  /-- R388. REFCLK returns within 1 ms and every PLL relocks. -/
  | refclkReturn
  /-- R388. REFCLK is absent for 1 ms; the guarantee is suspended and the emergency sequence runs. -/
  | refclkAbsenceTimeout
  /-- R390. A sample finds both EPD channels asserted and the emergency sequence starts. -/
  | epdEmergency
  /-- R390. One-channel disagreement reaches N samples, and an EPD fault starts the sequence. -/
  | epdFault (channel : Nat)
  /-- R390. A disagreement ends before N samples, and a discrepancy record is raised. -/
  | epdDiscrepancy
  /-- R416. VDD_AON falls below its minimum with main power on, and is handled as a rail fault losing every key. -/
  | vddAonLoss
  /-- R416. PKG_RESET_N is asserted for a cold reset and the SPI pins float. -/
  | pkgResetAssert
  /-- R427. PKG_RESET_N deasserts; the straps are sampled, the TSC starts, and boot begins. -/
  | pkgResetDeassert (nodeId bootMode : Nat)
  /-- R427. Fill ends, the edition takes force, and Wing request processing is released with Memory_Active set. -/
  | wingRelease
  /-- R436. OD 0xA003:03 = 1 erases a 64 KiB flash block. -/
  | flashErase (req : Requester)
  /-- R436. OD 0xA003:03 = 2 programs 256 bytes of flash. -/
  | flashProgram (req : Requester)
  /-- R436. A flash erase or program finishes and its result is set. -/
  | flashOpDone (ok : Bool)
  /-- R436. OD 0xA001:03 = 1 raises the fused minimum SVN to the running svn. -/
  | raiseMinSvn (req : Requester)
  /-- R433. A write to OD 0xA002:01 fuses and records the control root key. -/
  | provisionControlRoot (req : Requester) (key : Bytes)
  /-- R433. A write to OD 0xA002:02 fuses and records the customer provisioning key. -/
  | provisionKey (req : Requester) (key : Bytes)
  /-- R438. TRST_N low holds every TAP controller in Test-Logic-Reset. -/
  | tapReset
  /-- R440. TAP instruction IDCODE. -/
  | idcode (die : Nat)
  /-- R439. TAP instruction SAMPLE/PRELOAD. -/
  | samplePreload (die : Nat)
  /-- R439. TAP instruction EXTEST in die test mode. -/
  | extest (die : Nat)
  /-- R439. TAP instruction CLAMP in die test mode. -/
  | clamp (die : Nat)
  /-- R439. TAP instruction HIGHZ in die test mode. -/
  | highz (die : Nat)
  /-- R441. TAP instruction DIESTAT captures the die's present state. -/
  | diestat (die : Nat)
  /-- R451. TAP instruction FRZREAD selects a channel and captures its freeze record whole. -/
  | frzread (die sel : Nat)
  /-- R438. TAP instruction CHAIN_SEL sets which dies are in the chain from the next Run-Test/Idle. -/
  | chainSel (included : Nat)
  /-- R444. TAP instruction LOOPBACK starts a near-end or far-end Corridor loopback run. -/
  | loopback (die value : Nat)
  /-- R444. A loopback run ends with its error count and lane mask captured. -/
  | loopbackDone (die cport errors lanes : Nat)
  /-- R439. TAP instruction INTSCAN after unlock in die test mode. -/
  | intscan (die : Nat)
  /-- R439. TAP instruction MBIST after unlock in die test mode. -/
  | mbist (die : Nat)
  /-- R439. TAP instruction GAL1500 reaches a Gallery stack's IEEE 1500 port after unlock. -/
  | gal1500 (die site : Nat)
  /-- R439. TAP instruction BYPASS, including every unavailable code. -/
  | bypass (die code : Nat)
  /-- R452. A debug challenge is read, making a nonce when one is due. -/
  | dbgChal (via : DbgVia)
  /-- R453. A debug response arrives by TAP or OD 0x8020:02, and is refused or checked. -/
  | dbgResp (via : DbgVia) (response : Bytes)
  /-- R453. A debug signature passes; every key and seal is erased and unlock takes effect. -/
  | debugSignatureChecked
  /-- R453. A Wing's key store fails to acknowledge within 10 µs, and unlock is refused until cold reset. -/
  | keyEraseAckTimeout (wing : Nat)
  /-- R447. OD 0x8002 = 1 orders a Wing's isolation. -/
  | wingIsolate (req : Requester) (wing : Nat)
  /-- R448. OD 0x8002 = 2 orders a Wing's die reset, bring-up and channel re-entry. -/
  | wingReturn (req : Requester) (wing : Nat)
  /-- R10. A write to a register or entry with no row of its own takes effect as its access code allows;
  `poison`: the write's TLP carries poison (R115, R226, R301). -/
  | registerWrite (port offset value : Nat) (poison : Bool)
  /-- R392. The emergency sequence finishes: the Depot write queues have drained, every rank is in self-refresh, link ports go down and EPD_DONE_N asserts. -/
  | epdDone
  /-- R261. A Depot frequency change ends with PLL relock and self-refresh exit, and the queued requests resume. -/
  | depotFrequencyChangeDone (wing : Nat)
  /-- R318. A function becomes ready after a cold start, PERST_N or hot reset, and configuration requests stop receiving Configuration Request Retry Status. -/
  | functionReady (port : Nat)
  /-- R419. The boot ROM finishes reading and verifying a firmware slot, so firmware runs, or finds neither slot valid and the package stays in the boot-failed state. -/
  | firmwareSlotVerified (slot : Nat)
  /-- R333. The 10BASE-T1S Field link comes up and OD 0x1010:02 reads 1. -/
  | fieldLinkUp
  /-- R390. A 100 µs EPD sample finds exactly one channel asserted with n below N, and the disagreement count advances. -/
  | epdSample (channel : Nat)
  /-- R321. Main power is removed while VDD_AON stays up, and the package enters D3cold with only the listen-only wake detector running. -/
  | mainPowerRemoval
  /-- R323. Main power returns, the rails rise under PKG_RESET_N, and WAKE_N is released. -/
  | mainPowerReturn
deriving DecidableEq, Repr

end Sys2Proof
end

