-- ==== Sys2Proof/Decode.lean ====
section
/-! DEFINITION. Decoding of a table word. The rows of spec/opcode_table.json are the block's commands and give no bits
to any of them, so no word spells a command. -/

namespace Sys2Proof

/-- The command a word spells by the table's bits: the table gives none, so none. -/
def decodeTableWord (_nbits _w : Nat) : Option Instr := none

end Sys2Proof
end

