-- ==== Sys2Proof/Machine/Bits.lean ====
section
/-! DEFINITION. Byte strings, bit fields and keyed lists: the helpers every other file uses (R7, R98). -/

namespace Sys2Proof.Machine

/-- A byte from a number, modulo 256. -/
def byteOf (n : Nat) : Byte := BitVec.ofNat 8 n

/-- The value of a little-endian byte string (R7). -/
def leNat : Bytes → Nat
  | [] => 0
  | b :: bs => b.toNat + 256 * leNat bs

/-- `n` little-endian bytes of a value (R7). -/
def leBytes : Nat → Nat → Bytes
  | 0, _ => []
  | n + 1, v => byteOf v :: leBytes n (v / 256)

/-- The value of a big-endian byte string (published standards). -/
def beNat (bs : Bytes) : Nat := leNat bs.reverse

/-- `n` big-endian bytes of a value. -/
def beBytes (n v : Nat) : Bytes := (leBytes n v).reverse

/-- `n` bytes of zero. -/
def zeros (n : Nat) : Bytes := List.replicate n 0

/-- Bytes `[off, off + n)` of a string, zero beyond its end. -/
def slice (bs : Bytes) (off n : Nat) : Bytes :=
  let t := (bs.drop off).take n
  t ++ zeros (n - t.length)

/-- The little-endian field of `n` bytes at an offset. -/
def fieldAt (bs : Bytes) (off n : Nat) : Nat := leNat (slice bs off n)

/-- Replace the bytes from an offset on; the string keeps its length or grows to the end of the new bytes. -/
def setSlice (bs : Bytes) (off : Nat) (d : Bytes) : Bytes :=
  slice bs 0 off ++ d ++ bs.drop (off + d.length)

/-- Zero-pad a string to a length. -/
def padTo (n : Nat) (bs : Bytes) : Bytes := bs ++ zeros (n - bs.length)

/-- Zero-pad to a multiple of `m`. -/
def padMul (m : Nat) (bs : Bytes) : Bytes := padTo ((bs.length + m - 1) / m * m) bs

/-- Bits `lo + w - 1 : lo` of a number. -/
def bits (v lo w : Nat) : Nat := (v >>> lo) % 2 ^ w

/-- Replace bits `lo + w - 1 : lo` of a number. -/
def setBits (v lo w x : Nat) : Nat := v - (bits v lo w) * 2 ^ lo + (x % 2 ^ w) * 2 ^ lo

/-- Bit `i` of a number as a truth value. -/
def bitSet (v i : Nat) : Bool := v.testBit i

/-- Set or clear bit `i`. -/
def putBit (v i : Nat) (b : Bool) : Nat := setBits v i 1 (if b then 1 else 0)

/-- 1 for true (registers and counts). -/
def bit1 (b : Bool) : Nat := if b then 1 else 0

/-- ceil (a / b). -/
def ceilDiv (a b : Nat) : Nat := (a + b - 1) / b

/-- The numbers below 64 whose bit is set in a mask. -/
def maskList (n m : Nat) : List Nat := (List.range n).filter (bitSet m)

/-- Change every element that meets a test. -/
def updWhere {α : Type} (p : α → Bool) (f : α → α) (l : List α) : List α :=
  l.map fun x => if p x then f x else x

/-- Change the elements that meet a test, or append one when there is none. -/
def upsert {α : Type} (p : α → Bool) (f : α → α) (dflt : α) (l : List α) : List α :=
  if l.any p then updWhere p f l else l ++ [f dflt]

/-- Sum of a function over a list. -/
def sumBy {α : Type} (f : α → Nat) (l : List α) : Nat := (l.map f).sum

/-- Insert into a list ordered by a "comes before or equal" test, after the elements it does not precede. -/
def insertBy {α : Type} (le : α → α → Bool) (x : α) : List α → List α
  | [] => [x]
  | y :: ys => if le y x then y :: insertBy le x ys else x :: y :: ys

/-- Stable insertion sort. -/
def sortBy {α : Type} (le : α → α → Bool) (l : List α) : List α :=
  l.foldl (fun acc x => insertBy le x acc) []

/-- The low `8 n` bits of an integer, as bytes (two's complement). -/
def intBytes (n : Nat) (i : Int) : Bytes := leBytes n (i % (2 ^ (8 * n) : Nat)).toNat

/-- XOR of two byte strings, as long as the shorter. -/
def xorBytes (a b : Bytes) : Bytes := List.zipWith (· ^^^ ·) a b

/-- The bytes of `new` where the mask bit is set, of `old` elsewhere. -/
def mergeMask (mask : Nat) (old new : Bytes) : Bytes :=
  (List.range old.length).map fun i =>
    if bitSet mask i then new.getD i 0 else old.getD i 0

/-- The mask of all 64 bytes of a line. -/
def fullMask : Nat := 2 ^ 64 - 1

/-- Is every byte of the string zero? -/
def allZero (bs : Bytes) : Bool := bs.all (· == 0)

end Sys2Proof.Machine
end

