-- ==== Sys2Proof/Machine/Crypto.lean ====
section
/-! DEFINITION. The published functions the manual names: CRC-32C (R79), SHA-384 (R341, R165, R201, R419) and
AES-256-XTS (R86, R87). AES and SHA-384 are the standards' own (FIPS 197, FIPS 180-4, IEEE 1619; log 13). -/

namespace Sys2Proof.Machine

/-- One bit step of the reflected CRC-32C register (R79). -/
def crcStep (c : Nat) : Nat := if c % 2 = 1 then (c / 2) ^^^ 0x82F63B78 else c / 2

/-- One byte of CRC-32C. -/
def crcByte (c : Nat) (b : Byte) : Nat :=
  (List.range 8).foldl (fun c _ => crcStep c) (c ^^^ b.toNat)

/-- CRC-32C of a byte string (R79). -/
def crc32c (bs : Bytes) : Nat := (bs.foldl crcByte 0xFFFFFFFF) ^^^ 0xFFFFFFFF

/-- floor of the k-th root of n, by `fuel` bits from the top. -/
def rootAux (k n : Nat) : Nat → Nat → Nat
  | 0, acc => acc
  | b + 1, acc =>
    let t := acc + 2 ^ b
    rootAux k n b (if t ^ k ≤ n then t else acc)

/-- The first 80 primes. -/
def primes80 : List Nat :=
  ((List.range 410).filter fun n => 2 ≤ n ∧ (List.range n).all fun d => d < 2 ∨ n % d ≠ 0).take 80

/-- The round constants of SHA-384: the fraction bits of the cube roots of the primes. -/
def shaK : List Nat := primes80.map fun p => rootAux 3 (p * 2 ^ 192) 68 0 % 2 ^ 64

/-- The initial value of SHA-384: the fraction bits of the square roots of the 9th to 16th primes. -/
def shaInit : List Nat := ((primes80.drop 8).take 8).map fun p => rootAux 2 (p * 2 ^ 128) 68 0 % 2 ^ 64

/-- Rotate a 64-bit number right. -/
def rotr64 (x n : Nat) : Nat := (x >>> n) ||| ((x <<< (64 - n)) % 2 ^ 64)

/-- The message schedule, newest word first. -/
def shaSchedule : Nat → List Nat → List Nat
  | 0, ws => ws
  | n + 1, ws =>
    let a := ws.getD 14 0
    let b := ws.getD 1 0
    let s0 := rotr64 a 1 ^^^ rotr64 a 8 ^^^ (a >>> 7)
    let s1 := rotr64 b 19 ^^^ rotr64 b 61 ^^^ (b >>> 6)
    shaSchedule n (((s1 + ws.getD 6 0 + s0 + ws.getD 15 0) % 2 ^ 64) :: ws)

/-- One round over the eight working words. -/
def shaRound (v : List Nat) (kw : Nat) : List Nat :=
  match v with
  | [a, b, c, d, e, f, g, h] =>
    let s1 := rotr64 e 14 ^^^ rotr64 e 18 ^^^ rotr64 e 41
    let ch := (e &&& f) ^^^ ((2 ^ 64 - 1 - e) &&& g)
    let t1 := h + s1 + ch + kw
    let s0 := rotr64 a 28 ^^^ rotr64 a 34 ^^^ rotr64 a 39
    let maj := (a &&& b) ^^^ (a &&& c) ^^^ (b &&& c)
    [(t1 + s0 + maj) % 2 ^ 64, a, b, c, (d + t1) % 2 ^ 64, e, f, g]
  | v => v

/-- One 128-byte block. -/
def shaBlock (h : List Nat) (blk : Bytes) : List Nat :=
  let w0 := (List.range 16).map fun i => beNat (slice blk (8 * i) 8)
  let ws := (shaSchedule 64 w0.reverse).reverse
  let v := (List.zip shaK ws).foldl (fun v kw => shaRound v (kw.1 + kw.2)) h
  List.zipWith (fun a b => (a + b) % 2 ^ 64) h v

/-- SHA-384 of a byte string, as a 48-byte string. -/
def sha384 (m : Bytes) : Bytes :=
  let z := (128 - (m.length + 17) % 128) % 128
  let p := m ++ [0x80] ++ zeros z ++ beBytes 16 (8 * m.length)
  let h := (List.range (p.length / 128)).foldl (fun h i => shaBlock h (slice p (128 * i) 128)) shaInit
  (h.flatMap (beBytes 8)).take 48

/-- Double in the field of AES, GF(2^8) with 0x11B. -/
def xtime (a : Nat) : Nat := if a < 128 then 2 * a else (2 * a) ^^^ 0x11B

/-- Product in the field of AES. -/
def aesMul (a b : Nat) : Nat :=
  ((List.range 8).foldl (fun (s : Nat × Nat) i => (if b.testBit i then s.1 ^^^ s.2 else s.1, xtime s.2)) (0, a)).1

/-- a^254, the inverse in the field of AES (0 to 0). -/
def aesInv (a : Nat) : Nat :=
  let a2 := aesMul a a
  let a4 := aesMul a2 a2
  let a8 := aesMul a4 a4
  let a16 := aesMul a8 a8
  let a32 := aesMul a16 a16
  let a64 := aesMul a32 a32
  let a128 := aesMul a64 a64
  aesMul a128 (aesMul a64 (aesMul a32 (aesMul a16 (aesMul a8 (aesMul a4 a2)))))

/-- Rotate a byte left. -/
def rotl8 (a n : Nat) : Nat := ((a <<< n) ||| (a >>> (8 - n))) % 256

/-- The S-box of AES. -/
def sbox (a : Nat) : Nat :=
  let b := aesInv a
  b ^^^ rotl8 b 1 ^^^ rotl8 b 2 ^^^ rotl8 b 3 ^^^ rotl8 b 4 ^^^ 0x63

/-- The inverse S-box. -/
def sboxInv (a : Nat) : Nat := aesInv (rotl8 a 1 ^^^ rotl8 a 3 ^^^ rotl8 a 6 ^^^ 0x05)

/-- Expand a 256-bit key: the words, newest first. -/
def aesExpand : Nat → List (List Nat) → Nat → List (List Nat)
  | 0, ws, _ => ws
  | n + 1, ws, rcon =>
    let i := ws.length
    let t := ws.headD []
    let t' :=
      if i % 8 = 0 then
        match t with
        | [a, b, c, d] => [sbox b ^^^ rcon, sbox c, sbox d, sbox a]
        | t => t
      else if i % 8 = 4 then t.map sbox
      else t
    aesExpand n (List.zipWith (· ^^^ ·) t' (ws.getD 7 []) :: ws) (if i % 8 = 0 then xtime rcon else rcon)

/-- The 15 round keys of AES-256, 16 numbers each. -/
def aesKeys (key : Bytes) : List (List Nat) :=
  let k := key.map (·.toNat)
  let w0 := (List.range 8).map fun i => (k.drop (4 * i)).take 4
  let ws := (aesExpand 52 w0.reverse 1).reverse
  (List.range 15).map fun r => ((ws.drop (4 * r)).take 4).flatten

/-- XOR of two blocks of numbers. -/
def xorNats (a b : List Nat) : List Nat := List.zipWith (· ^^^ ·) a b

/-- ShiftRows by a signed step: row r moves r columns (`inv` the other way). -/
def shiftRows (inv : Bool) (s : List Nat) : List Nat :=
  (List.range 16).map fun i =>
    let r := i % 4
    let c := i / 4
    s.getD (4 * ((if inv then c + 4 - r else c + r) % 4) + r) 0

/-- MixColumns with the given first row. -/
def mixColumns (m : List Nat) (s : List Nat) : List Nat :=
  (List.range 16).map fun i =>
    let r := i % 4
    let c := i / 4
    (List.range 4).foldl (fun acc j => acc ^^^ aesMul (s.getD (4 * c + j) 0) (m.getD ((j + 4 - r) % 4) 0)) 0

/-- AES-256 encryption of one block. -/
def aesEncrypt (key blk : Bytes) : Bytes :=
  let ks := aesKeys key
  let s0 := xorNats (blk.map (·.toNat)) (ks.getD 0 [])
  let s := (List.range 13).foldl
    (fun s r => xorNats (mixColumns [2, 3, 1, 1] (shiftRows false (s.map sbox))) (ks.getD (r + 1) [])) s0
  (xorNats (shiftRows false (s.map sbox)) (ks.getD 14 [])).map byteOf

/-- AES-256 decryption of one block. -/
def aesDecrypt (key blk : Bytes) : Bytes :=
  let ks := aesKeys key
  let s0 := xorNats (blk.map (·.toNat)) (ks.getD 14 [])
  let s := (List.range 13).foldl
    (fun s r => mixColumns [14, 11, 13, 9] (xorNats ((shiftRows true s).map sboxInv) (ks.getD (13 - r) []))) s0
  (xorNats ((shiftRows true s).map sboxInv) (ks.getD 0 [])).map byteOf

/-- The tweak of the j-th AES block of a data unit: multiplied j times by x in GF(2^128). -/
def xtsAlpha (t : Nat) : Nat → Nat
  | 0 => t
  | j + 1 => xtsAlpha (if t < 2 ^ 127 then 2 * t else (2 * t) % 2 ^ 128 ^^^ 0x87) j

/-- AES-256-XTS of whole AES blocks, of which the first is block `j0` of its data unit (R87): key 1 for data in
the low half of the key, key 2 for the tweak in the high half. -/
def xts (decrypt : Bool) (key : BitVec 512) (tweak : Nat) (j0 : Nat) (data : Bytes) : Bytes :=
  let kb := leBytes 64 key.toNat
  let k1 := slice kb 0 32
  let t0 := leNat (aesEncrypt (slice kb 32 32) (leBytes 16 tweak))
  (List.range (data.length / 16)).flatMap fun i =>
    let t := leBytes 16 (xtsAlpha t0 (j0 + i))
    let x := xorBytes (slice data (16 * i) 16) t
    xorBytes (if decrypt then aesDecrypt k1 x else aesEncrypt k1 x) t

/-- One step of the AES key wrap (RFC 3394): register A and the 64-bit blocks, at step `t` on block `i`. -/
def wrapStep (kek : Bytes) (n : Nat) (s : Bytes × List Bytes) (k : Nat) : Bytes × List Bytes :=
  let i := k % n
  let b := aesEncrypt kek (s.1 ++ s.2.getD i [])
  (xorBytes (slice b 0 8) (beBytes 8 (k + 1)), s.2.set i (slice b 8 8))

/-- AES key wrap of whole 64-bit blocks under a 256-bit key (RFC 3394), as a key travels to its Wings (R240). -/
def keyWrap (kek : BitVec 256) (key : Bytes) : Bytes :=
  let n := key.length / 8
  let r := (List.range (6 * n)).foldl (wrapStep (leBytes 32 kek.toNat) n)
    (List.replicate 8 0xA6, (List.range n).map fun i => slice key (8 * i) 8)
  r.1 ++ r.2.flatten

end Sys2Proof.Machine
end

