-- ==== Sys2Proof/Machine/Coding.lean ====
section
/-! DEFINITION. The stored block and its codings: header and segment table (R69-R78), CRC (R79), MASK, MASK-EXP and
DELTA bitstreams (R97-R112), the mode choice of the compressor (R106), ingest record framing (R114). -/

namespace Sys2Proof.Machine

/-- Element size of a format (R97, R170): 2 bytes for bf16 and fp16, 4 for fp32, 1 otherwise. -/
def elemSize (fmt : Nat) : Nat := if fmt = 1 ∨ fmt = 2 then 2 else if fmt = 6 then 4 else 1

/-- Header fields (R72). -/
def hdrCoding (h : Bytes) : Nat := fieldAt h 3 1
def hdrFmt (h : Bytes) : Nat := fieldAt h 4 1
def hdrLen (h : Bytes) : Nat := fieldAt h 6 2
def hdrAnchor (h : Bytes) : Nat := fieldAt h 8 2
def hdrAnchorCrc (h : Bytes) : Nat := fieldAt h 12 4
def hdrCrc (h : Bytes) : Nat := fieldAt h 16 4
def hdrMode (h : Bytes) (s : Nat) : Nat := bits (fieldAt h 20 4) (2 * s) 2
def hdrEnd (h : Bytes) (s : Nat) : Nat := fieldAt h (32 + 2 * s) 2
def hdrStart (h : Bytes) (s : Nat) : Nat := if s = 0 then 0 else hdrEnd h (s - 1)

/-- Slots of a stored form of payload length P (R69). -/
def slotsFor (p : Nat) : Nat := ceilDiv (64 + p) 512

/-- The structural checks of a header (R76), against the catalogue's coding and slot count where there is an entry. -/
def headerSound (h : Bytes) (entry : Option (Nat × Nat)) : Bool :=
  fieldAt h 0 2 == 0xB10C && fieldAt h 2 1 == 1 &&
  (1 ≤ hdrCoding h && hdrCoding h ≤ 3) &&
  fieldAt h 5 1 == 0 && fieldAt h 10 2 == 0 && fieldAt h 24 2 == 0 && fieldAt h 26 6 == 0 &&
  (hdrCoding h == 3 || (hdrAnchor h == 0xFFFF && hdrAnchorCrc h == 0)) &&
  ((List.range 15).all fun s => hdrEnd h s ≤ hdrEnd h (s + 1)) &&
  hdrEnd h 15 == hdrLen h && hdrLen h ≤ 4096 &&
  (match entry with
   | some (c, n) => c == hdrCoding h && n == slotsFor (hdrLen h)
   | none => true)

/-- Is a mode valid for the coding and format, with that stored length (R74)? -/
def modeLengthOk (coding fmt mode len : Nat) : Bool :=
  if coding = 1 then mode = 0 ∧ len = 256
  else if mode = 0 then len = 256
  else if mode = 1 then len = 0
  else if mode = 2 then 1 ≤ len ∧ len ≤ 255
  else coding = 2 ∧ fmt = 1 ∧ 1 ≤ len ∧ len ≤ 255

/-- The CRC of a block (R79): header with its view fields and crc taken as 0, then the payload. -/
def blockCrc (h payload : Bytes) : Nat :=
  crc32c (setSlice (setSlice (setSlice h 5 [0]) 16 (zeros 4)) 24 (zeros 2) ++ payload)

/-- Expand a MASK segment (R102); `none` is damage. -/
def decodeMask (fmt : Nat) (s : Bytes) : Option Bytes :=
  let size := elemSize fmt
  let n := 256 / size
  let bm := leNat (s.take (n / 8))
  let step (st : Option (Nat × Bytes)) (e : Nat) : Option (Nat × Bytes) :=
    match st with
    | none => none
    | some (pos, out) =>
      if bm.testBit e then
        let v := (s.drop pos).take size
        if v.length < size ∨ allZero v then none else some (pos + size, out ++ v)
      else some (pos, out ++ zeros size)
  if s.length < n / 8 then none
  else
    match (List.range n).foldl step (some (n / 8, [])) with
    | some (pos, out) => if pos = s.length then some out else none
    | none => none

/-- The exponent bytes of MASK-EXP groups (R104, R105): position after them and exponents, or damage. -/
def decodeExps (s : Bytes) (v : Nat) : Nat → Nat → Nat → List Nat → Option (Nat × List Nat)
  | 0, _, pos, exps => some (pos, exps)
  | fuel + 1, k, pos, exps =>
    if k = 0 then some (pos, exps)
    else
      let m := min 16 k
      let w := fieldAt s pos 1
      let base := fieldAt s (pos + 1) 1
      let len := ceilDiv (m * w) 8
      if s.length < pos + 2 ∨ 8 < w ∨ s.length < pos + 2 + len then none
      else
        let xs := (List.range m).map fun j => base + bits v (8 * (pos + 2) + j * w) w
        if xs.any (255 < ·) then none
        else decodeExps s v fuel (k - m) (pos + 2 + len) (exps ++ xs)

/-- Expand a MASK-EXP segment (R103-R105); `none` is damage. -/
def decodeMaskExp (s : Bytes) : Option Bytes :=
  if s.length < 16 then none
  else
    let v := leNat s
    let list := (List.range 128).filter v.testBit
    let k := list.length
    match decodeExps s v 9 k 16 [] with
    | none => none
    | some (pos, exps) =>
      if pos + k ≠ s.length then none
      else
        let vals := (List.range k).map fun j =>
          let mb := fieldAt s (pos + j) 1
          (mb / 128) * 2 ^ 15 + exps.getD j 0 * 2 ^ 7 + mb % 128
        if vals.any (· == 0) then none
        else some ((List.range 128).flatMap fun e =>
          match list.idxOf? e with
          | some j => leBytes 2 (vals.getD j 0)
          | none => zeros 2)

/-- Group fields of a DELTA segment (R111): position after them and the z values, or damage. -/
def decodeGroups (len v b groups pos0 : Nat) : Option (Nat × List Nat) :=
  (List.range groups).foldl (fun st g =>
    match st with
    | none => none
    | some (pos, zs) =>
      let w := bits v (8 + 5 * g) 5
      if b < w ∨ len < pos + 2 * w then none
      else some (pos + 2 * w, zs ++ (List.range 16).map fun j => bits v (8 * pos + j * w) w)) (some (pos0, []))

/-- Decode a DELTA mode 2 segment to its deltas (R110-R112); `none` is damage. -/
def decodeDelta (fmt : Nat) (s : Bytes) : Option Bytes :=
  let size := elemSize fmt
  let b := 8 * size
  let n := 256 / size
  let groups := n / 16
  let pos0 := 1 + groups * 5 / 8
  let x := fieldAt s 0 1
  if s.length < pos0 then none
  else
    match decodeGroups s.length (leNat s) b groups pos0 with
    | none => none
    | some (pos, zs) =>
      if pos + x * (1 + size) ≠ s.length then none
      else
        let exc := (List.range x).map fun j =>
          (fieldAt s (pos + j * (1 + size)) 1, fieldAt s (pos + j * (1 + size) + 1) size)
        let ascending := (List.range (x - 1)).all fun j => (exc.getD j (0, 0)).1 < (exc.getD (j + 1) (0, 0)).1
        if !ascending || exc.any (fun p => n ≤ p.1 || zs.getD p.1 0 ≠ 0) then none
        else
          let zs' := exc.foldl (fun l p => l.set p.1 p.2) zs
          some (zs'.flatMap fun z =>
            leBytes size ((z / 2) ^^^ (if z % 2 = 1 then 2 ^ b - 1 else 0)))

/-- expanded_e = (anchor_e + d_e) mod 2^b (R109). -/
def addDelta (fmt : Nat) (anchor d : Bytes) : Bytes :=
  let size := elemSize fmt
  (List.range (256 / size)).flatMap fun e =>
    leBytes size (fieldAt anchor (e * size) size + fieldAt d (e * size) size)

/-- The stored bytes of a segment decode soundly (R77), the anchor left aside. -/
def segmentSound (h : Bytes) (payload : Bytes) (s : Nat) : Bool :=
  let mode := hdrMode h s
  let seg := slice payload (hdrStart h s) (hdrEnd h s - hdrStart h s)
  modeLengthOk (hdrCoding h) (hdrFmt h) mode seg.length &&
  (match mode with
   | 2 => if hdrCoding h = 2 then (decodeMask (hdrFmt h) seg).isSome else (decodeDelta (hdrFmt h) seg).isSome
   | 3 => (decodeMaskExp seg).isSome
   | _ => true)

/-- Expand segment s of a stored form (R26-R29, R101, R109): 256 bytes, or `none` when damaged or its anchor is
unreadable. -/
def expandSegment (h payload : Bytes) (s : Nat) (anchor : Option Bytes) : Option Bytes :=
  let mode := hdrMode h s
  let seg := slice payload (hdrStart h s) (hdrEnd h s - hdrStart h s)
  if !modeLengthOk (hdrCoding h) (hdrFmt h) mode seg.length then none
  else
    match mode with
    | 0 => some seg
    | 1 => if hdrCoding h = 3 then anchor else some (zeros 256)
    | 2 =>
      if hdrCoding h = 2 then decodeMask (hdrFmt h) seg
      else
        match anchor, decodeDelta (hdrFmt h) seg with
        | some a, some d => some (addDelta (hdrFmt h) a d)
        | _, _ => none
    | _ => decodeMaskExp seg

/-- The MASK form of a segment (R102). -/
def encodeMask (fmt : Nat) (seg : Bytes) : Bytes :=
  let size := elemSize fmt
  let n := 256 / size
  let es := (List.range n).map fun e => slice seg (e * size) size
  let bm := (List.range n).foldl (fun v e => if allZero (es.getD e []) then v else v + 2 ^ e) 0
  leBytes (n / 8) bm ++ (es.filter fun e => !allZero e).flatten

/-- Bit length of a number. -/
def bitLen (n : Nat) : Nat := if n = 0 then 0 else Nat.log2 n + 1

/-- The exponent groups of the compressor (R106): base the least exponent, width the bit length of the spread. -/
def encodeExps : Nat → List Nat → Bytes
  | 0, _ => []
  | fuel + 1, xs =>
    if xs.isEmpty then []
    else
      let g := xs.take 16
      let base := g.foldl min 255
      let w := bitLen (g.foldl max 0 - base)
      let v := (g.foldl (fun (acc : Nat × Nat) x => (acc.1 + (x - base) * 2 ^ acc.2, acc.2 + w)) (0, 0)).1
      [byteOf w, byteOf base] ++ leBytes (ceilDiv (g.length * w) 8) v ++ encodeExps fuel (xs.drop 16)

/-- The MASK-EXP form of a bf16 segment as the compressor makes it (R103, R104, R106). -/
def encodeMaskExp (seg : Bytes) : Bytes :=
  let vs := (List.range 128).map fun e => fieldAt seg (2 * e) 2
  let nz := vs.filter (· ≠ 0)
  let bm := (List.range 128).foldl (fun v e => if vs.getD e 0 = 0 then v else v + 2 ^ e) 0
  leBytes 16 bm ++ encodeExps 9 (nz.map fun v => v / 128 % 256) ++
    nz.map fun v => byteOf (v / 2 ^ 15 * 128 + v % 128)

/-- The mode choice for one segment of an ACT block (R106, rules 2 to 4). -/
def encodeAct (fmt : Nat) (seg : Bytes) : Nat × Bytes :=
  if allZero seg then (1, [])
  else
    let m := encodeMask fmt seg
    let c := if fmt = 1 ∧ (encodeMaskExp seg).length < m.length then (3, encodeMaskExp seg) else (2, m)
    if 256 ≤ c.2.length then (0, seg) else c

/-- A stored form: header and payload. -/
structure Form where
  header : Bytes
  payload : Bytes
deriving DecidableEq, Repr

/-- Build a stored form from segment modes and bytes (R72, R73, R79). -/
def mkForm (coding fmt : Nat) (segs : List (Nat × Bytes)) : Form :=
  let payload := segs.flatMap (·.2)
  let ends := (segs.foldl (fun (acc : Nat × Bytes) s =>
    (acc.1 + s.2.length, acc.2 ++ leBytes 2 (acc.1 + s.2.length))) (0, [])).2
  let modes := (segs.foldl (fun (acc : Nat × Nat) s => (acc.1 + s.1 * 4 ^ acc.2, acc.2 + 1)) (0, 0)).1
  let h0 := leBytes 2 0xB10C ++ [1, byteOf coding, byteOf fmt, 0] ++ leBytes 2 payload.length ++
    leBytes 2 0xFFFF ++ zeros 2 ++ zeros 4 ++ zeros 4 ++ leBytes 4 modes ++ zeros 8 ++ ends
  { header := setSlice h0 16 (leBytes 4 (blockCrc h0 payload)), payload := payload }

/-- The 16 segments of a block. -/
def segments (blk : Bytes) : List Bytes := (List.range 16).map fun s => slice blk (256 * s) 256

/-- The RAW form of a block (R100). -/
def rawForm (blk : Bytes) : Form := mkForm 1 0 ((segments blk).map fun s => (0, s))

/-- The ACT form of a block (R106); `none` is ZERO (R99). With a poisoned line every segment is stored in mode 0. -/
def actForm (fmt : Nat) (blk : Bytes) (poisoned : Bool) : Option Form :=
  let segs := (segments blk).map fun s => if poisoned then (0, s) else encodeAct fmt s
  if !poisoned && segs.all (·.1 == 1) then none else some (mkForm 2 fmt segs)

/-- Slots of a form. -/
def Form.slots (f : Form) : Nat := slotsFor f.payload.length

/-- The run's plaintext: header, payload, zero padding to whole slots (R69, R70). -/
def Form.bytes (f : Form) : Bytes := padTo (512 * f.slots) (f.header ++ f.payload)

/-- The header the compressed view makes for a ZERO block (R91). -/
def zeroHeader (fmt : Nat) : Bytes :=
  leBytes 2 0xB10C ++ [1, 0, byteOf fmt, 1] ++ zeros 2 ++ leBytes 2 0xFFFF ++ zeros 54

/-- The length of the ingest record at the front of a stream, when its fields give one (R114, check 2 of R115). -/
def recordLength (s : Bytes) : Option Nat :=
  if fieldAt s 0 2 ≠ 0xC51A ∨ fieldAt s 2 1 ≠ 1 ∨ 1 < fieldAt s 3 1 ∨ fieldAt s 6 2 ≠ 0 ∨ s.length < 16 then none
  else if fieldAt s 3 1 = 1 then some 16
  else
    let h := slice s 16 64
    let n := 16 + 64 * ceilDiv (64 + hdrLen h) 64
    if s.length < n ∨ fieldAt h 0 2 ≠ 0xB10C ∨ fieldAt h 2 1 ≠ 1 ∨ 4096 < hdrLen h then none
    else if !allZero (slice s (80 + hdrLen h) (n - 80 - hdrLen h)) then none
    else some n

end Sys2Proof.Machine
end

