-- ==== Sys2Proof/Machine/LineCode.lean ====
section
/-! DEFINITION. The codes of storage: the per-byte SRAM code (R212-R215), the Gallery and Depot line codes over
GF(2^8) (R217-R221), and the poison syndrome of each (R213, R227). -/

namespace Sys2Proof.Machine

/-- What a decoder finds (R213, R218, R221). -/
inductive Found where
  | clean | corrected | uncorrectable | poison
deriving DecidableEq, Repr

/-- Parity of the bits of a number below 2^16. -/
def parity (n : Nat) : Bool := (List.range 16).foldl (fun p i => xor p (n.testBit i)) false

/-- The check bits c0-c3 of a data byte (R212), as a number with c0 in bit 0. -/
def hamming4 (d : Nat) : Nat :=
  bit1 (parity (d &&& 0b01011011)) + 2 * bit1 (parity (d &&& 0b01101101)) +
  4 * bit1 (parity (d &&& 0b10001110)) + 8 * bit1 (parity (d &&& 0b11110000))

/-- The 5-bit check field of a data byte (R212). -/
def sramCheck (b : Byte) : Nat :=
  let h := hamming4 b.toNat
  h + 16 * bit1 (xor (parity b.toNat) (parity h))

/-- The data bit whose Hamming position a syndrome names, if any (R212): positions 3, 5, 6, 7, 9-12. -/
def hammingData (s : Nat) : Option Nat :=
  match s with
  | 3 => some 0 | 5 => some 1 | 6 => some 2 | 7 => some 3
  | 9 => some 4 | 10 => some 5 | 11 => some 6 | 12 => some 7
  | _ => none

/-- Read a stored byte and its check field (R213): the outcome and the byte delivered. -/
def sramRead (b : Byte) (f : Nat) : Found × Byte :=
  let s := (f % 16) ^^^ hamming4 b.toNat
  let p := xor (parity b.toNat) (parity (f % 32))
  if !p then (if s = 0 then (.clean, b) else (.uncorrectable, b))
  else if s = 15 then (.poison, b)
  else if s ≤ 12 then
    (.corrected, match hammingData s with | some i => b ^^^ byteOf (2 ^ i) | none => b)
  else (.uncorrectable, b)

/-- Check fields of bytes stored clean, or with the poison syndrome (R213, R215). -/
def sramStore (poison : Bool) (bs : Bytes) : List Nat :=
  bs.map fun b => if poison then sramCheck b ^^^ 0x1F else sramCheck b

/-- The worst outcome over the stored bytes of a line (R216), with the delivered bytes. -/
def sramReadLine (bs : Bytes) (fs : List Nat) : Found × Bytes :=
  let rs := List.zipWith sramRead bs fs
  let worst (f : Found) := rs.any fun r => r.1 == f
  (if worst .uncorrectable then .uncorrectable else if worst .poison then .poison
   else if worst .corrected then .corrected else .clean, rs.map (·.2))

/-- Product in GF(2^8) with x^8 + x^4 + x^3 + x^2 + 1 (R217). -/
def gfMul (a b : Nat) : Nat :=
  ((List.range 8).foldl (fun (s : Nat × Nat) i =>
    (if b.testBit i then s.1 ^^^ s.2 else s.1,
     if s.2 < 128 then 2 * s.2 else (2 * s.2) ^^^ 0x11D)) (0, a)).1

/-- alpha^n. -/
def gfPow : Nat → Nat
  | 0 => 1
  | n + 1 => gfMul (gfPow n) 2

/-- The four check symbols of data symbols d_0, d_1, ... (R217): the remainder by g(x) = (x+1)(x+a)(x+a^2)(x+a^3)
= x^4 + 0x0F x^3 + 0x36 x^2 + 0x78 x + 0x40, highest degree first. -/
def rsCheck (data : Bytes) : Bytes :=
  (data.foldl (fun (r : List Nat) d =>
    match r with
    | [r3, r2, r1, r0] =>
      let f := d.toNat ^^^ r3
      [r2 ^^^ gfMul f 0x0F, r1 ^^^ gfMul f 0x36, r0 ^^^ gfMul f 0x78, gfMul f 0x40]
    | r => r) [0, 0, 0, 0]).map byteOf

/-- The j-th syndrome: the codeword polynomial at alpha^j. -/
def syndrome (word : Bytes) (j : Nat) : Nat :=
  word.foldl (fun s c => gfMul s (gfPow j) ^^^ c.toNat) 0

/-- Decode one codeword, data symbols then 4 check symbols (R217, R227): one symbol corrected, the poison syndrome
(0, 0, 0, s) recognised as 0x9F exactly, every other nonzero syndrome uncorrectable. -/
def rsDecode (word : Bytes) : Found × Bytes :=
  let s0 := syndrome word 0
  let s1 := syndrome word 1
  let s2 := syndrome word 2
  let s3 := syndrome word 3
  if s0 = 0 ∧ s1 = 0 ∧ s2 = 0 ∧ s3 = 0 then (.clean, word)
  else if s0 = 0 ∧ s1 = 0 ∧ s2 = 0 ∧ s3 = 0x9F then (.poison, word)
  else
    match (List.range word.length).find? fun i =>
      let a := gfPow (word.length - 1 - i)
      s0 ≠ 0 ∧ s1 = gfMul s0 a ∧ s2 = gfMul s1 a ∧ s3 = gfMul s2 a with
    | some i => (.corrected, word.set i (word.getD i 0 ^^^ byteOf s0))
    | none => (.uncorrectable, word)

/-- Data symbols in one codeword of a tier: 32 on the Gallery, 16 on the Depot (R217, R221). -/
def codeK (depot : Bool) : Nat := if depot then 16 else 32

/-- Check bytes of a line: 16 on the Depot, 8 on the Gallery (R217, R221). -/
def checkLen (depot : Bool) : Nat := if depot then 16 else 8

/-- The check bytes of a 64-byte line (R217, R221). -/
def lineCheck (depot : Bool) (data : Bytes) : Bytes :=
  let k := codeK depot
  (List.range (64 / k)).flatMap fun m => rsCheck (slice data (k * m) k)

/-- Decode a stored line (R218, R221): outcome and delivered bytes. An uncorrectable codeword decides the line
before a poisoned one does (R227: a further error in a poisoned line reads as uncorrectable, and still as poison). -/
def lineDecode (depot : Bool) (data check : Bytes) : Found × Bytes :=
  let k := codeK depot
  let rs := (List.range (64 / k)).map fun m => rsDecode (slice data (k * m) k ++ slice check (4 * m) 4)
  let any (f : Found) := rs.any fun r => r.1 == f
  (if any .uncorrectable then .uncorrectable else if any .poison then .poison
   else if any .corrected then .corrected else .clean, rs.flatMap fun r => r.2.take k)

/-- The poison pattern on the check symbols of every codeword (R227). -/
def poisonPattern (depot : Bool) : Bytes :=
  (List.replicate (64 / codeK depot) [0x01, 0x07, 0x0E, 0x08]).flatten

/-- A poisoned line as stored: zero data, the pattern as check bytes (R227). -/
def poisonLine (depot : Bool) : Bytes × Bytes := (zeros 64, poisonPattern depot)

end Sys2Proof.Machine
end

