-- ==== Sys2Proof/Config.lean ====
section
/-! DEFINITION. What the model leaves free: constants and functions without a body, about which nothing can be
proved. A free value is drawn by applying one of them to `State.fresh`, a counter the draw advances (log 1). -/

namespace Sys2Proof.Config

/-- The two 256-bit halves of a key made by the root of trust (R240, R241), and every other value of the DRBG. -/
opaque freeKey : Nat → BitVec 512

/-- The wrapping key two dies agree at a bring-up of their Corridor link (R240, R283). -/
opaque freeWrap : Nat → BitVec 256

/-- The fixed delay with which a die forwards time-sync toward a far die, in ns (R290). -/
opaque forwardDelay : Nat → Nat

/-- A nonce, seal or identifier made by the root of trust (R423, R452, R335). -/
opaque freeNonce : Nat → BitVec 256

/-- The slot at which the allocator starts its choice of a free run: the spec leaves which run open (R247). -/
opaque freeSlot : Nat → Nat

/-- Bytes the spec leaves open: PHY status words (R265), customer layout outputs (R165), DER certificates. -/
opaque freeByte : Nat → BitVec 8

/-- A number the spec leaves open, such as a retry hint's estimate (R428) or a progress figure (R322). -/
opaque freeNat : Nat → Nat

/-- Device identity that Barlon fixes and the manual does not give (R299, R432, R437, R440). -/
opaque vendorId : BitVec 16
opaque stepping : BitVec 8
opaque serial : BitVec 64
opaque macAddress : BitVec 48
opaque jedecId : BitVec 11
opaque romKey : Nat → Nat → BitVec 8
opaque dieCertificate : Nat → Nat → BitVec 8
opaque bootRomDigest : BitVec 384

/-- Does an SPDM request verify in its transcript (R335, R434), for KEY_EXCHANGE with the control root's hash? -/
opaque spdmVerifies : Nat → List (BitVec 8) → Bool

/-- The body of an SPDM response to a message (R434): the standard's and the keys' own. -/
opaque spdmResponse : Nat → List (BitVec 8) → List (BitVec 8)

/-- The interior of a layout that is not one of the library: the byte it writes (R165, its interior not described). -/
opaque layoutOutput : Nat → List (BitVec 8) → Nat → BitVec 8

/-- Bytes of Barlon's default images (R203), of CDAT and of the Command Effects Log, whose interiors the manual
does not give. -/
opaque defaultImage : Nat → List (BitVec 8)
opaque effectsLog : List (BitVec 8)

/-- Which program numbers the default programs of R203 have: the spec gives none. -/
opaque programBase : Nat
opaque programStride : Nat

/-- A byte of test pattern `p` (R197, R204) by line and byte: the spec names the patterns and not their phase. -/
opaque testPattern : Nat → Nat → Nat → BitVec 8

/-- A word of the delay and timing sets held in the package for a channel (R256), by Wing, selector and word. -/
opaque packageSet : Nat → Nat → Nat → Nat

/-- Barlon's timing words for an RDIMM as its SPD reports it (R430), by capacity code and word. -/
opaque moduleTiming : Nat → Nat → Nat

/-- The unit text of a dictionary entry by index and subindex: byte i of 16 (R328 gives the field, no chapter its text). -/
opaque unitByte : Nat → Nat → Nat → BitVec 8

/-- The SPI flash before anything is programmed into it (R418). -/
opaque flashByte : Nat → BitVec 8

end Sys2Proof.Config
end

