-- ==== Sys2Proof/Machine/State.lean ====
section
/-! DEFINITION. The state of the package, as plain data. One sub-structure per chapter of the manual; lists keyed
by the numbers the manual uses (port, Wing, die code, collection, channel selector). -/

namespace Sys2Proof.Machine

/-- The assemblies of R1. -/
inductive Assembly where
  | gw1204 | gw1404 | gw2404 | gw2408
deriving DecidableEq, Repr

/-- The tier of a catalogue entry (R83): none is ZERO. -/
inductive Tier where
  | none | gallery | depot | lost
deriving DecidableEq, Repr

/-- A fault of the model. Nothing in the manual stops the block: errors are next states. Raised by nothing. Safe. -/
inductive Fault where
  /-- Raised by no command: the block has no stop of its own in the manual. Safe. -/
  | unreachable
deriving DecidableEq, Repr

/-- A refusal of the model. -/
inductive Refusal where
  /-- Raised by an arm of exec whose command has no meaning yet. Safe. -/
  | notModelled (mnemonic : String)
deriving DecidableEq, Repr

/-- Package-wide facts, straps, pins and start (R1-R5, R415-R431, R437). -/
structure Pkg where
  asm : Assembly
  mark : Nat
  dimms : Nat
  dimmCode : Nat
  nodeId : Nat
  bootMode : Nat
  mainPower : Bool
  aon : Bool
  aonKept : Bool
  inReset : Bool
  start : Nat
  phase : Nat
  bootLost : Nat
  bootStatus : Nat
  fwSlot : Nat
  fwRunning : Bool
  slotsTried : List Nat
  releaseMs : Nat
  bootFailed : Bool
  primary : Nat
  wake : Bool
  thermtrip : Bool
  epdDone : Bool
  fieldLink : Bool
  galleryFset : Nat
  absent : Nat
  masterLost : Bool
  bridgeDown : Bool
deriving DecidableEq, Repr

/-- A die (R17): presence, service (R25, R446-R448), time (R352, R353), telemetry, voltage and pace (R369-R379: `rings` holds the
readings of a Wing's 8 pace rings, `power` the estimate in uW of each of its rails),
the seal of its always-on domain (R423), and a cache tag found uncorrectable in both copies (R216). -/
structure Die where
  code : Nat
  present : Bool
  inService : Bool
  isoState : Nat
  isoCause : Nat
  reachable : Bool
  offset : Int
  latestE : Int
  slew : Int
  skewHigh : Bool
  uncertain : Bool
  lastSync : Nat
  temp : Int
  vdd : Nat
  vddHold : Bool
  rings : List Nat
  goodRounds : Nat
  paceLow : Bool
  paceShort : Bool
  power : List (Nat × Nat)
  lastTelemetry : Nat
  telemetryLost : Bool
  hash : Nat
  sealWord : Option Nat
  lastBeat : Nat
  tagFault : Bool
deriving DecidableEq, Repr

/-- One value of an edition (R341): entry, object of its scope, value. -/
structure EdVal where
  idx : Nat
  sub : Nat
  obj : Nat
  val : Bytes
deriving DecidableEq, Repr

/-- An edition (R341): its number and the entries that do not hold their default, ascending. -/
structure Edition where
  num : Nat
  vals : List EdVal
deriving DecidableEq, Repr

/-- A requester's cursors (R327). -/
structure Cursors where
  owner : Nat
  port : Nat
  coll : Nat
  seq : Nat
  chan : Nat
  corridor : Nat
  wing : Nat
  job : Nat
  docent : Nat
deriving DecidableEq, Repr

/-- A record (R356). -/
structure Rec where
  type : Nat
  uncertain : Bool
  coalesced : Bool
  late : Bool
  cleared : Bool
  source : Nat
  coll : Nat
  tsc : Nat
  payload : Bytes
  count : Nat
deriving DecidableEq, Repr

/-- A receiver of a record (R359): queue q of a port's function, or a DAP session's queue. -/
inductive Recv where
  | hostQueue (port q : Nat)
  | session (id : Nat)
deriving DecidableEq, Repr

/-- A record held until 2 us after its TSC (R355), with the receivers its selection named when it was raised. `rank` orders
records of one TSC: the source, or that of the count notice the record follows (R35). -/
structure HeldRec where
  body : Rec
  dest : List Recv
  rank : Nat
deriving DecidableEq, Repr

/-- A DAP session (R335, R336, R364). -/
structure Session where
  id : Nat
  opened : Bool
  last : Nat
  reply : Option (Nat × Bytes)
  idleFrom : Nat
  filter : Nat
  queue : List Rec
  lost : Nat
deriving DecidableEq, Repr

/-- Who holds the key (R338). -/
inductive Holder where
  | free | host | session (id : Nat)
deriving DecidableEq, Repr

/-- The key, the editions and the commit engine (R338-R348): `quiesced` names the collections whose traffic is held
(R344), `heldReqs` the link requests held meanwhile, oldest first, `newKeys` the keys that an accepted commit has generated for the
collections it creates (R240, R345). -/
structure EdState where
  active : Edition
  previous : Option Edition
  staged : Option Edition
  stagedState : Nat
  reason : Nat
  failIdx : Nat
  failSub : Nat
  failObj : Nat
  confirmed : Bool
  deadline : Nat
  instant : Nat
  accepted : Nat
  phase : Nat
  decision : Nat
  decisionDie : Nat
  lastCommit : Nat
  failure : Nat
  incoming : Option Edition
  quiescing : Bool
  reverting : Bool
  holder : Holder
  lease : Nat
  cursors : List Cursors
  sessions : List Session
  quiesced : List Nat
  heldReqs : List Instr
  newKeys : List (Nat × BitVec 512)
deriving DecidableEq, Repr

/-- A catalogue entry (R83). `origin` is the block whose tweak encrypts the form (R159). Unlisted blocks are ZERO. -/
structure CatEntry where
  coll : Nat
  wing : Nat
  blk : Nat
  tier : Tier
  coding : Nat
  slot : Nat
  slots : Nat
  copySlot : Option Nat
  site : Nat
  segDamage : Nat
  hdrDamage : Bool
  crcFailed : Bool
  crc : Nat
  origin : Nat
deriving DecidableEq, Repr

/-- A run of slots whose reuse is deferred (R84). -/
structure Run where
  wing : Nat
  tier : Tier
  site : Nat
  slot : Nat
  slots : Nat
deriving DecidableEq, Repr

/-- Bytes of an SRAM place under the per-byte code (R210, R212): the stored bytes and their 5-bit check fields. -/
structure Sram where
  data : Bytes
  check : List Nat
deriving DecidableEq, Repr

/-- A line of a home partition (R51, R212-R215): bytes with their check fields, which bytes are valid, dirty, the
tag's poison bit, held for a frozen channel (R264), an expanded ACT block's line, last use. `queued` says that the line's
write-back waits in its channel's write queue (R264), `hdr` that the place holds the header of the block of `line` (R26).
`tagA` and `tagB` are the two copies of the tag (R216). -/
structure CacheLine where
  coll : Nat
  wing : Nat
  line : Nat
  data : Bytes
  check : List Nat
  valid : Nat
  dirty : Bool
  poison : Bool
  held : Bool
  expanded : Bool
  used : Nat
  queued : Bool
  hdr : Bool
  tagA : Sram
  tagB : Sram
deriving DecidableEq, Repr

/-- A write waiting in the write-merge buffer, under the cache's check bits (R32, R210). `covers` says that one write
covered all 64 bytes (R34). -/
structure MergeEntry where
  coll : Nat
  wing : Nat
  line : Nat
  data : Bytes
  check : List Nat
  mask : Nat
  poison : Bool
  covers : Bool
deriving DecidableEq, Repr

/-- Who waits for a line (R164, R226): a link port, a running job's operand, a Mover engine. -/
inductive Waiter where
  | port (p : Nat)
  | job (num operand offset : Nat)
  | mover (port engine : Nat) (addr : Nat)
  | loan (borrower : Nat)
deriving DecidableEq, Repr

/-- Where a read stands (R250, R400): waiting at the Wing's ingress for a queue entry, in its channel's queue, or issued
to the DRAM. -/
inductive ReadStage where
  | ingress | queued | issued
deriving DecidableEq, Repr

/-- A read waiting for its channel, with the entry it has read (R26, R84). `view` names a payload line of the
compressed view; otherwise `line` is a line of the catalogue's blocks. `merged` holds the bytes written before the read
reached the Wing and not yet stored, where `mergedMask` is set (R30). `sel` is the channel, `places` the banks and rows of
the lines it needs, `at_` the TSC of its arrival (R251, R252). `got` holds the bytes and poison the read has fetched ahead of a
store in place that arrived after it (R30). -/
structure PendRead where
  id : Nat
  coll : Nat
  wing : Nat
  line : Nat
  view : Option Nat
  entry : CatEntry
  cls : Nat
  waiter : Waiter
  merged : Bytes
  mergedMask : Nat
  sel : Nat
  places : List (Nat × Nat)
  at_ : Nat
  stage : ReadStage
  got : Option (Bytes × Bool)
deriving DecidableEq, Repr

/-- A write whose completion waits for its Depot copy or for recalls (R32, R286). -/
structure PendWrite where
  id : Nat
  coll : Nat
  wing : Nat
  line : Nat
  depot : Bool
  waiter : Waiter
deriving DecidableEq, Repr

/-- A Wing lot (R122, R127, R135): its tier, heat and command pin (`some true` Gallery). -/
structure Lot where
  coll : Nat
  wing : Nat
  lot : Nat
  gallery : Bool
  heat : Nat
  pin : Option Bool
deriving DecidableEq, Repr

/-- A decided move of a Wing lot (R129, R131). `next` is the Wing-local block it has come to; `only` lists the blocks of a return
of displaced ones (R128), and is empty for a whole lot. -/
structure Move where
  coll : Nat
  wing : Nat
  lot : Nat
  toGallery : Bool
  pinMove : Bool
  started : Bool
  next : Nat
  only : List Nat
deriving DecidableEq, Repr

/-- The collection's state in force (R47, R55). -/
structure CollState where
  coll : Nat
  wingSet : Nat
  guarded : Bool
  overfull : Bool
  held : Bool
deriving DecidableEq, Repr

/-- A command (R57, R58, R146): bytes 55:0, status, detail, result, the order of acceptance. `undo` lists the Wing lots whose command
pin a PENDING PIN has set, each with the pin it had (R62). -/
structure Cmd where
  coll : Nat
  src : CmdSrc
  bytes : Bytes
  status : Nat
  detail : Nat
  result : Nat
  order : Nat
  forwarded : Bool
  undo : List (Nat × Nat × Option Bool)
deriving DecidableEq, Repr

/-- A coalescing window (R35): record kind, the object it is kept for, its start, the events suppressed and the
fields of the last one. -/
structure Window where
  kind : Nat
  obj : Nat
  start : Nat
  count : Nat
  last : Rec
  scope : Nat
deriving DecidableEq, Repr

/-- A token bucket (R398): the exact bytes of tokens held at the TSC `last`. An unlisted bucket is full. -/
structure Bucket where
  coll : Nat
  wing : Nat
  read : Bool
  tokens : Rat
  last : Nat
deriving DecidableEq, Repr

/-- The life of an extent at a port (R45, R297). -/
inductive ExtState where
  | offerWaiting | offered | accepted | releaseWaiting | releasing
deriving DecidableEq, Repr

/-- An extent of a port (R43, R89). `handle` numbers it; `deadline` is its release timeout in ms while it waits for release
and the TSC of its removal once its Release event is in the log; `shut` says that a link loss unmapped it, `dead` that its collection
was destroyed (R39, R45). -/
structure Extent where
  port : Nat
  coll : Nat
  view : Bool
  region : Nat
  offset : Nat
  length : Nat
  st : ExtState
  deadline : Nat
  handle : Nat
  shut : Bool
  dead : Bool
deriving DecidableEq, Repr

/-- A record of the Dynamic Capacity event log (R296): of the extent numbered `ext`. -/
structure DcEvent where
  port : Nat
  coll : Nat
  view : Bool
  add : Bool
  ext : Nat
  handle : Nat
deriving DecidableEq, Repr

/-- A live sequence (R143, R149, R152). -/
structure Seq where
  coll : Nat
  num : Nat
  depth : Nat
  parent : Option Nat
  held : Nat
deriving DecidableEq, Repr

/-- A fork under way (R152-R156): its children's windows are reserved until it ends. `waits` lists the Wings that its instant has
reached and that a frozen channel or their isolation holds up (R156). -/
structure ForkJob where
  coll : Nat
  src : CmdSrc
  parent : Nat
  first : Nat
  count : Nat
  token : Nat
  wingsLeft : List Nat
  waits : List Nat
deriving DecidableEq, Repr

/-- A loaned line at its borrower (R285), under the cache's check bits (R210). -/
structure Loan where
  borrower : Nat
  coll : Nat
  line : Nat
  data : Bytes
  check : List Nat
  poison : Bool
  used : Nat
deriving DecidableEq, Repr

/-- An entry of a home Wing's loan directory (R286). -/
structure LoanDir where
  coll : Nat
  line : Nat
  borrowers : List Nat
  lent : Nat
deriving DecidableEq, Repr

/-- A loan message under way on a loan stream (R285, R286). -/
structure LoanMsg where
  kind : Nat
  borrower : Nat
  coll : Nat
  line : Nat
  data : Bytes
  poison : Bool
deriving DecidableEq, Repr

/-- A key in a Wing's key store (R240); the reserve key has number 0x1000 (R241). -/
structure KeyEntry where
  coll : Nat
  wing : Nat
  key : BitVec 512
deriving DecidableEq, Repr

/-- Bytes an ingest carrier has delivered and not yet parsed (R114, R115), the first at the address `addr` of the carrier; `bad` lists
the poisoned lines of the carrier (R313), `whole` says that nothing more arrives, `dropped` that the rest of the transfer is
discarded. -/
structure IngestStream where
  carrier : Carrier
  coll : Nat
  bytes : Bytes
  addr : Nat
  bad : List Nat
  refused : Nat
  accepted : Nat
  whole : Bool
  dropped : Bool
deriving DecidableEq, Repr

/-- The storage of the Wings. `allocs` holds the runs a docent's SALLOC took that no entry names yet (R197), with their
collection; `served` the collection whose lot each Wing moved last (R129), `periodAt` the TSC of the last heat period's end (R127). -/
structure MemState where
  dram : List Host.Cell
  cat : List CatEntry
  deferred : List Run
  allocs : List (Nat × Run)
  cache : List CacheLine
  wmb : List MergeEntry
  reads : List PendRead
  writes : List PendWrite
  lots : List Lot
  moves : List Move
  colls : List CollState
  cmds : List Cmd
  windows : List Window
  buckets : List Bucket
  extents : List Extent
  dcLog : List DcEvent
  dcWait : List DcEvent
  seqs : List Seq
  forks : List ForkJob
  loans : List Loan
  loanDir : List LoanDir
  loanMsgs : List LoanMsg
  keys : List KeyEntry
  ingest : List IngestStream
  writingBack : Nat
  served : List (Nat × Nat)
  periodAt : Nat
deriving DecidableEq, Repr

/-- The flip registers of a channel (R235). -/
structure Flip where
  ctl : Nat
  addr : Nat
  sel0 : Nat
  sel1 : Nat
deriving DecidableEq, Repr

/-- A write in a channel's write queue (R250, R252): its line, the stored bytes it carries, its class and arrival, and the
block on whose behalf it is stored. -/
structure QWrite where
  id : Nat
  addr : Nat
  data : Bytes
  check : Bytes
  cls : Nat
  at_ : Nat
  coll : Nat
  blk : Option Nat
deriving DecidableEq, Repr

/-- A command a channel issued (R265): TSC, kind (0 read, 1 write, 2 refresh, 3 power-down or self-refresh entry), line. -/
structure ChanCmd where
  tsc : Nat
  kind : Nat
  addr : Nat
deriving DecidableEq, Repr

/-- A channel (R244, R258, R263-R268). `wq` is its write queue, `drain` says that writes take precedence (R251), `rows`
holds the open row of each bank, `hits` the bank of the last accesses and how many of them were row hits on end, `log` its
last 64 commands, `idleFrom` the TSC of the last access to each rank (R262), `winEnd` the number of the last window of R224 that ended. `walk` is the line the scrub walk is at (R230, R243); `regs` holds the delay and timing registers by offset in the channel's block. -/
structure Chan where
  wing : Nat
  sel : Nat
  st : Nat
  band : Nat
  fset : Nat
  epoch : Nat
  trigger : Nat
  freezes : Nat
  progress : Nat
  lastFlip : Option Nat
  walk : Nat
  regs : List (Nat × Nat)
  flip : Flip
  record : Option Bytes
  winCorrected : Nat
  overRate : Bool
  temp : Int
  pendingBand : Option Nat
  postponed : List (Nat × Nat)
  poweredDown : List Nat
  selfRefresh : Bool
  sealWord : Option Nat
  wq : List QWrite
  drain : Bool
  rows : List (Nat × Nat)
  hits : Nat × Nat
  log : List ChanCmd
  idleFrom : List (Nat × Nat)
  winEnd : Nat
deriving DecidableEq, Repr

/-- The split-write window and catalogue selector of a Wing (R238, R449). -/
structure Split where
  wing : Nat
  addr : Nat
  sel : Nat
  result : Nat
  data : Bytes
  check : Bytes
  scheck : Bytes
  catSel : Nat
  sram : List (Nat × Bytes × Bytes)
deriving DecidableEq, Repr

/-- An operand descriptor of a job (R169). -/
structure Operand where
  coll : Nat
  access : Nat
  fmt : Nat
  offset : Nat
  length : Nat
deriving DecidableEq, Repr

/-- A line a job's stream has read, in its stream buffer (R164, R210): operand, byte offset in the operand, bytes with their check
fields, poison. -/
structure JobLine where
  operand : Nat
  offset : Nat
  data : Bytes
  check : List Nat
  poison : Bool
deriving DecidableEq, Repr

/-- A job (R168-R180). `ending` holds the final status and detail of a stopped job whose writes still wait (R178). -/
structure Job where
  num : Nat
  wing : Nat
  coll : Nat
  layout : Nat
  header : Bytes
  ticket : Nat
  event : Bool
  paramOffset : Nat
  operands : List Operand
  args : Bytes
  homeOnly : Bool
  timeLimit : Nat
  tiles : List Nat
  streams : Nat
  bandwidth : Nat
  clearing : Bool
  started : Nat
  lines : List JobLine
  written : List (Nat × Nat)
  poisoned : Nat
  crcFails : Nat
  status : Nat
  ending : Option (Nat × Nat)
deriving DecidableEq, Repr

/-- A tile of a Wing (R163, R176): the collection whose job used it last, the job that holds it, the lines of its SRAM (a line not
listed is zero with valid check bits) and the contents of its vector registers. -/
structure Tile where
  wing : Nat
  idx : Nat
  last : Option Nat
  job : Option Nat
  sram : List (Nat × Sram)
  vec : Bytes
deriving DecidableEq, Repr

/-- The Workbench. -/
structure WbState where
  jobs : List Job
  ended : List Job
  tiles : List Tile
  admissions : List (Nat × Nat)
deriving DecidableEq, Repr

/-- A RUNCOPY copy (R197). -/
structure Copy where
  handle : Nat
  src : Nat
  dst : Nat
  count : Nat
  status : Nat
  done : Bool
deriving DecidableEq, Repr

/-- A channel or catalogue instruction under way: destination register and the status word it ends with; the Wing, channel, address
and lines an LFILL has still to write (R193). -/
structure PendOp where
  dest : Nat
  status : Word64
  fill : Option (Nat × Nat × Nat × Nat)
deriving DecidableEq, Repr

/-- A docent context (R193, R195): registers, program counter, line buffer (words by index, under the SRAM code of R210; unlisted
are 0), the trigger and argument that started a handler, and the blocks its verify pass has checked and found bad (R207). `native`
names the default program of R203 that runs. -/
structure CtxState where
  running : Bool
  prog : Nat
  image : Bytes
  params : List Word64
  isRole : Bool
  suspended : Bool
  regs : List Word64
  pc : Nat
  buf : List (Nat × Sram)
  waitUntil : Option Nat
  op : Option PendOp
  copyWait : Option Nat
  copies : List Copy
  nextHandle : Nat
  sinceWait : Nat
  trig : Nat
  arg : Nat
  checked : Nat
  failed : Nat
  native : Option Nat
deriving DecidableEq, Repr

/-- A docent (R189, R209). `point` is the sweep point index OD 0x4130:01; `roleDue` says that a role bound to it starts when context
A is free (R192, R194). -/
structure Docent where
  id : Nat
  p : CtxState
  a : CtxState
  fault : Nat
  roleFaulted : Bool
  stopped : Bool
  sweep : List Nat
  point : Nat
  roleDue : Bool
deriving DecidableEq, Repr

/-- A waiting trigger (R192, R193). -/
structure Trigger where
  die : Nat
  code : Nat
  arg : Nat
  prio : Nat
  target : Option Nat
deriving DecidableEq, Repr

/-- The docents. -/
structure DocState where
  docents : List Docent
  triggers : List Trigger
deriving DecidableEq, Repr

/-- A message part of one flit that waits for its slot (R273): its stream, the payload offset of the first message that starts in
it, and the slots it has waited. -/
structure CorMsg where
  stream : Nat
  first : Nat
  payload : Bytes
  waited : Nat
deriving DecidableEq, Repr

/-- A Corridor port (R271-R283, R444), its buffers under the SRAM code (R210). `sendq` holds what waits to be sent, `served` the
stream last sent in the round robin of R273, `wrap` the wrapping key of R240. -/
structure CPort where
  die : Nat
  idx : Nat
  st : Nat
  version : Nat
  features : Nat
  bound : Nat
  nextSeq : Nat
  oldest : Nat
  replay : List Sram
  expect : Nat
  sinceAck : Nat
  ackFrom : Option Nat
  nakUntil : Option Nat
  dupRun : Bool
  stalled : Nat
  timerFrom : Nat
  retrainFails : Nat
  lostAt : Option Nat
  helloTries : Nat
  credits : List Nat
  delivered : List (Nat × Sram)
  loopback : Nat
  inLoopback : Bool
  sendq : List CorMsg
  served : Nat
  wrap : Option (BitVec 256)
deriving DecidableEq, Repr

/-- An event queue's registers (R305, R360, R363). -/
structure EventQueue where
  base : Nat
  size : Nat
  enable : Bool
  vector : Nat
  moderation : Nat
  tail : Nat
  head : Nat
  shadow : Nat
  filter : Nat
  lost : Nat
  lastMsg : Option Nat
  deferred : Bool
deriving DecidableEq, Repr

/-- A Mover engine's slot (R308) with the descriptor it runs (R309). `dirty` marks an ABORTED status to be
written when Bus Master Enable returns (R315). -/
structure Engine where
  e : Nat
  base : Nat
  size : Nat
  enable : Bool
  queue : Nat
  tail : Nat
  head : Nat
  st : Nat
  stopIdx : Nat
  fetching : Bool
  begun : Bool
  desc : Option Bytes
  issued : Nat
  moved : Nat
  poisonLines : Nat
  aborted : Bool
deriving DecidableEq, Repr

/-- A non-posted read of a function (R311): what has arrived so far in the Lobby's Mover buffers, each byte with its check field
(R210). -/
structure HostRead where
  tag : Nat
  engine : Nat
  fetch : Bool
  addr : Nat
  length : Nat
  dest : Nat
  got : List (Option (Byte × Nat))
deriving DecidableEq, Repr

/-- An HDM decoder (R42). -/
structure Decoder where
  r : Nat
  base : Nat
  size : Nat
  committed : Bool
  error : Bool
deriving DecidableEq, Repr

/-- A dictionary window (R330): bytes of FN_DICT_DATA beyond `data` read 0. `rsvd` says that the last write of FN_DICT_ADDR set
a rsvd bit, which reads 0 and makes the next request MALFORMED (R11, R329). -/
structure DictWindow where
  addr : Nat
  rsvd : Bool
  ctl : Nat
  error : Nat
  returned : Nat
  done : Nat
  data : Bytes
deriving DecidableEq, Repr

/-- The function of a link port (R293-R320); `cfg` holds the other writable words of its configuration space, by offset, a
word not listed at its reset value; `aerUnc` and `aerCor` are the AER status words; `loadPoison` lists the 8-byte words of the
load window whose last write carried poison (R115). -/
structure Fn where
  port : Nat
  link : Nat
  rate : Nat
  width : Nat
  flit256 : Bool
  cxl : Bool
  perst : Bool
  ready : Bool
  resetting : Bool
  dstate : Nat
  pmeEn : Bool
  pmeStatus : Bool
  bme : Bool
  msixEn : Bool
  msixMask : Bool
  msiEn : Bool
  msiGranted : Nat
  msiMask : Nat
  msiPending : Nat
  intxDisable : Bool
  relaxed : Bool
  maxRead : Nat
  maxPayload : Nat
  tags : Nat
  table : List (Nat × Nat × Nat × Bool)
  pba : Nat
  intStat : Nat
  queues : List EventQueue
  decoders : List Decoder
  engines : List Engine
  hostReads : List HostRead
  loadBytes : List (Nat × Byte)
  loadPoison : List Nat
  loadColl : Nat
  loadLen : Nat
  loadBusy : Bool
  loadRefused : Nat
  loadAccepted : Nat
  policy : List Nat
  background : Nat
  scanning : Bool
  dict : DictWindow
  turnOff : Bool
  cfg : List (Nat × Nat)
  aerUnc : Nat
  aerCor : Nat
deriving DecidableEq, Repr

/-- Counters (R367): entry, object, value, wrap bit. -/
structure Counter where
  idx : Nat
  sub : Nat
  obj : Nat
  value : Nat
  wrap : Bool
deriving DecidableEq, Repr

/-- Events (R350-R368): held records, counters, and the counter selector OD 0x5002:01. -/
structure EvState where
  heldRecs : List HeldRec
  counters : List Counter
  selector : Nat
deriving DecidableEq, Repr

/-- A derating factor other than 1 (R406), exact. -/
structure Factor where
  wing : Nat
  depot : Bool
  cls : Nat
  val : Rat
deriving DecidableEq, Repr

/-- A PLL out of lock (R387): die, domain, the TSC of the loss. -/
structure PllLoss where
  die : Nat
  domain : Nat
  at_ : Nat
deriving DecidableEq, Repr

/-- Steward, clocks, emergency input (R369-R394) and D3cold (R320-R323). `busyAt` is the TSC of the last CXL.mem request or end of a
job (R320), `rails` the power measured on each rail at its last reading with the dies' estimate then, both in uW (R370), `samples` the
package power of the last 10 rounds in W and `power` their mean (R381). -/
structure PwState where
  stage : Nat
  stageCause : Nat
  lastChange : Nat
  power : Rat
  samples : List Rat
  rails : List (Nat × Nat × Nat)
  causes : Nat
  stewardUp : Bool
  lastRound : Nat
  pllLost : List PllLoss
  refclk : Bool
  refclkLostAt : Nat
  epdA : Bool
  epdB : Bool
  epdCount : Nat
  epdLast : Nat
  emergency : Bool
  emergencyCause : Nat
  factors : List Factor
  freqChange : List (Nat × Nat)
  prepared : Bool
  preparing : Bool
  flushing : Bool
  idleRefresh : Bool
  busyAt : Nat
deriving DecidableEq, Repr

/-- Identity, flash, test access and debug (R418-R422, R432-R436, R438-R453). `profileHash` and `bootRegion` hold what the
boot read from the flash, `certNo` numbers the certificate made at the reset (R432).
`flashOp` is the operation under way: whether it erases, where, and what it programs (R436). -/
structure IdState where
  flash : List (Nat × Byte)
  flashOff : Nat
  flashData : Bytes
  flashOp : Option (Bool × Nat × Bytes)
  flashResult : Nat
  minSvn : Nat
  svn : Nat
  svnRaises : Nat
  controlBanks : List Bytes
  provBanks : List Bytes
  controlRoot : Option Bytes
  provKey : Option Bytes
  profileHash : Bytes
  bootRegion : Option Bytes
  certNo : Nat
  ir : List (Nat × Nat)
  tapReset : Bool
  chain : Nat
  chainNext : Nat
  nonce : Option Nat
  failures : Nat
  debugState : Nat
  response : Bytes
deriving DecidableEq, Repr

/-- The load a response of a link port reports (R294). -/
inductive DevLoad where
  | light | optimal | moderate | severe
deriving DecidableEq, Repr

/-- What the block sends out, in order. -/
inductive Msg where
  | memData (port : Nat) (data : Bytes) (poison : Bool) (load : DevLoad)
  | memCmp (port : Nat) (load : DevLoad)
  | crs (port : Nat)
  | reply (req : Requester) (code : Nat) (data : Bytes)
  | mailbox (port code : Nat) (payload : Bytes)
  | hdm (port decoder : Nat) (ok : Bool)
  | hostWrite (port addr : Nat) (data : Bytes) (ep ro : Bool)
  | hostRead (port tag addr length : Nat) (ro : Bool)
  | message (port vector : Nat) (msix : Bool)
  | intx (port : Nat) (asserted : Bool)
  | pme (port : Nat)
  | pmeToAck (port : Nat)
  | flit (die cport : Nat) (bytes : Bytes)
  | loan (m : LoanMsg)
  | recordLost (n : Nat)
  | heartbeat (die : Nat)
  | timeSync (die stamp : Nat)
  | spdm (via : SpdmVia) (ok : Bool) (body : Bytes)
  | neighborAdvertisement (peer target : Nat)
  | echoReply (peer : Nat) (payload : Bytes)
  | vout (rail mv : Nat)
  | tdo (die : Nat) (bits value : Nat)
  | scan (die code : Nat)
deriving DecidableEq, Repr

/-- The state of the block. -/
structure State where
  pending : List Instr
  out : List Msg
  fresh : Nat
  tsc : Nat
  pkg : Pkg
  dies : List Die
  ed : EdState
  mem : MemState
  chans : List Chan
  split : List Split
  wb : WbState
  doc : DocState
  cor : List CPort
  fn : List Fn
  ev : EvState
  pw : PwState
  id : IdState
deriving DecidableEq, Repr

/-- The result type of a meaning. -/
abbrev Res := Host.Outcome State Fault Refusal

/-- Die codes of the Lobbies of an assembly (R1, R354). -/
def Assembly.lobbies : Assembly → List Nat
  | .gw1204 | .gw1404 => [0]
  | .gw2404 | .gw2408 => [0, 1]

/-- Wings of an assembly (R1). -/
def Assembly.wings : Assembly → List Nat
  | .gw1204 => [0, 1]
  | _ => [0, 1, 2, 3]

/-- Populated Gallery sites of a Wing (R5). -/
def Assembly.sites : Assembly → Nat
  | .gw1204 | .gw2408 => 2
  | _ => 1

/-- OD 0x2000:01 (R4). -/
def Assembly.code : Assembly → Nat
  | .gw1204 => 0x1204
  | .gw1404 => 0x1404
  | .gw2404 => 0x2404
  | .gw2408 => 0x2408

/-- The package power envelope in watts (R1). -/
def Assembly.envelope : Assembly → Nat
  | .gw1204 => 150
  | .gw1404 => 210
  | .gw2404 => 290
  | .gw2408 => 340

/-- Number of link ports (R1). -/
def Assembly.ports (a : Assembly) : Nat := 8 * a.lobbies.length

/-- Die codes of an assembly (R354): Lobbies 0-1, Wings 4-7. -/
def Assembly.dies (a : Assembly) : List Nat := a.lobbies ++ a.wings.map (· + 4)

/-- The Corridor ports of a die that carry a link (R19, R271). -/
def Assembly.cports (a : Assembly) (die : Nat) : List Nat :=
  match a with
  | .gw1204 => if die < 4 then [0, 1] else [0, 1]
  | .gw1404 => if die < 4 then [0, 1] else if die < 6 then [0, 1, 2] else [1, 2]
  | _ => [0, 1, 2]

/-- A die at reset (R415, R352; temperature, voltage and pace: log 5). -/
def Die.reset (c : Nat) : Die :=
  { code := c, present := true, inService := false, isoState := 0, isoCause := 0, reachable := true, offset := 0,
    latestE := 0, slew := 0, skewHigh := false, uncertain := false, lastSync := 0, temp := 100,
    vdd := if c < 4 then 750 else 850, vddHold := false, rings := if c < 4 then [] else List.replicate 8 2600, goodRounds := 0, paceLow := false,
    paceShort := false, power := [], lastTelemetry := 0, telemetryLost := false, hash := 0, sealWord := none,
    lastBeat := 0, tagFault := false }

/-- A channel at reset (R258). -/
def Chan.reset (w sel : Nat) : Chan :=
  { wing := w, sel := sel, st := 0, band := 0, fset := 0, epoch := 0, trigger := 0, freezes := 0, progress := 0,
    lastFlip := none, walk := 0, regs := [],
    flip := { ctl := 0, addr := 0, sel0 := 0, sel1 := 0 }, record := none, winCorrected := 0, overRate := false,
    temp := 25, pendingBand := none, postponed := [], poweredDown := [], selfRefresh := false, sealWord := none,
    wq := [], drain := false, rows := [], hits := (0, 0), log := [], idleFrom := [], winEnd := 0 }

/-- Channel selectors of a Wing (R197): Depot 0-3, Gallery 0x10 + 16 s + k. -/
def Assembly.selectors (a : Assembly) : List Nat :=
  List.range 4 ++ (List.range (16 * a.sites)).map (· + 0x10)

/-- A split-write window at reset (R238). -/
def Split.reset (w : Nat) : Split :=
  { wing := w, addr := 0, sel := 0, result := 0, data := List.replicate 64 0, check := List.replicate 16 0,
    scheck := List.replicate 64 0, catSel := 0, sram := [] }

/-- An idle docent context (R189, R195). -/
def CtxState.idle : CtxState :=
  { running := false, prog := 0, image := [], params := [], isRole := false, suspended := false,
    regs := List.replicate 16 0, pc := 0, buf := [], waitUntil := none, op := none, copyWait := none, copies := [],
    nextHandle := 0, sinceWait := 0, trig := 0, arg := 0, checked := 0, failed := 0, native := none }

/-- An idle docent. -/
def Docent.reset (d : Nat) : Docent :=
  { id := d, p := .idle, a := .idle, fault := 0, roleFaulted := false, stopped := false, sweep := [], point := 0, roleDue := false }

/-- The docent ids of an assembly (R189): 8 on a Wing, 4 on a Lobby. -/
def Assembly.docents (a : Assembly) : List Nat :=
  a.dies.flatMap fun c => (List.range (if c < 4 then 4 else 8)).map (8 * c + ·)

/-- A Corridor port at reset (R271, R276, R292). -/
def CPort.reset (die idx : Nat) : CPort :=
  { die := die, idx := idx, st := 0, version := 0, features := 0, bound := 0, nextSeq := 0, oldest := 0, replay := [],
    expect := 0, sinceAck := 0, ackFrom := none, nakUntil := none, dupRun := false, stalled := 0, timerFrom := 0,
    retrainFails := 0, lostAt := none, helloTries := 0, credits := List.replicate 32 0, delivered := [],
    loopback := 0, inLoopback := false, sendq := [], served := 0, wrap := none }

/-- An event queue at reset (R305): empty, disabled. -/
def EventQueue.reset : EventQueue :=
  { base := 0, size := 4, enable := false, vector := 0, moderation := 0, tail := 0, head := 0, shadow := 0, filter := 0,
    lost := 0, lastMsg := none, deferred := false }

/-- A Mover engine slot at reset (R308). -/
def Engine.reset (e : Nat) : Engine :=
  { e := e, base := 0, size := 4, enable := false, queue := 0, tail := 0, head := 0, st := 0, stopIdx := 0,
    fetching := false, begun := false, desc := none, issued := 0, moved := 0, poisonLines := 0, aborted := false }

/-- An HDM decoder at reset (R42). -/
def Decoder.reset (r : Nat) : Decoder := { r := r, base := 0, size := 0, committed := false, error := false }

/-- A dictionary window at reset (R330). -/
def DictWindow.reset : DictWindow :=
  { addr := 0, rsvd := false, ctl := 0, error := 0, returned := 0, done := 0, data := [] }

/-- The function of a port at reset (R293-R320): link down, PERST_N asserted, not ready, D0. -/
def Fn.reset (p : Nat) : Fn :=
  { port := p, link := 0, rate := 0, width := 0, flit256 := false, cxl := false, perst := true, ready := false,
    resetting := false, dstate := 0, pmeEn := false, pmeStatus := false, bme := false, msixEn := false,
    msixMask := false, msiEn := false, msiGranted := 0, msiMask := 0, msiPending := 0, intxDisable := false,
    relaxed := false, maxRead := 512, maxPayload := 128, tags := 0, table := [], pba := 0, intStat := 0,
    queues := List.replicate 16 .reset, decoders := (List.range 8).map .reset,
    engines := (List.range 16).map .reset, hostReads := [], loadBytes := [], loadPoison := [], loadColl := 0, loadLen := 0,
    loadBusy := false, loadRefused := 0, loadAccepted := 0, policy := List.replicate 5 0, background := 0,
    scanning := false, dict := .reset, turnOff := false, cfg := [], aerUnc := 0, aerCor := 0 }

/-- The package of an assembly in its first cold reset: PKG_RESET_N asserted (R416, R431), VDD_AON just applied. -/
def State.ofAssembly (a : Assembly) (mark dimms dimmCode : Nat) : State :=
  { pending := [], out := [], fresh := 0, tsc := 0,
    pkg := { asm := a, mark := mark, dimms := dimms, dimmCode := dimmCode, nodeId := 0, bootMode := 0, mainPower := true,
             aon := true, aonKept := false, inReset := true, start := 1, phase := 0, bootLost := 0, bootStatus := 0,
             fwSlot := 0, fwRunning := false, slotsTried := [], releaseMs := 0, bootFailed := false, primary := 0,
             wake := false, thermtrip := false, epdDone := false, fieldLink := false, galleryFset := 0, absent := 0,
             masterLost := false, bridgeDown := false },
    dies := a.dies.map Die.reset,
    ed := { active := { num := 0, vals := [] }, previous := none, staged := none, stagedState := 0, reason := 0,
            failIdx := 0, failSub := 0, failObj := 0, confirmed := true, deadline := 0, instant := 0, accepted := 0,
            phase := 0, decision := 0, decisionDie := 0, lastCommit := 0, failure := 0, incoming := none,
            quiescing := false, reverting := false, holder := .free, lease := 0, cursors := [], sessions := [],
            quiesced := [], heldReqs := [], newKeys := [] },
    mem := { dram := [], cat := [], deferred := [], allocs := [], cache := [], wmb := [], reads := [], writes := [], lots := [],
             moves := [], colls := [], cmds := [], windows := [], buckets := [], extents := [], dcLog := [],
             dcWait := [], seqs := [], forks := [], loans := [], loanDir := [], loanMsgs := [], keys := [],
             ingest := [], writingBack := 0xFFFF, served := [], periodAt := 0 },
    chans := a.wings.flatMap fun w => a.selectors.map (Chan.reset w),
    split := a.wings.map Split.reset,
    wb := { jobs := [], ended := [],
            tiles := a.wings.flatMap fun w => (List.range 64).map fun t =>
              { wing := w, idx := t, last := none, job := none, sram := [], vec := [] },
            admissions := [] },
    doc := { docents := a.docents.map Docent.reset, triggers := [] },
    cor := a.dies.flatMap fun d => (a.cports d).map (CPort.reset d),
    fn := (List.range a.ports).map Fn.reset,
    ev := { heldRecs := [], counters := [], selector := 0 },
    pw := { stage := 0, stageCause := 0, lastChange := 0, power := 0, samples := [], rails := [], causes := 0, stewardUp := false, lastRound := 0,
            pllLost := [], refclk := true, refclkLostAt := 0, epdA := false, epdB := false, epdCount := 0,
            epdLast := 0, emergency := false, emergencyCause := 0, factors := [], freqChange := [], prepared := false,
            preparing := false, flushing := false, idleRefresh := false, busyAt := 0 },
    id := { flash := [], flashOff := 0, flashData := List.replicate 256 0, flashOp := none, flashResult := 0,
            minSvn := 0, svn := 0, svnRaises := 0, controlBanks := [], provBanks := [], controlRoot := none,
            provKey := none, profileHash := List.replicate 48 0, bootRegion := none, certNo := 0, ir := [], tapReset := true, chain := 0xF3, chainNext := 0xF3,
            nonce := none, failures := 0, debugState := 0, response := [] } }

/-- The machine right after reset: the assembly, population and straps of log 3. -/
def State.reset : State := State.ofAssembly .gw2408 2 1 1

end Sys2Proof.Machine
end

