-- ==== Sys2Proof/Machine/Edition.lean ====
section
/-! DEFINITION. Reading an edition (R341): the attributes of a collection (R38, R68), the geometry of its lines
(R49, R120), quotas, shares and pins (R53, R123, R135). A collection exists in an edition when its kind OD 0x3001:01
is not 0 (log 14). -/

namespace Sys2Proof.Machine

/-- The value an edition gives an entry, or none where it holds its default. -/
def Edition.get (e : Edition) (idx sub obj : Nat) : Option Bytes :=
  (e.vals.find? fun v => v.idx == idx && v.sub == sub && v.obj == obj).map (·.val)

/-- A numeric entry's value, or its default. -/
def Edition.nat (e : Edition) (idx sub obj dflt : Nat) : Nat :=
  match e.get idx sub obj with
  | some v => leNat v
  | none => dflt

/-- The order of an edition's values: index, object, subindex (R341). -/
def EdVal.le (a b : EdVal) : Bool :=
  a.idx < b.idx || (a.idx == b.idx && (a.obj < b.obj || (a.obj == b.obj && a.sub ≤ b.sub)))

/-- Set an entry's value in an edition. -/
def Edition.set (e : Edition) (idx sub obj : Nat) (v : Bytes) : Edition :=
  let rest := e.vals.filter fun x => !(x.idx == idx && x.sub == sub && x.obj == obj)
  { e with vals := insertBy EdVal.le ⟨idx, sub, obj, v⟩ rest }

/-- Let an entry hold its default again. -/
def Edition.clear (e : Edition) (idx sub obj : Nat) : Edition :=
  { e with vals := e.vals.filter fun x => !(x.idx == idx && x.sub == sub && x.obj == obj) }

/-- Kind of a collection: 0 absent, 1 RAW, 2 ACT, 3 PACKED (R38, R68). -/
def Edition.kind (e : Edition) (c : Nat) : Nat := e.nat 0x3001 1 c 0

/-- Does the collection exist in the edition? -/
def Edition.has (e : Edition) (c : Nat) : Bool := e.kind c != 0

/-- The collections of an edition, ascending. -/
def Edition.colls (e : Edition) : List Nat :=
  (e.vals.filter fun v => v.idx == 0x3001 && v.sub == 1 && leNat v.val != 0).map (·.obj)

def Edition.fmt (e : Edition) (c : Nat) : Nat := e.nat 0x3001 2 c 0
def Edition.size (e : Edition) (c : Nat) : Nat := e.nat 0x3001 3 c 0
def Edition.flags (e : Edition) (c : Nat) : Nat := e.nat 0x3001 4 c 0
def Edition.overcommit (e : Edition) (c : Nat) : Bool := bitSet (e.flags c) 0
def Edition.durable (e : Edition) (c : Nat) : Bool := bitSet (e.flags c) 1
def Edition.viewOn (e : Edition) (c : Nat) : Bool := bitSet (e.flags c) 2
def Edition.exhibit (e : Edition) (c : Nat) : Bool := bitSet (e.flags c) 3
def Edition.anchor (e : Edition) (c : Nat) : Nat := e.nat 0x3001 5 c 0xFFFF
def Edition.quotaG (e : Edition) (c : Nat) : Nat := e.nat 0x3002 1 c 0
def Edition.quotaD (e : Edition) (c : Nat) : Nat := e.nat 0x3002 2 c 0
def Edition.homed (e : Edition) (c : Nat) : Bool := e.nat 0x3003 1 c 0 == 1
def Edition.setNamed (e : Edition) (c : Nat) : Nat := e.nat 0x3003 2 c 0
def Edition.grainLog (e : Edition) (c : Nat) : Nat := e.nat 0x3003 3 c 12
def Edition.grain (e : Edition) (c : Nat) : Nat := 2 ^ e.grainLog c
def Edition.partition (e : Edition) (c : Nat) : Nat := e.nat 0x3004 1 c 8
def Edition.loanShare (e : Edition) (c : Nat) : Nat := e.nat 0x3004 2 c 0
def Edition.cls (e : Edition) (c : Nat) : Nat := e.nat 0x3005 1 c 3
def Edition.readRes (e : Edition) (c : Nat) : Nat := e.nat 0x3005 2 c 0
def Edition.writeRes (e : Edition) (c : Nat) : Nat := e.nat 0x3005 3 c 0
def Edition.ports (e : Edition) (c : Nat) : Nat := e.nat 0x3006 1 c 0
def Edition.relTimeout (e : Edition) (c : Nat) : Nat := e.nat 0x3006 3 c 10000
def Edition.region (e : Edition) (c : Nat) : Nat := e.nat 0x3006 4 c 0
def Edition.offset (e : Edition) (c : Nat) : Nat := e.nat 0x3006 5 c 0
def Edition.viewRegion (e : Edition) (c : Nat) : Nat := e.nat 0x3008 1 c 0xFF
def Edition.viewOffset (e : Edition) (c : Nat) : Nat := e.nat 0x3008 6 c (2 ^ 64 - 1)
def Edition.regionSize (e : Edition) (port r : Nat) : Nat := e.nat 0x1104 (r + 1) port 0
def Edition.static (e : Edition) (c : Nat) : Bool := e.nat 0x300A 1 c 0 == 1
def Edition.promote (e : Edition) (c : Nat) : Nat := e.nat 0x300A 2 c 32
def Edition.demote (e : Edition) (c : Nat) : Nat := e.nat 0x300A 3 c 4
def Edition.newDepot (e : Edition) (c : Nat) : Bool := e.nat 0x300A 4 c 0 == 1
def Edition.fill (e : Edition) (c : Nat) : Nat := e.nat 0x300A 5 c 100

/-- Grantees of an exhibit (R63, R65). -/
def Edition.grants (e : Edition) (c : Nat) : List Nat :=
  ((List.range 0x40).map fun i => e.nat 0x3007 (i + 1) c 0xFFFF).filter (· != 0xFFFF)

/-- Valid edition pins (R135, R140): first lot, lot count, pinned to the Gallery. -/
def Edition.pins (e : Edition) (c : Nat) : List (Nat × Nat × Bool) :=
  ((List.range 0x10).map fun i => e.nat 0x300C (i + 1) c 0).filterMap fun v =>
    if bitSet v 63 then some (bits v 0 30, bits v 30 30, !bitSet v 60) else none

/-- Is the link port control-capable (R301, R324)? -/
def Edition.controlPort (e : Edition) : Nat := e.nat 0x1010 1 0 0

/-- Base of a DC region in a port's device physical addresses (R42). -/
def Edition.regionBase (e : Edition) (port r : Nat) : Nat := sumBy (e.regionSize port) (List.range r)

/-- Header array size H of the compressed view (R90). -/
def viewH (l : Nat) : Nat := ceilDiv (l / 64) 65536 * 65536

/-- Slots a quota grants (R53). -/
def quotaSlots (q : Nat) : Nat := q / 4096 * 9

/-- Slot capacity C of a collection (R53). -/
def Edition.capacity (e : Edition) (c : Nat) : Nat :=
  if e.durable c then quotaSlots (e.quotaD c) else quotaSlots (e.quotaG c) + quotaSlots (e.quotaD c)

/-- The edition in force. -/
def State.act (s : State) : Edition := s.ed.active

/-- The collection's state in force (R47, R55). -/
def State.coll? (s : State) (c : Nat) : Option CollState := s.mem.colls.find? (·.coll == c)

/-- Does a live collection exist? -/
def State.live (s : State) (c : Nat) : Bool := s.act.has c && (s.coll? c).isSome

/-- The Wings of a collection in ascending order (R47). -/
def State.wingsOf (s : State) (c : Nat) : List Nat :=
  match s.coll? c with
  | some k => maskList 4 k.wingSet
  | none => []

/-- The command Wing (R58): the first Wing of the set. -/
def State.commandWing (s : State) (c : Nat) : Nat := (s.wingsOf c).headD 0

/-- Where a line lives: the home Wing, the block as the catalogue names it, and the line within the block. -/
structure Place where
  wing : Nat
  blk : Nat
  line : Nat
deriving DecidableEq, Repr

/-- The placement of data-window offset `a` for grain `g` over the Wings `ws` (R49). -/
def placeOf (g : Nat) (ws : List Nat) (a : Nat) : Place :=
  let k := a / g
  let n := max 1 ws.length
  let w := ws.getD (k % n) 0
  let loc := k / n * g + a % g
  if 4096 ≤ g then ⟨w, a / 4096, a % 4096 / 64⟩ else ⟨w, loc / 4096, loc % 4096 / 64⟩

/-- The place of a data-window offset of a collection. -/
def State.place (s : State) (c a : Nat) : Place := placeOf (s.act.grain c) (s.wingsOf c) a

/-- Wing-local block index of a catalogue block (R120). -/
def localBlock (g : Nat) (ws : List Nat) (blk : Nat) : Nat :=
  if 4096 ≤ g then
    let k := blk * 4096 / g
    (k / max 1 ws.length * g + blk * 4096 % g) / 4096
  else blk

/-- The catalogue block of a Wing-local block index on Wing `w`. -/
def blockOfLocal (g : Nat) (ws : List Nat) (w b : Nat) : Nat :=
  if 4096 ≤ g then
    let i := (ws.idxOf? w).getD 0
    ((b * 4096 / g * max 1 ws.length + i) * g + b * 4096 % g) / 4096
  else b

/-- Data-window offset of a line of a catalogue block on Wing `w`. -/
def offsetOf (g : Nat) (ws : List Nat) (w blk line : Nat) : Nat :=
  if 4096 ≤ g then blk * 4096 + line * 64
  else
    let o := blk * 4096 + line * 64
    let i := (ws.idxOf? w).getD 0
    (o / g * max 1 ws.length + i) * g + o % g

/-- Data-window offset of a line of a block of a collection. -/
def State.offset (s : State) (c w blk line : Nat) : Nat := offsetOf (s.act.grain c) (s.wingsOf c) w blk line

/-- Wing-local block of a block of a collection. -/
def State.locBlock (s : State) (c blk : Nat) : Nat := localBlock (s.act.grain c) (s.wingsOf c) blk

/-- Wing lot of a block (R120). -/
def State.lotOf (s : State) (c blk : Nat) : Nat := s.locBlock c blk / 16

/-- Bytes of the data window homed on Wing `w` below offset `l` (R120). -/
def bytesOn (g : Nat) (ws : List Nat) (l w : Nat) : Nat :=
  match ws.idxOf? w with
  | none => 0
  | some i =>
    let n := max 1 ws.length
    let full := l / g
    full / n * g + (if i < full % n then g else if i = full % n then l % g else 0)

/-- Wing-local blocks of a collection on a Wing (R123). -/
def blocksOn (e : Edition) (ws : List Nat) (c w : Nat) : Nat :=
  ceilDiv (bytesOn (e.grain c) ws (e.size c) w) 4096

/-- A collection's share of a tier on a Wing, in slots (R123). -/
def shareOf (e : Edition) (ws : List Nat) (c w : Nat) (gallery : Bool) : Nat :=
  let sl := quotaSlots (if gallery then e.quotaG c else e.quotaD c)
  ceilDiv (sl * blocksOn e ws c w) (max 1 (sumBy (blocksOn e ws c) ws))

/-- The share on a Wing of a live collection; while D3cold preparation lasts every Gallery share is 0 (R322). -/
def State.share (s : State) (c w : Nat) (gallery : Bool) : Nat :=
  if gallery && s.pw.prepared then 0 else shareOf s.act (s.wingsOf c) c w gallery

end Sys2Proof.Machine
end

