-- ==== Sys2Proof/Machine/Records.lean ====
section
/-! DEFINITION. Units, counters, signals, event records and the 1 ms coalescing windows (R35, R303-R306, R354-R367,
R472). -/

namespace Sys2Proof.Machine

/-- 1 ms in nanoseconds. -/
def ms : Nat := 1000000

/-- Source number of a unit of a die (R354). -/
def src (die unit : Nat) : Nat := die * 512 + unit

/-- Die code of a Wing. -/
def wingDie (w : Nat) : Nat := w + 4

/-- Source of a link port (R354). -/
def portSrc (p : Nat) : Nat := src (p / 8) (0x10 + p % 8)

/-- Unit number of a channel selector (R197, R354). -/
def selUnit (sel : Nat) : Nat := 0x80 + sel

/-- A die. -/
def State.die? (s : State) (c : Nat) : Option Die := s.dies.find? (·.code == c)

/-- Change one die. -/
def State.updDie (s : State) (c : Nat) (f : Die → Die) : State :=
  { s with dies := updWhere (·.code == c) f s.dies }

/-- Is a Wing present and in service (R25)? -/
def State.wingUp (s : State) (w : Nat) : Bool :=
  match s.die? (wingDie w) with
  | some d => d.present && d.inService
  | none => false

/-- Is the package powered and out of reset? -/
def State.running (s : State) : Bool := s.pkg.mainPower && !s.pkg.inReset

/-- Does the package take new work: running, and no emergency sequence begun (R392)? -/
def State.accepting (s : State) : Bool := s.running && !s.pw.emergency

/-- A channel. -/
def State.chan? (s : State) (w sel : Nat) : Option Chan := s.chans.find? fun c => c.wing == w && c.sel == sel

/-- Change one channel. -/
def State.updChan (s : State) (w sel : Nat) (f : Chan → Chan) : State :=
  { s with chans := updWhere (fun c => c.wing == w && c.sel == sel) f s.chans }

/-- The function of a port. -/
def State.fn? (s : State) (p : Nat) : Option Fn := s.fn.find? (·.port == p)

/-- Change one function. -/
def State.updFn (s : State) (p : Nat) (f : Fn → Fn) : State := { s with fn := updWhere (·.port == p) f s.fn }

/-- Change the storage. -/
def State.updMem (s : State) (f : MemState → MemState) : State := { s with mem := f s.mem }

/-- Send a message. -/
def State.send (s : State) (m : Msg) : State := { s with out := s.out ++ [m] }

/-- Draw the next free value's number (log 1). -/
def State.draw (s : State) : Nat × State := (s.fresh, { s with fresh := s.fresh + 1 })

/-- A die's TSC (R351, R352): the master's plus its offset. -/
def State.dieTsc (s : State) (c : Nat) : Nat :=
  match s.die? c with
  | some d => ((s.tsc : Int) + d.offset).toNat % 2 ^ 64
  | none => s.tsc

/-- The value of a counter (R367). -/
def State.counter (s : State) (idx sub obj : Nat) : Nat :=
  match s.ev.counters.find? fun c => c.idx == idx && c.sub == sub && c.obj == obj with
  | some c => c.value
  | none => 0

/-- Add to a counter, modulo 2^64, setting its wrap bit when it passes the end (R367). -/
def State.bump (s : State) (idx sub obj n : Nat) : State :=
  let cs := upsert (fun c => c.idx == idx && c.sub == sub && c.obj == obj)
    (fun c => { c with value := (c.value + n) % 2 ^ 64, wrap := c.wrap || decide (2 ^ 64 ≤ c.value + n) })
    ⟨idx, sub, obj, 0, false⟩ s.ev.counters
  if n = 0 then s else { s with ev := { s.ev with counters := cs } }

/-- Set a counter and clear its wrap bit (R367). -/
def State.setCounter (s : State) (idx sub obj v : Nat) : State :=
  let cs := upsert (fun c => c.idx == idx && c.sub == sub && c.obj == obj)
    (fun c => { c with value := v % 2 ^ 64, wrap := false }) ⟨idx, sub, obj, 0, false⟩ s.ev.counters
  { s with ev := { s.ev with counters := cs } }

/-- Can the function issue requests: Bus Master Enable set, in D0, not in reset (R315, R316, R320)? -/
def Fn.canMaster (f : Fn) : Bool := f.bme && f.dstate == 0 && !f.resetting

/-- A function in D3hot sends one PME message until PME_Status is cleared (R320). -/
def State.pme (s : State) (p : Nat) : State :=
  match s.fn? p with
  | some f =>
    if f.dstate != 0 && f.pmeEn && !f.pmeStatus then (s.updFn p fun f => { f with pmeStatus := true }).send (.pme p) else s
  | none => s

/-- Signal a vector of a function, setting a bit of FN_INT_STAT (R303, R304); a function that may send nothing holds the
signal there (R315). -/
def State.signal (s : State) (p bit vector : Nat) : State :=
  match s.fn? p with
  | none => s
  | some f =>
    let s1 := s.updFn p fun f => { f with intStat := putBit f.intStat bit true }
    if !f.canMaster then s1
    else if f.msixEn then
      let masked := f.msixMask || (match f.table.find? (·.1 == vector) with | some e => e.2.2.2 | none => true)
      if masked then s1.updFn p fun f => { f with pba := putBit f.pba vector true }
      else s1.send (.message p vector true)
    else if f.msiEn then
      let v := vector % max 1 f.msiGranted
      if bitSet f.msiMask v then s1.updFn p fun f => { f with msiPending := putBit f.msiPending v true }
      else s1.send (.message p v false)
    else if !f.intxDisable && f.intStat == 0 then s1.send (.intx p true)
    else s1

/-- The 32 bytes of a record (R356). -/
def Rec.bytes (r : Rec) : Bytes :=
  leBytes 2 r.type ++
  [byteOf (bit1 r.uncertain + 2 * bit1 r.coalesced + 4 * bit1 r.late + 8 * bit1 r.cleared), 0] ++
  leBytes 2 (r.source % 4096) ++ leBytes 2 r.coll ++ leBytes 8 r.tsc ++ slice r.payload 0 12 ++ leBytes 4 r.count

/-- Is a queue full (R361)? -/
def EventQueue.full (q : EventQueue) : Bool :=
  (q.tail + 1) % 2 ^ q.size == q.head % 2 ^ q.size

/-- Can a queue of a function be written (R362)? -/
def Fn.canWrite (f : Fn) (q : EventQueue) : Bool :=
  !q.full && q.enable && f.bme && f.dstate == 0

/-- Change one queue. -/
def Fn.updQueue (f : Fn) (i : Nat) (g : EventQueue → EventQueue) : Fn :=
  { f with queues := f.queues.mapIdx fun j q => if j == i then g q else q }

/-- Write one record at the tail, without the batch's end (R306 step 1). -/
def State.pushRecord (s : State) (p q : Nat) (r : Rec) : State :=
  match s.fn? p with
  | none => s
  | some f =>
    let eq := f.queues.getD q .reset
    (s.send (.hostWrite p (eq.base + 32 * eq.tail) r.bytes false false)).updFn p fun f =>
      f.updQueue q fun eq => { eq with tail := (eq.tail + 1) % 2 ^ eq.size }

/-- End a batch: the shadow tail, then the signal or its deferral (R306 steps 2 and 3). -/
def State.endBatch (s : State) (p q : Nat) : State :=
  match s.fn? p with
  | none => s
  | some f =>
    let eq := f.queues.getD q .reset
    let s1 := if eq.shadow = 0 then s else s.send (.hostWrite p eq.shadow (leBytes 8 eq.tail) false false)
    let ready := match eq.lastMsg with | none => true | some t => decide (t + eq.moderation * 1000 ≤ s.tsc)
    if ready then
      (s1.updFn p fun f => f.updQueue q fun eq => { eq with lastMsg := some s.tsc, deferred := false }).signal p q eq.vector
    else s1.updFn p fun f => f.updQueue q fun eq => { eq with deferred := true }

/-- The LOST_RECORDS record of a queue (R357, R363). -/
def lostRecord (source now n : Nat) : Rec :=
  { type := 1, uncertain := false, coalesced := false, late := false, cleared := false, source := source,
    coll := 0xFFFF, tsc := now, payload := [], count := n }

/-- Recheck a queue (R363): when it can be written and has lost records, write one LOST_RECORDS record. -/
def State.recheck (s : State) (p q : Nat) : State :=
  match s.fn? p with
  | none => s
  | some f =>
    let eq := f.queues.getD q .reset
    if f.canWrite eq && eq.lost != 0 then
      let s1 := s.updFn p fun f => f.updQueue q fun eq => { eq with lost := 0 }
      (s1.pushRecord p q (lostRecord (portSrc p) (s.dieTsc (p / 8)) eq.lost)).endBatch p q
    else s

/-- Write a due record to one receiver, or count it lost (R355, R362, R364). -/
def State.writeTo (s : State) (r : Rec) : Recv → State
  | .hostQueue p q =>
    match s.fn? p with
    | none => s
    | some f =>
      if f.canWrite (f.queues.getD q .reset) then (s.pushRecord p q r).endBatch p q
      else (s.updFn p fun f => f.updQueue q fun eq => { eq with lost := min (eq.lost + 1) 0xFFFFFFFF }).pme p
  | .session i =>
    let ss := updWhere (fun x => x.id == i && x.opened)
      (fun x => if x.queue.length < 64 then { x with queue := x.queue ++ [r] }
                else { x with lost := min (x.lost + 1) 0xFFFFFFFF }) s.ed.sessions
    { s with ed := { s.ed with sessions := ss } }

/-- The scope of a record (R358, R359). -/
inductive Scope where
  | c | d | p (port : Nat) | cp (port : Nat) | queue (port q : Nat)
deriving DecidableEq, Repr

/-- Is a collection's data extent accepted at a port (OD 0x3006:02)? -/
def State.accepted (s : State) (p c : Nat) : Bool :=
  s.mem.extents.any fun x => x.port == p && x.coll == c && !x.view && x.st == .accepted

/-- Does a host queue's filter select a record of a collection (R359, R360)? -/
def State.selectsC (s : State) (p filter c : Nat) : Bool :=
  (s.accepted p c && (bitSet filter 13 || (bitSet filter 12 && bits filter 0 12 == c))) ||
  (p == s.act.controlPort && bitSet filter 14)

/-- The receivers of a record (R359). -/
def State.receivers (s : State) (sc : Scope) (c : Nat) : List Recv :=
  match sc with
  | .queue p q => [.hostQueue p q]
  | _ =>
    let hosts := s.fn.flatMap fun f =>
      (List.range 16).filterMap fun i =>
        let fl := (f.queues.getD i .reset).filter
        let hit := match sc with
          | .c => s.selectsC f.port fl c
          | .d => f.port == s.act.controlPort && bitSet fl 16
          | .p port => f.port == port && bitSet fl 15
          | .cp port => s.selectsC f.port fl c || (f.port == port && bitSet fl 15)
          | .queue _ _ => false
        if hit then some (Recv.hostQueue f.port i) else none
    let daps := (s.ed.sessions.filter fun x => x.opened &&
      (match sc with
       | .c => bitSet x.filter 1
       | .d => bitSet x.filter 0
       | .p _ => bitSet x.filter 2
       | .cp _ => bitSet x.filter 1 || bitSet x.filter 2
       | .queue _ _ => false)).map fun x => Recv.session x.id
    hosts ++ daps

/-- Is the order of R355 kept: lower TSC, then lower source (`rank`)? -/
def HeldRec.le (a b : HeldRec) : Bool :=
  a.body.tsc < b.body.tsc || (a.body.tsc == b.body.tsc && a.rank ≤ b.rank)

/-- Raise a record (R355, R359): delivered to its receivers, held until 2 us after its TSC, or written at once with
the late flag when that has passed. Records of one TSC stand in the order of `rank`. -/
def State.raiseAs (s : State) (sc : Scope) (rank : Nat) (r : Rec) : State :=
  match s.receivers sc r.coll with
  | [] => s
  | rs =>
    if r.tsc + 2000 < s.tsc then rs.foldl (fun s x => s.writeTo { r with late := true } x) s
    else { s with ev := { s.ev with heldRecs := insertBy HeldRec.le ⟨r, rs, rank⟩ s.ev.heldRecs } }

/-- Raise a record in the order of its source (R355). -/
def State.raiseRec (s : State) (sc : Scope) (r : Rec) : State := s.raiseAs sc r.source r

/-- Pack payload fields: (width in bytes, value) (R356). -/
def pack (fs : List (Nat × Nat)) : Bytes := fs.flatMap fun f => leBytes f.1 f.2

/-- A single event's record, raised now by a unit (R356, R357). -/
def State.mkRec (s : State) (type source coll : Nat) (cleared : Bool) (payload : Bytes) : Rec :=
  { type := type, uncertain := (match s.die? (source / 512) with | some d => d.uncertain | none => false),
    coalesced := false, late := false, cleared := cleared, source := source, coll := coll,
    tsc := s.dieTsc (source / 512), payload := payload, count := 1 }

/-- Raise a single event. -/
def State.event (s : State) (sc : Scope) (type source coll : Nat) (payload : Bytes) : State :=
  s.raiseRec sc (s.mkRec type source coll false payload)

/-- Raise a watermark, set or cleared (R365). -/
def State.watermark (s : State) (sc : Scope) (type source coll : Nat) (cleared : Bool) (payload : Bytes) : State :=
  s.raiseRec sc (s.mkRec type source coll cleared payload)

/-- The scope a coalescing window keeps: 0xFFFF for C, 0xFFFE for D, otherwise the port. -/
def scopeOf (n : Nat) : Scope := if n = 0xFFFF then .c else if n = 0xFFFE then .d else .p n

/-- End a coalescing window: one count record when the count is not 0 (R35, R357). -/
def State.closeWindow (s : State) (kind object : Nat) : State :=
  match s.mem.windows.find? fun w => w.kind == kind && w.obj == object with
  | none => s
  | some w =>
    let s1 := s.updMem fun m => { m with windows := m.windows.filter fun w => !(w.kind == kind && w.obj == object) }
    if w.count = 0 then s1
    else s1.raiseRec (scopeOf w.scope)
      { w.last with coalesced := true, tsc := w.start + ms, count := min w.count 0xFFFFFFFF }

/-- Has a coalescing window ended, by the TSC of the die whose unit counts in it (R35)? -/
def State.windowOver (s : State) (w : Window) : Bool := decide (w.start + ms ≤ s.dieTsc (w.last.source / 512))

/-- Raise an event under the pattern of R35: at once, or counted in the window that is open. The window runs from the TSC of
the first event. An event that falls on a window's end is written after that window's count notice. -/
def State.coalesce (s : State) (type object source coll scope : Nat) (payload : Bytes) : State :=
  let r := s.mkRec type source coll false payload
  let fresh (s : State) (rank : Nat) : State :=
    (s.raiseAs (scopeOf scope) rank r).updMem fun m => { m with windows := m.windows ++ [⟨type, object, r.tsc, 0, r, scope⟩] }
  match s.mem.windows.find? fun w => w.kind == type && w.obj == object with
  | some w =>
    if r.tsc < w.start + ms then
      let ws := updWhere (fun w => w.kind == type && w.obj == object)
        (fun w => { w with count := w.count + 1, last := r }) s.mem.windows
      s.updMem fun m => { m with windows := ws }
    else fresh (s.closeWindow type object) (max source w.last.source)
  | none => fresh s source

/-- A coalesced record of a collection. -/
def State.coalesceC (s : State) (type source coll : Nat) (payload : Bytes) : State :=
  s.coalesce type coll source coll 0xFFFF payload

/-- The object number of a channel: Wing in bits 9:8, selector in bits 7:0 (R243). -/
def chanObj (w sel : Nat) : Nat := w * 256 + sel

/-- Source of a channel. -/
def chanSrc (w sel : Nat) : Nat := src (wingDie w) (selUnit sel)

/-- Die control of the primary Lobby (R472). -/
def State.primarySrc (s : State) : Nat := src s.pkg.primary 0

/-- The Steward's source (R472). -/
def State.stewardSrc (s : State) : Nat := src s.pkg.primary 1

/-- Has a commit of an /LM1 package met its instant and not yet been applied, so that everything new is held (R347)? -/
def State.swapping (s : State) : Bool := s.pkg.mark == 1 && s.ed.phase == 3 && decide (s.ed.instant ≤ s.tsc)

end Sys2Proof.Machine
end

