-- ==== Sys2Proof/Machine/Memory.lean ====
section
/-! DEFINITION. The DRAM of every channel as one list of cells in canonical form, channel geometry (R244-R249), stored
lines with their check bytes (R217-R227), the checker flip (R236) and the tweak of a stored line (R87). -/

namespace Sys2Proof.Machine

/-- The byte at an address; an unlisted address reads 0 (R232; log 8). -/
def memRead (m : List Host.Cell) (a : Nat) : Byte :=
  match m with
  | [] => 0
  | (x, b) :: t => if x = a then b else memRead t a

/-- Write a byte, keeping the canonical form. -/
def memWrite (m : List Host.Cell) (a : Nat) (v : Byte) : List Host.Cell :=
  match m with
  | [] => if v = 0 then [] else [(a, v)]
  | (x, b) :: t =>
    if x < a then (x, b) :: memWrite t a v
    else if x = a then (if v = 0 then t else (a, v) :: t)
    else if v = 0 then (x, b) :: t else (a, v) :: (x, b) :: t

/-- Write consecutive bytes. -/
def memWriteN (m : List Host.Cell) (a : Nat) : Bytes → List Host.Cell
  | [] => m
  | b :: bs => memWriteN (memWrite m a b) (a + 1) bs

/-- Read consecutive bytes. -/
def memReadN (m : List Host.Cell) (a n : Nat) : Bytes := (List.range n).map fun i => memRead m (a + i)

/-- The canonical form: addresses strictly rising from a bound, and no entry equal to what an unlisted address reads. -/
def wfFrom (lo : Nat) : List Host.Cell → Bool
  | [] => true
  | (x, b) :: t => decide (lo ≤ x) && b != 0 && wfFrom (x + 1) t

/-- The canonical form of memory. -/
def Memory.wf (m : List Host.Cell) : Bool := wfFrom 0 m

/-- Is a channel selector a Depot one (R197)? -/
def isDepot (sel : Nat) : Bool := sel < 0x10

/-- Number of populated Gallery sites of a Wing. -/
def State.sites (s : State) : Nat := s.pkg.asm.sites

/-- Bytes of a Depot channel (R245). -/
def State.depotBytes (s : State) : Nat := s.pkg.dimms * 2 ^ (35 + s.pkg.dimmCode)

/-- Slots of a channel (R246). -/
def State.chanSlots (s : State) (depot : Bool) : Nat := if depot then s.depotBytes / 512 else 4394531

/-- Lines of a channel (R244). -/
def State.chanLines (s : State) (depot : Bool) : Nat := if depot then s.depotBytes / 64 else 35156250

/-- Slots of a channel that collections may take: outside the reserve of R248 on the Depot. -/
def State.usableSlots (s : State) (depot : Bool) : Nat :=
  if depot then s.chanSlots true - s.chanSlots true / 32 else s.chanSlots false

/-- Channel selector and channel-local address of stored line `j` of a run (R246). -/
def State.locate (s : State) (tier : Tier) (site slot j : Nat) : Nat × Nat :=
  let d := tier == .depot
  let n := s.chanSlots d
  (if d then slot / n else 0x10 + 16 * site + slot / n, slot % n * 512 + 64 * j)

/-- The channel a run lies on. -/
def State.runSel (s : State) (r : Run) : Nat := (s.locate r.tier r.site r.slot 0).1

/-- Does a channel serve requests: in service, or in self-refresh, which a request ends (R264, R266)? -/
def State.serves (s : State) (w sel : Nat) : Bool :=
  match s.chan? w sel with
  | some c => c.st == 2 || c.st == 8
  | none => false

/-- Is a channel present (R247, R421)? -/
def State.chanPresent (s : State) (w sel : Nat) : Bool :=
  match s.chan? w sel with
  | some c => c.st != 0
  | none => false

/-- Base of a channel's bytes in the model's address space: data plane 0, check bytes plane 1. -/
def chanBase (w sel plane : Nat) : Nat := ((w * 64 + sel) * 2 + plane) * 2 ^ 40

/-- Address of the check bytes of a line. -/
def checkAddr (w sel addr : Nat) : Nat := chanBase w sel 1 + addr / 64 * 16

/-- The fields a channel-local line index decodes to (R249). A Gallery line has a column, one of 64 banks and a row. -/
structure DramAddr where
  column : Nat
  group : Nat
  bank : Nat
  row : Nat
  chip : Nat
  cs : Nat
  dimm : Nat
deriving DecidableEq, Repr

/-- Rows of a bank of the installed RDIMMs (R245). -/
def State.rowsPerBank (s : State) : Nat := if s.pkg.dimmCode = 1 then 65536 else 131072

/-- 3DS height of the installed RDIMMs (R245). -/
def State.stackHeight (s : State) : Nat := if s.pkg.dimmCode = 3 then 2 else 1

/-- Lines of a row (R244): 16 KiB on the Depot, 2 KiB on the Gallery. -/
def rowLines (depot : Bool) : Nat := if depot then 256 else 32

/-- Banks of a rank of the Depot, and of a Gallery channel (R244). -/
def bankCount (depot : Bool) : Nat := if depot then 32 else 64

/-- Decode a channel-local line index (R249). -/
def State.dramAddr (s : State) (depot : Bool) (x : Nat) : DramAddr :=
  let r := s.rowsPerBank
  let c := s.stackHeight
  if depot then
    { column := x % rowLines true, group := x / 256 % 8, bank := x / 2048 % 4, row := x / 8192 % r,
      chip := x / (8192 * r) % c, cs := x / (8192 * r * c) % 2, dimm := x / (16384 * r * c) }
  else
    { column := x % rowLines false, group := 0, bank := x / 32 % bankCount false, row := x / 2048, chip := 0, cs := 0, dimm := 0 }

/-- The rank a bank's number lies in. -/
def bankRank (key : Nat) : Nat := key / 1024

/-- A bank of a channel as one number: bank, bank group, chip ID, chip select and DIMM (R252). -/
def DramAddr.bankKey (a : DramAddr) : Nat := a.bank + 64 * (a.group + 8 * (a.chip + 2 * (a.cs + 2 * a.dimm)))

/-- The rank of a line of a Depot channel: DIMM and chip select (R249, R258). -/
def DramAddr.rank (a : DramAddr) : Nat := 2 * a.dimm + a.cs

/-- The rank of a channel-local address (R249). -/
def State.rankOf (s : State) (addr : Nat) : Nat := (s.dramAddr true (addr / 64)).rank

/-- Bank and row of a channel-local address. -/
def State.bankRow (s : State) (sel addr : Nat) : Nat × Nat :=
  let a := s.dramAddr (isDepot sel) (addr / 64)
  (a.bankKey, a.row)

/-- The write queue of a channel, oldest first (R250). -/
def State.writeQueue (s : State) (w sel : Nat) : List QWrite :=
  match s.chan? w sel with | some c => c.wq | none => []

/-- The stored bytes of a line, data and check bytes, as they stand once the writes queued for it have issued. -/
def State.rawLine (s : State) (w sel addr : Nat) : Bytes × Bytes :=
  match (s.writeQueue w sel).reverse.find? (·.addr == addr) with
  | some q => (q.data, q.check)
  | none => (memReadN s.mem.dram (chanBase w sel 0 + addr) 64, memReadN s.mem.dram (checkAddr w sel addr) (checkLen (isDepot sel)))

/-- A channel issues a command to a line (R262, R265): the log keeps the last 64, the line's row is open in its bank, row
hits on end are counted, and the line's rank leaves power-down and starts to idle anew. -/
def State.noteAccess (s : State) (w sel addr kind : Nat) : State :=
  let br := s.bankRow sel addr
  let rank := s.rankOf addr
  s.updChan w sel fun c =>
    { c with log := (c.log ++ [(⟨s.dieTsc (wingDie w), kind, addr⟩ : ChanCmd)]).drop (c.log.length - 63),
             hits := if c.rows.contains br then (br.1, if c.hits.1 = br.1 then c.hits.2 + 1 else 1) else (br.1, 0),
             rows := br :: c.rows.filter (·.1 != br.1),
             poweredDown := if isDepot sel then c.poweredDown.filter (· != rank) else c.poweredDown,
             idleFrom := if isDepot sel then (rank, s.tsc) :: c.idleFrom.filter (·.1 != rank) else c.idleFrom }

/-- A channel issues a command to a whole rank (R254, R262, R265): kind 2 a refresh, 3 a power-down or self-refresh entry, which
closes the rank's rows. -/
def Chan.noteRank (c : Chan) (tsc rank kind : Nat) : Chan :=
  { c with log := (c.log ++ [(⟨tsc, kind, rank⟩ : ChanCmd)]).drop (c.log.length - 63), rows := c.rows.filter fun r => bankRank r.1 != rank }

/-- Store a line's data and check bytes in the DRAM as given. -/
def State.setRawLine (s : State) (w sel addr : Nat) (data check : Bytes) : State :=
  let d := memWriteN (memWriteN s.mem.dram (chanBase w sel 0 + addr) data) (checkAddr w sel addr) check
  (s.updMem fun m => { m with dram := d }).noteAccess w sel addr 1

/-- The cached lines of a block leave the cache once every write queued for the block has issued (R264). -/
def State.releaseQueued (s : State) (w c blk : Nat) : State :=
  if s.chans.any fun x => x.wing == w && x.wq.any fun q => q.coll == c && q.blk == some blk then s
  else s.updMem fun m => { m with cache := m.cache.filter fun l => !(l.queued && l.coll == c && l.wing == w && l.line / 64 == blk) }

/-- A queued write issues to the DRAM (R251). Writes stop taking precedence when 16 are left. -/
def State.issueWrite (s : State) (w sel : Nat) (q : QWrite) : State :=
  let s1 := s.updChan w sel fun c =>
    let l := c.wq.filter (·.id != q.id)
    { c with wq := l, drain := c.drain && decide (16 < l.length) }
  let s2 := s1.setRawLine w sel q.addr q.data q.check
  match q.blk with
  | some b => s2.releaseQueued w q.coll b
  | none => s2

/-- A read issues to the DRAM (R251). -/
def State.issueRead (s : State) (r : PendRead) (addr : Nat) : State :=
  (s.updMem fun m => { m with reads := updWhere (·.id == r.id) (fun x => { x with stage := .issued }) m.reads }).noteAccess
    r.wing r.sel addr 0

/-- A request in a channel's queues (R250). -/
inductive Req where
  | read (r : PendRead)
  | write (q : QWrite)
deriving DecidableEq, Repr

/-- Order of arrival of a request. -/
def Req.id : Req → Nat
  | .read r => r.id
  | .write q => q.id

/-- Is a request a read? -/
def Req.isRead : Req → Bool
  | .read _ => true
  | .write _ => false

/-- Banks and rows a request needs, the first line's in front. -/
def State.reqPlaces (s : State) (sel : Nat) : Req → List (Nat × Nat)
  | .read r => r.places
  | .write q => [s.bankRow sel q.addr]

/-- The class a request is scheduled at: one of class 2 or 3 that has waited longer than the age limit OD 0x2810:04 is
treated as class 1 (R251). -/
def State.reqClass (s : State) (x : Req) : Nat :=
  let p := match x with | .read r => (r.cls, r.at_) | .write q => (q.cls, q.at_)
  if 2 ≤ p.1 ∧ p.2 + s.act.nat 0x2810 4 0 20000 < s.tsc then 1 else p.1

/-- The requests a channel holds: its queued reads, and up to 64 writes (R250). -/
def State.requests (s : State) (w sel : Nat) : List Req :=
  ((s.mem.reads.filter fun r => r.wing == w && r.sel == sel && r.stage == .queued).map .read) ++
  (((s.writeQueue w sel).take 64).map .write)

/-- Is a bank in in-order mode: does a queued read match the bank and row of an earlier write still queued (R252)? -/
def State.inOrder (s : State) (sel : Nat) (l : List Req) (bank : Nat) : Bool :=
  l.any fun r => r.isRead && l.any fun q => !q.isRead && decide (q.id < r.id) &&
    (s.reqPlaces sel q).any fun p => p.1 == bank && (s.reqPlaces sel r).contains p

/-- Does each bank a request needs offer it: a bank in in-order mode offers only its oldest request (R251 step 1)? -/
def State.offers (s : State) (sel : Nat) (l : List Req) (x : Req) : Bool :=
  (s.reqPlaces sel x).all fun p => !s.inOrder sel l p.1 ||
    l.all fun y => decide (x.id ≤ y.id) || !((s.reqPlaces sel y).any (·.1 == p.1))

/-- Does a request hit an open row? -/
def State.rowHit (s : State) (w sel : Nat) (x : Req) : Bool :=
  match s.chan? w sel, s.reqPlaces sel x with
  | some c, p :: _ => c.rows.contains p
  | _, _ => false

/-- The first of a list by class, row hit and age (R251 steps 2, 3). -/
def State.firstReq (s : State) (w sel : Nat) (l : List Req) : Option Req :=
  let key (x : Req) : Nat × Nat := (2 * s.reqClass x + bit1 (!s.rowHit w sel x), x.id)
  l.foldl (fun b x => match b with
    | none => some x
    | some y => if (key x).1 < (key y).1 ∨ ((key x).1 = (key y).1 ∧ (key x).2 < (key y).2) then some x else b) none

/-- The access a channel picks next (R251, R252). Reads take precedence over writes, but for a write that heads a bank in
in-order mode, until 48 writes are queued; from then until 16 are, writes do, and only class-0 reads precede them. After 16
row hits on end to a bank the oldest miss that waits there longer than the pick is taken. -/
def State.pickReq (s : State) (w sel : Nat) : Option Req :=
  let l := s.requests w sel
  let ok := l.filter (s.offers sel l)
  let reads := ok.filter (·.isRead)
  let writes := ok.filter fun x => !x.isRead
  let drain := match s.chan? w sel with | some c => c.drain | none => false
  let urgent := reads.filter fun x => s.reqClass x == 0
  let pool :=
    if !l.any (·.isRead) then writes
    else if drain then (if !urgent.isEmpty then urgent else if !writes.isEmpty then writes else reads)
    else reads ++ writes.filter fun x => (s.reqPlaces sel x).any fun p => s.inOrder sel l p.1
  match s.firstReq w sel pool, s.chan? w sel with
  | some x, some c =>
    let bank := c.hits.1
    if 16 ≤ c.hits.2 && s.rowHit w sel x && (s.reqPlaces sel x).any (·.1 == bank) then
      let misses := pool.filter fun y => !s.rowHit w sel y && (s.reqPlaces sel y).any (·.1 == bank) && decide (y.id < x.id)
      match misses.foldl (fun b y => match b with
          | none => some y
          | some z => if y.id < z.id then some y else b) none with
      | some y => some y
      | none => some x
    else some x
  | x, _ => x

/-- Does the Depot frequency of a Wing change? The Wings of an order change one after another, in its order (R261, R381). -/
def State.changing (s : State) (w : Nat) : Bool :=
  match s.pw.freqChange.head? with | some x => x.1 == w | none => false

/-- Do a channel's commands pause: for its Wing's frequency change (R261), or with the PLL of its PHY or controller out of lock
(R387)? -/
def State.paused (s : State) (w sel : Nat) : Bool :=
  (isDepot sel && s.changing w) ||
  s.pw.pllLost.any fun l => l.die == wingDie w && (if isDepot sel then l.domain == 11 || l.domain == 12 else l.domain == 9 || l.domain == 10)

/-- The ranks of the Wing whose turn it is enter self-refresh for its frequency change (R261 step 3). -/
def State.startFreq (s : State) : State :=
  let cs := updWhere (fun c => isDepot c.sel && s.changing c.wing && c.st != 0 && c.st != 3 && c.st != 6)
    (fun c => { c with selfRefresh := true, poweredDown := [] }) s.chans
  { s with chans := cs }

/-- A Wing's frequency change ends, and the next Wing's begins. -/
def State.endFreq (s : State) (w : Nat) : State :=
  let s1 := { s with pw := { s.pw with freqChange := s.pw.freqChange.filter (·.1 != w) } }
  if s.changing w then s1.startFreq else s1

/-- Does a channel issue commands for its queued requests? -/
def State.issues (s : State) (w sel : Nat) : Bool := s.serves w sel && !s.paused w sel

/-- Channel-local address of the first line a waiting read needs. -/
def State.readAddr (s : State) (r : PendRead) : Nat :=
  (s.locate r.entry.tier r.entry.site r.entry.slot (if r.entry.coding = 1 ∧ r.view.isNone then r.line % 64 + 1 else 0)).2

/-- Issue the picked request. -/
def State.issueReq (s : State) (w sel : Nat) : Req → State
  | .read r => s.issueRead r (s.readAddr r)
  | .write q => s.issueWrite w sel q

/-- The controller's command slots (R251): while no read it issued is still to return, it issues what it picks, writes at
once and one read. -/
def State.pumpAux (w sel : Nat) : Nat → State → State
  | 0, s => s
  | fuel + 1, s =>
    if !s.issues w sel || s.mem.reads.any (fun r => r.wing == w && r.sel == sel && r.stage == .issued) then s
    else
      match s.pickReq w sel with
      | none => s
      | some x => State.pumpAux w sel fuel (s.issueReq w sel x)

/-- A request wakes its rank from power-down at once (R262). -/
def State.wakeRank (s : State) (w sel addr : Nat) : State :=
  s.updChan w sel fun c => if isDepot sel then { c with poweredDown := c.poweredDown.filter (· != s.rankOf addr) } else c

/-- A read that waits at the ingress enters its channel's queue when an entry is free (R250, R400): 128 entries, of which 32
are usable only by conforming class-0 reads; those pass every waiting request of another class. -/
def State.admitAux (w sel : Nat) : Nat → State → State
  | 0, s => s
  | fuel + 1, s =>
    let here := s.mem.reads.filter fun r => r.wing == w && r.sel == sel
    let held := (here.filter (·.stage != .ingress)).length
    let wait := here.filter (·.stage == .ingress)
    let pick := if held < 128 then
        match wait.find? (·.cls == 0) with
        | some r => some r
        | none => if held < 96 then wait.head? else none
      else none
    match pick with
    | none => s
    | some r => State.admitAux w sel fuel
        (s.updMem fun m => { m with reads := updWhere (·.id == r.id) (fun x => { x with stage := .queued }) m.reads })

/-- A channel's queues go on: waiting reads enter, and what the controller picks issues. -/
def State.pump (s : State) (w sel : Nat) : State :=
  let s1 := State.admitAux w sel s.mem.reads.length s
  State.pumpAux w sel ((s1.writeQueue w sel).length + s1.mem.reads.length + 1) s1

/-- Issue queued writes of a channel, in order of arrival. -/
def State.issueWrites (s : State) (w sel : Nat) (l : List QWrite) : State :=
  if s.paused w sel then s else l.foldl (fun s q => s.issueWrite w sel q) s

/-- A line is needed whose bank and row match queued writes: the bank issues its writes in order of arrival up to the last
that matches, and the reads it holds before that (R252). A read is never served from the write queue. -/
def State.forceBank (s : State) (w sel addr : Nat) : State :=
  let br := s.bankRow sel addr
  let q := s.writeQueue w sel
  match (q.filter fun x => s.bankRow sel x.addr == br).getLast? with
  | none => s
  | some last =>
    let mine := q.filter fun x => (s.bankRow sel x.addr).1 == br.1 && decide (x.id ≤ last.id)
    let before (r : PendRead) : Bool := r.wing == w && r.sel == sel && r.stage == .queued && decide (r.id < last.id) &&
      r.places.any (·.1 == br.1)
    if s.paused w sel then s
    else
      (s.updMem fun m => { m with reads := updWhere before (fun r => { r with stage := .issued }) m.reads }).issueWrites w sel mine

/-- Every write queued on behalf of a block issues: what needs it waits for that (R251, R264). -/
def State.forceBlock (s : State) (c w blk : Nat) : State :=
  (s.chans.filter fun x => x.wing == w && !x.wq.isEmpty).foldl (fun s x =>
    s.issueWrites w x.sel (x.wq.filter fun q => q.coll == c && q.blk == some blk)) s

/-- The writes a Wing queued from the number `mark` on issue. -/
def State.issueSince (s : State) (w mark : Nat) : State :=
  (s.chans.filter fun x => x.wing == w && !x.wq.isEmpty).foldl (fun s x =>
    s.issueWrites w x.sel (x.wq.filter fun q => decide (mark ≤ q.id))) s

/-- Every queued write of a channel issues. -/
def State.forceChan (s : State) (w sel : Nat) : State := s.issueWrites w sel (s.writeQueue w sel)

/-- A write reaches its channel (R250, R251): with no read and no write before it, it issues at once; otherwise it takes its
place in the write queue. An earlier write to the same line issues first. -/
def State.queueWrite (s : State) (w sel addr : Nat) (data check : Bytes) (c cls : Nat) (blk : Option Nat) : State :=
  let s := s.issueWrites w sel ((s.writeQueue w sel).filter (·.addr == addr))
  let busy := s.mem.reads.any fun r => r.wing == w && r.sel == sel && r.stage != .ingress
  if !busy && !s.paused w sel && (s.writeQueue w sel).isEmpty then s.setRawLine w sel addr data check
  else
    State.updChan (({ s with fresh := s.fresh + 1 } : State).wakeRank w sel addr) w sel fun x =>
      { x with wq := x.wq ++ [{ id := s.fresh, addr := addr, data := data, check := check, cls := cls, at_ := s.tsc, coll := c, blk := blk }],
               drain := x.drain || decide (47 ≤ x.wq.length) }

/-- The bytes of a line and its check bytes as a write with fresh check bits stores them; a poisoned line takes the
poison syndrome (R227). -/
def freshLine (depot : Bool) (data : Bytes) (poison : Bool) : Bytes × Bytes :=
  if poison then poisonLine depot else (data, lineCheck depot data)

/-- Store a line with fresh check bits, no flip applying (docents, scrub, split-write): the device's own traffic, of class 3
(R250). -/
def State.storeQuiet (s : State) (w sel addr : Nat) (data : Bytes) (poison : Bool) : State :=
  let l := freshLine (isDepot sel) data poison
  s.queueWrite w sel addr l.1 l.2 0xFFFF 3 none

/-- Does an armed flip match a line stored for collection `c` (R235, R236)? `off` is the data-window offset a payload
line of a RAW-coded block holds. -/
def Flip.matches (f : Flip) (c addr : Nat) (off : Option Nat) : Bool :=
  bitSet f.ctl 0 && bits f.ctl 8 12 == c &&
  (match bits f.ctl 2 2 with
   | 0 => true
   | 1 => off == some (bits f.addr 6 50 * 64)
   | 2 => addr == bits f.addr 6 50 * 64
   | _ => false)

/-- XOR a byte into the selected positions. -/
def xorSel (bs : Bytes) (sel : Nat) (p : Byte) : Bytes :=
  bs.mapIdx fun i b => if bitSet sel i then b ^^^ p else b

/-- Store a line on behalf of a collection with fresh check bits, firing an armed flip that it matches (R236): at the class
`cls`, for the block `blk` when it is written back or stored anew. -/
def State.storeLine (s : State) (w sel addr c : Nat) (off : Option Nat) (data : Bytes) (poison : Bool) (cls : Nat)
    (blk : Option Nat) : State :=
  let l := freshLine (isDepot sel) data poison
  match s.chan? w sel with
  | none => s
  | some ch =>
    if ch.flip.matches c addr off then
      let p := byteOf (bits ch.flip.ctl 32 8)
      let l' := if bitSet ch.flip.ctl 4 then (l.1, xorBytes l.2 (poisonPattern (isDepot sel)))
                else (xorSel l.1 ch.flip.sel0 p, xorSel l.2 ch.flip.sel1 p)
      (s.queueWrite w sel addr l'.1 l'.2 c cls blk).updChan w sel fun x =>
        { x with flip := { x.flip with ctl := putBit (putBit x.flip.ctl 0 false) 1 true } }
    else s.queueWrite w sel addr l.1 l.2 c cls blk

/-- Read a line through the decoder, counting what it finds (R223-R225, R237): what it found, with the delivered bytes, or
the stored bytes of a line it cannot correct. `owner` is the collection and block of an allocated run. -/
def State.decodeAt (s : State) (w sel addr : Nat) (owner : Option (Nat × Nat)) : State × Found × Bytes :=
  let s := (s.forceBank w sel addr).noteAccess w sel addr 0
  let l := s.rawLine w sel addr
  let d := lineDecode (isDepot sel) l.1 l.2
  let o := chanObj w sel
  match d.1 with
  | .clean => (s, .clean, d.2)
  | .corrected =>
    ((s.bump 0x2801 1 o 1).updChan w sel fun c => { c with winCorrected := c.winCorrected + 1 }, .corrected, d.2)
  | .poison => (s.bump 0x2801 3 o 1, .poison, l.1)
  | .uncorrectable =>
    ((s.bump 0x2801 2 o 1).coalesce 0x42 o (chanSrc w sel) (match owner with | some x => x.1 | none => 0xFFFF) 0xFFFE
      (pack [(1, w), (1, sel), (5, addr / 64),
             (5, match owner with | some x => x.2 | none => 0xFFFFFFFFFF)]), .uncorrectable, l.1)

/-- Read a line on behalf of a requester: the delivered bytes and whether the line is poison. -/
def State.readLine (s : State) (w sel addr : Nat) (owner : Option (Nat × Nat)) : State × Bytes × Bool :=
  if !s.serves w sel then (s, zeros 64, true)
  else
    let r := s.decodeAt w sel addr owner
    if r.2.1 == .clean || r.2.1 == .corrected then (r.1, r.2.2, false) else (r.1, zeros 64, true)

/-- The key of a collection on a Wing (R240). -/
def State.key (s : State) (c w : Nat) : BitVec 512 :=
  match s.mem.keys.find? fun k => k.coll == c && k.wing == w with
  | some k => k.key
  | none => 0

/-- Read bytes under the per-byte code (R213, R216): a corrected byte is counted and delivered corrected; an uncorrectable one
is counted and poisons the lines that hold it, with a notice of the unit. The bytes, whether they are poison, and what the
place holds from then on. -/
def State.readSram (s : State) (die unit c : Nat) (b : Sram) : State × Bytes × Bool × Sram :=
  let rs := List.zipWith sramRead b.data b.check
  let n (f : Found) := (rs.filter fun x => x.1 == f).length
  let out := rs.map (·.2)
  let s1 := (s.bump 0x2120 (die + 1) 0 (n .corrected)).bump 0x2121 (die + 1) 0 (n .uncorrectable)
  if n .uncorrectable ≠ 0 then (s1.event .d 0x40 (src die unit) c [], b.data, true, ⟨b.data, sramStore true b.data⟩)
  else if n .poison ≠ 0 then (s1, b.data, true, b)
  else (s1, out, false, ⟨out, sramStore false out⟩)

/-- Bytes stored clean or with the poison syndrome under the per-byte code (R214, R215). -/
def Sram.store (poison : Bool) (bs : Bytes) : Sram := ⟨bs, sramStore poison bs⟩

/-- The tweak of a slot (R87). -/
def tweak (g c w blk slotIdx : Nat) : Nat :=
  c + slotIdx * 2 ^ 12 + blk * 2 ^ 16 + (if g < 4096 then w * 2 ^ 50 else 0)

/-- Encrypt or decrypt stored line `j` of a run (R86, R87). -/
def State.crypt (s : State) (decrypt : Bool) (c w blk j : Nat) (data : Bytes) : Bytes :=
  xts decrypt (s.key c w) (tweak (s.act.grain c) c w blk (j / 8)) (j % 8 * 4) data

end Sys2Proof.Machine
end

