-- ==== Sys2Proof/Machine/Catalogue.lean ====
section
/-! DEFINITION. The catalogue (R83, R84), slot accounting (R53-R56), lots (R120-R122), the allocator (R123-R126, R247,
R248) and the freeing of runs. -/

namespace Sys2Proof.Machine

/-- The entry of a ZERO block (R83). -/
def CatEntry.zero (c w b : Nat) : CatEntry :=
  { coll := c, wing := w, blk := b, tier := .none, coding := 0, slot := 0xFFFFFFFF, slots := 0, copySlot := none, site := 0,
    segDamage := 0, hdrDamage := false, crcFailed := false, crc := 0, origin := b }

/-- The entry of a lost block (R56, R83). -/
def CatEntry.asLost (c w b : Nat) : CatEntry := { CatEntry.zero c w b with tier := .lost }

/-- Does an entry name this block? -/
def CatEntry.isFor (e : CatEntry) (c w b : Nat) : Bool := e.coll == c && e.wing == w && e.blk == b

/-- Has the block a stored form? -/
def CatEntry.stored (e : CatEntry) : Bool := e.tier == .gallery || e.tier == .depot

/-- The entry of a block; an unlisted block is ZERO. -/
def State.entry (s : State) (c w b : Nat) : CatEntry :=
  match s.mem.cat.find? fun e => e.isFor c w b with
  | some e => e
  | none => .zero c w b

/-- The catalogue's order. -/
def CatEntry.le (a b : CatEntry) : Bool :=
  a.coll < b.coll || (a.coll == b.coll && (a.wing < b.wing || (a.wing == b.wing && a.blk ≤ b.blk)))

/-- The run an entry's primary slot names, and the run of its Depot copy. -/
def CatEntry.primary (e : CatEntry) : Option Run :=
  if e.stored then some ⟨e.wing, e.tier, e.site, e.slot, e.slots⟩ else none

def CatEntry.copy (e : CatEntry) : Option Run := e.copySlot.map fun c => ⟨e.wing, .depot, 0, c, e.slots⟩

/-- Every run an entry names. -/
def CatEntry.runs (e : CatEntry) : List Run := e.primary.toList ++ e.copy.toList

/-- Does a place of the cache hold the header of this block (R26)? -/
def CacheLine.isHdr (l : CacheLine) (c w blk : Nat) : Bool := l.hdr && l.coll == c && l.wing == w && l.line / 64 == blk

/-- Does an entry name the same stored form as another? -/
def CatEntry.sameForm (e x : CatEntry) : Bool := e.primary == x.primary && e.coding == x.coding && e.crc == x.crc

/-- Replace an entry as one atomic update (R84); a ZERO entry is not listed. A cached header of another form is dropped. -/
def State.putEntry (s : State) (e : CatEntry) : State :=
  let rest := s.mem.cat.filter fun x => !x.isFor e.coll e.wing e.blk
  let same := (s.entry e.coll e.wing e.blk).sameForm e
  s.updMem fun m => { m with cat := if e.tier == .none then rest else insertBy CatEntry.le e rest,
                             cache := if same then m.cache else m.cache.filter fun l => !l.isHdr e.coll e.wing e.blk }

/-- Does some entry name the run? -/
def State.named (s : State) (r : Run) : Bool := s.mem.cat.any fun e => e.runs.contains r

/-- Free the runs no entry names any more (R84): a run that a waiting read still needs is deferred. -/
def State.freeRuns (s : State) (rs : List Run) : State :=
  let dead := rs.filter fun r => !s.named r
  let wait := dead.filter fun r => s.mem.reads.any fun x => x.entry.runs.contains r
  s.updMem fun m => { m with deferred := m.deferred ++ wait }

/-- The distinct runs of a collection on a Wing (shared runs once, R158). -/
def State.collRuns (s : State) (c w : Nat) : List Run :=
  ((s.mem.cat.filter fun e => e.coll == c && e.wing == w).flatMap (·.runs)).eraseDups

/-- Slots a collection has charged in a tier on a Wing (R53, R55). -/
def State.chargedOn (s : State) (c w : Nat) (gallery : Bool) : Nat :=
  sumBy (·.slots) ((s.collRuns c w).filter fun r => (r.tier == .gallery) == gallery)

/-- Slots a collection has charged in a tier. -/
def State.chargedTier (s : State) (c : Nat) (gallery : Bool) : Nat :=
  sumBy (fun w => s.chargedOn c w gallery) (s.wingsOf c)

/-- Slots charged against C (R53): for a durable collection the Depot alone counts. -/
def State.charged (s : State) (c : Nat) : Nat :=
  s.chargedTier c false + (if s.act.durable c then 0 else s.chargedTier c true)

/-- Change a collection's state. -/
def State.updColl (s : State) (c : Nat) (f : CollState → CollState) : State :=
  s.updMem fun m => { m with colls := updWhere (·.coll == c) f m.colls }

/-- Source of a Wing's ingress, of its Curator agent (R354). -/
def ingressSrc (w : Nat) : Nat := src (wingDie w) 0xE0
def curatorSrc (w : Nat) : Nat := src (wingDie w) 0xC0

/-- Move a collection through the states of R55 after its charge changed. -/
def State.settle (s : State) (c : Nat) : State :=
  match s.coll? c with
  | none => s
  | some k =>
    if !s.act.overcommit c then s
    else
      let q := s.charged c
      let cap := s.act.capacity c
      let so := ingressSrc (s.commandWing c)
      let high := decide (15 * cap < 16 * q)
      if k.overfull && !high then
        let s1 := (s.updColl c fun k => { k with overfull := false, guarded := false }).watermark .c 0x13 so c true (leBytes 8 q)
        if k.guarded then s1.watermark .c 0x12 so c true (leBytes 8 q) else s1
      else if k.overfull then s
      else if high && !k.guarded then
        (s.updColl c fun k => { k with guarded := true }).watermark .c 0x12 so c false (leBytes 8 q)
      else if !high && k.guarded then
        (s.updColl c fun k => { k with guarded := false }).watermark .c 0x12 so c true (leBytes 8 q)
      else s

/-- Does a block that needs `n` slots and holds `held` make its overcommitted collection overfull (R55)? -/
def State.overflows (s : State) (c held n : Nat) : Bool :=
  s.act.overcommit c && decide (held < n) && decide (s.act.capacity c < s.charged c - held + n)

/-- Enter the overfull state (R55). -/
def State.enterOverfull (s : State) (c : Nat) : State :=
  match s.coll? c with
  | some k =>
    if k.overfull then s
    else (s.updColl c fun k => { k with overfull := true }).watermark .c 0x13 (ingressSrc (s.commandWing c)) c false
      (leBytes 8 (s.charged c))
  | none => s

/-- Is a collection overfull? -/
def State.overfull (s : State) (c : Nat) : Bool :=
  match s.coll? c with | some k => k.overfull | none => false

/-- A Wing lot's record (R122); an unlisted lot has heat 0, no command pin, and the new-lot tier. -/
def State.lot (s : State) (c w l : Nat) : Lot :=
  match s.mem.lots.find? fun x => x.coll == c && x.wing == w && x.lot == l with
  | some x => x
  | none => ⟨c, w, l, !s.act.newDepot c, 0, none⟩

/-- Change a Wing lot's record. -/
def State.updLot (s : State) (c w l : Nat) (f : Lot → Lot) : State :=
  let ls := upsert (fun x => x.coll == c && x.wing == w && x.lot == l) f (s.lot c w l) s.mem.lots
  s.updMem fun m => { m with lots := ls }

/-- Entries that name the same run as an entry, itself included (R157). -/
def State.sharers (s : State) (e : CatEntry) : List CatEntry :=
  s.mem.cat.filter fun x => x.coll == e.coll && x.stored && x.primary == e.primary

/-- Is a stored block shared with another sequence's block? -/
def State.shared (s : State) (e : CatEntry) : Bool := e.stored && decide (1 < (s.sharers e).length)

/-- The Wing lot a block belongs to: a shared block that of its origin block, or of the sharer's block with the lowest
offset when the origin dropped it (R160). -/
def State.homeLot (s : State) (e : CatEntry) : Nat :=
  let bs := (s.sharers e).map (·.blk)
  if bs.isEmpty then s.lotOf e.coll e.blk
  else if bs.contains e.origin then s.lotOf e.coll e.origin
  else s.lotOf e.coll (bs.foldl min (bs.headD e.blk))

/-- The blocks of a Wing lot that the catalogue lists. -/
def State.lotEntries (s : State) (c w l : Nat) : List CatEntry :=
  s.mem.cat.filter fun e => e.coll == c && e.wing == w && s.homeLot e == l

/-- Add accesses to the heat of an entry's lot, up to 255 (R127, R160). -/
def State.heat (s : State) (e : CatEntry) (n : Nat) : State :=
  if n = 0 then s else s.updLot e.coll e.wing (s.homeLot e) fun x => { x with heat := min 255 (x.heat + n) }

/-- Has the lot a stored block? -/
def State.lotStored (s : State) (c w l : Nat) : Bool := (s.lotEntries c w l).any (·.stored)

/-- The tier a Wing's shares allow a lot (R128): a Gallery share of 0 makes it a Depot lot, a non-durable Depot share
of 0 a Gallery lot. -/
def State.allowedTier (s : State) (c w : Nat) (gallery : Bool) : Bool :=
  if s.share c w true = 0 then false
  else if !s.act.durable c && s.share c w false = 0 then true
  else gallery

/-- Wing lots that hold a block of a collection lot (R121): (Wing, lot), each once. -/
def State.lotsOf (s : State) (c t : Nat) : List (Nat × Nat) :=
  let step := min (s.act.grain c) 4096
  ((List.range (65536 / step)).map fun i =>
    let p := s.place c (65536 * t + step * i)
    (p.wing, s.lotOf c p.blk)).eraseDups

/-- Collection lots that have a block in a Wing lot. -/
def State.collLots (s : State) (c w l : Nat) : List Nat :=
  let g := s.act.grain c
  let ws := s.wingsOf c
  ((List.range 1024).map fun i =>
    offsetOf g ws w (blockOfLocal g ws w (16 * l + i / 64)) (i % 64) / 65536).eraseDups

/-- The edition pin that reaches a Wing lot, if any (R121, R135): to the Gallery or to the Depot. -/
def Edition.pinAt (e : Edition) (c : Nat) (ts : List Nat) : Option Bool :=
  (e.pins c).findSome? fun p => if ts.any fun t => decide (p.1 ≤ t) && decide (t < p.1 + p.2.1) then some p.2.2 else none

/-- The pin in force on a Wing lot: an edition pin, otherwise its command pin. -/
def State.pinOf (s : State) (c w l : Nat) : Option Bool :=
  match s.act.pinAt c (s.collLots c w l) with
  | some t => some t
  | none => (s.lot c w l).pin

/-- The Wing lots of a collection on a Wing that the Curator has anything to do with: listed, with a stored block, or reached by
an edition pin. -/
def State.knownLots (s : State) (c w : Nat) : List Nat :=
  (((s.mem.lots.filter fun x => x.coll == c && x.wing == w).map (·.lot)) ++
    ((s.mem.cat.filter fun e => e.coll == c && e.wing == w).map fun e => s.homeLot e) ++
    ((s.act.pins c).flatMap fun p => ((List.range p.2.1).flatMap fun i => s.lotsOf c (p.1 + i)).filterMap fun k =>
      if k.1 = w then some k.2 else none)).eraseDups

/-- Slots of a lot's stored blocks in a tier, each run once. -/
def State.lotSlots (s : State) (c w l : Nat) (gallery : Bool) : Nat :=
  sumBy (·.slots) ((((s.lotEntries c w l).flatMap (·.runs)).eraseDups).filter fun r => (r.tier == .gallery) == gallery)

/-- Slots a lot takes in a tier when it resides there: each primary run once. -/
def State.lotNeed (s : State) (c w l : Nat) : Nat :=
  sumBy (·.slots) (((s.lotEntries c w l).filterMap (·.primary)).eraseDups)

/-- Gallery slots the pins still reserve beyond the charged ones of their lots, up to 144 a lot (R135), lot `but` left out. -/
def State.headroomBut (s : State) (c w : Nat) (but : Option Nat) : Nat :=
  sumBy (fun l => if some l != but && s.pinOf c w l == some true then 144 - s.lotSlots c w l true else 0) (s.knownLots c w)

/-- The whole pin headroom of a collection on a Wing. -/
def State.pinHeadroom (s : State) (c w : Nat) : Nat := s.headroomBut c w none

/-- Is a block in flight to another tier: a move of its lot has started, the block is one it has still to come to, and it lies in
the other tier (R122, R131, R132)? -/
def State.moving (s : State) (e : CatEntry) : Bool :=
  e.stored && s.mem.moves.any fun m => m.started && m.coll == e.coll && m.wing == e.wing && m.lot == s.homeLot e &&
    (e.tier == .gallery) != m.toGallery && decide (m.next ≤ e.blk) && (m.only.isEmpty || m.only.contains e.blk)

/-- The channels of a tier on a Wing that are present, ascending (R247). -/
def State.tierChans (s : State) (w : Nat) (gallery : Bool) : List Nat :=
  (s.chans.filter fun c => c.wing == w && isDepot c.sel == !gallery && c.st != 0).map (·.sel)

/-- The preferred channel of a block in a tier (R247). -/
def State.preferred (s : State) (c blk : Nat) (gallery : Bool) : Nat :=
  let u := max (s.act.grain c) 4096
  let q := 4096 * s.locBlock c blk / u + c
  if gallery then 0x10 + q % (16 * s.sites) else q % 4

/-- The channels in the order the spill rule tries them (R247): from the preferred one, ascending and wrapping. -/
def State.spillOrder (s : State) (c w blk : Nat) (gallery : Bool) : List Nat :=
  let p := s.preferred c blk gallery
  let cs := s.tierChans w gallery
  cs.filter (p ≤ ·) ++ cs.filter (· < p)

/-- Runs in use on a channel: named by an entry, deferred, or taken by a docent. -/
def State.usedOn (s : State) (w sel : Nat) : List Run :=
  ((s.mem.cat.filter (·.wing == w)).flatMap (·.runs) ++ s.mem.deferred.filter (·.wing == w) ++
    ((s.mem.allocs.map (·.2)).filter (·.wing == w))).filter fun r => s.runSel r == sel

/-- First slot of a channel in its tier's numbering (R246). -/
def State.chanFirst (s : State) (sel : Nat) : Nat :=
  if isDepot sel then sel * s.chanSlots true else (sel - 0x10) % 16 * s.chanSlots false

/-- Can `n` slots start at `a` among the used runs? -/
def fits (used : List Run) (lo hi n a : Nat) : Bool :=
  decide (lo ≤ a) && decide (a + n ≤ hi) && used.all fun r => decide (a + n ≤ r.slot) || decide (r.slot + r.slots ≤ a)

/-- A free run of `n` slots of a channel: the one a free value names when it fits, otherwise the lowest (R247 leaves
the run open; log 1). -/
def State.freeRun (s : State) (w sel n : Nat) : Option Nat :=
  let lo := s.chanFirst sel
  let hi := lo + s.usableSlots (isDepot sel)
  let used := s.usedOn w sel
  let a := lo + Config.freeSlot s.fresh % max 1 (s.usableSlots (isDepot sel))
  if fits used lo hi n a then some a
  else (sortBy (fun x y : Nat => decide (x ≤ y)) (lo :: used.map fun r => r.slot + r.slots)).find? (fits used lo hi n)

/-- Slots charged to a collection on a channel, and in a tier of a Wing, runs in `old` (about to be freed) apart and
runs a docent holds included. -/
def State.roomUsed (s : State) (c w : Nat) (gallery : Bool) (sel : Option Nat) (old : List Run) : Nat :=
  let rs := (s.collRuns c w ++ ((s.mem.allocs.filter fun a => a.1 == c && a.2.wing == w).map (·.2))).eraseDups
  sumBy (·.slots) (rs.filter fun r => (r.tier == .gallery) == gallery && !old.contains r &&
    (match sel with | some x => s.runSel r == x | none => true))

/-- Find a run of `n` slots for a block in a tier under R247: the channel, the first slot, and whether it spilled. The Gallery slots
that the pins of other lots reserve are not taken (R135). -/
def State.findRun (s : State) (c w blk : Nat) (gallery : Bool) (n : Nat) (old : List Run) (avoid : Option Nat) :
    Option (Nat × Nat × Bool) :=
  let share := s.share c w gallery
  let portion := ceilDiv share (max 1 (s.tierChans w gallery).length)
  let kept := if gallery then s.headroomBut c w (some (s.homeLot (s.entry c w blk))) else 0
  if share < s.roomUsed c w gallery none old + kept + n then none
  else
    match (s.spillOrder c w blk gallery).find? fun sel =>
      decide (s.roomUsed c w gallery (some sel) old + n ≤ portion) && s.serves w sel && some sel != avoid &&
      (s.freeRun w sel n).isSome with
    | some sel =>
      match s.freeRun w sel n with
      | some a => some (sel, a, sel != s.preferred c blk gallery)
      | none => none
    | none => none

/-- Where a block goes (R126). -/
structure Spot where
  tier : Tier
  sel : Nat
  slot : Nat
  copy : Option (Nat × Nat)
  displaced : Bool
  spills : List Nat
deriving DecidableEq, Repr

/-- Place a block that needs `n` slots (R126), its lot tier given; none when neither share has room (R125). -/
def State.findSpot (s : State) (c w blk : Nat) (gallery : Bool) (n : Nat) (old : List Run) : Option Spot :=
  let want := s.allowedTier c w gallery
  let g := s.findRun c w blk true n old none
  let d := ({ s with fresh := s.fresh + 1 } : State).findRun c w blk false n old none
  let spill (x : Nat × Nat × Bool) : List Nat := if x.2.2 then [x.1] else []
  if s.act.durable c then
    match d with
    | none => none
    | some dx =>
      if want then
        match g with
        | some gx => some ⟨.gallery, gx.1, gx.2.1, some (dx.1, dx.2.1), false, spill gx ++ spill dx⟩
        | none => some ⟨.depot, dx.1, dx.2.1, none, true, spill dx⟩
      else some ⟨.depot, dx.1, dx.2.1, none, false, spill dx⟩
  else if want then
    match g, d with
    | some gx, _ => some ⟨.gallery, gx.1, gx.2.1, none, false, spill gx⟩
    | none, some dx => some ⟨.depot, dx.1, dx.2.1, none, true, spill dx⟩
    | none, none => none
  else
    match d, g with
    | some dx, _ => some ⟨.depot, dx.1, dx.2.1, none, false, spill dx⟩
    | none, some gx => some ⟨.gallery, gx.1, gx.2.1, none, true, spill gx⟩
    | none, none => none

/-- Site of a Gallery channel selector. -/
def siteOf (sel : Nat) : Nat := if isDepot sel then 0 else (sel - 0x10) / 16

/-- Is a stored block displaced: stored in a tier other than its lot's and not in flight to it, or a durable Gallery lot's block
without its Gallery run (R122, R126, R134)? -/
def State.displaced (s : State) (e : CatEntry) : Bool :=
  e.stored && !s.moving e && (e.tier == .gallery) != s.allowedTier e.coll e.wing (s.lot e.coll e.wing (s.homeLot e)).gallery

/-- Does any run of the entry lie on a channel that does not serve (R264)? -/
def State.stuck (s : State) (e : CatEntry) : Bool := e.runs.any fun r => !s.serves r.wing (s.runSel r)

end Sys2Proof.Machine
end

