-- ==== Sys2Proof/Machine/CorridorOps.lean ====
section
/-! DEFINITION. The Corridor (R19-R21, R271-R283): links and routes, streams, flits, sequence numbers and replay. -/

namespace Sys2Proof.Machine

/-- The port at the far end of a die's Corridor port (R19, R271). -/
def Assembly.peer (a : Assembly) (die i : Nat) : Option (Nat × Nat) :=
  if !(a.cports die).contains i then none
  else if die < 2 then (if i = 2 then some (1 - die, 2) else some (4 + 2 * die + i, 0))
  else
    let w := die - 4
    some (if i = 0 then (w / 2, w % 2) else if i = 1 then (4 + (w ^^^ 1), 1) else (4 + (w ^^^ 2), 2))

/-- The dies on the route of link-port and Mover streams of a Lobby to a Wing (R20, R21). -/
def Assembly.route (a : Assembly) (lobby w : Nat) : List Nat :=
  if a.lobbies.length = 1 then (if w < 2 then [0, 4 + w] else [0, 2 + w, 4 + w])
  else if w / 2 = lobby then [lobby, 4 + w]
  else [lobby, 1 - lobby, 4 + w]

/-- The dies on the route of Wing-to-Wing streams (R21), `u < v`. -/
def wingRoute (u v : Nat) : List Nat :=
  if u ^^^ v = 3 then (if u = 0 then [4, 5, 7] else [5, 4, 6]) else [4 + u, 4 + v]

/-- Does a route use the link between two dies? -/
def usesLink (r : List Nat) (x y : Nat) : Bool :=
  (r.zip r.tail).any fun p => (p.1 == x && p.2 == y) || (p.1 == y && p.2 == x)

/-- The (Lobby, Wing) pairs whose route uses a port's link, in order of Lobby then Wing (R272). -/
def Assembly.groups (a : Assembly) (die i : Nat) : List (Nat × Nat) :=
  match a.peer die i with
  | none => []
  | some p => (a.lobbies.flatMap fun l => a.wings.map fun w => (l, w)).filter fun g => usesLink (a.route g.1 g.2) die p.1

/-- The Wing pairs whose route uses a port's link, ascending (R272). -/
def Assembly.pairs (a : Assembly) (die i : Nat) : List (Nat × Nat) :=
  match a.peer die i with
  | none => []
  | some p => ((a.wings.flatMap fun u => a.wings.map fun v => (u, v)).filter (fun g => g.1 < g.2)).filter fun g =>
      usesLink (wingRoute g.1 g.2) die p.1

/-- The streams bound on a port that is up, as a mask (R272, R447): those of Wings out of service are unbound. -/
def State.streamMask (s : State) (die i : Nat) : Nat :=
  let gs := (s.pkg.asm.groups die i).zipIdx
  let ps := (s.pkg.asm.pairs die i).zipIdx
  7 + sumBy (fun g => if s.wingUp g.1.2 then 31 * 2 ^ (3 + 5 * g.2) else 0) gs +
  sumBy (fun g => if s.wingUp g.1.1 && s.wingUp g.1.2 then 3 * 2 ^ (23 + 2 * g.2) else 0) ps

/-- A Corridor port. -/
def State.cport? (s : State) (die i : Nat) : Option CPort := s.cor.find? fun p => p.die == die && p.idx == i

/-- Change one Corridor port. -/
def State.updCport (s : State) (die i : Nat) (f : CPort → CPort) : State :=
  { s with cor := updWhere (fun p => p.die == die && p.idx == i) f s.cor }

/-- Bind the streams of every port that is up or retraining anew (R272, R447). -/
def State.rebind (s : State) : State :=
  { s with cor := s.cor.map fun p => { p with bound := if p.st == 2 || p.st == 3 then s.streamMask p.die p.idx else 0 } }

/-- Object number of a Corridor port as its cursor names it (R292), and its source (R354). -/
def cportObj (die i : Nat) : Nat := die + 16 * i
def cportSrc (die i : Nat) : Nat := src die (0x50 + i)

/-- Fields of a flit (R274). -/
def flitStream (f : Bytes) : Nat := bits (fieldAt f 0 4) 0 5
def flitType (f : Bytes) : Nat := bits (fieldAt f 0 4) 5 3
def flitSeq (f : Bytes) : Nat := bits (fieldAt f 0 4) 8 12
def flitFirst (f : Bytes) : Nat := bits (fieldAt f 0 4) 20 7

/-- A flit (R274). -/
def mkFlit (stream type seq first : Nat) (payload : Bytes) : Bytes :=
  let b := leBytes 4 (stream % 32 + type * 2 ^ 5 + seq % 4096 * 2 ^ 8 + first % 128 * 2 ^ 20) ++ slice payload 0 120
  b ++ leBytes 4 (crc32c b)

/-- Is a flit sound (R274)? -/
def flitSound (f : Bytes) : Bool :=
  f.length == 128 && fieldAt f 124 4 == crc32c (slice f 0 124) && flitType f ≤ 3 && bits (fieldAt f 0 4) 27 5 == 0 &&
  (flitType f == 0 || flitSeq f == 0)

/-- Send a flit. -/
def State.sendFlit (s : State) (die i : Nat) (f : Bytes) : State := s.send (.flit die i f)

/-- Unacknowledged flits of a port's sender (R276). -/
def CPort.unacked (p : CPort) : Nat := p.replay.length

/-- What a stream carries (R272): its place in the order of R273. Streams 3 to 22 are groups of five: classes 0 to 3 and the
Mover. -/
def streamRank (k : Nat) : Nat :=
  if k = 1 then 0
  else if k = 0 then 2
  else if 3 ≤ k ∧ k < 23 then (match (k - 3) % 5 with | 0 => 1 | 1 => 3 | 2 => 4 | _ => 5)
  else 5

/-- The message parts that are ready: the first of each stream that has a credit (R273). -/
def CPort.ready (p : CPort) : List CorMsg :=
  let heads := (p.sendq.map (·.stream)).eraseDups.filterMap fun k => p.sendq.find? (·.stream == k)
  heads.filter fun m => p.credits.getD m.stream 0 != 0

/-- The part a port sends in its next slot (R273): one that has waited 64 slots; else by rank, the last rank in round-robin. -/
def CPort.pickMsg (p : CPort) : Option CorMsg :=
  let l := p.ready
  match l.find? (64 ≤ ·.waited) with
  | some m => some m
  | none =>
    let best := l.foldl (fun b m => min b (streamRank m.stream)) 6
    let top := sortBy (fun a b : CorMsg => decide (a.stream ≤ b.stream)) (l.filter fun m => streamRank m.stream == best)
    if best < 5 then top.head?
    else match top.find? (p.served < ·.stream) with
      | some m => some m
      | none => top.head?

/-- A port sends a part as a DATA flit, held for replay (R276), and every other part that is ready has waited one slot more. -/
def State.sendMsg (s : State) (die i : Nat) (p : CPort) (m : CorMsg) : State :=
  let f := mkFlit m.stream 0 p.nextSeq m.first m.payload
  let ready := p.ready
  (s.sendFlit die i f).updCport die i fun p =>
    { p with nextSeq := (p.nextSeq + 1) % 4096, replay := p.replay ++ [Sram.store false f],
             timerFrom := if p.replay.isEmpty then s.tsc else p.timerFrom,
             credits := p.credits.set m.stream (p.credits.getD m.stream 0 - 1),
             served := if streamRank m.stream = 5 then m.stream else p.served,
             sendq := (p.sendq.erase m).map fun x => if ready.contains x then { x with waited := x.waited + 1 } else x }

/-- Send what is ready, and an IDLE flit once nothing is (R273, R275, R276): a port that is not up, or has 1,024 flits
unacknowledged, keeps what waits. -/
def State.flushAux (die i : Nat) : Nat → State → State
  | 0, s => s
  | fuel + 1, s =>
    match s.cport? die i with
    | none => s
    | some p =>
      if p.st != 2 || 1024 ≤ p.unacked then s
      else
        match p.pickMsg with
        | none => s.sendFlit die i (mkFlit 0 2 0 127 [])
        | some m => State.flushAux die i fuel (s.sendMsg die i p m)

/-- A port's waiting parts go on. -/
def State.flushPort (s : State) (die i : Nat) : State :=
  match s.cport? die i with
  | none => s
  | some p => State.flushAux die i (p.sendq.length + 1) s

/-- Send a message part on a stream: it joins what waits at the port, which keeps it while the link retrains (R280); a link that
is not up drops it. `first` is the payload offset of the first message that starts in it. The payload's format is private to its
engines. -/
def State.sendPart (s : State) (die i stream first : Nat) (payload : Bytes) : State :=
  match s.cport? die i with
  | none => s
  | some p =>
    if p.st != 2 && p.st != 3 then s
    else (s.updCport die i fun p => { p with sendq := p.sendq ++ [⟨stream, first, payload, 0⟩] }).flushPort die i

/-- Send a message of one flit. -/
def State.sendData (s : State) (die i stream : Nat) (payload : Bytes) : State := s.sendPart die i stream 0 payload

/-- Send a HELLO flit (R283): die code, mark, version and features, in payload bytes 0 to 3 (log 44). -/
def State.sendHello (s : State) (die i : Nat) : State :=
  let v := if die < 2 then s.pkg.mark else 2
  s.sendFlit die i (mkFlit 0 3 0 127 [byteOf die, byteOf s.pkg.mark, byteOf v, byteOf (if v = 1 then 0 else 7)])

/-- The port of a die that carries the link to another die. -/
def State.portTo (s : State) (die next : Nat) : Option Nat :=
  (s.pkg.asm.cports die).find? fun i => match s.pkg.asm.peer die i with | some q => q.1 == next | none => false

/-- The die after `die` on a route, coming from `prev`. -/
def nextOn (r : List Nat) (prev die : Nat) : Option Nat :=
  match (r.zip (r.tail.zip r.tail.tail)).find? fun t => t.2.1 == die && (t.1 == prev || t.2.2 == prev) with
  | some t => some (if t.1 = prev then t.2.2 else t.1)
  | none => none

/-- Where a die in the middle of a route forwards what comes in on a stream of one of its ports (R21, R272): the next port, and
the stream's number there. -/
def State.forwardTo (s : State) (die i k : Nat) : Option (Nat × Nat) :=
  let a := s.pkg.asm
  match a.peer die i with
  | none => none
  | some q =>
    if 3 ≤ k ∧ k < 23 then
      match (a.groups die i)[(k - 3) / 5]? with
      | none => none
      | some g =>
        match nextOn (a.route g.1 g.2) q.1 die with
        | none => none
        | some n => (s.portTo die n).map fun j => (j, 3 + 5 * (a.groups die j).idxOf g + (k - 3) % 5)
    else if 23 ≤ k ∧ k < 29 then
      match (a.pairs die i)[(k - 23) / 2]? with
      | none => none
      | some g =>
        match nextOn (wingRoute g.1 g.2) q.1 die with
        | none => none
        | some n => (s.portTo die n).map fun j => (j, 23 + 2 * (a.pairs die j).idxOf g + (k - 23) % 2)
    else none

/-- Send a LINK flit with the acknowledgement of everything before `e`, a nak when asked, and the credits of the flits
delivered since the last one (R275, R277, R278). -/
def State.sendLink (s : State) (die i : Nat) (nak : Bool) : State :=
  match s.cport? die i with
  | none => s
  | some p =>
    let credits := (List.range 32).map fun k => byteOf (p.delivered.filter (·.1 == k)).length
    let pay := [byteOf (1 + 2 * bit1 nak)] ++ leBytes 2 ((p.expect + 4095) % 4096) ++ leBytes 2 (if nak then p.expect else 0) ++
      zeros 3 ++ credits ++ zeros 80
    (s.sendFlit die i (mkFlit 0 1 0 127 pay)).updCport die i fun p =>
      { p with sinceAck := 0, ackFrom := none, delivered := [] }

/-- Resend the unacknowledged flits from the `k`-th on, in order, read under the buffer's code (R210, R216, R276); the timer restarts. -/
def State.replayFrom (s : State) (die i k : Nat) : State :=
  match s.cport? die i with
  | none => s
  | some p =>
    let r := (p.replay.drop k).foldl (fun (acc : State × List Sram) f =>
      let x := acc.1.readSram die (0x50 + i) 0xFFFF f
      (x.1.sendFlit die i x.2.1, acc.2 ++ [x.2.2.2])) (s, [])
    r.1.updCport die i fun p =>
      { p with replay := p.replay.take k ++ r.2, timerFrom := s.tsc, stalled := p.stalled + 1 }

/-- Both ends of a link take a state (R280, R281). -/
def State.setLink (s : State) (die i st : Nat) : State :=
  let s1 := s.updCport die i fun p => { p with st := st }
  match s.pkg.asm.peer die i with
  | some q => s1.updCport q.1 q.2 fun p => { p with st := st }
  | none => s1

/-- A port retrains (R280): both ends stop, and nothing is lost. -/
def State.retrain (s : State) (die i : Nat) : State :=
  let s1 := (s.setLink die i 3).bump 0x2201 6 (cportObj die i) 1
  (s1.updCport die i fun p => { p with stalled := 0 }).event .d 0x50 (cportSrc die i) 0xFFFF (pack [(1, die), (1, i)])

/-- Retrain when 8 replays in a row have passed without progress (R280). -/
def State.checkStall (s : State) (die i : Nat) : State :=
  match s.cport? die i with
  | some p => if 8 ≤ p.stalled then s.retrain die i else s
  | none => s

/-- The Wings that leave service when a link goes down (R281). -/
def Assembly.lostBy (a : Assembly) (die i : Nat) : List Nat :=
  match a.peer die i with
  | none => []
  | some p =>
    let x := min die p.1
    let y := max die p.1
    if x < 2 && y < 2 then [2, 3]
    else if x = 0 then
      (if a.lobbies.length = 1 then a.wings.filter fun w => (a.route 0 w).contains y else [y - 4])
    else [y - 4]

/-- Is the link of a port the bridge (R281)? -/
def isBridge (die i : Nat) : Bool := die < 2 && i == 2

/-- Corridor version and features a die advertises (R283). -/
def State.ownVersion (s : State) (die : Nat) : Nat := if die < 2 then s.pkg.mark else 2
def State.ownFeatures (s : State) (die : Nat) : Nat := if s.ownVersion die = 1 then 0 else 7

/-- Does a HELLO let its link come up (R283)? -/
def State.helloOk (s : State) (die i : Nat) (h : HelloMsg) : Bool :=
  (match s.pkg.asm.peer die i with | some p => p.1 == h.die | none => false) &&
  (h.version == 1 || h.version == 2) && !(4 ≤ h.die && h.version == 1) && h.certOk &&
  !(die < 2 && h.die < 2 && h.mark != s.pkg.mark)

/-- The package's Corridor version: the lowest over its links that are up (R283). -/
def State.corVersion (s : State) : Nat :=
  (s.cor.filter fun p => p.st == 2 || p.st == 3).foldl (fun m p => min m p.version) 2

/-- The package's features: those of every die in service (R283). -/
def State.corFeatures (s : State) : Nat :=
  (s.dies.filter fun d => d.present && (d.inService || d.code < 2)).foldl (fun m d => m &&& s.ownFeatures d.code) 7

end Sys2Proof.Machine
end

