-- ==== Sys2Proof/Machine/Budgets.lean ====
section
/-! DEFINITION. Bandwidth reservations, budgets and derating (R397-R407): the token buckets of a collection on a Wing, the
demand an edition puts on each tier, and the factors set when channels or Wings leave service. Rates are in MB/s, exact. -/

namespace Sys2Proof.Machine

/-- Theoretical rate of a populated Gallery site (R401). -/
def siteRate (fset : Nat) : Rat := if fset = 0 then 1228800 else if fset = 1 then 1024000 else 819200

/-- Theoretical rate of a Depot channel (R401); `dimms` per channel set the rated speed. -/
def depotRate (dimms fset : Nat) : Rat :=
  if fset = 0 then (if dimms = 1 then 51200 else 44800) else if fset = 1 then 38400 else 25600

/-- Theoretical rate of one channel at a frequency set. -/
def State.chanRate (s : State) (depot : Bool) (fset : Nat) : Rat :=
  if depot then depotRate s.pkg.dimms fset else siteRate s.pkg.galleryFset / 16

/-- The fraction of the theoretical rate that is budgeted (R401). -/
def budgetShare (depot : Bool) : Rat := if depot then 4 / 5 else 17 / 20

/-- Sum of exact rates. -/
def sumRat {α : Type} (f : α → Rat) (l : List α) : Rat := l.foldl (fun a x => a + f x) 0

/-- G_w and D_w of an edition on a Wing (R401): the sites populated, the Depot channels present and not retired at the
edition's Depot target. -/
def State.theoretical (s : State) (e : Edition) (w : Nat) (depot : Bool) : Rat :=
  if depot then
    sumRat (fun _ => depotRate s.pkg.dimms (e.nat 0x2810 3 0 0))
      (s.chans.filter fun c => c.wing == w && isDepot c.sel && c.st != 0 && c.st != 6)
  else (s.pkg.asm.sites : Rat) * siteRate s.pkg.galleryFset

/-- B_G,w and B_D,w (R401). -/
def State.budget (s : State) (e : Edition) (w : Nat) (depot : Bool) : Rat := budgetShare depot * s.theoretical e w depot

/-- The scrub demand of a tier (R403). -/
def State.scrubDemand (s : State) (e : Edition) (w : Nat) (depot : Bool) : Rat := s.theoretical e w depot / 250

/-- A_t,w (R405): what the channels then able to serve give, less their scrub demand; 0 on an isolated Wing. -/
def State.available (s : State) (w : Nat) (depot : Bool) : Rat :=
  if !s.wingUp w then 0
  else (budgetShare depot - 1 / 250) * sumRat (fun c => s.chanRate depot c.fset)
    (s.chans.filter fun c => c.wing == w && isDepot c.sel == depot && (c.st == 2 || c.st == 8))

/-- The demand of a collection on each tier of a Wing of its set (R402). -/
def Edition.demand (e : Edition) (ws : List Nat) (c w : Nat) (depot : Bool) : Rat :=
  if !ws.contains w then 0
  else
    let sw : Rat := 1 / (ws.length : Rat)
    let r : Rat := if e.kind c = 3 ∧ e.anchor c ≠ 0xFFFF then 2 else 1
    let a : Rat := if e.kind c = 2 then 2 else 1
    let d := sw * ((e.readRes c : Rat) * r + (e.writeRes c : Rat) * a)
    if depot then
      (if !e.durable c && shareOf e ws c w false = 0 then 0 else d) + (if e.durable c then sw * (e.writeRes c : Rat) else 0)
    else if shareOf e ws c w true = 0 then 0 else d

/-- The device's own demand in class 3 on a tier of a Wing (R403). -/
def Edition.ownDemand (e : Edition) (w : Nat) : Rat :=
  1000 * ((e.nat 0x2110 2 0 8 : Rat) + (e.nat 0x4120 2 0 2 : Rat) + (e.nat 0x4000 (w + 1) 0 96 : Rat))

/-- The demand of a class on a tier of a Wing (R402, R403); `wsOf` gives the Wing set of each collection. -/
def Edition.classDemand (e : Edition) (wsOf : Nat → List Nat) (w : Nat) (depot : Bool) (k : Nat) : Rat :=
  sumRat (fun c => e.demand (wsOf c) c w depot) (e.colls.filter fun c => e.cls c == k) + (if k = 3 then e.ownDemand w else 0)

/-- Does a collection carry a class-0 reservation (R397)? -/
def Edition.class0 (e : Edition) (c : Nat) : Bool := e.cls c == 0 && (e.readRes c != 0 || e.writeRes c != 0)

/-- The home partition a pinned catalogue needs on a Wing, in bytes (R404 condition 3). -/
def pinnedPartition (e : Edition) (ws : List Nat) (c w : Nat) : Nat := 16 * blocksOn e ws c w + 65536

/-- Does an edition pass budget admission on a Wing (R404)? A partition unit is 1 KiB of 16 lines (R51). -/
def State.admitsOn (s : State) (e : Edition) (wsOf : Nat → List Nat) (w : Nat) : Bool :=
  let all (depot : Bool) : Rat := s.scrubDemand e w depot + sumRat (e.classDemand wsOf w depot) [0, 1, 2, 3]
  let held (c : Nat) : Bool := !(wsOf c).contains w || decide (pinnedPartition e (wsOf c) c w ≤ 1024 * e.partition c)
  let firsts := e.colls.filter fun c => e.class0 c && (wsOf c).contains w
  decide (all false ≤ s.budget e w false) && decide (all true ≤ s.budget e w true) &&
  decide (e.classDemand wsOf w false 0 ≤ s.budget e w false / 4) &&
  decide (e.classDemand wsOf w true 0 ≤ s.budget e w true / 4) &&
  firsts.all held &&
  firsts.all fun c => e.kind c != 3 || e.anchor c == 0xFFFF || held (e.anchor c)

/-- The factor of a class on a tier of a Wing; 1 where none is listed (R406). -/
def State.tierFactor (s : State) (w : Nat) (depot : Bool) (k : Nat) : Rat :=
  match s.pw.factors.find? fun f => f.wing == w && f.depot == depot && f.cls == k with
  | some f => f.val
  | none => 1

/-- f_w of a class (R406): the lower of its two tier factors. -/
def State.factor (s : State) (w k : Nat) : Rat := min (s.tierFactor w false k) (s.tierFactor w true k)

/-- A factor in permille, truncated toward zero (R407). -/
def permille (f : Rat) : Nat := (f * 1000).floor.toNat

/-- The lowest factor over a collection's Wings in permille (OD 0x3005:05). -/
def State.lowestFactor (s : State) (c : Nat) : Nat :=
  (s.wingsOf c).foldl (fun m w => min m (permille (s.factor w (s.act.cls c)))) 1000

/-- Rate of a bucket in bytes per nanosecond (R398). -/
def State.bucketRate (s : State) (c w : Nat) (read : Bool) : Rat :=
  let r := if read then s.act.readRes c else s.act.writeRes c
  (r : Rat) / 1000 / ((max 1 (s.wingsOf c).length : Nat) : Rat) * s.factor w (s.act.cls c)

/-- The reservation a bucket meters. -/
def State.reserved (s : State) (c : Nat) (read : Bool) : Nat := if read then s.act.readRes c else s.act.writeRes c

/-- Tokens of a bucket now (R398): full when nothing has been taken from it, empty for a reservation of 0. -/
def State.tokens (s : State) (c w : Nat) (read : Bool) : Rat :=
  if s.reserved c read = 0 then 0
  else
    match s.mem.buckets.find? fun b => b.coll == c && b.wing == w && b.read == read with
    | some b => min 16384 (b.tokens + s.bucketRate c w read * ((s.tsc - b.last : Nat) : Rat))
    | none => 16384

/-- Set a bucket's tokens. -/
def State.setTokens (s : State) (c w : Nat) (read : Bool) (t : Rat) : State :=
  s.updMem fun m => { m with buckets := (m.buckets.filter fun b => !(b.coll == c && b.wing == w && b.read == read)) ++
    [⟨c, w, read, t, s.tsc⟩] }

/-- Bring every bucket up to now, before rates change (R398: the tokens held are kept). -/
def State.settleBuckets (s : State) : State :=
  s.updMem fun m => { m with buckets := m.buckets.map fun b => { b with tokens := s.tokens b.coll b.wing b.read, last := s.tsc } }

/-- Meter a request of a collection at a Wing's ingress (R398, R399): the class it is served at. -/
def State.meter (s : State) (c w port : Nat) (read : Bool) : State × Nat :=
  let t := s.tokens c w read
  let k := s.act.cls c
  if 64 ≤ t then (s.setTokens c w read (t - 64), k)
  else if k = 0 then
    ((s.bump 0x3005 4 c 1).coalesceC 0x91 (ingressSrc w) c (pack [(1, w), (1, port)]), 1)
  else (s, 3)

/-- The factors of one tier of a Wing (R406), classes 0 to 3. -/
def newFactors (demand : Nat → Rat) (a : Rat) : List Rat :=
  ((List.range 4).foldl (fun (acc : Rat × List Rat) k =>
    let d := demand k
    (max 0 (acc.1 - d), acc.2 ++ [if d ≤ acc.1 then 1 else if acc.1 = 0 then 0 else acc.1 / d])) (a, [])).2

/-- Set one factor, with its record and counter when it changes (R407). -/
def State.setFactor (s : State) (w : Nat) (depot : Bool) (k : Nat) (v : Rat) : State :=
  let old := s.tierFactor w depot k
  if old = v then s
  else
    let rest := s.pw.factors.filter fun f => !(f.wing == w && f.depot == depot && f.cls == k)
    let s1 : State := { s with pw := { s.pw with factors := if v = 1 then rest else rest ++ [⟨w, depot, k, v⟩] } }
    (s1.watermark .d 0x90 (src (wingDie w) 0) 0xFFFF (decide (v = 1)) (pack [(1, w), (1, bit1 depot), (1, k), (2, permille v)])).bump
      0x2146 1 0 (if old = 1 then 1 else 0)

/-- Recompute the available budget and the factors of one Wing (R405). -/
def State.rederive (s : State) (w : Nat) : State :=
  [false, true].foldl (fun s depot =>
    let fs := newFactors (s.act.classDemand s.wingsOf w depot) (s.available w depot)
    (List.range 4).foldl (fun s k => s.setFactor w depot k (fs.getD k 1)) s) s.settleBuckets

/-- The same on every Wing. -/
def State.rederiveAll (s : State) : State := s.pkg.asm.wings.foldl State.rederive s

/-- The Workbench budget of a Wing, scaled with class 3 and by the throttle stage (R175, R380, R406), in MB/s. -/
def State.wbBudget (s : State) (w : Nat) : Rat :=
  1000 * (s.act.nat 0x4000 (w + 1) 0 96 : Rat) * s.factor w 3 * ((8 - min 8 s.pw.stage : Nat) : Rat) / 8

end Sys2Proof.Machine
end

