-- ==== Sys2Proof/Machine/Blocks.lean ====
section
/-! DEFINITION. Storing and reading blocks: the stored form of a block on its run (R69, R70, R86), the store of a new
form with its placement, charge and losses (R53-R56, R125, R126, R133), the reading of lines through line code, key and
coding (R26-R29, R76-R78), and the whole-block checks (R80, R82). -/

namespace Sys2Proof.Machine

/-- Recall the lent lines of a collection that meet a test (R286): one recall to every borrower, none twice. -/
def State.recall (s : State) (c : Nat) (p : Nat → Bool) : State :=
  let ms := (s.mem.loanDir.filter fun d => d.coll == c && p d.line).flatMap fun d =>
    d.borrowers.map fun b => ({ kind := 3, borrower := b, coll := c, line := d.line, data := [], poison := false } : LoanMsg)
  let ms := ms.filter fun m => !s.mem.loanMsgs.contains m
  let s1 := s.bump 0x2202 (7 + s.commandWing c) 0 ms.length
  ms.foldl (fun s m => (s.send (.loan m)).updMem fun x => { x with loanMsgs := x.loanMsgs ++ [m] }) s1

/-- Recall the lent lines of a block. -/
def State.recallBlock (s : State) (c blk : Nat) : State := s.recall c fun l => l / 64 == blk

/-- Read stored line `j` of an entry's primary run: the plaintext and whether it is poison. -/
def State.readRunLine (s : State) (e : CatEntry) (j : Nat) : State × Bytes × Bool :=
  let at_ := s.locate e.tier e.site e.slot j
  let r := s.readLine e.wing at_.1 at_.2 (some (e.coll, e.blk))
  (r.1, if r.2.2 then zeros 64 else s.crypt true e.coll e.wing e.origin j r.2.1, r.2.2)

/-- Read `n` stored lines of an entry's primary run from line `lo`: each line's bytes and poison. -/
def State.readStored (s : State) (e : CatEntry) (lo n : Nat) : State × List (Bytes × Bool) :=
  (List.range n).foldl (fun (acc : State × List (Bytes × Bool)) i =>
    let t := acc.1.readRunLine e (lo + i)
    (t.1, acc.2 ++ [t.2])) (s, [])

/-- The stored lines that hold payload bytes `[x, y)` (R70): the first, and how many. -/
def payloadLines (x y : Nat) : Nat × Nat := (x / 64 + 1, if y ≤ x then 0 else (y - 1) / 64 + 1 - x / 64)

/-- Read payload bytes `[x, y)` (R70): bytes, poison, and the channel lines accessed. -/
def State.readPayload (s : State) (e : CatEntry) (x y : Nat) : State × Bytes × Bool × Nat :=
  let p := payloadLines x y
  let r := s.readStored e p.1 p.2
  (r.1, slice (r.2.flatMap (·.1)) (x % 64) (y - x), r.2.any (·.2), p.2)

/-- Change the damage flags of a block's entry while it still names the same run. -/
def State.flag (s : State) (e : CatEntry) (f : CatEntry → CatEntry) : State :=
  let cur := s.entry e.coll e.wing e.blk
  if cur.stored && cur.primary == e.primary then s.putEntry (f cur) else s

/-- Read and check an entry's header line in the DRAM (R76): none is a damaged header, and the flag is set. -/
def State.storedHeader (s : State) (e : CatEntry) : State × Option Bytes :=
  let r := s.readRunLine e 0
  if !r.2.2 && headerSound r.2.1 (some (e.coding, e.slots)) then (r.1, some r.2.1)
  else if s.serves e.wing (s.locate e.tier e.site e.slot 0).1 then
    (r.1.flag e fun x => { x with hdrDamage := true }, none)
  else (r.1, none)

/-- Bytes of a place of the cache under its check bits, and whether they cannot be delivered (R213, R216). -/
def CacheLine.read (l : CacheLine) : Bytes × Bool :=
  let r := sramReadLine l.data l.check
  (r.2, l.poison || r.1 == .uncorrectable || r.1 == .poison)

/-- The place of the home partition that holds the header of an entry's form, if one does (R26). -/
def State.cachedHdr? (s : State) (e : CatEntry) : Option CacheLine :=
  if (s.entry e.coll e.wing e.blk).sameForm e then
    match s.mem.cache.find? fun l => l.isHdr e.coll e.wing e.blk with
    | some l => if l.read.2 then none else some l
    | none => none
  else none

/-- The header of an entry (R26): the cached one, or the one its header line holds; with the channel lines accessed. -/
def State.readHeader (s : State) (e : CatEntry) : State × Option Bytes × Nat :=
  match s.cachedHdr? e with
  | some l => (s, some l.read.1, 0)
  | none =>
    let r := s.storedHeader e
    (r.1, r.2, 1)

/-- A stored line's plaintext as it stands, without counting (poison as zeros). -/
def State.plainLine (s : State) (e : CatEntry) (j : Nat) : Bytes :=
  let a := s.locate e.tier e.site e.slot j
  let l := s.rawLine e.wing a.1 a.2
  let d := lineDecode (isDepot a.1) l.1 l.2
  if d.1 == .clean || d.1 == .corrected then s.crypt true e.coll e.wing e.origin j d.2 else zeros 64

/-- Does a stored line decode with nothing to correct (R223)? -/
def State.lineSound (s : State) (e : CatEntry) (j : Nat) : Bool :=
  let a := s.locate e.tier e.site e.slot j
  let l := s.rawLine e.wing a.1 a.2
  (lineDecode (isDepot a.1) l.1 l.2).1 == .clean

/-- A cached whole clean copy of a line, if the home partition holds one. -/
def State.cached? (s : State) (c w line : Nat) : Option CacheLine :=
  s.mem.cache.find? fun l => !l.hdr && l.coll == c && l.wing == w && l.line == line

/-- What the read of a line or segment yields: the state, the bytes, poison, the channel lines accessed. -/
structure Fetch where
  s : State
  data : Bytes
  poison : Bool
  lines : Nat

/-- Poisoned lines of a length, with the state. -/
def Fetch.bad (s : State) (n lines : Nat) : Fetch := ⟨s, zeros n, true, lines⟩

/-- Expanded segment `g` of a block that is not DELTA-coded, for use as an anchor (R29): whole or poison. -/
def State.anchorSegment (s : State) (e : CatEntry) (g : Nat) : Fetch :=
  let hits := (List.range 4).filterMap fun i => s.cached? e.coll e.wing (64 * e.blk + 4 * g + i)
  if hits.length = 4 && hits.all (fun l => l.valid == fullMask && !l.read.2) then ⟨s, hits.flatMap (·.read.1), false, 0⟩
  else if !s.wingUp e.wing then .bad s 256 0
  else
    match e.tier with
    | .none => ⟨s, zeros 256, false, 0⟩
    | .lost => .bad s 256 0
    | _ =>
      if e.hdrDamage || e.coding == 3 || bitSet e.segDamage g then .bad s 256 0
      else if e.coding == 1 then
        let r := s.readPayload e (256 * g) (256 * g + 256)
        ⟨r.1, r.2.1, r.2.2.1, r.2.2.2⟩
      else
        match s.readHeader e with
        | (s1, none, n) => .bad s1 256 n
        | (s1, some h, n) =>
          let r := s1.readPayload e (hdrStart h g) (hdrEnd h g)
          if r.2.2.1 then .bad r.1 256 (n + r.2.2.2)
          else
            match expandSegment h (setSlice (zeros (hdrStart h g)) (hdrStart h g) r.2.1) g none with
            | some d => ⟨r.1, d, false, n + r.2.2.2⟩
            | none => .bad (r.1.flag e fun x => { x with segDamage := putBit x.segDamage g true }) 256 (n + r.2.2.2)

/-- Raise the anchor-unreadable notices, to the grantee and to the exhibit (R65). -/
def State.anchorNotice (s : State) (w blk grantee exhibit : Nat) : State :=
  (s.coalesceC 0x15 (ingressSrc w) grantee (pack [(5, blk), (2, exhibit)])).coalesceC 0x15 (ingressSrc w) exhibit
    (pack [(5, blk), (2, grantee)])

/-- The payload bytes of segment `g` (R27, R72): its first, and the one after its last. -/
def segBounds (e : CatEntry) (h : Bytes) (g : Nat) : Nat × Nat :=
  if e.coding == 1 then (256 * g, 256 * g + 256) else (hdrStart h g, hdrEnd h g)

/-- Segment `g` can be expanded: no damage flag, and a length its mode allows (R77); a wrong length sets the flag. A line
read of a RAW-coded block has no header at hand (R27). -/
def State.checkSegment (s : State) (e : CatEntry) (h : Bytes) (g : Nat) : State × Bool :=
  if bitSet e.segDamage g then (s, false)
  else if e.coding == 1 then (s, true)
  else if !modeLengthOk (hdrCoding h) (hdrFmt h) (hdrMode h g) (hdrEnd h g - hdrStart h g) then
    (s.flag e fun x => { x with segDamage := putBit x.segDamage g true }, false)
  else (s, true)

/-- The 256 bytes of a segment stored raw from payload byte `st`, and which of its four lines are poison: those of whose
own 64 bytes a stored line holds some that it cannot deliver (R26). -/
def rawSegment (st : Nat) (ls : List (Bytes × Bool)) : Bytes × Nat :=
  (slice (ls.flatMap (·.1)) (st % 64) 256,
   (List.range 4).foldl (fun m i => putBit m i (((ls.drop i).take (if st % 64 = 0 then 1 else 2)).any (·.2))) 0)

/-- Expand segment `g` from the stored lines that hold it (R26, R29, R65, R77): its bytes, and which of its four lines are
poison. A bitstream of the wrong length sets the damage flag. -/
def State.expandSeg (s : State) (e : CatEntry) (h : Bytes) (g : Nat) (ls : List (Bytes × Bool)) : State × Bytes × Nat :=
  let st := (segBounds e h g).1
  if e.coding == 1 || hdrMode h g == 0 then (s, rawSegment st ls)
  else if ls.any (·.2) then (s, zeros 256, 15)
  else
    let payload := zeros st ++ slice (ls.flatMap (·.1)) (st % 64) (hdrEnd h g - st)
    let hurt := s.flag e fun x => { x with segDamage := putBit x.segDamage g true }
    if hdrCoding h = 3 then
      if !segmentSound h payload g then (hurt, zeros 256, 15)
      else
        let ex := s.act.anchor e.coll
        let a := s.anchorSegment (s.entry ex e.wing e.blk) g
        if a.poison then (a.s.anchorNotice e.wing e.blk e.coll ex, zeros 256, 15)
        else
          match expandSegment h payload g (some a.data) with
          | some d => (a.s, d, 0)
          | none => (a.s, zeros 256, 15)
    else
      match expandSegment h payload g none with
      | some d => (s, d, 0)
      | none => (hurt, zeros 256, 15)

/-- Read segment `g` (R26): its bytes, which of its four lines are poison, and the channel lines accessed. -/
def State.readSegment (s : State) (e : CatEntry) (h : Bytes) (g : Nat) : State × Bytes × Nat × Nat :=
  let c := s.checkSegment e h g
  if c.2 then
    let p := payloadLines (segBounds e h g).1 (segBounds e h g).2
    let r := c.1.readStored e p.1 p.2
    let x := r.1.expandSeg e h g r.2
    (x.1, x.2.1, x.2.2, p.2)
  else (c.1, zeros 256, 15, 0)

/-- Line `l` of the segment that holds it, with `n` channel lines accessed before. -/
def State.segmentLine (s : State) (e : CatEntry) (h : Bytes) (l n : Nat) : Fetch :=
  let r := s.readSegment e h (l / 4)
  let bad := bitSet r.2.2.1 (l % 4)
  ⟨r.1, if bad then zeros 64 else slice r.2.1 (64 * (l % 4)) 64, bad, n + r.2.2.2⟩

/-- Read one expanded line of a block from the entry a request has read (R26-R29, R76-R78): the stored lines of the
line's segment, and the header line unless the block is RAW-coded. -/
def State.readBlockLine (s : State) (e : CatEntry) (l : Nat) : Fetch :=
  match e.tier with
  | .none => ⟨s, zeros 64, false, 0⟩
  | .lost => .bad s 64 0
  | _ =>
    if e.hdrDamage then .bad s 64 0
    else if e.coding == 1 then s.segmentLine e [] l 0
    else
      match s.readHeader e with
      | (s1, none, n) => .bad s1 64 n
      | (s1, some h, n) => s1.segmentLine e h l n

/-- The 64 expanded lines of a block from its payload's stored lines, with a mask of the poisoned ones. -/
def State.expandBlock (s : State) (e : CatEntry) (h : Bytes) (ls : List (Bytes × Bool)) : State × Bytes × Nat :=
  (List.range 16).foldl (fun (acc : State × Bytes × Nat) g =>
    let c := acc.1.checkSegment e h g
    let p := payloadLines (segBounds e h g).1 (segBounds e h g).2
    let x := if c.2 then c.1.expandSeg e h g ((ls.drop (p.1 - 1)).take p.2) else (c.1, zeros 256, 15)
    (x.1, acc.2.1 ++ x.2.1, acc.2.2 + x.2.2 * 2 ^ (4 * g))) (s, [], 0)

/-- The segments of a block whose header is at hand and whose mode or length is not allowed take their damage flags: the
structure check of a whole-block operation on a RAW-coded block (R76, R77). -/
def State.checkModes (s : State) (e : CatEntry) (h : Bytes) : State :=
  let bad := (List.range 16).filter fun g => !modeLengthOk (hdrCoding h) (hdrFmt h) (hdrMode h g) (hdrEnd h g - hdrStart h g)
  if bad.isEmpty then s
  else s.flag e fun x => { x with segDamage := bad.foldl (fun m g => putBit m g true) x.segDamage }

/-- Read the 64 expanded lines of a block, each stored line once: the bytes, a mask of the poisoned ones, and the channel
lines accessed. -/
def State.readBlock (s : State) (e : CatEntry) : State × Bytes × Nat × Nat :=
  match e.tier with
  | .none => (s, zeros 4096, 0, 0)
  | .lost => (s, zeros 4096, fullMask, 0)
  | _ =>
    if e.hdrDamage then (s, zeros 4096, fullMask, 0)
    else
      match s.readHeader e with
      | (s1, none, n) => (s1, zeros 4096, fullMask, n)
      | (s1, some h, n) =>
        let k := (hdrLen h + 63) / 64
        let s2 := s1.checkModes e h
        let r := s2.readStored e 1 k
        let x := r.1.expandBlock (s2.entry e.coll e.wing e.blk) h r.2
        (x.1, x.2.1, x.2.2, n + k)

/-- The stored lines a read of expanded line `l` needs from its block (R26): those of its segment, and the header line when
the block is not RAW-coded and no place of the cache holds its header. -/
def State.wanted (s : State) (e : CatEntry) (l : Nat) : List Nat :=
  let h := if e.coding == 1 then [] else match s.cachedHdr? e with | some x => x.read.1 | none => s.plainLine e 0
  let p := payloadLines (segBounds e h (l / 4)).1 (segBounds e h (l / 4)).2
  let own := (List.range p.2).map (p.1 + ·)
  if e.coding == 1 || (s.cachedHdr? e).isSome then own else 0 :: own

/-- Banks and rows of stored lines of an entry's primary run (R252). -/
def State.placesOf (s : State) (e : CatEntry) (js : List Nat) : List (Nat × Nat) :=
  js.map fun j =>
    let a := s.locate e.tier e.site e.slot j
    s.bankRow a.1 a.2

/-- Payload bytes of an entry's form as the compressed view counts them (R92): 4,096 of a RAW-coded block, else its header's P,
or as many as the run holds when the header cannot be read. -/
def State.viewLen (s : State) (e : CatEntry) : Nat :=
  if e.coding == 1 then 4096
  else
    let h := s.plainLine e 0
    if headerSound h (some (e.coding, e.slots)) then hdrLen h else 512 * e.slots - 64

/-- What a waiting read of the compressed view fetches (R75, R91, R92): the header line, or payload line `j` with zeros from P on.
The view read of a RAW-coded block sets no damage flag (R76). -/
def State.fetchView (s : State) (e : CatEntry) (header : Bool) (j : Nat) : Fetch :=
  if header then
    let r := s.readRunLine e 0
    if e.coding == 1 && (r.2.2 || !headerSound r.2.1 (some (e.coding, e.slots))) then .bad r.1 64 1
    else
      match s.storedHeader e with
      | (s1, some h) =>
        ⟨s1, setSlice (setSlice h 5 [byteOf (2 * bit1 e.crcFailed)]) 24 (leBytes 2 e.segDamage), false, 1⟩
      | (s1, none) => .bad s1 64 1
  else
    let r := s.readRunLine e (j + 1)
    if r.2.2 then .bad r.1 64 1 else ⟨r.1, padTo 64 (r.2.1.take (s.viewLen e - 64 * j)), false, 1⟩

/-- The channel accesses of a waiting read (R26, R91, R92), with their heat (R127). -/
def State.fetchRead (s : State) (r : PendRead) : Fetch :=
  let f := match r.view with
    | some j => s.fetchView r.entry (r.line == 0) j
    | none => s.readBlockLine r.entry (r.line % 64)
  { f with s := f.s.heat r.entry f.lines }

/-- Reads that wait for the stored form of an entry fetch it before a store in place changes it (R30). -/
def State.captureReads (s : State) (e : CatEntry) : State :=
  (s.mem.reads.filter fun r => r.got.isNone && e.stored && r.entry.primary == e.primary).foldl (fun s r =>
    let f := s.fetchRead r
    f.s.updMem fun m => { m with reads := updWhere (·.id == r.id) (fun x => { x with got := some (f.data, f.poison) }) m.reads }) s

/-- Write every stored line of a run (R86); payload line `j` whose bit is set in `pm` takes the poison syndrome. `blk` names the
block written back in place. -/
def State.storeRun (s : State) (c w origin : Nat) (tier : Tier) (site slot : Nat) (f : Form) (pm : Nat) (blk : Option Nat) : State :=
  (List.range (8 * f.slots)).foldl (fun s j =>
    let at_ := s.locate tier site slot j
    let bad := decide (1 ≤ j) && bitSet pm (j - 1)
    let off := if hdrCoding f.header = 1 ∧ 1 ≤ j ∧ j ≤ 64 then some (s.offset c w origin (j - 1)) else none
    s.storeLine w at_.1 at_.2 c off (s.crypt false c w origin j (slice f.bytes (64 * j) 64)) bad (s.act.cls c) blk) s

/-- Store a form on an entry's runs, the Depot copy included (R133). -/
def State.storeForm (s : State) (e : CatEntry) (f : Form) (pm : Nat) (blk : Option Nat) : State :=
  let s1 := s.storeRun e.coll e.wing e.origin e.tier e.site e.slot f pm blk
  match e.copySlot with
  | some c => s1.storeRun e.coll e.wing e.origin .depot 0 c f pm blk
  | none => s1

/-- Drop every line and merge entry of a block (R59), its cached header included. -/
def State.forgetBlock (s : State) (c w blk : Nat) : State :=
  s.updMem fun m =>
    { m with cache := m.cache.filter fun l => !(l.coll == c && l.wing == w && l.line / 64 == blk),
             wmb := m.wmb.filter fun x => !(x.coll == c && x.wing == w && x.line / 64 == blk) }

/-- The block becomes lost (R56): all its lines read poisoned from then on, its runs are freed, and the notices of R56 and,
when its Wing had no room, R125 are raised. -/
def State.loseBlock (s : State) (c w blk : Nat) (noRoom : Bool) : State :=
  let old := s.entry c w blk
  let s := (s.recallBlock c blk).forgetBlock c w blk
  let s1 := ((s.putEntry (.asLost c w blk)).freeRuns old.runs).settle c
  let s2 := s1.coalesceC 0x14 (ingressSrc w) c (leBytes 5 blk)
  if noRoom then s2.coalesceC 0x21 (curatorSrc w) c (pack [(1, w), (5, blk)]) else s2

/-- The block becomes ZERO and its slots are freed (R59). -/
def State.zeroBlock (s : State) (c w blk : Nat) : State :=
  let old := s.entry c w blk
  ((s.recallBlock c blk).putEntry (.zero c w blk)).freeRuns old.runs

/-- Why a block is stored: write-back or recompression, a load (R116), or a fork's copy (R154). A load and a copy had
their charge checked before, and are never stored as lost. -/
inductive StoreMode where
  | back | load | copy
deriving DecidableEq, Repr

/-- Store a new form of a block (R33, R55, R56, R78, R126). A form that takes a new run has issued before the entry's flip
is seen. A load's new lot is a Depot lot (R116). -/
def State.storeBlock (s : State) (c w blk : Nat) (f : Form) (pm : Nat) (mode : StoreMode) : State :=
  let s := s.recallBlock c blk
  let old := s.entry c w blk
  let n := f.slots
  let held := if s.shared old then 0 else if old.stored then old.slots else 0
  if mode == .back && decide (held < n) && (s.overfull c || s.overflows c held n) then
    (s.enterOverfull c).loseBlock c w blk false
  else
    let fresh := { old with coding := hdrCoding f.header, segDamage := 0, hdrDamage := false, crcFailed := false,
                            crc := hdrCrc f.header }
    if mode != .load && old.stored && old.slots == n && !s.shared old && old.origin == blk && !s.displaced old &&
        !s.moving old then
      (((s.captureReads old).putEntry fresh).storeForm fresh f pm (some blk)).heat fresh (8 * n)
    else
      let lot := s.lotOf c blk
      let newLot := !s.lotStored c w lot
      let s0 := if newLot then
          s.updLot c w lot fun l => { l with gallery := s.allowedTier c w (if mode == .load then false else !s.act.newDepot c) }
        else s
      let gone := if s.shared old then [] else old.runs
      match s0.findSpot c w blk (s0.lot c w lot).gallery n gone with
      | none => if mode == .back then s0.loseBlock c w blk true else s
      | some sp =>
        let e : CatEntry :=
          { fresh with tier := sp.tier, site := siteOf sp.sel, slot := sp.slot, slots := n,
                       copySlot := sp.copy.map (·.2), origin := blk }
        let s1 := { s0 with fresh := s0.fresh + 2 }
        let s2 := ((s1.putEntry e).storeForm e f pm none).issueSince w s1.fresh
        let s2 := s2.freeRuns old.runs
        let s3 := sp.spills.foldl (fun s sel => s.bump 0x2804 5 (chanObj w sel) 1) s2
        let s4 := if sp.displaced then s3.coalesceC 0x20 (curatorSrc w) c (pack [(1, w), (5, blk)]) else s3
        let s5 := if s.shared old then s4.bump 0x3812 3 c 1 else s4
        (s5.settle c).heat e (8 * n)

/-- The outcome of a whole-block verification (R80, R82; the codes of BVERIFY in R197). -/
inductive Verify where
  | pass | crcFailed | poisoned | headerDamaged | noForm | frozen
deriving DecidableEq, Repr

/-- The structure check of a whole-block operation (R77): a segment whose stored lines are all at hand and whose mode, length or
bitstream is not allowed takes its damage flag. -/
def State.checkStructure (s : State) (e : CatEntry) (h : Bytes) (ls : List (Bytes × Bool)) : State :=
  let payload := ls.flatMap (·.1)
  let bad := (List.range 16).filter fun g =>
    let p := payloadLines (hdrStart h g) (hdrEnd h g)
    !((ls.drop (p.1 - 1)).take p.2).any (·.2) && !segmentSound h payload g
  if bad.isEmpty then s
  else s.flag e fun x => { x with segDamage := bad.foldl (fun m g => putBit m g true) x.segDamage }

/-- Read a whole block and verify it (R77, R80, R82): a damaged header, damaged segments and a failed CRC set their flags, the
last with a block-CRC notice; a poisoned line stops the CRC check. The header and the payload's stored lines, where they were read. -/
def State.verifyRead (s : State) (e : CatEntry) : State × Verify × Option (Bytes × List (Bytes × Bool)) :=
  if !e.stored then (s, .noForm, none)
  else if e.primary.any fun r => !s.serves r.wing (s.runSel r) then (s, .frozen, none)
  else if e.hdrDamage then (s, .headerDamaged, none)
  else
    match s.storedHeader e with
    | (s1, none) => (s1, .headerDamaged, none)
    | (s1, some h) =>
      let r := s1.readStored e 1 ((hdrLen h + 63) / 64)
      let r := (r.1.checkStructure e h r.2, r.2)
      if r.2.any (·.2) then (r.1, .poisoned, some (h, r.2))
      else if blockCrc h (slice (r.2.flatMap (·.1)) 0 (hdrLen h)) = hdrCrc h ∧ hdrCrc h = e.crc then (r.1, .pass, some (h, r.2))
      else
        ((r.1.flag e fun x => { x with crcFailed := true }).coalesceC 0x1A (ingressSrc e.wing) e.coll
          (pack [(5, e.blk), (1, e.wing)]), .crcFailed, some (h, r.2))

/-- Verify a block (R80, R82). -/
def State.verifyBlock (s : State) (e : CatEntry) : State × Verify :=
  let r := s.verifyRead e
  (r.1, r.2.1)

/-- Copy the stored lines of one run to another, ciphertext unchanged and from corrected data, poison carried (R87,
R223, R226), as traffic of class 3 (R129); the copy is done once it has issued. `e` is the entry that names the source, on whose behalf a flip may match (R236). -/
def State.copyRun (s : State) (src dst : Run) (e : Option CatEntry) : State :=
  let t := (List.range (8 * dst.slots)).foldl (fun s j =>
    let a := s.locate src.tier src.site src.slot j
    let b := s.locate dst.tier dst.site dst.slot j
    let r := s.readLine src.wing a.1 a.2 (e.map fun x => (x.coll, x.blk))
    match e with
    | some x =>
      let off := if x.coding = 1 ∧ 1 ≤ j ∧ j ≤ 64 then some (s.offset x.coll x.wing x.blk (j - 1)) else none
      r.1.storeLine dst.wing b.1 b.2 x.coll off r.2.1 r.2.2 3 none
    | none => r.1.storeQuiet dst.wing b.1 b.2 r.2.1 r.2.2) s
  t.issueSince dst.wing s.fresh

end Sys2Proof.Machine
end

