-- ==== Sys2Proof/Machine/Cache.lean ====
section
/-! DEFINITION. The home partitions of the Wing cache and the write-merge buffer (R31-R34, R51, R52, R214-R216), lines
leaving the cache (R33, R34, R56, R78, R157), and allocation in a partition. A partition's lines stand in order of last
use, least recent first. -/

namespace Sys2Proof.Machine

/-- Is a cache line this line? -/
def CacheLine.isFor (l : CacheLine) (c w line : Nat) : Bool := !l.hdr && l.coll == c && l.wing == w && l.line == line

/-- Is a cache line of this block? -/
def CacheLine.ofBlock (l : CacheLine) (c w blk : Nat) : Bool := !l.hdr && l.coll == c && l.wing == w && l.line / 64 == blk

/-- Does a place of the cache hold the same thing as another? -/
def CacheLine.sameAs (l x : CacheLine) : Bool := l.hdr == x.hdr && l.coll == x.coll && l.wing == x.wing && l.line == x.line

/-- Drop the lines that meet a test. -/
def State.dropLines (s : State) (p : CacheLine → Bool) : State :=
  s.updMem fun m => { m with cache := m.cache.filter fun l => !p l }

/-- The bytes of a tag: collection, line, and its dirty, poison, expanded and header bits (R216). -/
def CacheLine.tag (l : CacheLine) : Bytes :=
  leBytes 2 l.coll ++ leBytes 7 l.line ++ [byteOf (bit1 l.dirty + 2 * bit1 l.poison + 4 * bit1 l.expanded + 8 * bit1 l.hdr)]

/-- Place a line in its partition as the most recently used, with both copies of its tag (R216). -/
def State.putLine (s : State) (l : CacheLine) : State :=
  let t := Sram.store false l.tag
  s.updMem fun m => { m with cache := (m.cache.filter fun x => !x.sameAs l) ++ [{ l with used := s.tsc, tagA := t, tagB := t }] }

/-- Lines of a block in the cache. -/
def State.blockLines (s : State) (c w blk : Nat) : List CacheLine := s.mem.cache.filter (·.ofBlock c w blk)

/-- A clean cache line as a fill makes it. -/
def CacheLine.filled (c w line : Nat) (data : Bytes) (poison expanded : Bool) : CacheLine :=
  { coll := c, wing := w, line := line, data := data, check := sramStore poison data, valid := fullMask, dirty := false,
    poison := poison, held := false, expanded := expanded, used := 0, queued := false, hdr := false,
    tagA := ⟨[], []⟩, tagB := ⟨[], []⟩ }

/-- A write into a cache line or into an empty place (R214, R215): per-byte check bits, the poison mark of the whole line,
and narrow writes to a poisoned line. `whole` says that one write covers all 64 bytes (R34). -/
def CacheLine.write (l : CacheLine) (data : Bytes) (be : Nat) (poison whole : Bool) : CacheLine :=
  let d := mergeMask be l.data data
  if poison then
    { l with data := d, check := sramStore true d, valid := fullMask, dirty := true, poison := true, queued := false }
  else if whole then
    { l with data := d, check := sramStore false d, valid := fullMask, dirty := true, poison := false, queued := false }
  else
    let fresh := sramStore l.poison d
    { l with data := d, check := (List.range 64).map fun i => if bitSet be i then fresh.getD i 0 else l.check.getD i 0,
             valid := l.valid ||| be, dirty := true, queued := false }

/-- An empty place for a line. -/
def CacheLine.empty (c w line : Nat) : CacheLine :=
  { CacheLine.filled c w line (zeros 64) false false with valid := 0 }

/-- Look a line up by its tag (R216): a byte uncorrectable in one copy is taken from the other, which rewrites it; one
uncorrectable in both isolates the Wing. None is a miss. -/
def State.lookup (s : State) (c w line : Nat) : State × Option CacheLine :=
  match s.cached? c w line with
  | none => (s, none)
  | some l =>
    let a := (List.zipWith sramRead l.tagA.data l.tagA.check).map (·.1)
    let b := (List.zipWith sramRead l.tagB.data l.tagB.check).map (·.1)
    let n (f : Found) := (a.filter (· == f)).length + (b.filter (· == f)).length
    let s1 := (s.bump 0x2120 (w + 5) 0 (n .corrected)).bump 0x2121 (w + 5) 0 (n .uncorrectable)
    if (List.zip a b).any fun x => x.1 == .uncorrectable && x.2 == .uncorrectable then
      (s1.updDie (wingDie w) fun d => { d with tagFault := true }, none)
    else if n .corrected + n .uncorrectable = 0 then (s1, some l)
    else
      let t := Sram.store false l.tag
      (s1.updMem fun m => { m with cache := updWhere (·.isFor c w line) (fun x => { x with tagA := t, tagB := t }) m.cache }, some l)

/-- Read a cached line's bytes (R213, R216): corrected bytes are rewritten; an uncorrectable byte drops a clean line and
poisons a dirty one with its notice. None is a miss. -/
def State.cacheRead (s : State) (c w line : Nat) : State × Option (Bytes × Bool) :=
  match s.lookup c w line with
  | (s, none) => (s, none)
  | (s, some l) =>
    let r := sramReadLine l.data l.check
    let bad := (List.zipWith sramRead l.data l.check).filter fun x => x.1 == .uncorrectable
    let fixed := (List.zipWith sramRead l.data l.check).filter fun x => x.1 == .corrected
    let s1 := (s.bump 0x2120 (w + 5) 0 fixed.length).bump 0x2121 (w + 5) 0 bad.length
    match r.1 with
    | .uncorrectable =>
      if l.dirty || l.queued then
        ((s1.putLine { l with check := sramStore true l.data, valid := fullMask, poison := true }).event .d 0x40
          (src (wingDie w) 0xF0) c [], some (l.data, true))
      else (s1.dropLines (·.isFor c w line), none)
    | .corrected =>
      (s1.putLine { l with data := r.2, check := sramStore l.poison r.2 }, some (r.2, l.poison))
    | _ => (s1.putLine l, some (l.data, l.poison))

/-- The bytes a line hands on when it leaves the cache, checked as on any read (R213, R216): corrected ones corrected, an
uncorrectable one poisoning the line with its notice. -/
def State.outgoing (s : State) (l : CacheLine) : State × CacheLine :=
  let r := s.readSram (wingDie l.wing) 0xF0 l.coll ⟨l.data, l.check⟩
  (r.1, { l with data := r.2.1, check := r.2.2.2.check, poison := l.poison || r.2.2.1 })

/-- Lines a partition holds at its size (R51). -/
def State.partLines (s : State) (c : Nat) : Nat := 16 * s.act.partition c

/-- Lines, headers and merge entries a collection's partition holds on a Wing (R52). -/
def State.partUsed (s : State) (c w : Nat) : Nat :=
  (s.mem.cache.filter fun l => l.coll == c && l.wing == w).length +
  (s.mem.wmb.filter fun l => l.coll == c && l.wing == w).length

/-- Lines that meet a test leave the cache, kept while writes of their block are queued (R264). -/
def State.depart (s : State) (c w blk : Nat) (p : CacheLine → Bool) : State :=
  if s.chans.any fun x => x.wing == w && x.wq.any fun q => q.coll == c && q.blk == some blk then
    s.updMem fun m => { m with cache := updWhere p (fun l => { l with dirty := false, queued := true }) m.cache }
  else s.dropLines p

/-- Write one payload line of a RAW-coded block in place, with the header line whose CRC it changes (R33, R79, R80), on
the primary run and on the Depot copy. -/
def State.writeRawLine (s : State) (e : CatEntry) (l : Nat) (data : Bytes) (poison : Bool) : State :=
  let s := s.captureReads e
  let payload := (List.range 64).flatMap fun j => if j = l then (if poison then zeros 64 else data) else s.plainLine e (j + 1)
  let f := rawForm payload
  let e' := { e with segDamage := 0, hdrDamage := false, crcFailed := false, crc := hdrCrc f.header }
  let k := s.act.cls e.coll
  let put (s : State) (tier : Tier) (site slot : Nat) : State :=
    let a := s.locate tier site slot 0
    let b := s.locate tier site slot (l + 1)
    (s.storeLine e.wing a.1 a.2 e.coll none (s.crypt false e.coll e.wing e.origin 0 f.header) false k (some e.blk)).storeLine
      e.wing b.1 b.2 e.coll (some (s.offset e.coll e.wing e.blk l))
      (s.crypt false e.coll e.wing e.origin (l + 1) data) poison k (some e.blk)
  let s1 := (s.recallBlock e.coll e.blk).putEntry e'
  let s2 := put s1 e.tier e.site e.slot
  match e.copySlot with
  | some c => put s2 .depot 0 c
  | none => s2

/-- The 64 lines of a block and its poison mask, with one line replaced. -/
def withLine (blk : Bytes) (pm l : Nat) (data : Bytes) (poison : Bool) : Bytes × Nat :=
  (setSlice blk (64 * l) data, putBit pm l poison)

/-- Does a RAW block whose lines are all held whole and zero leave as one (R33)? -/
def State.leavesZero (s : State) (c w blk : Nat) : Bool :=
  let sibs := s.blockLines c w blk
  sibs.length = 64 && sibs.all fun x => x.valid == fullMask && !x.read.2 && allZero x.read.1

/-- A line of a RAW collection leaves the cache (R33, R34, R56, R78, R132, R157). -/
def State.leaveRaw (s : State) (cl : CacheLine) : State :=
  let c := cl.coll
  let w := cl.wing
  let blk := cl.line / 64
  let l := cl.line % 64
  let e := s.entry c w blk
  let gone (s : State) : State := s.depart c w blk (·.isFor c w cl.line)
  if s.stuck e && cl.dirty then s.putLine { cl with held := true }
  else if !s.stuck e && s.act.kind c = 1 && s.leavesZero c w blk then
    (((s.captureReads e).zeroBlock c w blk).forgetBlock c w blk).settle c
  else if !cl.dirty then gone s
  else
    let o := s.outgoing cl
    let s := o.1
    let cl := o.2
    let whole := cl.valid == fullMask
    match e.tier with
    | .none =>
      let b := withLine (zeros 4096) 0 l (mergeMask cl.valid (zeros 64) cl.data) cl.poison
      gone (s.storeBlock c w blk (rawForm b.1) b.2 .back)
    | .lost =>
      if s.overfull c then gone (s.loseBlock c w blk false)
      else if whole && !cl.poison then
        gone (s.storeBlock c w blk (rawForm (setSlice (zeros 4096) (64 * l) cl.data)) (putBit fullMask l false) .back)
      else gone s
    | _ =>
      if e.hdrDamage then
        let ok := whole && !cl.poison
        gone (s.storeBlock c w blk (rawForm (setSlice (zeros 4096) (64 * l) (if ok then cl.data else zeros 64)))
          (putBit fullMask l (!ok)) .back)
      else if s.shared e || s.moving e then
        let r := s.readBlock e
        let old := slice r.2.1 (64 * l) 64
        let bad := cl.poison || (!whole && bitSet r.2.2.1 l)
        let b := withLine r.2.1 r.2.2.1 l (mergeMask cl.valid old cl.data) bad
        gone (r.1.storeBlock c w blk (rawForm b.1) b.2 .back)
      else
        let r := if whole then (s, zeros 64, false) else
          let t := s.readPayload e (64 * l) (64 * l + 64)
          (t.1, t.2.1, t.2.2.1)
        let bad := cl.poison || r.2.2
        gone ((r.1.writeRawLine e l (mergeMask cl.valid r.2.1 cl.data) bad).heat e 1)

/-- The bytes and poison mask of an expanded block held in the cache, over what `base` gives for a missing line. -/
def overlay (ls : List CacheLine) (blk : Nat) (base : Bytes) (pm : Nat) : Bytes × Nat :=
  ls.foldl (fun b l =>
    if l.line / 64 == blk then
      let i := l.line % 64
      withLine b.1 b.2 i (mergeMask l.valid (slice b.1 (64 * i) 64) l.data)
        (l.poison || (l.valid != fullMask && bitSet b.2 i))
    else b) (base, pm)

/-- Check the bytes of lines that leave the cache. -/
def State.outgoingAll (s : State) (ls : List CacheLine) : State × List CacheLine :=
  ls.foldl (fun (acc : State × List CacheLine) l =>
    let o := acc.1.outgoing l
    (o.1, acc.2 ++ [o.2])) (s, [])

/-- The merge entries of a block. -/
def State.blockMerges (s : State) (c w blk : Nat) : List MergeEntry :=
  s.mem.wmb.filter fun x => x.coll == c && x.wing == w && x.line / 64 == blk

/-- Merge a held write into a line (R32, R34, R215, R216): a merge entry with an uncorrectable byte poisons its line. -/
def State.mergeIn (s : State) (l : CacheLine) (m : MergeEntry) : State × CacheLine :=
  let r := s.readSram (wingDie m.wing) 0xF0 m.coll ⟨m.data, m.check⟩
  (r.1, l.write r.2.1 m.mask (m.poison || r.2.2.1) m.covers)

/-- The lines of a block the partition would hold once its merge entries are in: each over its cached line, or over a line of
the expanded block. -/
def State.mergedLines (s : State) (ms : List MergeEntry) (ls : List CacheLine) (base : Nat → CacheLine) : State × List CacheLine :=
  ms.foldl (fun (acc : State × List CacheLine) m =>
    let l := (acc.2.find? fun x => x.line == m.line).getD (base m.line)
    let r := acc.1.mergeIn l m
    (r.1, (acc.2.filter fun x => x.line != m.line) ++ [r.2])) (s, ls)

/-- An expanded ACT block leaves the cache with its merge entries: it is recompressed when any line is dirty (R33, R34, R51,
R106). -/
def State.leaveAct (s : State) (c w blk : Nat) : State :=
  let ls := s.blockLines c w blk
  let ms := s.blockMerges c w blk
  let e := s.entry c w blk
  let dropMerges (s : State) : State :=
    s.updMem fun m => { m with wmb := m.wmb.filter fun x => !(x.coll == c && x.wing == w && x.line / 64 == blk) }
  let gone (s : State) : State := (dropMerges s).depart c w blk (·.ofBlock c w blk)
  if !ls.any (·.dirty) && ms.isEmpty then gone s
  else if s.stuck e then
    ls.foldl (fun s l => if l.dirty then s.putLine { l with held := true } else s) s
  else
    let o := s.outgoingAll ls
    let r := if ls.length = 64 then (o.1, zeros 4096, 0, 0) else o.1.readBlock e
    let x := r.1.mergedLines ms o.2 fun line =>
      .filled c w line (slice r.2.1 (64 * (line % 64)) 64) (bitSet r.2.2.1 (line % 64)) true
    let b := overlay x.2 blk r.2.1 r.2.2.1
    match actForm (s.act.fmt c) b.1 (b.2 != 0) with
    | none => gone (((x.1.captureReads e).zeroBlock c w blk).settle c)
    | some f => gone (x.1.storeBlock c w blk f b.2 .back)

/-- A cache line leaves the cache (R33): by the kind of its collection. -/
def State.leave (s : State) (c w line : Nat) : State :=
  match s.cached? c w line with
  | none => s
  | some l =>
    if l.queued then s
    else if s.act.kind c = 2 && (l.dirty || l.expanded) then s.leaveAct c w (line / 64)
    else s.leaveRaw l

/-- Can the line leave now: not held for a frozen channel, and its write-back not queued (R264)? -/
def CacheLine.canLeave (l : CacheLine) : Bool := !l.held && !l.queued

/-- A place of the partition is given up: a line leaves, a header is dropped. -/
def State.evict (s : State) (l : CacheLine) : State :=
  if l.hdr then s.dropLines (·.isHdr l.coll l.wing (l.line / 64)) else s.leave l.coll l.wing l.line

/-- Make room for `n` lines in a partition, least recently used first (R51): lines and headers leave, then blocks with merge
entries, then queued write-backs issue; false when only held lines remain. -/
def State.makeRoomAux (c w n : Nat) : Nat → State → State × Bool
  | 0, s => (s, decide (s.partUsed c w + n ≤ s.partLines c))
  | fuel + 1, s =>
    if s.partUsed c w + n ≤ s.partLines c then (s, true)
    else
      match s.mem.cache.find? fun l => l.coll == c && l.wing == w && l.canLeave && !(s.stuck (s.entry c w (l.line / 64)) && l.dirty) with
      | some l => State.makeRoomAux c w n fuel (s.evict l)
      | none =>
        match s.mem.wmb.find? fun m => m.coll == c && m.wing == w && !s.changing w && !s.stuck (s.entry c w (m.line / 64)) with
        | some m => State.makeRoomAux c w n fuel (s.leaveAct c w (m.line / 64))
        | none =>
          match s.mem.cache.find? fun l => l.coll == c && l.wing == w && l.queued && !s.changing w with
          | some l => State.makeRoomAux c w n fuel (s.forceBlock c w (l.line / 64))
          | none => (s, false)

def State.makeRoom (s : State) (c w n : Nat) : State × Bool :=
  State.makeRoomAux c w n (2 * s.partUsed c w) s

/-- Place a clean line read from memory in the partition when it has room; otherwise the read is served without
allocation (R264, R51). -/
def State.allocClean (s : State) (c w line : Nat) (data : Bytes) : State :=
  if (s.cached? c w line).isSome then s
  else
    match s.makeRoom c w 1 with
    | (s1, true) => s1.putLine (.filled c w line data false false)
    | (s1, false) => s1

/-- Keep a header read from its line in the partition when it has room (R26, R52). -/
def State.allocHdr (s : State) (e : CatEntry) : State :=
  if e.coding == 1 || (s.cachedHdr? e).isSome || !(s.entry e.coll e.wing e.blk).sameForm e then s
  else
    let h := s.plainLine e 0
    if !headerSound h (some (e.coding, e.slots)) || !s.lineSound e 0 then s
    else
      match s.makeRoom e.coll e.wing 1 with
      | (s1, true) => s1.putLine { CacheLine.filled e.coll e.wing (64 * e.blk) h false false with hdr := true }
      | (s1, false) => s1

/-- Write back the dirty lines and merge entries of a block and keep its lines cached clean (R93, R155, R243). -/
def State.writeBackBlock (s : State) (c w blk : Nat) : State :=
  let ls := s.blockLines c w blk
  let busy := ls.any (fun l => l.dirty || l.queued) || !(s.blockMerges c w blk).isEmpty
  if !busy || s.stuck (s.entry c w blk) then s
  else
    let x := (s.mergedLines (s.blockMerges c w blk) ls fun line => .empty c w line).2
    let s1 := ls.foldl (fun s l => if l.dirty then s.leave c w l.line else s) s
    let s2 := if (s1.blockMerges c w blk).isEmpty then s1 else s1.leaveAct c w blk
    let s3 := s2.forceBlock c w blk
    if (s3.entry c w blk).stored then
      x.foldl (fun s l => if l.valid == fullMask || ls.any (·.sameAs l) then
        s.putLine { l with dirty := false, queued := false, held := false } else s) (s3.dropLines (·.ofBlock c w blk))
    else s3

/-- Write back every dirty line and merge entry of a collection on a Wing. -/
def State.writeBackAll (s : State) (c w : Nat) : State :=
  let bs := ((s.mem.cache.filter fun l => l.coll == c && l.wing == w && (l.dirty || l.queued)).map (·.line / 64)) ++
    ((s.mem.wmb.filter fun m => m.coll == c && m.wing == w).map (·.line / 64))
  bs.eraseDups.foldl (fun s b => s.writeBackBlock c w b) s

/-- Expand a block into the cache (R31): 64 lines, poisoned where the stored form is, over which held writes merge. -/
def State.expandInto (s : State) (c w blk : Nat) : State :=
  let e := s.entry c w blk
  let b := s.readBlock e
  let ls := (List.range 64).map fun l =>
    CacheLine.filled c w (64 * blk + l) (slice b.2.1 (64 * l) 64) (bitSet b.2.2.1 l) true
  let keep := s.blockLines c w blk
  let s1 := (b.1.dropLines (·.ofBlock c w blk)).heat e b.2.2.2
  let s2 := ls.foldl (fun s l => s.putLine l) s1
  keep.foldl (fun s l => if l.dirty || l.queued then s.putLine { l with expanded := true } else s) s2

end Sys2Proof.Machine
end

