-- ==== Sys2Proof/Machine/MoverOps.lean ====
section
/-! DEFINITION. What a Mover engine does between descriptors and requests (R307-R312): its assignment, the reads it
issues, the fetch of the next descriptor, and the end of one. -/

namespace Sys2Proof.Machine

/-- The port an engine slot is assigned to by an edition (R307). -/
def Edition.enginePort (e : Edition) (oneLobby : Bool) (lobby i : Nat) : Nat :=
  e.nat 0x1103 (16 * lobby + i + 1) 0 (if oneLobby && lobby == 1 then 0xFF else 8 * lobby + i % 8)

/-- Engine `i` at a port, present only where the edition assigns it. -/
def State.engine? (s : State) (p i : Nat) : Option Engine :=
  if s.act.enginePort (s.pkg.asm.lobbies.length == 1) (p / 8) i = p then
    match s.fn? p with
    | some f => f.engines.find? (·.e == i)
    | none => none
  else none

/-- Is the engine being reassigned by a commit whose quiesce has not ended (R344), or held like all other traffic (R347)? -/
def State.engineHeld (s : State) (p i : Nat) : Bool :=
  s.swapping || match s.ed.incoming with
  | some e =>
    let one := s.pkg.asm.lobbies.length == 1
    s.ed.quiescing && s.act.enginePort one (p / 8) i != e.enginePort one (p / 8) i
  | none => false

/-- Change one engine. -/
def State.updEngine (s : State) (p i : Nat) (f : Engine → Engine) : State :=
  s.updFn p fun x => { x with engines := updWhere (·.e == i) f x.engines }

/-- Tags a function may use at once (R311): bounded by its 1,024 outstanding requests. -/
def Fn.tagLimit (f : Fn) : Nat := if f.tags = 0 then 256 else if f.tags = 1 then 768 else 1024

/-- Descriptor fields (R309). -/
def descOp (d : Bytes) : Nat := fieldAt d 0 1
def descFlags (d : Bytes) : Nat := fieldAt d 1 1
def descColl (d : Bytes) : Nat := fieldAt d 2 2
def descTicket (d : Bytes) : Nat := fieldAt d 4 4
def descHost (d : Bytes) : Nat := fieldAt d 8 8
def descOff (d : Bytes) : Nat := fieldAt d 16 8
def descLen (d : Bytes) : Nat := fieldAt d 24 8

/-- The lowest tag no outstanding read uses. -/
def Fn.freeTag (f : Fn) : Nat :=
  ((List.range 1025).find? fun t => !f.hostReads.any (·.tag == t)).getD 0

/-- Send one memory read and record it. -/
def State.hostReadReq (s : State) (p engine : Nat) (fetch : Bool) (addr len dest : Nat) (ro : Bool) : State :=
  match s.fn? p with
  | none => s
  | some f =>
    let t := f.freeTag
    (s.send (.hostRead p t addr len ro)).updFn p fun f =>
      { f with hostReads := f.hostReads ++ [⟨t, engine, fetch, addr, len, dest, List.replicate len none⟩] }

/-- Issue the reads of a running TO_DEVICE or INGEST in ascending order (R311), as many as the tags allow. -/
def State.issueReadsAux (p i : Nat) : Nat → State → State
  | 0, s => s
  | fuel + 1, s =>
    match s.fn? p, s.engine? p i with
    | some f, some g =>
      match g.desc with
      | none => s
      | some d =>
        if !f.canMaster || g.st != 2 || !g.begun || descLen d ≤ g.issued || f.tagLimit ≤ f.hostReads.length then s
        else
          let a := descHost d + g.issued
          let n := min (min f.maxRead (4096 - a % 4096)) (descLen d - g.issued)
          let ro := bitSet (descFlags d) 0 && f.relaxed
          State.issueReadsAux p i fuel ((s.hostReadReq p i false a n g.issued ro).updEngine p i fun g =>
            { g with issued := g.issued + n })
    | _, _ => s

def State.issueReads (s : State) (p i : Nat) : State := State.issueReadsAux p i 1024 s

/-- Fetch the next descriptor when the engine is idle and its ring is not empty (R308). -/
def State.fetchNext (s : State) (p i : Nat) : State :=
  match s.fn? p, s.engine? p i with
  | some f, some g =>
    if g.enable && g.st == 1 && !g.fetching && g.head != g.tail % 2 ^ g.size && f.canMaster &&
        decide (f.hostReads.length < f.tagLimit) then
      (s.hostReadReq p i true (g.base + 64 * g.head) 64 0 false).updEngine p i fun g =>
        { g with st := 2, fetching := true, begun := false, desc := none, issued := 0, moved := 0, poisonLines := 0 }
    else s
  | _, _ => s

/-- Source of a Mover engine (R354). -/
def moverSrc (p i : Nat) : Nat := src (p / 8) (0x20 + i)

/-- Finish the running descriptor (R309, R310): bytes 63:48 in one write, then the Mover-done record if asked, then the
next descriptor; after TIMEOUT or HOST_ERROR the engine stops. -/
def State.finishDesc (s : State) (p i status count : Nat) : State :=
  match s.engine? p i with
  | none => s
  | some g =>
    match g.desc with
    | none => s
    | some d =>
      let s1 := s.send (.hostWrite p (g.base + 64 * g.head + 48)
        (leBytes 2 status ++ leBytes 2 0 ++ leBytes 4 count ++ leBytes 8 g.moved) false false)
      let s2 := if bitSet (descFlags d) 1 then
          s1.event (.queue p g.queue) 0x24 (moverSrc p i) 0xFFFF
            (pack [(1, i), (2, g.head), (4, descTicket d), (2, status)])
        else s1
      let stop := status == 0x800E || status == 0x800F
      let s3 := s2.updEngine p i fun g =>
        if stop then { g with st := 3, stopIdx := g.head, desc := none, begun := false }
        else { g with st := 1, head := (g.head + 1) % 2 ^ g.size, desc := none, begun := false, issued := 0, moved := 0,
                      poisonLines := 0 }
      if stop then s3 else s3.fetchNext p i

/-- One line of TO_DEVICE or TO_HOST has moved; the descriptor ends when all have (R310, R313). -/
def State.lineMoved (s : State) (p i : Nat) (poison : Bool) : State :=
  let s1 := (s.updEngine p i fun g => { g with moved := g.moved + 64, poisonLines := g.poisonLines + bit1 poison }).bump
    0x1101 10 p 64
  match s1.engine? p i with
  | none => s1
  | some g =>
    match g.desc with
    | none => s1
    | some d =>
      if g.st == 2 && g.begun && descLen d ≤ g.moved then
        s1.finishDesc p i (if g.poisonLines = 0 then 2 else 3) g.poisonLines
      else s1

end Sys2Proof.Machine
end

