-- ==== Sys2Proof/Machine/Access.lean ====
section
/-! DEFINITION. The read and write paths of a line (R26-R35, R46, R50, R145, R149, R286): address decoding at a port,
serving a read from cache or channel, landing a write, and answering whoever waits. -/

namespace Sys2Proof.Machine

/-- A sequence pool of a collection (R141): base, record size, token capacity, window count, stride. -/
structure Pool where
  base : Nat
  rec_ : Nat
  cap : Nat
  count : Nat
  stride : Nat
deriving DecidableEq, Repr

/-- Pool `p` of a collection in an edition, over a Wing set of `n` Wings; none where it is not defined. -/
def Edition.pool (e : Edition) (n c p : Nat) : Option Pool :=
  let r := e.nat (0x3800 + p) 2 c 0
  let t := e.nat (0x3800 + p) 3 c 0
  let w := e.nat (0x3800 + p) 4 c 0
  if r = 0 ∨ t = 0 ∨ w = 0 then none
  else
    let u := Nat.lcm 65536 (e.grain c * max 1 n)
    some ⟨e.nat (0x3800 + p) 1 c 0, r, t, w, ceilDiv (t * r) u * u⟩

/-- The pool in force. -/
def State.pool (s : State) (c p : Nat) : Option Pool := s.act.pool (s.wingsOf c).length c p

/-- Bytes of a pool. -/
def Pool.bytes (q : Pool) : Nat := q.count * q.stride

/-- The window a data-window offset lies in: pool number, pool, window, offset within the window. -/
def State.windowAt (s : State) (c a : Nat) : Option (Nat × Pool × Nat × Nat) :=
  (List.range 8).findSome? fun p =>
    match s.pool c p with
    | some q => if q.base ≤ a ∧ a < q.base + q.bytes then some (p, q, (a - q.base) / q.stride, (a - q.base) % q.stride) else none
    | none => none

/-- The live sequence of a number. -/
def State.seq? (s : State) (c n : Nat) : Option Seq := s.mem.seqs.find? fun q => q.coll == c && q.num == n

/-- Is an offset in a window that holds no live sequence, or in the padding of one (R145)? -/
def State.noData (s : State) (c a : Nat) : Bool :=
  match s.windowAt c a with
  | some (p, q, w, x) => (s.seq? c (p * 65536 + w)).isNone || decide (q.cap * q.rec_ ≤ x)
  | none => false

/-- A write to token i at or beyond h raises the tokens held to i + 1 (R149). -/
def State.append (s : State) (c a : Nat) : State :=
  match s.windowAt c a with
  | some (p, q, w, x) =>
    let qs := updWhere (fun t => t.coll == c && t.num == p * 65536 + w)
      (fun t => { t with held := max t.held (x / q.rec_ + 1) }) s.mem.seqs
    s.updMem fun m => { m with seqs := qs }
  | none => s

/-- What a host physical address of a port names (R42, R43, R46, R90). -/
inductive Target where
  | undecoded
  | unmapped
  | data (coll off : Nat)
  | command (coll n : Nat)
  | view (coll off : Nat)
deriving DecidableEq, Repr

/-- Is an extent mapped: accepted and not yet released or removed (R45)? -/
def Extent.mapped (x : Extent) : Bool := !x.shut && (x.st == .accepted || x.st == .releaseWaiting || x.st == .releasing)

/-- Decode an address at a port. Where extents that wait for release overlap one accepted since, the older serves; nothing
stands behind an extent whose collection is destroyed, so its addresses are unmapped (DESIGN CHOICE, log 38). -/
def State.target (s : State) (p hpa : Nat) : Target :=
  match s.fn? p with
  | none => .undecoded
  | some f =>
    match f.decoders.find? fun d => d.committed && decide (d.base ≤ hpa) && decide (hpa < d.base + d.size) with
    | none => .undecoded
    | some d =>
      if !f.cxl then .undecoded
      else
        let x := hpa - d.base
        match s.mem.extents.find? fun e => e.port == p && e.mapped && !e.dead && e.region == d.r && decide (e.offset ≤ x) &&
            decide (x < e.offset + e.length) with
        | none => .unmapped
        | some e =>
          let o := x - e.offset
          if e.view then .view e.coll o
          else if o < s.act.size e.coll then .data e.coll o
          else .command e.coll ((o - s.act.size e.coll) / 64)

/-- Is a port's link up (R318: a response for a link that went down is discarded)? -/
def State.linkUp (s : State) (p : Nat) : Bool :=
  match s.fn? p with | some f => f.link == 2 | none => false

/-- A request ends the self-refresh of idle channels (R320). -/
def State.wakeChannels (s : State) : State :=
  if s.pw.idleRefresh then
    { s with pw := { s.pw with idleRefresh := false, busyAt := s.tsc },
             chans := updWhere (fun c => c.st == 8) (fun c => { c with st := 2, selfRefresh := false }) s.chans }
  else { s with pw := { s.pw with busyAt := s.tsc } }

/-- Requests of a port that the device tracks: its reads and writes that wait. -/
def State.tracked (s : State) (p : Nat) : Nat :=
  (s.mem.reads.filter (·.waiter == .port p)).length + (s.mem.writes.filter (·.waiter == .port p)).length

/-- The load a response of a port reports, of its 1,024 tracked requests (R294). -/
def State.devLoad (s : State) (p : Nat) : DevLoad :=
  let n := s.tracked p
  if n < 256 then .light else if n < 512 then .optimal else if n < 768 then .moderate else .severe

/-- Hand a line to a running job: it stands in the stream buffer and in the SRAM of the job's first tile, at the place the
count of its lines gives (R163, R164, R210; which place is the interior's, log 17). -/
def State.giveLine (s : State) (n o off : Nat) (data : Bytes) (poison : Bool) : State :=
  match s.wb.jobs.find? (·.num == n) with
  | none => s
  | some j =>
    let b := Sram.store poison data
    let i := j.lines.length % max 1 (ceilDiv (fieldAt j.header 20 4) 64)
    let js := updWhere (fun x => x.num == n) (fun x => { x with lines := x.lines ++ [⟨o, off, b.data, b.check, poison⟩] }) s.wb.jobs
    let ts := updWhere (fun t => t.wing == j.wing && j.tiles.head? == some t.idx)
      (fun t => { t with sram := (t.sram.filter (·.1 != i)) ++ [(i, b)] }) s.wb.tiles
    { s with wb := { s.wb with jobs := js, tiles := ts } }

/-- Answer a waiting read. -/
def State.answer (s : State) (w : Waiter) (c line : Nat) (data : Bytes) (poison : Bool) : State :=
  match w with
  | .port p => if s.linkUp p then (s.send (.memData p data poison (s.devLoad p))).bump 0x1101 9 p (bit1 poison) else s
  | .job n o off => s.giveLine n o off data poison
  | .mover p e addr =>
    match s.fn? p, s.engine? p e with
    | some f, some g =>
      match g.desc with
      | some d =>
        if g.st == 2 && g.begun && descOp d == 2 && f.canMaster then
          (s.send (.hostWrite p addr data poison (bitSet (descFlags d) 0 && f.relaxed))).lineMoved p e poison
        else s
      | none => s
    | _, _ => s
  | .loan b =>
    let m : LoanMsg := { kind := 2, borrower := b, coll := c, line := line, data := data, poison := poison }
    (s.send (.loan m)).updMem fun x => { x with loanMsgs := x.loanMsgs ++ [m] }

/-- Complete a waiting write (R32, R313). -/
def State.completeWrite (s : State) (w : Waiter) : State :=
  match w with
  | .port p => if s.linkUp p then s.send (.memCmp p (s.devLoad p)) else s
  | .mover p e _ => s.lineMoved p e false
  | .job _ _ _ => s
  | .loan _ => s

/-- Meter a request at its home Wing (R397-R399): job traffic and the device's own work are class 3. -/
def State.meterFor (s : State) (who : Waiter) (c w : Nat) (read : Bool) : State × Nat :=
  match who with
  | .port p => s.meter c w p read
  | .mover p _ _ => s.meter c w p read
  | .job _ _ _ => (s, 3)
  | .loan _ => (s, 3)

/-- The merge entry of a line. -/
def State.merge? (s : State) (c w line : Nat) : Option MergeEntry :=
  s.mem.wmb.find? fun x => x.coll == c && x.wing == w && x.line == line

/-- Read a line's merge entry under its check bits (R216). -/
def State.mergeRead (s : State) (c w line : Nat) : State × Option MergeEntry :=
  match s.merge? c w line with
  | none => (s, none)
  | some m =>
    let r := s.readSram (wingDie w) 0xF0 c ⟨m.data, m.check⟩
    let m' : MergeEntry := { m with data := r.2.2.2.data, check := r.2.2.2.check, poison := m.poison || r.2.2.1,
                                    covers := m.covers || r.2.2.1, mask := if r.2.2.1 then fullMask else m.mask }
    (r.1.updMem fun x => { x with wmb := updWhere (fun y => y.coll == c && y.wing == w && y.line == line) (fun _ => m') x.wmb }, some m')

/-- What is known of a line before memory is read: bytes written to it and not yet stored, their mask, whether the whole line
is poison, and whether nothing of it is needed from memory. -/
structure Held where
  data : Bytes
  mask : Nat
  poison : Bool
  sure : Bool
deriving DecidableEq, Repr

/-- The bytes of the cached line and then those of the merge entry. A merge entry that no single write covers leaves the line's
poison as it stands (R34). -/
def Held.of (cached : Option (Bytes × Nat × Bool)) (m : Option MergeEntry) : Held :=
  let b : Held := match cached with
    | some x => ⟨x.1, x.2.1, x.2.2, x.2.1 == fullMask⟩
    | none => ⟨zeros 64, 0, false, false⟩
  match m with
  | some m =>
    if m.covers then ⟨mergeMask m.mask b.data m.data, fullMask, m.poison, true⟩
    else { b with data := mergeMask m.mask b.data m.data, mask := b.mask ||| m.mask }
  | none => b

/-- A read joins the requests of its channel (R250, R400). -/
def State.queueRead (s : State) (r : PendRead) : State :=
  let s1 : State := { s with fresh := s.fresh + 1 }
  ((s1.wakeRank r.wing r.sel (s.readAddr r)).updMem fun x =>
    { x with reads := x.reads ++ [{ r with id := s.fresh, at_ := s.tsc, stage := .ingress, got := none }] }).pump r.wing r.sel

/-- The channel of an entry's primary run. -/
def State.entrySel (s : State) (e : CatEntry) : Nat := (s.locate e.tier e.site e.slot 0).1

/-- A DELTA block on an isolated Wing has no readable anchor: its notice (R65). -/
def State.anchorLost (s : State) (e : CatEntry) : State :=
  if e.stored && e.coding == 3 then s.anchorNotice e.wing e.blk e.coll (s.act.anchor e.coll) else s

/-- Serve an expanded-view read at its home Wing (R26, R27, R50, R56, R145, R264). -/
def State.serveRead (s : State) (c off : Nat) (who : Waiter) : State :=
  let pl := s.place c off
  let w := pl.wing
  let line := 64 * pl.blk + pl.line
  if !s.wingUp w then (s.anchorLost (s.entry c w pl.blk)).answer who c line (zeros 64) true
  else
    let m := s.meterFor who c w true
    let s := m.1
    if s.noData c off then s.answer who c line (zeros 64) false
    else if (s.entry c w pl.blk).tier == .lost && s.overfull c then s.answer who c line (zeros 64) true
    else
      let valid := match s.cached? c w line with | some l => l.valid | none => 0
      let r := s.cacheRead c w line
      let mr := r.1.mergeRead c w line
      let s1 := mr.1
      let have_ := Held.of (r.2.map fun x => (x.1, valid, x.2)) mr.2
      if have_.poison then s1.answer who c line (zeros 64) true
      else if have_.sure then s1.answer who c line have_.data false
      else
        let e := s1.entry c w pl.blk
        match e.tier with
        | .none => s1.answer who c line (mergeMask have_.mask (zeros 64) have_.data) false
        | .lost => s1.answer who c line (zeros 64) true
        | _ =>
          if e.hdrDamage || !s1.serves w (s1.entrySel e) then s1.answer who c line (zeros 64) true
          else
            s1.queueRead
              { id := 0, coll := c, wing := w, line := line, view := none, entry := e, cls := m.2, waiter := who,
                merged := have_.data, mergedMask := have_.mask, sel := s1.entrySel e,
                places := s1.placesOf e (s1.wanted e pl.line), at_ := 0, stage := .ingress, got := none }

/-- The DRAM lines of a waiting read return (R26, R84): decode, decrypt, expand and answer; header and line stay clean in the
partition when it has room and the stored lines needed no correction (R237). -/
def State.completeRead (s : State) (r : PendRead) : State :=
  let f : Fetch := match r.got with
    | some g => ⟨s, g.1, g.2, 0⟩
    | none => s.fetchRead r
  let s1 := f.s.updMem fun m => { m with reads := m.reads.filter (·.id != r.id) }
  let data := if r.view.isSome then f.data else mergeMask r.mergedMask f.data r.merged
  let keep := r.view.isNone && r.got.isNone && !f.poison && r.mergedMask == 0 && (s.entry r.coll r.wing (r.line / 64)).sameForm r.entry &&
    (s1.merge? r.coll r.wing r.line).isNone && (s.wanted r.entry (r.line % 64)).all (s.lineSound r.entry)
  let s2 := if keep then (s1.allocHdr r.entry).allocClean r.coll r.wing r.line data else s1
  -- R180: a job takes every line of a damaged block as poison.
  let hurt := match r.waiter with
    | .job _ _ _ => r.view.isNone && (s1.entry r.coll r.wing (r.line / 64)).segDamage != 0
    | _ => false
  let bad := f.poison || hurt
  (s2.answer r.waiter r.coll r.line (if bad then zeros 64 else data) bad).pump r.wing r.sel

/-- Discard a write with its notice (R31, R35); `lobby` says that the port's Lobby decided it (R472). -/
def State.discard (s : State) (c w off port : Nat) (lobby : Bool) : State :=
  s.coalesceC 0x10 (if lobby then portSrc port else ingressSrc w) c (pack [(5, off / 64), (1, port)])

/-- Does a line's write wait for recalls (R286)? -/
def State.lent (s : State) (c line : Nat) : Bool :=
  s.mem.loanDir.any fun d => d.coll == c && d.line == line && !d.borrowers.isEmpty

/-- A write has landed: recall its lent line, and complete it now or when its Depot copy and its recalls are done
(R32, R286, R321). -/
def State.landed (s : State) (c w line : Nat) (who : Waiter) : State :=
  let s1 := s.recall c (· == line)
  let depot := s.act.durable c || s.pw.flushing
  if depot || s1.lent c line then
    let s2 := { s1 with fresh := s1.fresh + 1 }
    s2.updMem fun m => { m with writes := m.writes ++ [⟨s1.fresh, c, w, line, depot, who⟩] }
  else s1.completeWrite who

/-- A write into a merge entry (R32, R34, R210, R215). -/
def MergeEntry.write (x : MergeEntry) (data : Bytes) (be : Nat) (poison : Bool) : MergeEntry :=
  let d := mergeMask be x.data data
  if poison then { x with data := d, check := sramStore true d, mask := fullMask, poison := true, covers := true }
  else if be = fullMask then { x with data := d, check := sramStore false d, mask := fullMask, poison := false, covers := true }
  else
    let fresh := sramStore x.poison d
    { x with data := d, check := (List.range 64).map (fun i => if bitSet be i then fresh.getD i 0 else x.check.getD i 0),
             mask := x.mask ||| be }

/-- Put a write into the write-merge buffer, whose entries take room in the partition (R32, R52); with no room its block is
stored with it at once. -/
def State.mergeWrite (s : State) (c w line : Nat) (data : Bytes) (be : Nat) (poison : Bool) : State :=
  let r := if (s.merge? c w line).isSome then (s, true) else s.makeRoom c w 1
  let wm := upsert (fun x => x.coll == c && x.wing == w && x.line == line) (·.write data be poison)
    ⟨c, w, line, zeros 64, sramStore false (zeros 64), 0, false, false⟩ r.1.mem.wmb
  let s1 := r.1.updMem fun m => { m with wmb := wm }
  if r.2 then s1 else s1.leaveAct c w (line / 64)

/-- Place a written line, making room; with none the line leaves at once (R51). -/
def State.placeWrite (s : State) (l : CacheLine) : State :=
  if (s.cached? l.coll l.wing l.line).isSome then s.putLine l
  else
    match s.makeRoom l.coll l.wing 1 with
    | (s1, true) => s1.putLine l
    | (s1, false) => (s1.putLine l).leave l.coll l.wing l.line

/-- The collection's window offset is written (R31, R32, R56): by kind and state. `port` is the port named in a notice. A write
to an isolated Wing is discarded at the Lobby, one that its Wing refuses at the Wing (DESIGN CHOICE, log 39). -/
def State.serveWrite (s : State) (c off : Nat) (data : Bytes) (be : Nat) (poison : Bool) (who : Waiter) (port : Nat) : State :=
  let pl := s.place c off
  let w := pl.wing
  let line := 64 * pl.blk + pl.line
  if !s.wingUp w then (s.discard c w off port (decide (port < 16))).completeWrite who
  else
  let s := (s.meterFor who c w false).1
  if s.act.kind c = 3 || s.act.exhibit c || s.noData c off then (s.discard c w off port false).completeWrite who
  else
    let e := s.entry c w pl.blk
    if e.tier == .lost && s.overfull c then (s.append c off).completeWrite who
    else
      match s.lookup c w line with
      | (s, some l) =>
        if s.act.kind c = 1 || l.expanded || s.stuck e then
          ((s.putLine (l.write data be poison (be == fullMask))).append c off).landed c w line who
        else ((s.mergeWrite c w line data be poison).append c off).landed c w line who
      | (s, none) =>
        if s.stuck e then (s.discard c w off port false).completeWrite who
        else if s.act.kind c = 1 then
          ((s.placeWrite ((CacheLine.empty c w line).write data be poison (be == fullMask))).append c off).landed c w line who
        else ((s.mergeWrite c w line data be poison).append c off).landed c w line who

/-- An ACT block has arrived expanded (R31, R32): its lines take the partition's room and held writes merge into them. With no
room it is stored again at once. -/
def State.blockExpanded (s : State) (c w blk : Nat) : State :=
  if (s.blockMerges c w blk).isEmpty || s.stuck (s.entry c w blk) || s.changing w then s
  else
    let r := s.makeRoom c w 64
    let ms := r.1.blockMerges c w blk
    if ms.isEmpty then r.1
    else if !r.2 then r.1.leaveAct c w blk
    else
      let s1 := (r.1.expandInto c w blk).updMem fun m =>
        { m with wmb := m.wmb.filter fun x => !(x.coll == c && x.wing == w && x.line / 64 == blk) }
      ms.foldl (fun s m =>
        match s.cached? c w m.line with
        | some l => let t := s.mergeIn l m; t.1.putLine t.2
        | none => s) s1

/-- A waiting write is done with its Depot copy and recalls: complete it. -/
def State.finishWrites (s : State) : State :=
  let ready := s.mem.writes.filter fun x => !x.depot && !s.lent x.coll x.line
  ready.foldl (fun s x => s.completeWrite x.waiter)
    (s.updMem fun m => { m with writes := m.writes.filter fun x => x.depot || s.lent x.coll x.line })

/-- The Depot copy of a durable write is held (R32, R133, R157): its block is written back, and the write completes. -/
def State.depotWritten (s : State) (id : Nat) : State :=
  match s.mem.writes.find? fun x => x.id == id && x.depot with
  | none => s
  | some x =>
    let blk := x.line / 64
    let s1 := s.writeBackBlock x.coll x.wing blk
    if ((s1.blockLines x.coll x.wing blk).any fun l => l.dirty || l.queued) || !(s1.blockMerges x.coll x.wing blk).isEmpty then s
    else
      (s1.updMem fun m => { m with writes := updWhere (fun y => y.id == id) (fun y => { y with depot := false }) m.writes }).finishWrites

end Sys2Proof.Machine
end

