-- ==== Sys2Proof/Machine/CommandOps.lean ====
section
/-! DEFINITION. The command area and the request entries (R57-R62, R146, R151): acceptance, what a read returns, the
gates a command waits for, the checks every command makes first, and its end. -/

namespace Sys2Proof.Machine

/-- Status codes (R61). -/
def stPending : Nat := 1
def stDone : Nat := 2
def stBadOpcode : Nat := 0x8001
def stBadOperand : Nat := 0x8002
def stNotSupported : Nat := 0x8003
def stLimit : Nat := 0x8004
def stQuota : Nat := 0x8005
def stRefused : Nat := 0x8006
def stNotFound : Nat := 0x8007
def stKind : Nat := 0x8008
def stMalformed : Nat := 0x8009
def stAborted : Nat := 0x800A
def stPoisoned : Nat := 0x800B

/-- The command at a place. -/
def State.cmd? (s : State) (c : Nat) (src : CmdSrc) : Option Cmd := s.mem.cmds.find? fun x => x.coll == c && x.src == src

/-- Replace the command at a place. -/
def State.putCmd (s : State) (x : Cmd) : State :=
  s.updMem fun m => { m with cmds := (m.cmds.filter fun y => !(y.coll == x.coll && y.src == x.src)) ++ [x] }

/-- Is the command at a place PENDING? -/
def State.isPending (s : State) (c : Nat) (src : CmdSrc) : Bool :=
  match s.cmd? c src with | some x => x.status == stPending | none => false

/-- An IDLE place. -/
def Cmd.idle (c : Nat) (src : CmdSrc) : Cmd :=
  { coll := c, src := src, bytes := zeros 56, status := 0, detail := 0, result := 0, order := 0, forwarded := false, undo := [] }

/-- The place's command, IDLE when there was none. -/
def State.cmdAt (s : State) (c : Nat) (src : CmdSrc) : Cmd :=
  match s.cmd? c src with | some x => x | none => .idle c src

/-- The 64 bytes a read of a command line returns (R57, R58). -/
def Cmd.image (x : Cmd) : Bytes :=
  slice x.bytes 0 56 ++ leBytes 2 x.status ++ leBytes 2 x.detail ++ leBytes 4 x.result

/-- Accept a command: store bytes 55:0 and set PENDING (R58). -/
def State.acceptCmd (s : State) (c : Nat) (src : CmdSrc) (bytes : Bytes) : State :=
  ({ s with fresh := s.fresh + 1 }).putCmd
    { coll := c, src := src, bytes := slice bytes 0 56, status := stPending, detail := 0, result := 0, order := s.fresh,
      forwarded := false, undo := [] }

/-- A CXL.mem write to a command line (R58). Of a write that is both partial and poisoned the spec gives two outcomes and no
precedence: POISONED is set (DESIGN CHOICE, log 41). -/
def State.writeLineCmd (s : State) (c n : Nat) (data : Bytes) (be : Nat) (poison : Bool) : State :=
  let src := CmdSrc.line n
  if s.isPending c src then s.event .c 0x16 (ingressSrc (s.commandWing c)) c (leBytes 2 n)
  else if poison then s.putCmd { s.cmdAt c src with status := stPoisoned }
  else if be ≠ fullMask then s.putCmd { s.cmdAt c src with status := stMalformed }
  else s.acceptCmd c src data

/-- Fields of a command (R57, R59). -/
def Cmd.op (x : Cmd) : Nat := fieldAt x.bytes 0 1
def Cmd.flags (x : Cmd) : Nat := fieldAt x.bytes 1 1
def Cmd.ticket (x : Cmd) : Nat := fieldAt x.bytes 4 4

/-- The sequence a FORK, TRUNCATE or RELEASE names (R151). -/
def Cmd.names (x : Cmd) : Option Nat :=
  if x.op = 1 ∨ x.op = 2 then some (fieldAt x.bytes 8 4)
  else if x.op = 3 ∧ fieldAt x.bytes 8 1 = 0 then some (fieldAt x.bytes 12 4)
  else none

/-- Is the place a command line? -/
def isLine : CmdSrc → Bool
  | .line _ => true
  | .seqEntry _ => false
  | .jobEntry _ => false

/-- May a PENDING command start (R58, R151): no earlier FENCE of the area is pending when after_fence is set, and no
earlier pending command names the same sequence? -/
def State.gateOpen (s : State) (x : Cmd) : Bool :=
  let earlier := s.mem.cmds.filter fun y => y.coll == x.coll && y.status == stPending && decide (y.order < x.order)
  !(bitSet x.flags 1 && earlier.any fun y => isLine y.src && y.op == 4) &&
  !(x.names.isSome && earlier.any fun y => y.names == x.names)

/-- Is a collection's traffic held by a quiesce (R344, R347)? -/
def State.quiet (s : State) (c : Nat) : Bool := s.swapping || s.ed.quiesced.contains c

/-- The command at a place, when it is PENDING and not under way, may start, has this opcode, and its collection is not
quiesced (R344). -/
def State.due (s : State) (c : Nat) (src : CmdSrc) (op : Nat) : Option Cmd :=
  match s.cmd? c src with
  | some x =>
    if s.accepting && x.status == stPending && !x.forwarded && x.op == op && s.gateOpen x && s.act.has c &&
      !s.quiet c then some x else none
  | none => none

/-- End a command (R58): the command-done record first when it was asked for, then the final status. A request entry
has no line, and its record carries 0xFFFF. -/
def State.endCmd (s : State) (x : Cmd) (status detail result : Nat) : State :=
  let n := match x.src with | .line n => n | .seqEntry _ => 0xFFFF | .jobEntry _ => 0xFFFF
  let s1 := if bitSet x.flags 0 then
      s.event .c 0x17 (ingressSrc (s.commandWing x.coll)) x.coll (pack [(2, n), (2, status), (4, x.ticket), (4, result)])
    else s
  s1.putCmd { x with status := status, detail := detail, result := result % 2 ^ 32 }

/-- Operand bytes an opcode names, as (offset, length) pairs (R59, R146). -/
def operandBytes (op : Nat) : List (Nat × Nat) :=
  match op with
  | 1 => [(8, 10)]
  | 2 => [(8, 8)]
  | 3 => [(8, 1), (12, 20)]
  | 5 => [(8, 17)]
  | 6 => [(8, 17)]
  | 7 => [(8, 5), (16, 8)]
  | 0x10 => [(8, 1), (12, 2)]
  | _ => []

/-- Are the rsvd bits and the operand bytes the opcode does not name all 0 (R57, R61; log 15)? -/
def Cmd.rsvdOk (x : Cmd) : Bool :=
  x.flags < 4 && fieldAt x.bytes 2 2 == 0 &&
  (List.range 48).all fun i =>
    (operandBytes x.op).any (fun r => decide (r.1 ≤ i + 8) && decide (i + 8 < r.1 + r.2)) || fieldAt x.bytes (i + 8) 1 == 0

/-- Is the opcode one the place accepts (R59, R146, R168)? -/
def Cmd.opOk (x : Cmd) : Bool :=
  match x.src with
  | .line _ => 1 ≤ x.op && x.op ≤ 7
  | .seqEntry _ => x.op == 1 || x.op == 2 || (x.op == 3 && fieldAt x.bytes 8 1 != 1) || x.op == 0x10
  | .jobEntry _ => x.op == 7

/-- The checks every command makes first (R3, R40, R61, R62, R161): the failing status, if any. -/
def State.firstCheck (s : State) (x : Cmd) : Option Nat :=
  if !x.opOk then some stBadOpcode
  else if isLine x.src && x.op == 1 && s.pkg.mark == 1 then some stNotSupported
  else if !x.rsvdOk then some stBadOperand
  else if s.act.exhibit x.coll && !(x.op == 4 || x.op == 5 || x.op == 6) then some stKind
  else if s.act.kind x.coll == 3 && (x.op == 1 || x.op == 2 || x.op == 7 || x.op == 0x10 || x.names.isSome) then some stKind
  else none

/-- Run a due command: its first checks, then its own meaning. -/
def State.runCmd (s : State) (c : Nat) (src : CmdSrc) (op : Nat) (f : Cmd → State → State) : State :=
  match s.due c src op with
  | none => s
  | some x =>
    match s.firstCheck x with
    | some st => s.endCmd x st 0 0
    | none => f x s

/-- The collection a request at a port addresses, if any. -/
def Target.coll? : Target → Option Nat
  | .undecoded => none
  | .unmapped => none
  | .data c _ => some c
  | .command c _ => some c
  | .view c _ => some c

/-- A request of a link port: none arrives or is taken while the link is down or an emergency runs (R392); it is held
while its collection is quiesced (R344), and otherwise served. -/
def State.orHold (s : State) (p hpa : Nat) (i : Instr) (f : State → State) : State :=
  if !s.accepting || !s.linkUp p then s
  else match (s.target p hpa).coll? with
  | some c => if s.quiet c then { s with ed := { s.ed with heldReqs := s.ed.heldReqs ++ [i] } } else f s
  | none => f s

end Sys2Proof.Machine
end

