-- ==== Sys2Proof/Machine/CuratorOps.lean ====
section
/-! DEFINITION. The Curator (R120-R140): which Wing lots a collection lot touches, pins, the moves a period decides, and
the trigger queue that starts LOT-MOVE (R192, R193). -/

namespace Sys2Proof.Machine

/-- Queue a trigger on a die (R192, R193): one equal in code and argument that waits already takes it in; the queue is
ordered by priority and then by arrival. -/
def State.queueTrigger (s : State) (die code arg : Nat) (target : Option Nat) : State :=
  let prio := if code = 1 then 0 else if code = 2 then 1 else if code = 0x10 then 3 else 2
  if s.doc.triggers.any fun t => t.die == die && t.code == code && t.arg == arg then s
  else
    let ts := insertBy (fun a b : Trigger => decide (a.prio ≤ b.prio)) ⟨die, code, arg, prio, target⟩ s.doc.triggers
    { s with doc := { s.doc with triggers := ts } }

/-- The fill limit in slots (R128). -/
def State.fillSlots (s : State) (c w : Nat) : Nat := s.act.fill c * s.share c w true / 100

/-- Does a Wing lot reside wholly in a tier (R136)? -/
def State.resides (s : State) (c w l : Nat) (gallery : Bool) : Bool :=
  (s.lotEntries c w l).all fun e => !e.stored || (e.tier == .gallery) == gallery

/-- A decision: lot, to the Gallery, for a pin, and the displaced blocks it returns (none: the whole lot). -/
structure Decision where
  lot : Nat
  toGallery : Bool
  pinMove : Bool
  only : List Nat
deriving DecidableEq, Repr

/-- What a period's planning carries: decided moves and Gallery slots planned. -/
structure Plan where
  moves : List Decision
  used : Nat
  promotions : Nat
  refused : Nat
  stop : Bool
deriving DecidableEq, Repr

/-- Is a lot's move under way? -/
def State.lotMoving (s : State) (c w l : Nat) : Bool :=
  s.mem.moves.any fun m => m.started && m.coll == c && m.wing == w && m.lot == l

/-- The unpinned Gallery lots of a collection on a Wing not already moving, lowest heat first; `high` breaks ties to
the higher lot number (R128 step 2), otherwise to the lower: the choice where the spec gives none (DESIGN CHOICE, log 49). -/
def State.coldLots (s : State) (c w : Nat) (moved : List Nat) (high : Bool) : List Nat :=
  let ls := (s.knownLots c w).filter fun l =>
    s.allowedTier c w (s.lot c w l).gallery && (s.pinOf c w l).isNone && !moved.contains l && !s.lotMoving c w l &&
    decide (0 < s.lotSlots c w l true)
  sortBy (fun a b => decide ((s.lot c w a).heat < (s.lot c w b).heat) ||
    ((s.lot c w a).heat == (s.lot c w b).heat && (if high then decide (b ≤ a) else decide (a ≤ b)))) ls

/-- Take lots from the front until at most `limit` slots are used: the lots taken and the slots left used. -/
def State.takeUntil (s : State) (c w : Nat) (limit : Nat) : List Nat → Nat → List Nat × Nat
  | [], used => ([], used)
  | l :: ls, used =>
    if used ≤ limit then ([], used)
    else
      let r := State.takeUntil s c w limit ls (used - s.lotSlots c w l true)
      (l :: r.1, r.2)

/-- Decide one promotion candidate (R128 steps 3 and 4): a candidate that does not fit even so is refused and ends the promotion;
one whose moves would pass 64 is left for a later period (R129). -/
def State.planPromotion (s : State) (c w : Nat) (p : Plan) (l : Nat) : Plan :=
  if p.stop then p
  else
    let need := s.lotNeed c w l
    let limit := s.fillSlots c w
    if p.used + need ≤ limit then
      if 64 ≤ p.moves.length then { p with stop := true }
      else { p with moves := p.moves ++ [⟨l, true, false, []⟩], used := p.used + need, promotions := p.promotions + 1 }
    else
      let cold := (s.coldLots c w (p.moves.map (·.lot)) false).filter fun x =>
        decide ((s.lot c w x).heat ≤ s.act.demote c) && decide ((s.lot c w x).heat < (s.lot c w l).heat)
      let r := s.takeUntil c w (limit - need) cold p.used
      if limit < r.2 + need ∨ limit < need then { p with stop := true, refused := p.refused + 1 }
      else if 64 ≤ p.moves.length + r.1.length then { p with stop := true }
      else
        { p with moves := p.moves ++ r.1.map (fun x => ⟨x, false, false, []⟩) ++ [⟨l, true, false, []⟩], used := r.2 + need,
                 promotions := p.promotions + 1 }

/-- The displaced blocks whose lot tier's share has room, in ascending Wing-local order, as returns of their lots (R126, R128 step
1), with the Gallery and Depot slots then planned. -/
def State.planReturns (s : State) (c w : Nat) (skip : List Nat) : List Decision × Nat × Nat :=
  let es := sortBy (fun a b : CatEntry => decide (a.blk ≤ b.blk)) (s.mem.cat.filter fun e =>
    e.coll == c && e.wing == w && s.displaced e && !skip.contains (s.homeLot e))
  es.foldl (fun (acc : List Decision × Nat × Nat) e =>
    let l := s.homeLot e
    let up := s.allowedTier c w (s.lot c w l).gallery
    let fitsIn := if up then decide (acc.2.1 + e.slots ≤ s.share c w true) else decide (acc.2.2 + e.slots ≤ s.share c w false)
    if !fitsIn then acc
    else
      (upsert (fun x : Decision => x.lot == l) (fun x => { x with only := x.only ++ [e.blk] }) ⟨l, up, false, []⟩ acc.1,
       if up then acc.2.1 + e.slots else acc.2.1, if up then acc.2.2 else acc.2.2 + e.slots))
    ([], s.chargedOn c w true + s.pinHeadroom c w, s.chargedOn c w false)

/-- The decisions of one collection on one Wing at a period's end (R128, R135): lots in the wrong tier for their pin, then
displaced blocks, drains, promotions with their demotions. -/
def State.planPeriod (s : State) (c w : Nat) : Plan :=
  let lots := (s.knownLots c w).filter fun l => !s.lotMoving c w l
  let pins := lots.filter fun l => match s.pinOf c w l with | some t => !s.resides c w l t | none => false
  let back := s.planReturns c w (pins ++ (s.knownLots c w).filter fun l => s.lotMoving c w l)
  let used := back.2.1
  let m0 := (pins.map fun l => (⟨l, (s.pinOf c w l).getD true, true, []⟩ : Decision)) ++ back.1
  let limit := s.fillSlots c w
  let noDemote := !s.act.durable c && s.share c w false = 0
  let dr := if noDemote then ([], used) else s.takeUntil c w limit (s.coldLots c w (m0.map (fun x : Decision => x.lot)) true) used
  let p0 : Plan := { moves := (m0 ++ dr.1.map fun l => (⟨l, false, false, []⟩ : Decision)).take 64, used := dr.2, promotions := 0,
                     refused := 0, stop := false }
  if s.act.static c || s.share c w true = 0 then p0
  else
    let cand := (lots.filter fun l =>
      !s.allowedTier c w (s.lot c w l).gallery && (s.pinOf c w l).isNone && !p0.moves.any (·.lot == l) &&
      decide (s.act.promote c ≤ (s.lot c w l).heat) && s.lotStored c w l)
    let order := sortBy (fun a b => decide ((s.lot c w b).heat < (s.lot c w a).heat) ||
      ((s.lot c w a).heat == (s.lot c w b).heat && decide (a ≤ b))) cand
    order.foldl (s.planPromotion c w) p0

/-- Queue decided moves on a Wing and start LOT-MOVE (R129, R135): a collection's pin moves stand ahead of its other moves, returns
and demotions before promotions. -/
def State.queueMoves (s : State) (c w : Nat) (ms : List Decision) : State :=
  if ms.isEmpty then s
  else
    let rank (m : Decision) : Nat := if m.pinMove then 0 else if m.toGallery && m.only.isEmpty then 2 else 1
    let sorted := sortBy (fun a b => decide (rank a ≤ rank b)) ms
    let new := sorted.map fun m =>
      ({ coll := c, wing := w, lot := m.lot, toGallery := m.toGallery, pinMove := m.pinMove, started := false, next := 0, only := m.only } : Move)
    (s.updMem fun m => { m with moves := (m.moves.filter fun x => !(x.coll == c && x.wing == w && !x.started &&
        ms.any (·.lot == x.lot))) ++ new }).queueTrigger (wingDie w) 4 0 none

/-- Is a started move finished: has it come past every block of the lot that lies in the other tier (R131)? -/
def State.moveDone (s : State) (m : Move) : Bool :=
  m.started && (s.lotEntries m.coll m.wing m.lot).all fun e => !s.moving e

/-- The waiting move a Wing serves next (R129, R135): round-robin by collection number, a collection's pin moves first. -/
def State.nextMove (s : State) (w : Nat) : Option Move :=
  let wait := s.mem.moves.filter fun m => m.wing == w && !m.started
  let last := ((s.mem.served.find? (·.1 == w)).map (·.2)).getD 0
  let cs := sortBy (fun a b : Nat => decide (a ≤ b)) ((wait.map (·.coll)).eraseDups)
  match (match cs.find? (last < ·) with | some c => some c | none => cs.head?) with
  | none => none
  | some c =>
    let mine := wait.filter (·.coll == c)
    match mine.find? (·.pinMove) with
    | some m => some m
    | none => mine.head?

/-- Start a waiting move: the lot tier changes (R131); an older move of the lot ends. -/
def State.startMove (s : State) (m : Move) : State :=
  let rest := s.mem.moves.filter fun y => !(y.coll == m.coll && y.wing == m.wing && y.lot == m.lot && (y.started || y == m))
  let s1 := s.updMem fun x =>
    { x with moves := rest ++ [{ m with started := true }],
             served := (m.wing, m.coll) :: x.served.filter (·.1 != m.wing) }
  let s2 := s1.updLot m.coll m.wing m.lot fun l => { l with gallery := m.toGallery }
  if (s.lot m.coll m.wing m.lot).gallery == m.toGallery then s2
  else s2.bump 0x300B (if m.toGallery then 5 else 6) m.coll 1

/-- Start waiting moves of a Wing one by one. -/
def State.startSome (w : Nat) : Nat → State → State
  | 0, s => s
  | n + 1, s =>
    match s.nextMove w with
    | some m => State.startSome w n (s.startMove m)
    | none => s

/-- Start the waiting moves of a Wing that its limits admit (R129); a rate of 0 stops every move. -/
def State.startMoves (s : State) (w : Nat) : State :=
  let s0 := s.updMem fun m => { m with moves := m.moves.filter fun x => !(x.wing == w && s.moveDone x) }
  if s.act.nat 0x2110 2 0 8 = 0 then s0
  else
    let flight := (s0.mem.moves.filter fun m => m.wing == w && m.started).length
    State.startSome w (s.act.nat 0x2110 3 0 8 - flight) s0

/-- Drop finished and waiting moves of a Wing before new decisions (R129). -/
def State.dropWaiting (s : State) (w : Nat) : State :=
  s.updMem fun m => { m with moves := m.moves.filter fun x => !(x.wing == w && (!x.started || s.moveDone x)) }

/-- Halve every heat of a Wing (R127). -/
def State.halveHeat (s : State) (w : Nat) : State :=
  s.updMem fun m => { m with lots := updWhere (·.wing == w) (fun l => { l with heat := l.heat / 2 }) m.lots }

/-- No block of a non-durable collection is in the Gallery (R322). -/
def State.galleryClear (s : State) : Bool :=
  s.mem.cat.all fun e => e.tier != .gallery || s.act.durable e.coll

/-- Raise the prepared notice once it holds (R322). -/
def State.notePrepared (s : State) : State :=
  if s.pw.prepared && s.pw.preparing && s.galleryClear then
    { s with pw := { s.pw with preparing := false } }.event .d 0x48 s.primarySrc 0xFFFF []
  else s

/-- One Wing's heat period end (R127, R128). -/
def State.periodOn (s : State) (w : Nat) : State :=
  let s0 := s.dropWaiting w
  let cs := s.act.colls.filter fun c => (s.wingsOf c).contains w
  let s1 := cs.foldl (fun s c =>
    let p := s.planPeriod c w
    (s.queueMoves c w p.moves).bump 0x300B 7 c p.refused) s0
  s1.halveHeat w

end Sys2Proof.Machine
end

