-- ==== Sys2Proof/Machine/DieRegs.lean ====
section
/-! DEFINITION. The registers of a die's block (R190, R235, R258, R259, R301): channel status, delay and timing sets, and
the flip registers. Every other offset reads 0. -/

namespace Sys2Proof.Machine

/-- Die code of docent `d` (R189). -/
def docDie (d : Nat) : Nat := d / 8

/-- The Wing of a die code, when it is a Wing's. -/
def dieWing (die : Nat) : Option Nat := if 4 ≤ die then some (die - 4) else none

/-- The channel whose registers an offset of a Wing block names, and the offset among them (R258). -/
def State.regChan (s : State) (off : Nat) : Option (Nat × Nat) :=
  if 0x80000 ≤ off ∧ off < 0x84000 then some ((off - 0x80000) / 0x1000, off % 0x1000)
  else if 0xC0000 ≤ off ∧ off < 0xC0000 + 0x10000 * s.sites then
    some (0x10 + (off - 0xC0000) / 0x1000, off % 0x1000)
  else none

/-- A channel register (R235, R258). -/
inductive ChanReg where
  | stat
  | delay (within : Nat)
  | timing (within : Nat)
  | flipCtl | flipAddr | flipSel0 | flipSel1
  | none
deriving DecidableEq, Repr

/-- The register at an 8-byte-aligned offset of a channel's block. -/
def chanReg (i : Nat) : ChanReg :=
  if i = 0 then .stat
  else if 0x100 ≤ i ∧ i < 0x700 then .delay ((i - 0x100) % 0x80)
  else if 0x700 ≤ i ∧ i < 0x7C0 then .timing ((i - 0x700) % 0x40)
  else if 0x800 ≤ i ∧ i < 0x880 then .delay (i - 0x800)
  else if i = 0xF00 then .flipCtl
  else if i = 0xF08 then .flipAddr
  else if i = 0xF10 then .flipSel0
  else if i = 0xF18 then .flipSel1
  else .none

/-- Does a byte of a delay set exist (R258)? -/
def delayByte (depot : Bool) (k : Nat) : Bool :=
  if depot then k < 0x3C || (0x40 ≤ k && k < 0x4C)
  else k < 0x0A || (0x14 ≤ k && k < 0x1E) || (0x48 ≤ k && k < 0x4A)

/-- The bits of a delay or timing word that exist. -/
def setMask (depot : Bool) : ChanReg → Nat
  | .delay k => sumBy (fun i => if delayByte depot (k + i) then 0xFF * 2 ^ (8 * i) else 0) (List.range 8)
  | .timing k => if k < 0x20 then 2 ^ 64 - 1 else 0
  | _ => 0

/-- Bits of DCH_FLIP_CTL that are RWK (R235). -/
def flipMask : Nat := 0xFF000FFF1D

/-- DCH_STAT or GCH_STAT (R258): the trigger reads 0 while the channel is not frozen. -/
def Chan.stat (c : Chan) : Nat :=
  c.st + c.band * 2 ^ 4 + c.fset * 2 ^ 6 + c.epoch % 2 ^ 16 * 2 ^ 16 +
    (if c.st = 3 then c.trigger else 0) * 2 ^ 32

/-- Read a register of a channel. -/
def Chan.readReg (c : Chan) (i : Nat) : Nat :=
  match chanReg i with
  | .stat => c.stat
  | .delay _ => ((c.regs.find? (·.1 == i)).map (·.2)).getD 0
  | .timing _ => ((c.regs.find? (·.1 == i)).map (·.2)).getD 0
  | .flipCtl => c.flip.ctl
  | .flipAddr => c.flip.addr
  | .flipSel0 => c.flip.sel0
  | .flipSel1 => c.flip.sel1
  | .none => 0

/-- May a delay or timing register change now (R259)? -/
def Chan.setsOpen (c : Chan) : Bool := c.st == 0 || c.st == 1 || c.st == 3 || c.st == 7

/-- Set a delay or timing word. -/
def Chan.setWord (c : Chan) (i v : Nat) : Chan :=
  let rest := c.regs.filter (·.1 != i)
  { c with regs := if v = 0 then rest else insertBy (fun a b : Nat × Nat => decide (a.1 ≤ b.1)) (i, v) rest }

/-- Write a register of a channel; `key` says that RWK fields may be set (R10). -/
def Chan.writeReg (c : Chan) (i v : Nat) (key : Bool) : Chan :=
  let depot := isDepot c.sel
  match chanReg i with
  | .delay k => if key && c.setsOpen then c.setWord i (v &&& setMask depot (.delay k)) else c
  | .timing k => if key && c.setsOpen then c.setWord i (v &&& setMask depot (.timing k)) else c
  | .flipCtl =>
    let rwk := if key then v &&& flipMask else c.flip.ctl &&& flipMask
    let fired := bitSet c.flip.ctl 1 && !bitSet v 1
    { c with flip := { c.flip with ctl := putBit rwk 1 fired } }
  | .flipAddr => if key then { c with flip := { c.flip with addr := bits v 6 50 * 64 } } else c
  | .flipSel0 => if key then { c with flip := { c.flip with sel0 := v % 2 ^ 64 } } else c
  | .flipSel1 => if key then { c with flip := { c.flip with sel1 := v % (if depot then 2 ^ 16 else 2 ^ 8) } } else c
  | .stat => c
  | .none => c

/-- Read a register of a die's block (R301): an absent die and an unreachable Wing read 0. -/
def State.readDieReg (s : State) (die off : Nat) : Nat :=
  match dieWing die, s.die? die, s.regChan off with
  | some w, some d, some x =>
    if d.present && d.reachable then
      match s.chan? w x.1 with
      | some c => c.readReg x.2
      | none => 0
    else 0
  | _, _, _ => 0

/-- Write a register of a die's block. -/
def State.writeDieReg (s : State) (die off v : Nat) (key : Bool) : State :=
  match dieWing die, s.die? die, s.regChan off with
  | some w, some d, some x => if d.present && d.reachable then s.updChan w x.1 fun c => c.writeReg x.2 v key else s
  | _, _, _ => s

/-- Is the register at an offset of a Wing block a delay register (R190, SWEEP)? -/
def State.isDelayReg (s : State) (off : Nat) : Bool :=
  match s.regChan off with
  | some x => match chanReg x.2 with | .delay _ => true | _ => false
  | none => false

/-- Bytes of a die's block (R301). -/
def blockBytes (die : Nat) : Nat := if die < 4 then 0x100000 else 0x400000

end Sys2Proof.Machine
end

