-- ==== Sys2Proof/Machine/DocentOps.lean ====
section
/-! DEFINITION. Docents (R189-R203): contexts, program images and their words (R196, R201), bindings and parameters, the
start and end of programs, faults, triggers, and the one operation that runs an instruction. -/

namespace Sys2Proof.Machine

/-- A docent. -/
def State.docent? (s : State) (d : Nat) : Option Docent := s.doc.docents.find? (·.id == d)

/-- Change one docent. -/
def State.updDocent (s : State) (d : Nat) (f : Docent → Docent) : State :=
  { s with doc := { s.doc with docents := updWhere (·.id == d) f s.doc.docents } }

/-- A context of a docent. -/
def Docent.ctx (x : Docent) : Ctx → CtxState
  | .p => x.p
  | .a => x.a

/-- Replace a context of a docent. -/
def Docent.setCtx (x : Docent) (c : Ctx) (y : CtxState) : Docent :=
  match c with
  | .p => { x with p := y }
  | .a => { x with a := y }

/-- Replace a context. -/
def State.setCtx (s : State) (d : Nat) (c : Ctx) (y : CtxState) : State := s.updDocent d fun x => x.setCtx c y

/-- Source of a docent (R354). -/
def docSrc (d : Nat) : Nat := src (docDie d) (0x30 + d % 8)

/-- May the docents of a die run (R189)? -/
def State.dieRuns (s : State) (die : Nat) : Bool :=
  match s.die? die with
  | some x => s.accepting && x.present && x.isoState != 1
  | none => false

/-- Header fields of a program image (R201). -/
def progCount (img : Bytes) : Nat := fieldAt img 12 2
def progParams (img : Bytes) : Nat := fieldAt img 14 1

/-- Instruction word `pc` of an image (R201). -/
def progWord (img : Bytes) (pc : Nat) : Nat := fieldAt img (64 + 4 * pc) 4

/-- Fields of an instruction word (R196). -/
def wOp (w : Nat) : Nat := bits w 26 6
def wD (w : Nat) : Nat := bits w 22 4
def wA (w : Nat) : Nat := bits w 18 4
def wB (w : Nat) : Nat := bits w 14 4
def wTarget (w : Nat) : Nat := bits w 0 8
def wBranchA (w : Nat) : Nat := bits w 22 4
def wBranchB (w : Nat) : Nat := bits w 18 4
def wK (w : Nat) : Nat := bits w 20 2
def wImm16 (w : Nat) : Nat := bits w 0 16

/-- The 18-bit immediate, sign-extended to 64 bits. -/
def wImm (w : Nat) : Word64 := (BitVec.ofNat 18 w).signExtend 64

/-- A register of a context (R195). -/
def CtxState.get (x : CtxState) (i : Nat) : Word64 := x.regs.getD i 0

/-- Set a register. -/
def CtxState.put (x : CtxState) (i : Nat) (v : Word64) : CtxState := { x with regs := x.regs.set i v }

/-- The effective address g_a + imm (R197). -/
def CtxState.ea (x : CtxState) (w : Nat) : Word64 := x.get (wA w) + wImm w

/-- A word of the line buffer as its code delivers it (R210, R213). -/
def CtxState.word (x : CtxState) (i : Nat) : Word64 :=
  match x.buf.find? (·.1 == i) with
  | some b => BitVec.ofNat 64 (leNat ((List.zipWith sramRead b.2.data b.2.check).map (·.2)))
  | none => 0

/-- Store 8 bytes as a word of the line buffer, with their check bits (R214, R215). -/
def CtxState.setSram (x : CtxState) (i : Nat) (bs : Bytes) (poison : Bool) : CtxState :=
  let rest := x.buf.filter (·.1 != i)
  { x with buf := if allZero bs && !poison then rest
                  else insertBy (fun a b : Nat × Sram => decide (a.1 ≤ b.1)) (i, Sram.store poison bs) rest }

/-- Set a word of the line buffer. -/
def CtxState.setWord (x : CtxState) (i : Nat) (v : Word64) : CtxState := x.setSram i (leBytes 8 v.toNat) false

/-- Bytes of the line buffer from a word on. -/
def CtxState.bufBytes (x : CtxState) (word n : Nat) : Bytes :=
  (List.range n).flatMap fun i => leBytes 8 (x.word (word + i)).toNat

/-- Read `n` words of a docent's line buffer under their code (R213, R216): a corrected byte is counted and rewritten, an
uncorrectable one poisons its word. The bytes, and whether any is poison. -/
def State.readBuf (s : State) (d : Nat) (y : CtxState) (i n : Nat) : State × CtxState × Bytes × Bool :=
  (List.range n).foldl (fun (acc : State × CtxState × Bytes × Bool) k =>
    match acc.2.1.buf.find? (·.1 == i + k) with
    | none => (acc.1, acc.2.1, acc.2.2.1 ++ zeros 8, acc.2.2.2)
    | some b =>
      let r := acc.1.readSram (docDie d) (0x30 + d % 8) 0xFFFF b.2
      (r.1, { acc.2.1 with buf := updWhere (·.1 == i + k) (fun x => (x.1, r.2.2.2)) acc.2.1.buf }, acc.2.2.1 ++ r.2.1,
       acc.2.2.2 || r.2.2.1)) (s, y, [], false)

/-- Store bytes, a multiple of 8, into the line buffer from word 0. -/
def CtxState.setBytes (x : CtxState) (bs : Bytes) : CtxState :=
  (List.range (bs.length / 8)).foldl (fun x i => x.setSram i (slice bs (8 * i) 8) false) x

/-- The program number of a default program (R203): 0 FILL, 1 SCRUB-WALK, 2 FREEZE-CAPTURE, 3 RE-ENTRY, 4 VERIFY-PASS,
5 LOT-MOVE, 6 DELAY-SWEEP. The spec gives none: seven distinct free numbers of 1 to 32 (log 42). -/
def defaultProgram (k : Nat) : Nat := 1 + (Config.programBase + k * (2 * Config.programStride + 1)) % 32

/-- Default program of trigger handlers 0x01-0x04 and 0x10 (R203, R209). -/
def defaultHandler : Nat → Nat
  | 1 => defaultProgram 2
  | 2 => defaultProgram 3
  | 3 => defaultProgram 4
  | 4 => defaultProgram 5
  | _ => 0

/-- The default binding of a docent (R203): on a Wing, 0-4 (and 5 with site B) walk, or sweep in board-qualify mode; 6 takes
triggers 1-3, 7 trigger 4. -/
def defaultBinding (sites mode d : Nat) : Nat :=
  if d < 32 then 0
  else if d % 8 < 5 || (d % 8 == 5 && sites == 2) then defaultProgram (if mode = 3 then 6 else 1)
  else if d % 8 = 6 then 0x700
  else if d % 8 = 7 then 0x800
  else 0

/-- The binding of a docent in an edition: role program in bits 5:0, triggers in bits 12:8 (R209). -/
def State.bindingIn (s : State) (e : Edition) (d : Nat) : Nat :=
  e.nat 0x4101 (d + 1) 0 (defaultBinding s.sites s.pkg.bootMode d)

/-- The role program a docent is bound to in an edition; 0 none. -/
def State.roleIn (s : State) (e : Edition) (d : Nat) : Nat := s.bindingIn e d % 64

/-- The handler program of a trigger in an edition; `i` is 1-4, and 5 for 0x10. -/
def Edition.handler (e : Edition) (i : Nat) : Nat := e.nat 0x4102 i 0 (defaultHandler i)

/-- The image of a program number in an edition (R203, R209). -/
def Edition.image (e : Edition) (n : Nat) : Bytes :=
  if n = 0 ∨ 32 < n then [] else (e.get 0x4103 n 0).getD (Config.defaultImage n)

/-- The default program that a program number names in an edition that does not replace its image (R203). -/
def Edition.native (e : Edition) (n : Nat) : Option Nat :=
  if (e.get 0x4103 n 0).isSome then none else (List.range 7).find? fun k => defaultProgram k == n

/-- Is a program number a program of the edition? -/
def Edition.hasProgram (e : Edition) (n : Nat) : Bool := (e.get 0x4103 n 0).isSome || (e.native n).isSome

/-- The parameters of a program number in an edition (R204, R209): SCRUB-WALK, VERIFY-PASS and RE-ENTRY take theirs from OD
0x4120. -/
def Edition.progParams (e : Edition) (n : Nat) : List Word64 :=
  match e.native n with
  | some 1 => [BitVec.ofNat 64 (e.nat 0x4120 1 0 86400)]
  | some 4 => [BitVec.ofNat 64 (e.nat 0x4120 2 0 2)]
  | some 3 => [BitVec.ofNat 64 (e.nat 0x4120 3 0 25)]
  | _ => (List.range 16).map fun i => BitVec.ofNat 64 (e.nat (0x413F + n) (i + 1) 0 0)

/-- Entry number of a trigger code in OD 0x4102 and bit number less 8 in a binding, plus 1. -/
def trigIndex (code : Nat) : Nat := if code = 0x10 then 5 else code

/-- Is a docent bound to a trigger code in the ACTIVE edition (R192)? -/
def State.boundTo (s : State) (d code : Nat) : Bool := bitSet (s.bindingIn s.act d) (7 + trigIndex code)

/-- A context that starts a program (R195). -/
def CtxState.start (n : Nat) (img : Bytes) (ps : List Word64) (native : Option Nat) (role : Bool) (g0 g1 : Nat) : CtxState :=
  { CtxState.idle with
    running := true, prog := n, image := img, params := ps, native := native, isRole := role, trig := g0, arg := g1,
    regs := (CtxState.idle.regs.set 0 (BitVec.ofNat 64 g0)).set 1 (BitVec.ofNat 64 g1) }

/-- Start the role program of a docent, cleared (R192, R194); none when its binding names none. A role waits for a handler that
holds context A. -/
def State.startRole (s : State) (d : Nat) : State :=
  let n := s.roleIn s.act d
  if !s.act.hasProgram n || !s.dieRuns (docDie d) then s
  else s.updDocent d fun x =>
    if x.a.running && !x.a.isRole then { x with roleDue := true, roleFaulted := false }
    else
      { x with a := { CtxState.start n (s.act.image n) (s.act.progParams n) (s.act.native n) true 0 0 with suspended := x.p.running },
               roleFaulted := false, stopped := false, roleDue := false }

/-- End the program of a context (R193, R200): its context is free, and context A resumes when P ends. A role that waits for
context A starts. -/
def State.endProgram (s : State) (d : Nat) (c : Ctx) : State :=
  let s1 := s.updDocent d fun x =>
    match c with
    | .p => { x with p := .idle, a := { x.a with suspended := false } }
    | .a => { x with a := { CtxState.idle with suspended := x.a.suspended } }
  match c, s1.docent? d with
  | .a, some x => if x.roleDue then s1.startRole d else s1
  | _, _ => s1

/-- A program faults (R200). -/
def State.docFault (s : State) (d : Nat) (c : Ctx) (cause : Nat) : State :=
  match s.docent? d with
  | none => s
  | some x =>
    let y := x.ctx c
    ((s.endProgram d c).updDocent d fun x => { x with fault := cause, roleFaulted := x.roleFaulted || y.isRole }).event
      .d 0x30 (docSrc d) 0xFFFF (pack [(1, d), (1, y.prog), (1, y.pc), (1, cause)])

/-- Pass to the next instruction; past the last one is RUN_OFF (R195, R200). A default program counts its steps modulo 256. -/
def State.docNext (s : State) (d : Nat) (c : Ctx) (y : CtxState) : State :=
  if y.native.isSome then s.setCtx d c { y with pc := (y.pc + 1) % 256 }
  else if progCount y.image ≤ y.pc + 1 then (s.setCtx d c y).docFault d c 7
  else s.setCtx d c { y with pc := y.pc + 1 }

/-- What an instruction does with its context (R197): pass on, jump, wait where it stands, fault, or end. -/
inductive Flow where
  | next (y : CtxState)
  | jump (y : CtxState) (target : Nat)
  | stay (y : CtxState)
  | fault (cause : Nat)
  | halt (status : Nat)

/-- Instructions without a waiting one before the watchdog (R200). -/
def watchdogLimit : Nat := 1048576

/-- Does an opcode reset the watchdog (R200)? -/
def waiting (op : Nat) : Bool := op == 0x2A || op == 0x2C || decide (0x34 ≤ op)

/-- A program ends with HALT (R197, R200, R207): a nonzero status is noticed, a verify pass reports what it checked. -/
def State.docHalt (s : State) (d : Nat) (c : Ctx) (y : CtxState) (status : Nat) : State :=
  let s1 := s.endProgram d c
  let s2 := if status = 0 then s1
    else s1.event .d 0x31 (docSrc d) 0xFFFF (pack [(1, d), (1, y.prog), (2, status)])
  if y.trig = 3 ∧ !y.isRole then
    s2.event .c 0x25 (docSrc d) y.arg (pack [(1, docDie d - 4), (5, y.checked), (5, y.failed)])
  else s2

/-- The status word of a frozen channel (R197). -/
def frozenStatus : Word64 := BitVec.ofNat 64 (2 ^ 63)

/-- Channel status word (R197). -/
def statusWord (corrected bad : Nat) : Word64 := BitVec.ofNat 64 (corrected % 2 ^ 16 + bad % 2 ^ 16 * 2 ^ 16)

/-- The run that covers a channel-local address: its collection and block (R225). -/
def State.ownerOf (s : State) (w sel addr : Nat) : Option (Nat × Nat) :=
  (s.mem.cat.find? fun e => e.runs.any fun r =>
    r.wing == w && s.runSel r == sel && decide ((s.locate r.tier r.site r.slot 0).2 ≤ addr) &&
    decide (addr < (s.locate r.tier r.site r.slot 0).2 + 512 * r.slots)).map fun e => (e.coll, e.blk)

/-- Where a channel operation of `n` lines goes (R197, R200): Wing, selector, address and whether the channel is frozen; a
fault for an absent channel, a count outside 1 to `limit`, or lines outside the channel (log 20). -/
def State.chanArgs (s : State) (d : Nat) (addr : Word64) (n limit : Nat) : Except Nat (Nat × Nat × Nat × Bool) :=
  match dieWing (docDie d) with
  | none => .error 4
  | some w =>
    let sel := addr.toNat / 2 ^ 56
    let a := addr.toNat % 2 ^ 56
    match s.chan? w sel with
    | none => .error 4
    | some ch =>
      if ch.st = 0 then .error 4
      else if n = 0 ∨ limit < n ∨ a % 64 ≠ 0 ∨ s.chanLines (isDepot sel) < a / 64 + n then .error 5
      else .ok (w, sel, a, ch.st == 3)

end Sys2Proof.Machine
end

