-- ==== Sys2Proof/Machine/DocentMem.lean ====
section
/-! DEFINITION. What docents do to storage (R197, R229): line reads, writes, fills and scrubs of a channel, and the
catalogue operations: entries as 16 bytes (R83), flips, slot allocation and freeing, and ciphertext copies. -/

namespace Sys2Proof.Machine

/-- Is a cell's address within lines `[a, a + 64 n)` of a channel, data or check bytes? -/
def inLines (w sel a n x : Nat) : Bool :=
  (decide (chanBase w sel 0 + a ≤ x) && decide (x < chanBase w sel 0 + a + 64 * n)) ||
  (decide (checkAddr w sel a ≤ x) && decide (x < checkAddr w sel a + 16 * n))

/-- A cached header whose stored line lies in a range that is written over is dropped. -/
def State.dropHeaders (s : State) (w sel a n : Nat) : State :=
  s.dropLines fun l => l.hdr && l.wing == w &&
    (let e := s.entry l.coll w (l.line / 64)
     let p := s.locate e.tier e.site e.slot 0
     e.stored && p.1 == sel && decide (a ≤ p.2) && decide (p.2 < a + 64 * n))

/-- Write zero data with valid check bits over lines of a channel (R232), behind the writes queued before (R198): the check bits of
zero data are 0. -/
def State.fillLines (s : State) (w sel a n : Nat) : State :=
  ((s.forceChan w sel).updMem fun m => { m with dram := m.dram.filter fun c => !inLines w sel a n c.1 }).dropHeaders w sel a n

/-- Fill a whole channel (R232). -/
def State.fillChannel (s : State) (w sel : Nat) : State := s.fillLines w sel 0 (2 ^ 34)

/-- Store a line for a docent, ordered with requester writes (R197, R198). -/
def State.docStore (s : State) (w sel a : Nat) (data : Bytes) (poison : Bool) : State :=
  (s.storeQuiet w sel a data poison).dropHeaders w sel a 1

/-- Read `n` stored lines (R197 LREAD): each line's bytes, corrected where one symbol was wrong, with its poison, and the two
counts. -/
def State.readLines (s : State) (w sel a n : Nat) : State × List (Bytes × Bool) × Nat × Nat :=
  (List.range n).foldl (fun (acc : State × List (Bytes × Bool) × Nat × Nat) i =>
    let r := acc.1.decodeAt w sel (a + 64 * i) (acc.1.ownerOf w sel (a + 64 * i))
    let bad := r.2.1 == .uncorrectable || r.2.1 == .poison
    (r.1, acc.2.1 ++ [(r.2.2, bad)], acc.2.2.1 + bit1 (r.2.1 == .corrected), acc.2.2.2 + bit1 bad)) (s, [], 0, 0)

/-- Lines into the line buffer from line 0 on, poison carried (R215, R226). -/
def CtxState.setLines (x : CtxState) (ls : List (Bytes × Bool)) : CtxState :=
  (List.range (8 * ls.length)).foldl (fun x i =>
    let l := ls.getD (i / 8) ([], false)
    x.setSram i (slice l.1 (8 * (i % 8)) 8) l.2) x

/-- Scrub one line (R229): the state and what was found. -/
def State.scrubLine (s : State) (w sel a : Nat) : State × Found :=
  let r := s.decodeAt w sel a (s.ownerOf w sel a)
  match r.2.1 with
  | .corrected =>
    let s1 := (r.1.docStore w sel a r.2.2 false).bump 0x2801 4 (chanObj w sel) 1
    let l := s1.rawLine w sel a
    if (lineDecode (isDepot sel) l.1 l.2).1 == .corrected then
      ((s1.bump 0x2801 5 (chanObj w sel) 1).coalesce 0x43 (chanObj w sel) (chanSrc w sel) 0xFFFF 0xFFFE
        (pack [(1, w), (1, sel), (5, a / 64)]), .corrected)
    else (s1, .corrected)
  | .uncorrectable =>
    ((r.1.docStore w sel a (zeros 64) true).bump 0x2801 4 (chanObj w sel) 1, .uncorrectable)
  | f => (r.1, f)

/-- Scrub lines of a channel, with the counts of the status word (R197, R229). -/
def State.scrubLines (s : State) (w sel a n : Nat) : State × Nat × Nat :=
  (List.range n).foldl (fun (acc : State × Nat × Nat) i =>
    let r := acc.1.scrubLine w sel (a + 64 * i)
    (r.1, acc.2.1 + bit1 (r.2 == .corrected), acc.2.2 + bit1 (r.2 == .uncorrectable))) (s, 0, 0)

/-- Advance the walk of a channel past lines a role has scrubbed (R206, R230): a pass ends at its last line. -/
def State.walkTo (s : State) (w sel line : Nat) : State :=
  if s.chanLines (isDepot sel) ≤ line then
    (s.bump 0x2801 6 (chanObj w sel) 1).updChan w sel fun c => { c with walk := 0 }
  else s.updChan w sel fun c => { c with walk := line }

/-- Code of a tier in an entry (R83). -/
def Tier.code : Tier → Nat
  | .none => 0
  | .gallery => 1
  | .depot => 2
  | .lost => 3

/-- The tier of a code. -/
def tierOf (n : Nat) : Tier := if n = 0 then .none else if n = 1 then .gallery else if n = 2 then .depot else .lost

/-- The 16 bytes of a catalogue entry (R83). -/
def CatEntry.bytes (e : CatEntry) : Bytes :=
  leBytes 4 e.slot ++ leBytes 4 (e.copySlot.getD 0xFFFFFFFF) ++
  leBytes 4 (e.tier.code + e.coding % 4 * 2 ^ 2 + e.slots % 16 * 2 ^ 4 + e.wing % 4 * 2 ^ 8 + e.site % 2 * 2 ^ 10 +
    e.segDamage % 2 ^ 16 * 2 ^ 12 + bit1 e.hdrDamage * 2 ^ 28 + bit1 e.crcFailed * 2 ^ 29) ++
  leBytes 4 e.crc

/-- The entry that 16 bytes give a block; the origin of its form stays (R159). -/
def CatEntry.ofBytes (old : CatEntry) (b : Bytes) : CatEntry :=
  let f := fieldAt b 8 4
  let c := fieldAt b 4 4
  { old with slot := fieldAt b 0 4, copySlot := if c = 0xFFFFFFFF then none else some c, tier := tierOf (bits f 0 2),
             coding := bits f 2 2, slots := bits f 4 4, site := bits f 10 1, segDamage := bits f 12 16,
             hdrDamage := bitSet f 28, crcFailed := bitSet f 29, crc := fieldAt b 12 4 }

/-- Collection and block of a catalogue operand (R197). -/
def catArg (v : Word64) : Nat × Nat := (bits v.toNat 0 12, bits v.toNat 16 34)

/-- Has a block an entry on this Wing: its collection is live and the block is homed there (R197)? -/
def State.entryExists (s : State) (w c blk : Nat) : Bool :=
  s.live c && (s.wingsOf c).contains w &&
  (if 4096 ≤ s.act.grain c then decide (4096 * blk < s.act.size c) && (s.place c (4096 * blk)).wing == w
   else decide (blk < blocksOn s.act (s.wingsOf c) c w))

/-- Runs no entry names any more wait for the reads that need them; the others are free (R84). -/
def State.retire (s : State) (rs : List Run) : State :=
  s.updMem fun m => { m with deferred := m.deferred ++ rs.filter fun r => !s.named r }

/-- Replace an entry as CATFLIP does (R84, R131): runs it names are no longer held by the docent, and runs no entry names
any more wait for the reads that still need them. -/
def State.flipEntry (s : State) (old new : CatEntry) : State :=
  let s1 := s.putEntry new
  let dead := old.runs.filter fun r => !s1.named r
  ((s1.updMem fun m => { m with allocs := m.allocs.filter fun a => !new.runs.contains a.2,
                                deferred := m.deferred ++ dead }).settle new.coll)

/-- Does a waiting read need a run? -/
def State.runNeeded (s : State) (r : Run) : Bool := s.mem.reads.any fun x => x.entry.runs.contains r

/-- Allocate slots from a share for a docent (R130, R197, R247): the first channel in ascending order with room. -/
def State.allocShare (s : State) (c w : Nat) (gallery : Bool) (site n : Nat) : Option Run :=
  let share := s.share c w gallery
  let portion := ceilDiv share (max 1 (s.tierChans w gallery).length)
  if share < s.roomUsed c w gallery none [] + n then none
  else
    let cs := (s.tierChans w gallery).filter fun sel => !gallery || siteOf sel == site
    cs.findSome? fun sel =>
      if decide (s.roomUsed c w gallery (some sel) [] + n ≤ portion) && s.serves w sel then
        (s.freeRun w sel n).map fun a => ⟨w, if gallery then .gallery else .depot, if gallery then site else 0, a, n⟩
      else none

/-- Run a docent's operation on channels that are filling, re-entering, evacuating or qualifying as well as on those in
service; only a frozen or absent channel is not accessed (R197). -/
def State.docAccess {α : Type} (s : State) (f : State → State × α) : State × α :=
  let open_ (c : Chan) : Bool := c.st == 1 || c.st == 4 || c.st == 5 || c.st == 7
  let saved := (s.chans.filter open_).map fun c => (c.wing, c.sel, c.st)
  let r := f { s with chans := updWhere open_ (fun c => { c with st := 2 }) s.chans }
  ({ r.1 with chans := r.1.chans.map fun c =>
      match saved.find? fun x => x.1 == c.wing && x.2.1 == c.sel with
      | some x => { c with st := x.2.2 }
      | none => c }, r.2)

/-- Is a run's channel frozen or absent, so that a docent does not access it? -/
def State.runClosed (s : State) (r : Run) : Bool :=
  match s.chan? r.wing (s.runSel r) with
  | some c => c.st == 0 || c.st == 3
  | none => true

/-- The run a source slot of RUNCOPY names: one a block's entry names, or one a docent holds. -/
def State.sourceRun (s : State) (w slot n : Nat) : Option (Run × Option CatEntry) :=
  match s.mem.cat.find? fun e => e.wing == w && e.runs.any fun r => r.slot == slot && r.slots == n with
  | some e => (e.runs.find? fun r => r.slot == slot && r.slots == n).map fun r => (r, some e)
  | none => (s.mem.allocs.find? fun a => a.2.wing == w && a.2.slot == slot && a.2.slots == n).map fun a => (a.2, none)

/-- The run a destination slot of RUNCOPY names: one a docent holds. -/
def State.destRun (s : State) (w slot n : Nat) : Option Run :=
  (s.mem.allocs.find? fun a => a.2.wing == w && a.2.slot == slot && a.2.slots == n).map (·.2)

/-- Result code of BVERIFY (R197). -/
def Verify.code : Verify → Nat
  | .pass => 0
  | .crcFailed => 1
  | .poisoned => 2
  | .headerDamaged => 3
  | .noForm => 4
  | .frozen => 5

end Sys2Proof.Machine
end

