-- ==== Sys2Proof/Machine/Evacuation.lean ====
section
/-! DEFINITION. The internal reserve and its mirror (R241, R248), the passes over a channel that the default programs make: the
verify or fill of a re-entry (R267), the moves of an evacuation (R268), and the move of one block of a lot (R131-R134). -/

namespace Sys2Proof.Machine

/-- Does the partner of a Depot channel serve the reserve they share (R248)? -/
def State.reserveHeld (s : State) (w sel : Nat) : Bool := !isDepot sel || s.serves w (sel ^^^ 1)

/-- First line of the internal reserve on a Depot channel (R248). -/
def State.reserveFirst (s : State) : Nat := s.chanLines true - s.chanLines true / 32

/-- Is a channel-local address in the internal reserve? -/
def State.inReserve (s : State) (sel addr : Nat) : Bool := isDepot sel && decide (s.reserveFirst ≤ addr / 64)

/-- Encrypt or decrypt a reserve line (R241): under the reserve key, the tweak of its reserve block with collection 0. -/
def State.cryptReserve (s : State) (decrypt : Bool) (w i : Nat) (data : Bytes) : Bytes :=
  xts decrypt (s.key 0x1000 w) (tweak 4096 0 w (i / 64) (i % 64 / 8)) (i % 8 * 4) data

/-- The channels of a pair that serve their copy of the reserve (R248). -/
def State.reserveChans (s : State) (w pair : Nat) : List Nat := [2 * pair, 2 * pair + 1].filter (s.serves w)

/-- Write a reserve line: both copies, or the serving one alone (R248). -/
def State.storeReserve (s : State) (w pair i : Nat) (data : Bytes) : State :=
  (s.reserveChans w pair).foldl (fun t sel =>
    t.storeQuiet w sel (64 * (s.reserveFirst + i)) (s.cryptReserve false w i data) false) s

/-- Read a reserve line from a serving copy, from the other when the first cannot be delivered (R248). -/
def State.readReserve (s : State) (w pair i : Nat) : State × Bytes × Bool :=
  (s.reserveChans w pair).foldl (fun (acc : State × Bytes × Bool) sel =>
    if !acc.2.2 then acc
    else
      let r := acc.1.readLine w sel (64 * (s.reserveFirst + i)) none
      (r.1, if r.2.2 then zeros 64 else s.cryptReserve true w i r.2.1, r.2.2)) (s, zeros 64, true)

/-- Lines of a channel of which memory holds any byte, as channel-local addresses; every other line is zero and clean. -/
def State.listedLines (s : State) (w sel : Nat) : List Nat :=
  let b0 := chanBase w sel 0
  let b1 := chanBase w sel 1
  ((s.mem.dram.filterMap fun c =>
    if b0 ≤ c.1 ∧ c.1 < b0 + 2 ^ 40 then some ((c.1 - b0) / 64)
    else if b1 ≤ c.1 ∧ c.1 < b1 + 2 ^ 40 then some ((c.1 - b1) / 16) else none).eraseDups).map (· * 64)

/-- Does a channel hold an allocated run (R267)? -/
def State.holdsRun (s : State) (w sel : Nat) : Bool := !(s.usedOn w sel).isEmpty

/-- A re-entering channel takes its copy of the reserve from its serving partner (R248, R267 step 3). -/
def State.copyReserve (s : State) (w sel : Nat) : State :=
  if !isDepot sel || !s.serves w (sel ^^^ 1) then s
  else
    let as_ := ((s.listedLines w sel ++ s.listedLines w (sel ^^^ 1)).eraseDups).filter (s.inReserve sel)
    as_.foldl (fun s a =>
      let r := s.readLine w (sel ^^^ 1) a none
      r.1.docStore w sel a r.2.1 r.2.2) s

/-- Lines `[from, upto)` of step 3 of re-entry (R267): the reserve lines from the mirror at the start; then FILL on a channel with no
allocated run, otherwise the verify of every other line. -/
def State.reentryPass (s : State) (w sel first upto : Nat) : State :=
  let mirrored := isDepot sel && s.serves w (sel ^^^ 1)
  let upto := if s.holdsRun w sel then upto else s.chanLines (isDepot sel)
  let s1 := if s.holdsRun w sel then
      ((s.listedLines w sel).filter fun a => decide (first ≤ a / 64) && decide (a / 64 < upto) && !(mirrored && s.inReserve sel a)).foldl
        (fun s a => (s.docAccess fun t => t.scrubLine w sel a).1) s
    else if first = 0 then s.fillChannel w sel else s
  let s2 := if first = 0 then s1.copyReserve w sel else s1
  s2.updChan w sel fun c => { c with progress := upto }

/-- Lines held for a frozen channel are written back once their blocks' channels serve (R264, R267, R268). -/
def State.releaseHeld (s : State) (w : Nat) : State :=
  let free := s.mem.cache.filter fun l => l.wing == w && l.held && !s.stuck (s.entry l.coll w (l.line / 64))
  let s1 := s.updMem fun m => { m with cache := updWhere (fun l => free.contains l) (fun l => { l with held := false }) m.cache }
  ((free.map fun l => (l.coll, l.line / 64)).eraseDups).foldl (fun s b => s.writeBackBlock b.1 w b.2) s1

/-- Blocks that still name a run on a channel. -/
def State.blocksOnChan (s : State) (w sel : Nat) : List CatEntry :=
  s.mem.cat.filter fun e => e.wing == w && e.runs.any fun r => s.runSel r == sel

/-- The runs of blocks on a channel, each once. -/
def State.runsOnChan (s : State) (w sel : Nat) : List Run :=
  (((s.blocksOnChan w sel).flatMap (·.runs)).eraseDups).filter fun r => s.runSel r == sel

/-- Copy a run with the checks of a move on the way (R80, R82, R87, R131): the entry's block is verified when it is the primary
run. -/
def State.docCopy (s : State) (src dst : Run) (e : Option CatEntry) : State :=
  (s.docAccess fun t =>
    match e with
    | some x =>
      let u := if x.primary == some src then (t.verifyBlock x).1 else t
      (u.copyRun src dst (some x), ())
    | none => (t.copyRun src dst none, ())).1

/-- Move one run off a channel (R131, R268), with every entry that shares it; it stays where it finds no room. A durable block is
never left without its Depot run (R126). -/
def State.evacuateRun (s : State) (w sel : Nat) (r : Run) : State :=
  let es := s.mem.cat.filter fun e => e.wing == w && e.runs.contains r
  match es with
  | [] => s
  | e :: _ =>
    let c := e.coll
    let now (s : State) (x : CatEntry) : CatEntry := s.entry x.coll x.wing x.blk
    if r.tier == .gallery && e.copySlot.isSome && e.primary == some r then
      let s1 := es.foldl (fun s x =>
        s.putEntry { now s x with tier := .depot, site := 0, slot := x.copySlot.getD 0, copySlot := none }) s
      (s1.freeRuns [r]).settle c
    else
      let gal := r.tier == .gallery
      let isCopy := e.primary != some r
      let same := s.findRun c w e.blk gal r.slots [r] (some sel)
      let other := if isCopy || (s.act.durable c && !gal) then none else s.findRun c w e.blk (!gal) r.slots [r] (some sel)
      let pick : Option (Bool × Nat × Nat) := match same with
        | some x => some (gal, x.1, x.2.1)
        | none => other.map fun x => (!gal, x.1, x.2.1)
      match pick with
      | none => s
      | some (g, ch, slot) =>
        let d : Run := ⟨w, if g then .gallery else .depot, siteOf ch, slot, r.slots⟩
        let s1 := ({ s with fresh := s.fresh + 2 } : State).docCopy r d (some e)
        let s2 := es.foldl (fun s x => s.putEntry
          (if isCopy then { now s x with copySlot := some slot }
           else { now s x with tier := d.tier, site := d.site, slot := slot })) s1
        ((s2.freeRuns [r]).settle c).bump 0x2804 5 (chanObj w ch) (if ch == s.preferred c e.blk g then 0 else 1)

/-- One step of an evacuation (R268): a run moves, and the held lines of its blocks are written back to its destination. -/
def State.evacuateOne (s : State) (w sel : Nat) (r : Run) : State :=
  ((s.evacuateRun w sel r).releaseHeld w).updChan w sel fun c => { c with progress := c.progress + 1 }

/-- The next block of a Wing's started moves (R130, R131): of the first move that has any, the lowest block that lies in the other
tier on a channel in service. -/
def State.nextBlock (s : State) (w : Nat) : Option (Move × CatEntry) :=
  (s.mem.moves.filter fun m => m.wing == w && m.started).findSome? fun m =>
    let es := sortBy (fun a b : CatEntry => decide (a.blk ≤ b.blk)) ((s.lotEntries m.coll w m.lot).filter fun e =>
      s.moving e && e.runs.all fun r => s.serves w (s.runSel r))
    es.head?.map fun e => (m, e)

/-- Where a block of a move goes and how its entry then reads (R131 step 1, R133, R134): a durable demotion takes the Depot copy and
needs no run; a durable promotion keeps the Depot run as copy_slot. None when there is no room. -/
def State.moveTarget (s : State) (m : Move) (e : CatEntry) : Option (Option Run × CatEntry) :=
  match m.toGallery, e.copySlot with
  | false, some c => some (none, { e with tier := .depot, site := 0, slot := c, copySlot := none })
  | _, _ =>
    (s.findRun e.coll e.wing e.blk m.toGallery e.slots (if s.act.durable e.coll then [] else e.runs) none).map fun x =>
      (some ⟨e.wing, if m.toGallery then .gallery else .depot, siteOf x.1, x.2.1, e.slots⟩,
       { e with tier := if m.toGallery then .gallery else .depot, site := siteOf x.1, slot := x.2.1,
                copySlot := if m.toGallery && s.act.durable e.coll then some e.slot else none })

/-- A move has come past a block: it moved, or it stays where it is. -/
def State.passBlock (s : State) (w c lot blk : Nat) : State :=
  let ms := updWhere (fun y : Move => y.coll == c && y.wing == w && y.lot == lot && y.started)
    (fun y => { y with next := max y.next (blk + 1) }) s.mem.moves
  s.updMem fun x => { x with moves := ms }

/-- Flip the entries that name a run to another (R84, R131 step 3, R160): all that share it at once, the state of the form they
name unchanged. -/
def State.flipShared (s : State) (old : CatEntry) (new : CatEntry) : State :=
  let es := s.sharers old
  let s1 := es.foldl (fun s x =>
    s.putEntry { s.entry x.coll x.wing x.blk with tier := new.tier, site := new.site, slot := new.slot, copySlot := new.copySlot }) s
  ((s1.updMem fun m => { m with allocs := m.allocs.filter fun a => !new.runs.contains a.2 }).retire old.runs).settle new.coll

end Sys2Proof.Machine
end

