-- ==== Sys2Proof/Machine/Programs.lean ====
section
/-! DEFINITION. How a docent runs an instruction (R193, R195-R200) and what the default programs do (R203-R207, R230-R234, R267,
R268): each of their steps is an instruction of R197, issued like any other. The place in a default program is its program counter, and
its registers from g2 on hold its position (log 42). -/

namespace Sys2Proof.Machine

/-- The context that may run an instruction of this opcode now. -/
def State.docReady (s : State) (d : Nat) (c : Ctx) (op : Nat) : Option CtxState :=
  match s.docent? d with
  | none => none
  | some x =>
    let y := x.ctx c
    if s.dieRuns (docDie d) && y.running && !y.suspended && y.waitUntil.isNone && y.op.isNone && y.copyWait.isNone &&
        decide (y.sinceWait < watchdogLimit) && y.native.isNone && decide (y.pc < progCount y.image) &&
        wOp (progWord y.image y.pc) == op then
      some y
    else none

/-- A channel or catalogue instruction under way: it ends with DOCENT_CHANNEL_OP_DONE, which writes `status` to `dest`
(16: to no register). -/
def opFlow (y : CtxState) (dest : Nat) (status : Word64) : Flow := .stay { y with op := some ⟨dest, status, none⟩ }

/-- An LFILL under way (R193, R197): some of its lines, how many is a free value, are written at once, the rest as it ends. -/
def State.fillFlow (s : State) (y : CtxState) (dest w sel a n : Nat) : State × Flow :=
  let m := Config.freeNat s.fresh % (n + 1)
  (({ s with fresh := s.fresh + 1 } : State).fillLines w sel a m,
   .stay { y with op := some ⟨dest, 0, some (w, sel, a + 64 * m, n - m)⟩ })

/-- Wait until an instant, from the step after it (R197 WAIT). -/
def State.waitFlow (s : State) (d : Nat) (y : CtxState) (t : Nat) : Flow :=
  if t ≤ s.dieTsc (docDie d) then .next y else .stay { y with waitUntil := some t }

/-- Registers of a default program as numbers. -/
def CtxState.num (y : CtxState) (i : Nat) : Nat := (y.get i).toNat

/-- Set a register of a default program. -/
def CtxState.keep (y : CtxState) (i v : Nat) : CtxState := y.put i (BitVec.ofNat 64 v)

/-- A parameter of a program. -/
def CtxState.parameter (y : CtxState) (i : Nat) : Nat := (y.params.getD i 0).toNat

/-- The channels whose walk a docent's role makes by default (R203, R206). -/
def walkOf (sel d : Nat) : Bool :=
  if d % 8 < 4 then sel == d % 8 else if d % 8 = 4 then 0x10 ≤ sel && sel < 0x20 else d % 8 == 5 && 0x20 ≤ sel

/-- Those channels, absent ones apart, in order. -/
def State.walkChans (s : State) (d : Nat) : List Chan :=
  s.chans.filter fun c => c.wing + 4 == docDie d && walkOf c.sel d && c.st != 0

/-- SCRUB-WALK (R206, R230): LSCRUB of the next 64 lines, then WAIT until the chunk's time is over. -/
def State.walkStep (s : State) (d : Nat) (y : CtxState) : State × Flow :=
  let cs := s.walkChans d
  if y.pc = 1 then (s, s.waitFlow d y (y.num 3))
  else
    match cs[y.num 2 % max 1 cs.length]? with
    | none => (s, .halt 0)
    | some c =>
      let lines := s.chanLines (isDepot c.sel)
      let n := min 64 (lines - c.walk)
      let s1 := if c.st = 3 then s else (s.docAccess fun t => ((t.scrubLines c.wing c.sel (64 * c.walk) n).1, ())).1
      let next := if lines ≤ c.walk + n then y.num 2 + 1 else y.num 2
      let spacing := y.parameter 0 * 1000000000 * 64 / (lines * max 1 cs.length)
      (s1.walkTo c.wing c.sel (c.walk + n),
       opFlow ((({ y with pc := 0 }).keep 2 next).keep 3 (s.dieTsc (docDie d) + spacing)) 16 0)

/-- FILL (R203, R232): LFILL of each of its channels that is filling, in order. -/
def State.fillStep (s : State) (d : Nat) (y : CtxState) : State × Flow :=
  match ((s.walkChans d).drop (y.num 2)).head? with
  | none => (s, .halt 0)
  | some c =>
    let z := { y.keep 2 (y.num 2 + 1) with pc := 255 }
    if c.st = 1 then s.fillFlow z 16 c.wing c.sel 0 (s.chanLines (isDepot c.sel)) else (s, opFlow z 16 0)

/-- FREEZE-CAPTURE (R207, R265): the record goes into the internal reserve, in reserve lines 0 to 63 of the Wing's first pair that
serves. -/
def State.captureStep (s : State) (d : Nat) (y : CtxState) : State × Flow :=
  let w := docDie d - 4
  let sel := y.arg % 256
  match s.chan? w sel with
  | some c =>
    match c.record with
    | some b =>
      let pair := if (s.reserveChans w 0).isEmpty then 1 else 0
      ((List.range 64).foldl (fun s i => s.storeReserve w pair i (slice b (64 * i) 64)) s, opFlow y 16 0)
    | none => (s, opFlow y 16 0)
  | none => (s, opFlow y 16 0)

/-- Nanoseconds that traffic takes at a share, in percent, of a channel's rate. -/
def State.shareTime (s : State) (depot : Bool) (fset share bytes : Nat) : Nat :=
  bytes * 100000 / max 1 (share * (s.chanRate depot fset).floor.toNat)

/-- RE-ENTRY (R267, R268): the pass of a re-entry by 64 lines, or the moves of an evacuation run by run, at the share OD 0x4120:03. -/
def State.reentryStep (s : State) (d : Nat) (y : CtxState) : State × Flow :=
  let w := docDie d - 4
  let sel := y.arg % 256
  if y.pc = 1 then (s, s.waitFlow d y (y.num 3))
  else
    match s.chan? w sel with
    | none => (s, .halt 0)
    | some c =>
      let z (bytes : Nat) : CtxState :=
        ({ y with pc := 0 }).keep 3 (s.dieTsc (docDie d) + s.shareTime (isDepot sel) c.fset (y.parameter 0) bytes)
      if c.st = 4 then (s.reentryPass w sel c.progress (c.progress + 64), opFlow (z 4096) 16 0)
      else
        match ((s.runsOnChan w sel).drop (y.num 2)).head? with
        | none => (s, .halt 0)
        | some r =>
          let s1 := s.evacuateOne w sel r
          (s1, opFlow ((z (512 * r.slots)).keep 2 (if (s1.runsOnChan w sel).contains r then y.num 2 + 1 else y.num 2)) 16 0)

/-- The next stored block of a verify pass (R207, R231), in the catalogue's order, after the one registers 2 and 3 name. -/
def State.nextVerify (s : State) (w : Nat) (y : CtxState) : Option CatEntry :=
  s.mem.cat.find? fun e => e.wing == w && e.stored && (y.arg == 0xFFFF || e.coll == y.arg) &&
    (y.num 4 == 0 || decide (y.num 2 < e.coll) || (e.coll == y.num 2 && decide (y.num 3 < e.blk)))

/-- Verify one block for a docent (R80, R197 BVERIFY): a block whose primary run's channel is frozen or absent is not read. -/
def State.docVerify (s : State) (e : CatEntry) : State × Verify :=
  if e.primary.any s.runClosed then (s, .frozen)
  else if !e.stored then (s, .noForm)
  else s.docAccess fun t => t.verifyBlock e

/-- Count a verified block in its context (R207). -/
def CtxState.verified (y : CtxState) (e : CatEntry) (v : Verify) : CtxState :=
  { y with checked := y.checked + bit1 e.stored,
           failed := y.failed + bit1 (v == .crcFailed || v == .poisoned || v == .headerDamaged) }

/-- VERIFY-PASS (R207, R231): BVERIFY of every stored block of the requested collections, at OD 0x4120:02 GB/s. -/
def State.verifyStep (s : State) (d : Nat) (y : CtxState) : State × Flow :=
  if y.pc = 1 then (s, s.waitFlow d y (y.num 5))
  else
    match s.nextVerify (docDie d - 4) y with
    | none => (s, .halt 0)
    | some e =>
      let r := s.docVerify e
      let z := ((({ y with pc := 0 }).keep 2 e.coll).keep 3 e.blk).keep 4 1
      (r.1, opFlow ((z.keep 5 (s.dieTsc (docDie d) + 512 * e.slots / max 1 (y.parameter 0))).verified e r.2) 16 0)

/-- The destination run a LOT-MOVE holds: slot in register 4, slots in register 5, tier and site in register 6. -/
def CtxState.moveRun (y : CtxState) (w : Nat) : Run :=
  ⟨w, tierOf (y.num 6 % 4), y.num 6 / 4, y.num 4, y.num 5⟩

/-- LOT-MOVE step 1 (R131): allocate the destination run of the next block; the entry as it is and as it will be go to buffer bytes
15:0 and 31:16. A block that finds no room is passed by. -/
def State.moveAllocate (s : State) (w : Nat) (y : CtxState) : State × Flow :=
  let s := s.startMoves w
  match s.nextBlock w with
  | none => (s, .halt 0)
  | some (m, e) =>
    let z := (((y.keep 2 e.coll).keep 3 e.blk).setBytes e.bytes).keep 8 (s.dieTsc (wingDie w) + 1024 * e.slots / max 1 (s.act.nat 0x2110 2 0 8))
    match s.moveTarget m e with
    | none => (s.passBlock w m.coll m.lot e.blk, opFlow { z with pc := 255 } 16 0)
    | some (none, e') => (s, opFlow { (z.setBytes (e.bytes ++ e'.bytes)).keep 5 0 with pc := 2 } 16 0)
    | some (some r, e') =>
      let s1 := ({ s with fresh := s.fresh + 1 } : State).updMem fun x => { x with allocs := x.allocs ++ [(e.coll, r)] }
      (s1, opFlow ((((z.setBytes (e.bytes ++ e'.bytes)).keep 4 r.slot).keep 5 r.slots).keep 6 (r.tier.code + 4 * r.site)) 16 0)

/-- LOT-MOVE step 3 (R84, R131, R132): flip the entry if the block still has the form that was copied and its move is still under way;
otherwise the copy is freed and the block stays as it is. -/
def State.moveFlip (s : State) (w : Nat) (y : CtxState) : State × Flow :=
  let e := s.entry (y.num 2) w (y.num 3)
  let old := e.ofBytes (y.bufBytes 0 2)
  let new := old.ofBytes (y.bufBytes 2 2)
  let r := y.moveRun w
  let lot := s.homeLot e
  let under := s.mem.moves.any fun m => m.started && m.coll == e.coll && m.wing == w && m.lot == lot
  let ok := under && old.sameForm e && e.stored && (y.num 5 == 0 || y.num 7 / 256 % 256 == 0)
  let s1 := if ok then s.flipShared e new
    else s.updMem fun m => { m with allocs := m.allocs.filter fun a => a.2 != r }
  (((s1.passBlock w e.coll lot (y.num 3)).startMoves w).notePrepared, opFlow y 16 0)

/-- LOT-MOVE (R131): steps 0 to 4 allocate, copy, wait for the copy, flip and free; then the traffic limit OD 0x2110:02 passes. -/
def State.moveStep (s : State) (d : Nat) (y : CtxState) : State × Flow :=
  let w := docDie d - 4
  match y.pc with
  | 1 =>
    let e := s.entry (y.num 2) w (y.num 3)
    let r := y.moveRun w
    let shut := (match e.primary with | some p => s.runClosed p | none => true) || s.runClosed r
    let s1 := match e.primary with
      | some p => if shut then s else s.docCopy p r (some e)
      | none => s
    let k : Copy := { handle := y.nextHandle, src := e.slot, dst := r.slot, count := r.slots, status := bit1 shut, done := false }
    (s1, opFlow { y with copies := y.copies ++ [k], nextHandle := (y.nextHandle + 1) % 256 } 16 0)
  | 2 =>
    match y.copies.find? (·.done) with
    | some k => (s, .next { y.keep 7 (k.handle + 256 * k.status) with copies := y.copies.filter fun x => x.handle != k.handle })
    | none => (s, .stay { y with copyWait := some 7 })
  | 3 => s.moveFlip w y
  | 4 =>
    (s.updMem fun m => { m with deferred := m.deferred.filter fun r => s.runNeeded r || r.wing != w }, opFlow y 16 0)
  | 5 => (s, match s.waitFlow d y (y.num 8) with | .next z => .jump z 0 | f => f)
  | _ => s.moveAllocate w { y with pc := 0 }

/-- Lines per point of a DELAY-SWEEP, over its patterns (R204). -/
def CtxState.sweepLines (y : CtxState) : Nat := y.parameter 4 * (if y.parameter 5 = 3 then 3 else 1)

/-- Points of a DELAY-SWEEP (R204). -/
def CtxState.sweepPoints (y : CtxState) : Nat :=
  if y.parameter 3 = 0 ∨ y.parameter 2 < y.parameter 1 then 0 else (y.parameter 2 - y.parameter 1) / y.parameter 3 + 1

/-- Set a field of a channel's working delay set: one byte, or two of a CA delay (R258). -/
def Chan.setDelay (c : Chan) (off v : Nat) : Chan :=
  let n := if 0x848 ≤ off ∧ off < 0x84C then 16 else 8
  let i := off / 8 * 8
  c.writeReg i (setBits (c.readReg i) (8 * (off % 8)) n (v % 2 ^ n)) true

/-- Write `n` lines of a test pattern and read them back (R197 LTEST). How many lines fail and in which lanes the board decides: free
values, the mask 0 when none fails. -/
def State.testLines (s : State) (w sel a n pat : Nat) : State × Nat × Nat :=
  let t := (List.range n).foldl (fun s i =>
    s.docStore w sel (a + 64 * i) ((List.range 64).map fun k => Config.testPattern pat (a / 64 + i) k) false) s
  let u := (t.readLines w sel a n).1
  let fails := Config.freeNat u.fresh % (n + 1)
  ({ u with fresh := u.fresh + 2 }, fails, if fails = 0 then 0 else Config.freeNat (u.fresh + 1) % 2 ^ 64)

/-- The lowest lane of a mask. -/
def lowestLane (m : Nat) : Nat := (maskList 64 m).headD 0

/-- DELAY-SWEEP (R204, R207): at each point the delay is written, the lines are tested with each pattern, and the result goes to
the buffer: delay value, failing lines, lowest failing lane. A site's docent sweeps its channels together. -/
def State.sweepStep (s : State) (d : Nat) (y : CtxState) : State × Flow :=
  let cs := s.walkChans d
  let v := y.parameter 1 + y.num 2 * y.parameter 3
  match y.pc with
  | 1 =>
    let done := y.num 3
    let n := min 64 (y.sweepLines - done)
    let pat := if y.parameter 5 = 3 then done / max 1 (y.parameter 4) else y.parameter 5
    let r := cs.foldl (fun (acc : State × Nat × Nat) c =>
      let a := done % max 1 (s.chanLines (isDepot c.sel) - 64)
      let t := acc.1.docAccess fun u => let x := u.testLines c.wing c.sel (64 * a) n pat; (x.1, x.2)
      (t.1, acc.2.1 + t.2.1, if t.2.1 = 0 then acc.2.2 else min acc.2.2 (lowestLane t.2.2))) (s, y.num 4, if y.num 4 = 0 then 255 else y.num 5)
    let z := ((y.keep 3 (done + n)).keep 4 r.2.1).keep 5 r.2.2
    (r.1, opFlow (if done + n < y.sweepLines then { z with pc := 0 } else z) 16 0)
  | 2 =>
    let point := v % 2 ^ 16 + y.num 4 % 2 ^ 32 * 2 ^ 16 + (if y.num 4 = 0 then 0 else y.num 5 % 256) * 2 ^ 48
    let z := ((((y.setWord (y.num 2) (BitVec.ofNat 64 point)).keep 2 (y.num 2 + 1)).keep 3 0).keep 4 0).keep 5 0
    (s.updDocent d fun x => { x with sweep := ((x.sweep.take (y.num 2)) ++ [point]).take 512 }, .jump z 0)
  | _ =>
    if y.sweepPoints ≤ y.num 2 then (s, .halt 0)
    else
      let chans := updWhere (fun c => cs.any fun x => x.wing == c.wing && x.sel == c.sel)
        (fun c => c.setDelay (y.parameter 0) v) s.chans
      ({ s with chans := chans }, .next y)

/-- The opcode of the instruction a default program runs next. -/
def State.nativeOp (s : State) (d : Nat) (y : CtxState) : Nat :=
  let w := docDie d - 4
  match y.native with
  | some 0 => if ((s.walkChans d).drop (y.num 2)).isEmpty then 0x2C else 0x36
  | some 1 => if y.pc = 1 then 0x2A else if (s.walkChans d).isEmpty then 0x2C else 0x37
  | some 2 => if y.pc = 0 then 0x35 else 0x2C
  | some 3 =>
    if y.pc = 1 then 0x2A
    else
      match s.chan? w (y.arg % 256) with
      | some c =>
        if c.st = 4 ∧ !bitSet y.arg 8 ∧ c.progress < s.chanLines (isDepot c.sel) then (if s.holdsRun w c.sel then 0x37 else 0x36)
        else if c.st = 5 ∧ bitSet y.arg 8 ∧ !((s.runsOnChan w c.sel).drop (y.num 2)).isEmpty then 0x3C
        else 0x2C
      | none => 0x2C
  | some 4 => if y.pc = 1 then 0x2A else if (s.nextVerify w y).isSome then 0x3E else 0x2C
  | some 5 =>
    match y.pc with
    | 1 => 0x3C
    | 2 => 0x3D
    | 3 => 0x39
    | 4 => 0x3B
    | 5 => 0x2A
    | _ => if s.act.nat 0x2110 2 0 8 = 0 then 0x100 else if ((s.startMoves w).nextBlock w).isSome then 0x3A else 0x2C
  | some _ => if y.pc = 1 then 0x3F else if y.pc = 2 then 0x31 else if y.sweepPoints ≤ y.num 2 then 0x2C else 0x2E
  | none => 0x100

/-- Run the next instruction of a default program. -/
def State.nativeRun (s : State) (d : Nat) (y : CtxState) : State × Flow :=
  if s.nativeOp d y = 0x2C then (s, .halt 0)
  else
    match y.native with
    | some 0 => s.fillStep d y
    | some 1 => s.walkStep d y
    | some 2 => s.captureStep d y
    | some 3 => s.reentryStep d y
    | some 4 => s.verifyStep d y
    | some 5 => s.moveStep d y
    | _ => s.sweepStep d y

/-- The default program that may run an instruction of this opcode now. -/
def State.nativeReady (s : State) (d : Nat) (c : Ctx) (op : Nat) : Option CtxState :=
  match s.docent? d with
  | none => none
  | some x =>
    let y := x.ctx c
    if s.dieRuns (docDie d) && y.running && !y.suspended && y.waitUntil.isNone && y.op.isNone && y.copyWait.isNone &&
        y.native.isSome && s.nativeOp d y == op then
      some y
    else none

/-- Does an instruction wait for its die's channels: one that acts on the DRAM, while the Wing's Depot frequency changes (R261)? -/
def State.docHeld (s : State) (d op : Nat) : Bool :=
  decide (4 ≤ docDie d) && s.changing (docDie d - 4) && (op == 0x34 || op == 0x35 || op == 0x36 || op == 0x37 || op == 0x3C ||
    op == 0x3E || op == 0x3F)

/-- What an instruction leaves of its context. -/
def State.docFlow (s : State) (d : Nat) (c : Ctx) (y : CtxState) : Flow → State
  | .next z => s.docNext d c z
  | .jump z t => s.setCtx d c { z with pc := t }
  | .stay z => s.setCtx d c z
  | .fault n => s.docFault d c n
  | .halt n => s.docHalt d c y n

/-- Run one instruction of a context: its word, or its default program's next step, names this opcode, or nothing happens. -/
def State.docRun (s : State) (d : Nat) (c : Ctx) (op : Nat) (f : Nat → CtxState → State → State × Flow) : State :=
  if s.docHeld d op then s
  else
    match s.docReady d c op, s.nativeReady d c op with
    | some y, _ =>
      let y1 := { y with sinceWait := if waiting op then 0 else y.sinceWait + 1 }
      let r := f (progWord y.image y.pc) y1 ((s.bump 0x4110 6 d 1).setCtx d c y1)
      r.1.docFlow d c y1 r.2
    | none, some y =>
      let r := (s.bump 0x4110 6 d 1).nativeRun d y
      r.1.docFlow d c y r.2
    | none, none => s

/-- An instruction that touches its context only. -/
def State.docPure (s : State) (d : Nat) (c : Ctx) (op : Nat) (f : Nat → CtxState → Flow) : State :=
  s.docRun d c op fun w y s => (s, f w y)

/-- gd = ga op gb (R197). -/
def State.docAlu (s : State) (d : Nat) (c : Ctx) (op : Nat) (f : Word64 → Word64 → Word64) : State :=
  s.docPure d c op fun w y => .next (y.put (wD w) (f (y.get (wA w)) (y.get (wB w))))

/-- gd = ga op imm (R197). -/
def State.docImm (s : State) (d : Nat) (c : Ctx) (op : Nat) (f : Word64 → Word64 → Word64) : State :=
  s.docPure d c op fun w y => .next (y.put (wD w) (f (y.get (wA w)) (wImm w)))

/-- A conditional branch (R197). -/
def State.docBranch (s : State) (d : Nat) (c : Ctx) (op : Nat) (p : Word64 → Word64 → Bool) : State :=
  s.docPure d c op fun w y =>
    if p (y.get (wBranchA w)) (y.get (wBranchB w)) then .jump y (wTarget w) else .next y

/-- Shift amount bits 5:0 (R197). -/
def shiftOf (v : Word64) : Nat := v.toNat % 64

/-- Run a channel instruction over `n` lines: `f` acts on an accessible channel and gives the status and context. -/
def State.docChan (s : State) (d : Nat) (c : Ctx) (op limit : Nat)
    (f : CtxState → Nat → Nat → Nat → Nat → State → State × CtxState × Word64) : State :=
  s.docRun d c op fun w y s =>
    let n := (y.get (wB w)).toNat
    match s.chanArgs d (y.get (wA w)) n limit with
    | .error e => (s, .fault e)
    | .ok x =>
      if x.2.2.2 then (s, opFlow y (wD w) frozenStatus)
      else
        let r := f y x.1 x.2.1 x.2.2.1 n s
        (r.1, opFlow r.2.1 (wD w) r.2.2)


end Sys2Proof.Machine
end

