-- ==== Sys2Proof/Machine/Docents.lean ====
section
/-! DEFINITION. The docent instructions (R197), the ends of what they wait for, the watchdog (R200), the dispatch of
triggers (R193) and the dictionary's triggers (R192, R200, R209). -/

namespace Sys2Proof.Machine

/-- NOP. -/
def execNop (docent : Nat) (ctx : Ctx) (s : State) : Res := .next (s.docPure docent ctx 0x00 fun _ y => .next y)

/-- ADD. -/
def execAdd (docent : Nat) (ctx : Ctx) (s : State) : Res := .next (s.docAlu docent ctx 0x01 (· + ·))

/-- SUB. -/
def execSub (docent : Nat) (ctx : Ctx) (s : State) : Res := .next (s.docAlu docent ctx 0x02 (· - ·))

/-- AND. -/
def execAndR (docent : Nat) (ctx : Ctx) (s : State) : Res := .next (s.docAlu docent ctx 0x03 (· &&& ·))

/-- OR. -/
def execOrR (docent : Nat) (ctx : Ctx) (s : State) : Res := .next (s.docAlu docent ctx 0x04 (· ||| ·))

/-- XOR. -/
def execXor (docent : Nat) (ctx : Ctx) (s : State) : Res := .next (s.docAlu docent ctx 0x05 (· ^^^ ·))

/-- SHL. -/
def execShl (docent : Nat) (ctx : Ctx) (s : State) : Res := .next (s.docAlu docent ctx 0x06 fun a b => a <<< shiftOf b)

/-- SHR. -/
def execShr (docent : Nat) (ctx : Ctx) (s : State) : Res := .next (s.docAlu docent ctx 0x07 fun a b => a >>> shiftOf b)

/-- SRA. -/
def execSra (docent : Nat) (ctx : Ctx) (s : State) : Res := .next (s.docAlu docent ctx 0x08 fun a b => a.sshiftRight (shiftOf b))

/-- MUL. -/
def execMul (docent : Nat) (ctx : Ctx) (s : State) : Res := .next (s.docAlu docent ctx 0x09 (· * ·))

/-- MINU. -/
def execMinu (docent : Nat) (ctx : Ctx) (s : State) : Res :=
  .next (s.docAlu docent ctx 0x0A fun a b => if a.toNat ≤ b.toNat then a else b)

/-- MAXU. -/
def execMaxu (docent : Nat) (ctx : Ctx) (s : State) : Res :=
  .next (s.docAlu docent ctx 0x0B fun a b => if a.toNat ≤ b.toNat then b else a)

/-- ADDI. -/
def execAddi (docent : Nat) (ctx : Ctx) (s : State) : Res := .next (s.docImm docent ctx 0x10 (· + ·))

/-- ANDI. -/
def execAndi (docent : Nat) (ctx : Ctx) (s : State) : Res := .next (s.docImm docent ctx 0x11 (· &&& ·))

/-- ORI. -/
def execOri (docent : Nat) (ctx : Ctx) (s : State) : Res := .next (s.docImm docent ctx 0x12 (· ||| ·))

/-- XORI. -/
def execXori (docent : Nat) (ctx : Ctx) (s : State) : Res := .next (s.docImm docent ctx 0x13 (· ^^^ ·))

/-- SHLI. -/
def execShli (docent : Nat) (ctx : Ctx) (s : State) : Res := .next (s.docImm docent ctx 0x14 fun a b => a <<< shiftOf b)

/-- SHRI. -/
def execShri (docent : Nat) (ctx : Ctx) (s : State) : Res := .next (s.docImm docent ctx 0x15 fun a b => a >>> shiftOf b)

/-- SRAI. -/
def execSrai (docent : Nat) (ctx : Ctx) (s : State) : Res :=
  .next (s.docImm docent ctx 0x16 fun a b => a.sshiftRight (shiftOf b))

/-- MOVK. -/
def execMovk (docent : Nat) (ctx : Ctx) (s : State) : Res :=
  .next (s.docPure docent ctx 0x18 fun w y =>
    .next (y.put (wD w) (BitVec.ofNat 64 (setBits (y.get (wD w)).toNat (16 * wK w) 16 (wImm16 w)))))

/-- MOVZ. -/
def execMovz (docent : Nat) (ctx : Ctx) (s : State) : Res :=
  .next (s.docPure docent ctx 0x19 fun w y => .next (y.put (wD w) (BitVec.ofNat 64 (wImm16 w * 2 ^ (16 * wK w)))))

/-- BEQ. -/
def execBeq (docent : Nat) (ctx : Ctx) (s : State) : Res := .next (s.docBranch docent ctx 0x20 fun a b => a == b)

/-- BNE. -/
def execBne (docent : Nat) (ctx : Ctx) (s : State) : Res := .next (s.docBranch docent ctx 0x21 fun a b => a != b)

/-- BLTU. -/
def execBltu (docent : Nat) (ctx : Ctx) (s : State) : Res :=
  .next (s.docBranch docent ctx 0x22 fun a b => decide (a.toNat < b.toNat))

/-- BGEU. -/
def execBgeu (docent : Nat) (ctx : Ctx) (s : State) : Res :=
  .next (s.docBranch docent ctx 0x23 fun a b => decide (b.toNat ≤ a.toNat))

/-- JMP. -/
def execJmp (docent : Nat) (ctx : Ctx) (s : State) : Res :=
  .next (s.docPure docent ctx 0x24 fun w y => .jump y (wTarget w))

/-- PARAM. -/
def execParam (docent : Nat) (ctx : Ctx) (s : State) : Res :=
  .next (s.docPure docent ctx 0x28 fun w y => .next (y.put (wD w) (y.params.getD (wImm w).toNat 0)))

/-- TSC: the TSC of the docent's die. -/
def execTsc (docent : Nat) (ctx : Ctx) (s : State) : Res :=
  .next (s.docRun docent ctx 0x29 fun w y s =>
    (s, .next (y.put (wD w) (BitVec.ofNat 64 (s.dieTsc (docDie docent))))))

/-- WAIT: until TSC reaches ga + imm. -/
def execWait (docent : Nat) (ctx : Ctx) (s : State) : Res :=
  .next (s.docRun docent ctx 0x2A fun w y s =>
    let t := (y.ea w).toNat
    (s, if t ≤ s.dieTsc (docDie docent) then .next y else .stay { y with waitUntil := some t }))

/-- EVT: a docent notice with imm[15:0] and ga. -/
def execEvt (docent : Nat) (ctx : Ctx) (s : State) : Res :=
  .next (s.docRun docent ctx 0x2B fun w y s =>
    (s.event .d 0x32 (docSrc docent) 0xFFFF (pack [(1, docent), (2, wImm16 w), (8, (y.get (wA w)).toNat)]), .next y))

/-- HALT. -/
def execHalt (docent : Nat) (ctx : Ctx) (s : State) : Res :=
  .next (s.docRun docent ctx 0x2C fun w _ s => (s, .halt (wImm16 w)))

/-- RDREG: a register of the docent's own die. -/
def execRdreg (docent : Nat) (ctx : Ctx) (s : State) : Res :=
  .next (s.docRun docent ctx 0x2D fun w y s =>
    let a := (y.ea w).toNat
    if a % 8 ≠ 0 ∨ blockBytes (docDie docent) ≤ a then (s, .fault 2)
    else (s, .next (y.put (wD w) (BitVec.ofNat 64 (s.readDieReg (docDie docent) a)))))

/-- WRREG (R190, R200): REG_WRITE reaches the whole block; SWEEP alone reaches the delay registers, in board-qualify mode only. -/
def execWrreg (docent : Nat) (ctx : Ctx) (s : State) : Res :=
  .next (s.docRun docent ctx 0x2E fun w y s =>
    let a := (y.ea w).toNat
    let caps := fieldAt y.image 6 2
    if a % 8 ≠ 0 ∨ blockBytes (docDie docent) ≤ a then (s, .fault 2)
    else if !bitSet caps 1 && !(bitSet caps 5 && 4 ≤ docDie docent && s.isDelayReg a) then (s, .fault 2)
    else if !bitSet caps 1 && s.pkg.bootMode != 3 then (s, .fault 6)
    else (s.writeDieReg (docDie docent) a (y.get (wD w)).toNat true, .next y))

/-- LDB. -/
def execLdb (docent : Nat) (ctx : Ctx) (s : State) : Res :=
  .next (s.docRun docent ctx 0x30 fun w y s =>
    let a := (y.ea w).toNat
    if a % 8 ≠ 0 ∨ 4088 < a then (s, .fault 3)
    else
      let r := s.readBuf docent y (a / 8) 1
      (r.1, .next (r.2.1.put (wD w) (BitVec.ofNat 64 (leNat r.2.2.1)))))

/-- STB. -/
def execStb (docent : Nat) (ctx : Ctx) (s : State) : Res :=
  .next (s.docPure docent ctx 0x31 fun w y =>
    let a := (y.ea w).toNat
    if a % 8 ≠ 0 ∨ 4088 < a then .fault 3 else .next (y.setWord (a / 8) (y.get (wD w))))

/-- LREAD. -/
def execLread (docent : Nat) (ctx : Ctx) (s : State) : Res :=
  .next (s.docChan docent ctx 0x34 64 fun y w sel a n s =>
    let r := s.readLines w sel a n
    (r.1, y.setLines r.2.1, statusWord r.2.2.1 r.2.2.2))

/-- LWRITE: a line of the buffer that holds a poisoned byte is written with the poison syndrome (R226). -/
def execLwrite (docent : Nat) (ctx : Ctx) (s : State) : Res :=
  .next (s.docChan docent ctx 0x35 64 fun y w sel a n s =>
    let r := (List.range n).foldl (fun (acc : State × CtxState) i =>
      let b := acc.1.readBuf docent acc.2 (8 * i) 8
      (b.1.docStore w sel (a + 64 * i) b.2.2.1 b.2.2.2, b.2.1)) (s, y)
    (r.1, r.2, 0))

/-- LFILL: it ends line by line, so that a handler of priority 0 suspends it between lines (R193). -/
def execLfill (docent : Nat) (ctx : Ctx) (s : State) : Res :=
  .next (s.docRun docent ctx 0x36 fun w y s =>
    let n := (y.get (wB w)).toNat
    match s.chanArgs docent (y.get (wA w)) n (2 ^ 34) with
    | .error e => (s, .fault e)
    | .ok x => if x.2.2.2 then (s, opFlow y (wD w) frozenStatus) else s.fillFlow y (wD w) x.1 x.2.1 x.2.2.1 n)

/-- LSCRUB; a role's scrub moves the walk of its channel (R206, R230). -/
def execLscrub (docent : Nat) (ctx : Ctx) (s : State) : Res :=
  .next (s.docChan docent ctx 0x37 64 fun y w sel a n s =>
    let r := s.scrubLines w sel a n
    (if y.isRole then r.1.walkTo w sel (a / 64 + n) else r.1, y, statusWord r.2.1 r.2.2))

/-- LTEST: in board-qualify mode only (R190, R200). -/
def execLtest (docent : Nat) (ctx : Ctx) (s : State) : Res :=
  .next (s.docRun docent ctx 0x3F fun w y s =>
    let n := (y.get (wB w)).toNat
    if s.pkg.bootMode ≠ 3 then (s, .fault 6)
    else
      match s.chanArgs docent (y.get (wA w)) n 64 with
      | .error e => (s, .fault e)
      | .ok x =>
        if x.2.2.2 then (s, opFlow y (wD w) frozenStatus)
        else
          let r := s.testLines x.1 x.2.1 x.2.2.1 n ((y.get (wD w)).toNat % 256)
          (r.1, opFlow (y.setWord 0 (BitVec.ofNat 64 r.2.2)) (wD w) (BitVec.ofNat 64 r.2.1)))

/-- CATRD. -/
def execCatrd (docent : Nat) (ctx : Ctx) (s : State) : Res :=
  .next (s.docRun docent ctx 0x38 fun w y s =>
    let k := catArg (y.get (wA w))
    let wing := docDie docent - 4
    if 4 ≤ docDie docent && s.entryExists wing k.1 k.2 then
      (s, opFlow (y.setBytes (s.entry k.1 wing k.2).bytes) (wD w) 0)
    else (s, opFlow y (wD w) 1))

/-- CATFLIP; a flip may end a lot's move and admit the next (R129), and empty the Gallery (R322). A block whose source or destination
channel is frozen stays at its source (R130). -/
def execCatflip (docent : Nat) (ctx : Ctx) (s : State) : Res :=
  .next (s.docRun docent ctx 0x39 fun w y s =>
    let k := catArg (y.get (wA w))
    let wing := docDie docent - 4
    let e := s.entry k.1 wing k.2
    let b := s.readBuf docent y 0 4
    let new := e.ofBytes (slice b.2.2.1 16 16)
    let closed := new.primary != e.primary && (new.primary.toList ++ e.primary.toList).any s.runClosed
    if 4 ≤ docDie docent && s.entryExists wing k.1 k.2 && !b.2.2.2 && !closed && e.bytes == slice b.2.2.1 0 16 then
      (((b.1.flipEntry e new).startMoves wing).notePrepared, opFlow b.2.1 (wD w) 0)
    else (b.1, opFlow b.2.1 (wD w) 1))

/-- SALLOC: 1 to 9 slots of a tier's share (R83). -/
def execSalloc (docent : Nat) (ctx : Ctx) (s : State) : Res :=
  .next (s.docRun docent ctx 0x3A fun w y s =>
    let v := (y.get (wA w)).toNat
    let n := (y.get (wB w)).toNat
    let wing := docDie docent - 4
    if n = 0 ∨ 9 < n ∨ docDie docent < 4 then (s, .fault 5)
    else
      let r := if bits v 12 2 = 1 then s.allocShare (bits v 0 12) wing true (bits v 14 1) n
        else if bits v 12 2 = 2 then s.allocShare (bits v 0 12) wing false 0 n else none
      match r with
      | some r =>
        let s1 := ({ s with fresh := s.fresh + 1 } : State).updMem fun m => { m with allocs := m.allocs ++ [(bits v 0 12, r)] }
        (s1, opFlow y (wD w) (BitVec.ofNat 64 r.slot))
      | none => (s, opFlow y (wD w) (BitVec.allOnes 64)))

/-- The run that SFREE names: the one of these slots that a docent holds, or one whose reuse is deferred (log 43). -/
def State.freedRun (s : State) (w slot n : Nat) : Option Run :=
  ((s.mem.allocs.map (·.2)) ++ s.mem.deferred).find? fun r => r.wing == w && r.slot == slot && r.slots == n

/-- SFREE: a run a waiting read needs stays deferred (R84). -/
def execSfree (docent : Nat) (ctx : Ctx) (s : State) : Res :=
  .next (s.docRun docent ctx 0x3B fun w y s =>
    let n := (y.get (wB w)).toNat
    if n = 0 ∨ 9 < n ∨ docDie docent < 4 then (s, .fault 5)
    else
      match s.freedRun (docDie docent - 4) (y.get (wA w)).toNat n with
      | none => (s, opFlow y 16 0)
      | some r =>
        let rest := s.mem.deferred.filter (· != r)
        (s.updMem fun m => { m with allocs := m.allocs.filter fun a => a.2 != r,
                                    deferred := if s.runNeeded r then rest ++ [r] else rest }, opFlow y 16 0))

/-- RUNCOPY: at most 32 copies of a context are outstanding (R197, R200). -/
def execRuncopy (docent : Nat) (ctx : Ctx) (s : State) : Res :=
  .next (s.docRun docent ctx 0x3C fun w y s =>
    let a := (y.get (wA w)).toNat
    let wing := docDie docent - 4
    if a % 8 ≠ 0 ∨ 4072 < a then (s, .fault 3)
    else
      let b := s.readBuf docent y (a / 8) 3
      let from_ := fieldAt b.2.2.1 0 8
      let into := fieldAt b.2.2.1 8 8
      let n := fieldAt b.2.2.1 16 8
      if 32 ≤ y.copies.length ∨ n = 0 ∨ 9 < n ∨ docDie docent < 4 then (b.1, .fault 5)
      else
        match b.1.sourceRun wing from_ n, b.1.destRun wing into n with
        | some x, some r =>
          let shut := s.runClosed x.1 || s.runClosed r
          let s1 := if shut then b.1 else b.1.docCopy x.1 r x.2
          let k : Copy := { handle := y.nextHandle, src := from_, dst := into, count := n, status := bit1 shut, done := false }
          (s1, opFlow { b.2.1 with copies := y.copies ++ [k], nextHandle := (y.nextHandle + 1) % 256 } (wD w)
            (BitVec.ofNat 64 y.nextHandle))
        | _, _ => (b.1, .fault 5))

/-- Hand a finished copy to a context: its handle and status in gd (R197). -/
def CtxState.takeCopy (y : CtxState) (dest : Nat) (k : Copy) : CtxState :=
  { y.put dest (BitVec.ofNat 64 (k.handle + 256 * k.status)) with
    copyWait := none, copies := y.copies.filter fun x => x.handle != k.handle }

/-- CWAIT. -/
def execCwait (docent : Nat) (ctx : Ctx) (s : State) : Res :=
  .next (s.docPure docent ctx 0x3D fun w y =>
    match y.copies.find? (·.done) with
    | some k => .next (y.takeCopy (wD w) k)
    | none => .stay { y with copyWait := some (wD w) })

/-- A RUNCOPY copy finishes (R197); a suspended context goes on with it when it runs again (R193). -/
def execCopyComplete (docent : Nat) (ctx : Ctx) (handle : Nat) (s : State) : Res :=
  .next (match s.docent? docent with
    | none => s
    | some x =>
      let y := x.ctx ctx
      match y.copies.find? fun k => k.handle == handle with
      | none => s
      | some k =>
        match y.suspended, y.copyWait with
        | false, some r => s.docNext docent ctx (y.takeCopy r k)
        | _, _ => s.setCtx docent ctx { y with copies := updWhere (fun k => k.handle == handle) (fun k => { k with done := true }) y.copies })

/-- BVERIFY: the plaintext never leaves the Wing (R191); a verify pass counts what it checked. -/
def execBverify (docent : Nat) (ctx : Ctx) (s : State) : Res :=
  .next (s.docRun docent ctx 0x3E fun w y s =>
    let k := catArg (y.get (wA w))
    if docDie docent < 4 then (s, opFlow y (wD w) 4)
    else
      let e := s.entry k.1 (docDie docent - 4) k.2
      let r := s.docVerify e
      (r.1, opFlow (y.verified e r.2) (wD w) (BitVec.ofNat 64 r.2.code)))

/-- A channel or catalogue instruction finishes: an LFILL has written its last line, the status word is written and the context goes
on (R197). -/
def execDocentChannelOpDone (docent : Nat) (ctx : Ctx) (s : State) : Res :=
  .next (match s.docent? docent with
    | none => s
    | some x =>
      let y := x.ctx ctx
      match y.op with
      | none => s
      | some o =>
        if y.suspended then s
        else
          match o.fill with
          | none => s.docNext docent ctx { y.put o.dest o.status with op := none }
          | some f =>
            let shut := match s.chan? f.1 f.2.1 with | some c => c.st == 3 | none => true
            let s1 := if shut then s else s.fillLines f.1 f.2.1 f.2.2.1 f.2.2.2
            s1.docNext docent ctx { y.put o.dest (if shut then frozenStatus else o.status) with op := none })

/-- The TSC reaches a waiting docent's instant (R197). -/
def execWaitExpiry (docent : Nat) (ctx : Ctx) (s : State) : Res :=
  .next (match s.docent? docent with
    | none => s
    | some x =>
      let y := x.ctx ctx
      match y.waitUntil with
      | some t => if !y.suspended && decide (t ≤ s.dieTsc (docDie docent)) then s.docNext docent ctx { y with waitUntil := none } else s
      | none => s)

/-- The watchdog (R200). -/
def execWatchdog (docent : Nat) (ctx : Ctx) (s : State) : Res :=
  .next (match s.docent? docent with
    | none => s
    | some x => if (x.ctx ctx).running && watchdogLimit ≤ (x.ctx ctx).sinceWait then s.docFault docent ctx 1 else s)

/-- The context a trigger's handler needs (R193). -/
def Trigger.ctx (t : Trigger) : Ctx := if t.prio = 0 then .p else .a

/-- The docent that takes a trigger: the lowest-numbered of its die that is bound to it with its context idle; a customer
trigger names its docent. -/
def State.takerOf (s : State) (t : Trigger) : Option Docent :=
  s.doc.docents.find? fun x => docDie x.id == t.die && s.boundTo x.id t.code &&
    (match t.target with | some d => x.id == d | none => true) && !(x.ctx t.ctx).running

/-- Start the handler of a trigger on a docent (R192, R193): P preempts A. -/
def State.startHandler (s : State) (t : Trigger) (x : Docent) : State :=
  let n := s.act.handler (trigIndex t.code)
  if !s.act.hasProgram n then s
  else
    let y := CtxState.start n (s.act.image n) (s.act.progParams n) (s.act.native n) false t.code t.arg
    s.updDocent x.id fun z =>
      match t.ctx with
      | .p => { z with p := y, a := { z.a with suspended := true } }
      | .a => { z with a := { y with suspended := z.p.running } }

/-- The frequency set in use by a Wing's Depot channels that serve; the edition's target when none does (R260, R261). -/
def State.wingFset (s : State) (w : Nat) : Nat :=
  match s.chans.find? fun c => c.wing == w && isDepot c.sel && (c.st == 2 || c.st == 8) with
  | some c => c.fset
  | none => s.act.nat 0x2810 3 0 0

/-- A re-entry or evacuation order begins (R266-R268 steps 1 and 2): argument bits 7:0 the channel, bit 8 evacuate. The
channel leaves self-refresh with the sets of the Wing's frequency and its band. -/
def State.beginOrder (s : State) (w arg : Nat) : State :=
  let sel := arg % 256
  let evac := bitSet arg 8
  let f := if isDepot sel then s.wingFset w else s.pkg.galleryFset
  s.updChan w sel fun c =>
    if evac then (if c.st = 3 then { c with st := 5, progress := 0, fset := f, selfRefresh := false } else c)
    else if c.st = 3 ∨ c.st = 4 ∨ c.st = 6 then { c with st := 4, progress := 0, fset := f, selfRefresh := false }
    else c

/-- TRIGGER_DISPATCH (R193); lot moves start with their handler (R129, R131). -/
def execTriggerDispatch (die : Nat) (s : State) : Res :=
  .next (if !s.dieRuns die then s
    else
      match s.doc.triggers.find? fun t => t.die == die && (s.takerOf t).isSome with
      | none => s
      | some t =>
        match s.takerOf t with
        | none => s
        | some x =>
          let s1 : State := { s with doc := { s.doc with triggers := s.doc.triggers.erase t } }
          let s2 := if t.code = 4 then s1.startMoves (die - 4) else if t.code = 2 then s1.beginOrder (die - 4) t.arg else s1
          s2.startHandler t x)

/-- Waiting triggers of a code on a die (R193). -/
def State.waitingOn (s : State) (die code : Nat) : Nat :=
  (s.doc.triggers.filter fun t => t.die == die && t.code == code).length

/-- Is a trigger equal in code and argument to one that waits on a die (R193)? -/
def State.merges (s : State) (die code arg : Nat) : Bool :=
  s.doc.triggers.any fun t => t.die == die && t.code == code && t.arg == arg

/-- OD 0x4121:01: a verify request on every Wing in service whose blocks it concerns (R192, R193, R207). -/
def State.verifyEntry (s : State) (c : Nat) : Except Nat State :=
  let ws := s.pkg.asm.wings.filter fun w => s.wingUp w && (c == 0xFFFF || (s.wingsOf c).contains w)
  if c ≠ 0xFFFF ∧ !s.live c then .error 4
  else if ws.any fun w => !s.merges (wingDie w) 3 c && decide (16 ≤ s.waitingOn (wingDie w) 3) then .error 0x0B
  else .ok (ws.foldl (fun s w => s.queueTrigger (wingDie w) 3 c none) s)

/-- OD 0x4112:01: a customer trigger for the docent in bits 7:0 (R192, R193). -/
def State.customerEntry (s : State) (v : Nat) : Except Nat State :=
  let d := v % 256
  let arg := v / 256
  if (s.docent? d).isNone then .error 4
  else if !s.dieRuns (docDie d) then .error 0x0E
  else if !s.boundTo d 0x10 then .error 6
  else if !s.merges (docDie d) 0x10 arg && decide (16 ≤ s.waitingOn (docDie d) 0x10) then .error 0x0B
  else .ok (s.queueTrigger (docDie d) 0x10 arg (some d))

/-- Start a docent's role; a restarted walk begins at line 0 (R206). -/
def State.restartRole (s : State) (d : Nat) : State :=
  ({ s with chans := updWhere (fun c => c.wing + 4 == docDie d && walkOf c.sel d) (fun c => { c with walk := 0 }) s.chans } : State).startRole d

/-- OD 0x4111:01: restart the faulted role of a docent (R200, R209). -/
def State.restartEntry (s : State) (d : Nat) : Except Nat State :=
  match s.docent? d with
  | none => .error 0x0E
  | some x =>
    if !s.dieRuns (docDie d) then .error 0x0E
    else if !x.roleFaulted then .error 6
    else .ok (s.restartRole d)

/-- The bindings of the ACTIVE edition take effect after a commit, `old` having been in force (R192, R194): a role whose program
number, image or parameters changed stops, and the new role starts cleared. -/
def State.applyBindings (s : State) (old : Edition) : State :=
  s.doc.docents.foldl (fun s x =>
    let n := s.roleIn s.act x.id
    let m := s.roleIn old x.id
    if n == m && s.act.image n == old.image m && s.act.native n == old.native m && s.act.progParams n == old.progParams m then s
    else
      let s1 := s.updDocent x.id fun y => { y with roleFaulted := false, roleDue := false }
      (if x.a.running && x.a.isRole then s1.endProgram x.id .a else s1).restartRole x.id) s

/-- The programs of a Wing end at once when it is isolated (R189), and its waiting triggers with them. -/
def State.stopDocents (s : State) (die : Nat) : State :=
  let ds := updWhere (fun x : Docent => docDie x.id == die)
    (fun x => { x with p := .idle, a := .idle, stopped := true, roleFaulted := false, roleDue := false }) s.doc.docents
  { s with doc := { s.doc with docents := ds, triggers := s.doc.triggers.filter (·.die != die) } }

/-- Start the roles of a die's docents (R203). -/
def State.startRoles (s : State) (die : Nat) : State :=
  (s.doc.docents.filter fun x => docDie x.id == die).foldl (fun s x =>
    (s.updDocent x.id fun y => { y with stopped := false }).restartRole x.id) s

/-- FILL runs on docents 0 to 5 of every Wing until its request processing is released (R203). -/
def State.startFill (s : State) : State :=
  let n := defaultProgram 0
  let fills (x : Docent) : Bool := decide (4 ≤ docDie x.id) && decide (x.id % 8 < 6) && s.dieRuns (docDie x.id) && !(s.walkChans x.id).isEmpty
  let ds := updWhere fills (fun x => { x with a := CtxState.start n (s.act.image n) [] (some 0) true 0 0 }) s.doc.docents
  { s with doc := { s.doc with docents := ds } }

/-- State of a docent (OD 0x4110:02): 0 absent, 1 idle, 2 role, 3 handler, 4 faulted, 5 stopped by isolation. -/
def State.docentState (s : State) (d : Nat) : Nat :=
  match s.docent? d, s.die? (docDie d) with
  | some x, some y =>
    if !y.present then 0
    else if x.stopped then 5
    else if x.p.running || (x.a.running && !x.a.isRole) then 3
    else if x.a.running then 2
    else if x.roleFaulted then 4
    else 1
  | _, _ => 0

/-- The context whose program OD 0x4110:03 and :04 show: P while it runs. -/
def Docent.shown (x : Docent) : CtxState := if x.p.running then x.p else x.a

end Sys2Proof.Machine
end

