-- ==== Sys2Proof/Machine/Float.lean ====
section
/-! DEFINITION. IEEE 754 arithmetic of the library layouts (R182): binary32 with round-to-nearest-even, the conversions of
bfloat16 and binary16, and the default quiet NaN of each format. Encodings are naturals. -/

namespace Sys2Proof.Machine

/-- A floating-point value: a finite one is `m * 2 ^ e`, with its sign. -/
inductive Fp where
  | nan
  | inf (s : Bool)
  | fin (s : Bool) (m : Nat) (e : Int)
deriving DecidableEq, Repr

/-- A binary format: exponent and fraction bits. -/
structure FpFmt where
  eb : Nat
  mb : Nat
deriving DecidableEq, Repr

def fmt32 : FpFmt := ⟨8, 23⟩
def fmtBf16 : FpFmt := ⟨8, 7⟩
def fmt16 : FpFmt := ⟨5, 10⟩

/-- Exponent bias. -/
def FpFmt.bias (f : FpFmt) : Nat := 2 ^ (f.eb - 1) - 1

/-- The value an encoding stands for. -/
def FpFmt.decode (f : FpFmt) (v : Nat) : Fp :=
  let s := bitSet v (f.eb + f.mb)
  let x := bits v f.mb f.eb
  let m := bits v 0 f.mb
  if x = 2 ^ f.eb - 1 then (if m = 0 then .inf s else .nan)
  else if x = 0 then .fin s m (1 - (f.bias : Int) - (f.mb : Int))
  else .fin s (m + 2 ^ f.mb) ((x : Int) - (f.bias : Int) - (f.mb : Int))

/-- Sign bit in place. -/
def FpFmt.sign (f : FpFmt) (s : Bool) : Nat := if s then 2 ^ (f.eb + f.mb) else 0

/-- Infinity and the default quiet NaN (R182). -/
def FpFmt.infBits (f : FpFmt) (s : Bool) : Nat := f.sign s + (2 ^ f.eb - 1) * 2 ^ f.mb
def FpFmt.nanBits (f : FpFmt) : Nat := (2 ^ f.eb - 1) * 2 ^ f.mb + 2 ^ (f.mb - 1)

/-- Number of bits of a natural. -/
def natBits (n : Nat) : Nat := if n = 0 then 0 else Nat.log2 n + 1

/-- m / 2^k rounded to nearest, ties to even. -/
def rneShift (m k : Nat) : Nat :=
  let q := m / 2 ^ k
  let r := m % 2 ^ k
  if 2 * r < 2 ^ k then q else if 2 ^ k < 2 * r then q + 1 else q + q % 2

/-- Encode a finite value, rounded to nearest even. -/
def FpFmt.round (f : FpFmt) (s : Bool) (m : Nat) (e : Int) : Nat :=
  if m = 0 then f.sign s
  else
    let low : Int := 1 - (f.bias : Int) - (f.mb : Int)
    let want : Int := e + (natBits m : Int) - ((f.mb : Int) + 1)
    let q : Int := max want low
    let r := if q ≤ e then m * 2 ^ (e - q).toNat else rneShift m (q - e).toNat
    let r' := if r = 2 ^ (f.mb + 1) then 2 ^ f.mb else r
    let q' : Int := if r = 2 ^ (f.mb + 1) then q + 1 else q
    if r' < 2 ^ f.mb then f.sign s + r'
    else
      let x := (q' + (f.mb : Int) + (f.bias : Int)).toNat
      if 2 ^ f.eb - 1 ≤ x then f.infBits s else f.sign s + x * 2 ^ f.mb + (r' - 2 ^ f.mb)

/-- Encode a value. -/
def FpFmt.encode (f : FpFmt) : Fp → Nat
  | .nan => f.nanBits
  | .inf s => f.infBits s
  | .fin s m e => f.round s m e

/-- Conversion between formats; a NaN becomes the default one. -/
def fpConv (a b : FpFmt) (v : Nat) : Nat := b.encode (a.decode v)

/-- The exact sum of two finite values as a signed multiple of a power of two. -/
def exactSum (s1 : Bool) (m1 : Nat) (e1 : Int) (s2 : Bool) (m2 : Nat) (e2 : Int) : Int × Int :=
  let e := min e1 e2
  let a : Int := (m1 * 2 ^ (e1 - e).toNat : Nat)
  let b : Int := (m2 * 2 ^ (e2 - e).toNat : Nat)
  ((if s1 then -a else a) + (if s2 then -b else b), e)

def Fp.add : Fp → Fp → Fp
  | .nan, _ => .nan
  | _, .nan => .nan
  | .inf a, .inf b => if a = b then .inf a else .nan
  | .inf a, .fin _ _ _ => .inf a
  | .fin _ _ _, .inf b => .inf b
  | .fin s1 m1 e1, .fin s2 m2 e2 =>
    let r := exactSum s1 m1 e1 s2 m2 e2
    if r.1 = 0 then .fin (s1 && s2) 0 r.2 else .fin (decide (r.1 < 0)) r.1.natAbs r.2

def Fp.neg : Fp → Fp
  | .nan => .nan
  | .inf s => .inf (!s)
  | .fin s m e => .fin (!s) m e

def Fp.isZero : Fp → Bool
  | .nan => false
  | .inf _ => false
  | .fin _ m _ => m == 0

def Fp.mul : Fp → Fp → Fp
  | .nan, _ => .nan
  | _, .nan => .nan
  | .inf a, .inf b => .inf (xor a b)
  | .inf a, .fin s m _ => if m = 0 then .nan else .inf (xor a s)
  | .fin s m _, .inf b => if m = 0 then .nan else .inf (xor s b)
  | .fin s1 m1 e1, .fin s2 m2 e2 => .fin (xor s1 s2) (m1 * m2) (e1 + e2)

/-- A quotient with 64 bits beyond the operands and a sticky bit, so that one rounding to binary32 is right. -/
def Fp.div : Fp → Fp → Fp
  | .nan, _ => .nan
  | _, .nan => .nan
  | .inf _, .inf _ => .nan
  | .inf a, .fin s _ _ => .inf (xor a s)
  | .fin s _ e, .inf b => .fin (xor s b) 0 e
  | .fin s1 m1 e1, .fin s2 m2 e2 =>
    if m2 = 0 then (if m1 = 0 then .nan else .inf (xor s1 s2))
    else
      let k := 64 + natBits m2
      let n := m1 * 2 ^ k
      .fin (xor s1 s2) (2 * (n / m2) + (if n % m2 = 0 then 0 else 1)) (e1 - e2 - (k : Int) - 1)

/-- A square root with a sticky bit. -/
def Fp.sqrt : Fp → Fp
  | .nan => .nan
  | .inf s => if s then .nan else .inf false
  | .fin s m e =>
    if m = 0 then .fin s 0 e
    else if s then .nan
    else
      let odd : Nat := (e % 2).toNat
      let n := m * 2 ^ (odd + 64)
      let r := Nat.sqrt n
      .fin false (2 * r + (if r * r = n then 0 else 1)) ((e - (odd : Int) - 64) / 2 - 1)

/-- binary32 operations on encodings. -/
def f32Add (a b : Nat) : Nat := fmt32.encode ((fmt32.decode a).add (fmt32.decode b))
def f32Sub (a b : Nat) : Nat := fmt32.encode ((fmt32.decode a).add (fmt32.decode b).neg)
def f32Mul (a b : Nat) : Nat := fmt32.encode ((fmt32.decode a).mul (fmt32.decode b))
def f32Div (a b : Nat) : Nat := fmt32.encode ((fmt32.decode a).div (fmt32.decode b))
def f32Sqrt (a : Nat) : Nat := fmt32.encode (fmt32.decode a).sqrt

/-- 1.0. -/
def f32One : Nat := 0x3F800000

/-- x^t by repeated multiplication (R183). -/
def f32Pow (x : Nat) : Nat → Nat
  | 0 => f32One
  | 1 => x
  | t + 2 => f32Mul (f32Pow x (t + 1)) x

/-- An integer as binary32. -/
def f32OfNat (n : Nat) : Nat := fmt32.round false n 0

/-- The format of an element format code (R169); fp32 otherwise. -/
def fpFmt (code : Nat) : FpFmt := if code = 1 then fmtBf16 else if code = 2 then fmt16 else fmt32

/-- Widen an element to binary32, exactly. -/
def widen (code v : Nat) : Nat := fpConv (fpFmt code) fmt32 v

/-- Round a binary32 value to an element format. -/
def narrow (code v : Nat) : Nat := fpConv fmt32 (fpFmt code) v

end Sys2Proof.Machine
end

