-- ==== Sys2Proof/Machine/WorkbenchOps.lean ====
section
/-! DEFINITION. The Workbench (R163-R187): layout images, parameter blocks, operands and their rules, placement, the lines
the library layouts read and write, and what ends a job. A `JobLine` is named by operand and by the data-window offset of
its line; KV-GATHER's source records are operand 1 and its destination operand 2. -/

namespace Sys2Proof.Machine

/-- The image of a layout number in force (R165). -/
def State.layoutImage (s : State) (n : Nat) : Bytes :=
  if 1 ≤ n ∧ n ≤ 0x40 then (s.act.get 0x4002 n 0).getD [] else []

/-- Header fields of a layout image (R165, R166). -/
def layId (h : Bytes) : Nat := fieldAt h 8 4
def layFlags (h : Bytes) : Nat := fieldAt h 5 1
def layCols (h : Bytes) : Nat := fieldAt h 16 1
def layRows (h : Bytes) : Nat := fieldAt h 17 1
def layStreams (h : Bytes) : Nat := fieldAt h 24 2
def layBandwidth (h : Bytes) : Nat := fieldAt h 26 2
def layMin (h : Bytes) : Nat := fieldAt h 28 1
def layMax (h : Bytes) : Nat := fieldAt h 29 1
def layArgs (h : Bytes) : Nat := fieldAt h 30 2
def layRule (h : Bytes) (j b : Nat) : Nat := fieldAt h (32 + 4 * j + b) 1

/-- Is a layout one of Barlon's library (R165, R182)? -/
def layLibrary (h : Bytes) : Bool := bitSet (layFlags h) 0

/-- The library layouts (R182). -/
inductive Lib where
  | adamw | delta | reduce | norm | gather
deriving DecidableEq, Repr

/-- What a library layout declares (R182): id, columns, rows, SRAM per tile, streams, bandwidth in GB/s, operands, home_only. -/
structure LibDecl where
  id : Nat
  cols : Nat
  rows : Nat
  sram : Nat
  streams : Nat
  bandwidth : Nat
  operands : Nat
  homeOnly : Bool
deriving DecidableEq, Repr

/-- The declarations of the library layouts (R182). -/
def Lib.decl : Lib → LibDecl
  | .adamw => ⟨0x101, 4, 4, 192 * 1024, 12, 48, 4, true⟩
  | .delta => ⟨0x102, 4, 2, 224 * 1024, 8, 24, 2, false⟩
  | .reduce => ⟨0x103, 8, 4, 256 * 1024, 24, 32, 2, true⟩
  | .norm => ⟨0x104, 2, 2, 128 * 1024, 4, 8, 2, false⟩
  | .gather => ⟨0x105, 2, 2, 256 * 1024, 6, 32, 1, false⟩

/-- Does an image's header carry a declaration? -/
def LibDecl.fits (d : LibDecl) (h : Bytes) : Bool :=
  layId h == d.id && layCols h == d.cols && layRows h == d.rows && fieldAt h 20 4 == d.sram && layStreams h == d.streams &&
  layBandwidth h == d.bandwidth && layMin h == d.operands && layMax h == d.operands && bitSet (layFlags h) 1 == d.homeOnly

/-- The library layout an image is, if it is one: signed by Barlon, with the layout's id and declarations (R182). -/
def libOf (h : Bytes) : Option Lib :=
  if layLibrary h then [Lib.adamw, .delta, .reduce, .norm, .gather].find? fun l => l.decl.fits h else none

/-- A whole line read at once through the read path (R50, R170): the state, its bytes, and poison. -/
def State.lineNow (s : State) (c off : Nat) : State × Bytes × Bool :=
  let pl := s.place c off
  let w := pl.wing
  let line := 64 * pl.blk + pl.line
  if !s.wingUp w then (s, zeros 64, true)
  else if s.noData c off then (s, zeros 64, false)
  else
    let valid := match s.cached? c w line with | some l => l.valid | none => 0
    let r := s.cacheRead c w line
    let mr := r.1.mergeRead c w line
    let h := Held.of (r.2.map fun x => (x.1, valid, x.2)) mr.2
    if h.poison then (mr.1, zeros 64, true)
    else if h.sure then (mr.1, h.data, false)
    else
      let e := mr.1.entry c w pl.blk
      let f := mr.1.readBlockLine e pl.line
      (f.s.heat e f.lines, mergeMask h.mask f.data h.data, f.poison)

/-- Lines of a range, and whether any carried poison. -/
def State.linesNow (s : State) (c off n : Nat) : State × Bytes × Bool :=
  (List.range n).foldl (fun (acc : State × Bytes × Bool) i =>
    let r := acc.1.lineNow c (off + 64 * i)
    (r.1, acc.2.1 ++ r.2.1, acc.2.2 || r.2.2)) (s, [], false)

/-- The operand descriptors of a parameter block (R169). -/
def paramOperands (b : Bytes) : List Operand :=
  (List.range (fieldAt b 3 1)).map fun k =>
    let d := slice b (128 + 32 * k) 32
    ⟨fieldAt d 0 2, fieldAt d 2 1, fieldAt d 3 1, fieldAt d 8 8, fieldAt d 16 8⟩

/-- Is line 0 a parameter block's (R169)? -/
def paramMagic (b : Bytes) : Bool := fieldAt b 0 2 == 0x4A42 && fieldAt b 2 1 == 1

/-- Bytes of a parameter block (R169): two lines at least. -/
def paramExtent (b : Bytes) : Nat :=
  if paramMagic b then 64 * (2 + ceilDiv (fieldAt b 3 1) 2) + fieldAt b 4 2 else 128

/-- Check 2 of R172: line 0 and the descriptors are well formed and fit the layout. -/
def paramsOk (h b : Bytes) : Bool :=
  paramMagic b && fieldAt b 6 2 == 0 && fieldAt b 12 1 < 2 && allZero (slice b 13 51) &&
  decide (layMin h ≤ fieldAt b 3 1) && decide (fieldAt b 3 1 ≤ layMax h) && fieldAt b 4 2 == layArgs h &&
  (fieldAt b 12 1 == 0 || bitSet (layFlags h) 1) &&
  (List.range (fieldAt b 3 1)).all fun k =>
    let d := slice b (128 + 32 * k) 32
    fieldAt d 2 1 ≤ 2 && decide (1 ≤ fieldAt d 3 1) && decide (fieldAt d 3 1 ≤ 6) && allZero (slice d 4 4) &&
    allZero (slice d 24 8)

/-- Do two operands overlap? -/
def Operand.overlap (x y : Operand) : Bool :=
  x.coll == y.coll && decide (x.offset < y.offset + y.length) && decide (y.offset < x.offset + x.length)

/-- Is a collection named in the partner list of another (OD 0x3010)? -/
def Edition.partner (e : Edition) (lister c : Nat) : Bool :=
  (List.range 0x10).any fun i => e.nat 0x3010 (i + 1) lister 0xFFFF == c

/-- May a job of `c` read a collection in an edition (R171)? -/
def Edition.mayRead (e : Edition) (c o : Nat) : Bool :=
  o == c || (e.exhibit o && (e.grants o).contains c) || e.partner o c

/-- Is operand `k` permitted by itself (R166, R171)? -/
def State.operandOk (s : State) (h : Bytes) (c k : Nat) (o : Operand) : Bool :=
  s.live o.coll && bitSet (layRule h k 0) o.access && bitSet (layRule h k 1) (s.act.kind o.coll - 1) &&
  bitSet (layRule h k 2) o.fmt && decide (o.offset + o.length ≤ s.act.size o.coll) &&
  (if o.access = 0 then s.act.mayRead c o.coll else o.coll == c)

/-- Is the overlap of operands `i` and `j` permitted (R171)? -/
def overlapOk (h : Bytes) (os : List Operand) (i j : Nat) : Bool :=
  match os[i]?, os[j]? with
  | some x, some y =>
    if !x.overlap y then true
    else if x.access ≠ 0 ∧ y.access ≠ 0 then false
    else if x.access = 0 ∧ y.access = 0 then true
    else
      -- i < j: only operand 0 read, operand j written, in a form operand j's rule permits
      i == 0 && x.access == 0 &&
      ((bitSet (layRule h j 3) 0 && x.offset == y.offset && x.length == y.length) ||
       (bitSet (layRule h j 3) 1 && x.offset == y.offset && decide (y.offset + y.length ≤ x.offset + x.length)))
  | _, _ => true

/-- Place of a live sequence's window: its pool, pool number and window (R141, R143). -/
def State.liveWindow (s : State) (c n : Nat) : Option (Pool × Nat × Nat) :=
  match s.pool c (n / 65536 % 8), s.seq? c n with
  | some q, some _ => if n < 2 ^ 19 then some (q, n / 65536, n % 65536) else none
  | _, _ => none

/-- The layout's own admission conditions (R183-R187). -/
def State.libOk (s : State) (l : Lib) (c : Nat) (os : List Operand) (a : Bytes) : Bool :=
  match l, os with
  | .adamw, [p, g, m, v] =>
    let n := fieldAt a 0 8
    decide (1 ≤ n) && decide (n ≤ 2 ^ 36) && fieldAt a 32 4 != 0 &&
    p.access == 2 && (p.fmt == 1 || p.fmt == 6) && g.access == 0 && (g.fmt == 1 || g.fmt == 6) &&
    m.access == 2 && m.fmt == 6 && v.access == 2 && v.fmt == 6 &&
    [p, g, m, v].all fun o => o.length == n * elemSize o.fmt
  | .delta, [x, y] =>
    x.access == 0 && s.act.kind x.coll == 3 && y.access == 1 && x.offset % 4096 == 0 && y.offset % 4096 == 0 &&
    x.length == y.length && x.length % 4096 == 0 && x.length != 0
  | .reduce, [x, y] =>
    let k := fieldAt a 0 2
    let n := fieldAt a 8 8
    let st := fieldAt a 16 8
    x.access == 0 && y.access == 1 && (x.fmt == 1 || x.fmt == 2 || x.fmt == 6) && (y.fmt == 6 || y.fmt == x.fmt) &&
    decide (2 ≤ k) && decide (k ≤ 256) && allZero (slice a 2 6) && decide (1 ≤ n) && st % 64 == 0 &&
    decide (n * elemSize x.fmt ≤ st) && decide ((k - 1) * st + n * elemSize x.fmt ≤ x.length) &&
    y.length == n * elemSize y.fmt &&
    (!x.overlap y || (y.fmt == x.fmt && y.offset == x.offset))
  | .norm, [x, y] =>
    let g := fieldAt a 0 4
    let n := fieldAt a 4 4
    x.access == 0 && x.fmt == 6 && y.access == 1 && y.fmt == 6 && decide (1 ≤ g) && decide (g ≤ 1048576) &&
    decide (2 ≤ n) && decide (n ≤ 1024) && fieldAt a 12 1 < 2 && x.length == 4 * (g * n) && y.length == x.length &&
    (!x.overlap y || x.offset == y.offset)
  | .gather, [x] =>
    let src_ := fieldAt a 0 4
    let dst := fieldAt a 4 4
    let m := fieldAt a 8 4
    x.access == 0 && x.coll == c && src_ != dst &&
    (match s.liveWindow c src_, s.liveWindow c dst with
     | some (q, p, _), some (_, p', _) => p == p' && decide (1 ≤ m) && decide (m ≤ q.cap) && decide (4 * m ≤ x.length)
     | _, _ => false)
  | _, _ => false

/-- Check 3 of R172. -/
def State.operandsOk (s : State) (h : Bytes) (c : Nat) (os : List Operand) (a : Bytes) : Bool :=
  ((List.range os.length).all fun k => match os[k]? with | some o => s.operandOk h c k o | none => true) &&
  ((List.range os.length).all fun j => (List.range j).all fun i => overlapOk h os i j) &&
  (match libOf h with
   | some l => s.libOk l c os a
   | none => true)

/-- Running jobs of a Wing. -/
def State.jobsOn (s : State) (w : Nat) : List Job := s.wb.jobs.filter (·.wing == w)

/-- A running job. -/
def State.job? (s : State) (n : Nat) : Option Job := s.wb.jobs.find? (·.num == n)

/-- Change a job. -/
def State.updJob (s : State) (n : Nat) (f : Job → Job) : State :=
  { s with wb := { s.wb with jobs := updWhere (·.num == n) f s.wb.jobs } }

/-- Free tiles of a Wing. -/
def State.freeTiles (s : State) (w : Nat) : List Nat :=
  (s.wb.tiles.filter fun t => t.wing == w && t.job.isNone).map (·.idx)

/-- The tiles of a w-by-h rectangle whose top-left corner is tile `t`; none where it leaves the grid (R163). -/
def rectangle (cols rows t : Nat) : Option (List Nat) :=
  if t % 8 + cols ≤ 8 ∧ t / 8 + rows ≤ 8 then
    some ((List.range rows).flatMap fun r => (List.range cols).map fun c => t + 8 * r + c)
  else none

/-- The first free rectangle in ascending tile number (R173). -/
def State.findTiles (s : State) (w cols rows : Nat) : Option (List Nat) :=
  let free := s.freeTiles w
  (List.range 64).findSome? fun t =>
    match rectangle cols rows t with
    | some ts => if ts.all free.contains then some ts else none
    | none => none

/-- Free streams of a Wing (R163). -/
def State.freeStreams (s : State) (w : Nat) : Nat := 192 - sumBy (·.streams) (s.jobsOn w)

/-- Free Workbench budget of a Wing in MB/s (R172 check 9, R406). -/
def State.freeBandwidth (s : State) (w : Nat) : Rat :=
  s.wbBudget w - sumRat (fun j => 1000 * (j.bandwidth : Rat)) (s.jobsOn w)

/-- Checks 4 to 9 of R172: the tiles, or the refusal's detail. -/
def State.placeJob (s : State) (h : Bytes) (c w : Nat) : Except Nat (List Nat) :=
  let mine := (s.jobsOn w).filter (·.coll == c)
  let wh := layCols h * layRows h
  if s.act.nat 0x3011 2 c 16 ≤ mine.length ∨ s.act.nat 0x3011 1 c 64 < sumBy (·.tiles.length) mine + wh then .error 6
  else if 16 ≤ (s.jobsOn w).length then .error 1
  else if (s.freeTiles w).length < wh then .error 2
  else
    match s.findTiles w (layCols h) (layRows h) with
    | none => .error 3
    | some ts =>
      if s.freeStreams w < layStreams h then .error 4
      else if s.freeBandwidth w < 1000 * (layBandwidth h : Rat) then .error 5
      else .ok ts

/-- Write bytes of the completion line or of an output through the write path as the job's own write (R164, R178). -/
def State.jobWrite (s : State) (c off : Nat) (data : Bytes) (be : Nat) (poison : Bool) : State :=
  s.serveWrite c off data be poison (.job 0 0 0) 0xFF

/-- A tile cleared (R176): its SRAM zero with valid check bits, its vector registers zero. -/
def Tile.clear (t : Tile) : Tile := { t with sram := [], vec := [] }

/-- The tiles of a job start as its collection's, those of another collection cleared first (R176). -/
def State.startJob (s : State) (n : Nat) : State :=
  match s.job? n with
  | none => s
  | some j =>
    let ts := updWhere (fun t => t.wing == j.wing && j.tiles.contains t.idx)
      (fun t =>
        let u := if t.last == some j.coll then t else t.clear
        { u with last := some j.coll }) s.wb.tiles
    ({ s.wakeChannels with wb := { s.wb with tiles := ts } } : State).updJob n fun j => { j with clearing := false, started := s.tsc }

/-- Does a write of a job still wait to complete (R178)? -/
def State.jobBusy (s : State) (n : Nat) : Bool :=
  s.mem.writes.any fun y => match y.waiter with | .job m _ _ => m == n | _ => false

/-- A job has ended (R174, R177): its final status in line 1, the job-done record, its resources freed. -/
def State.endJob (s : State) (j : Job) (status detail : Nat) (line : Bool) : State :=
  let res := if libOf j.header == some .delta then leBytes 8 j.crcFails ++ zeros 24 else zeros 32
  let img := leBytes 2 status ++ leBytes 2 detail ++ leBytes 4 j.num ++ leBytes 8 j.poisoned ++
    leBytes 8 (if j.clearing then 0 else s.tsc - j.started) ++ leBytes 8 (s.dieTsc (wingDie j.wing)) ++ res
  let up := s.wingUp (s.place j.coll (j.paramOffset + 64)).wing
  let s1 := if line && up && s.live j.coll then s.jobWrite j.coll (j.paramOffset + 64) img fullMask false else s
  let s2 := if j.event && s.live j.coll then
      s1.event .c 0x23 (src (wingDie j.wing) (0xD0 + j.num % 16)) j.coll (pack [(4, j.ticket), (4, j.num), (2, status)])
    else s1
  let reads := s2.mem.reads.filter fun r => match r.waiter with | .job n _ _ => n != j.num | _ => true
  let s3 := s2.updMem fun m => { m with reads := reads }
  { s3 with pw := { s3.pw with busyAt := s3.tsc }, wb := { s3.wb with
      jobs := s3.wb.jobs.filter (·.num != j.num),
      ended := s3.wb.ended.filter (·.num != j.num) ++ [{ j with status := status, lines := [] }],
      tiles := updWhere (fun t => t.job == some j.num && t.wing == j.wing) (fun t => { t with job := none }) s3.wb.tiles } }

/-- A job stops (R178, R179): it ends at once, or, where its completion line is to be written, once every write it made is
complete. -/
def State.stopJob (s : State) (j : Job) (status detail : Nat) (line : Bool) : State :=
  if line && s.jobBusy j.num then s.updJob j.num fun x => { x with ending := some (status, detail) }
  else s.endJob j status detail line

/-- Stopped jobs whose writes are complete end (R178). -/
def State.endStopped (s : State) : State :=
  (s.wb.jobs.filter fun j => j.ending.isSome && !s.jobBusy j.num).foldl (fun s j =>
    match j.ending with
    | some x => s.endJob j x.1 x.2 true
    | none => s) s

/-- Abort a running job (R179). -/
def State.abortJob (s : State) (j : Job) (detail : Nat) (line : Bool) : State := s.stopJob j 0x800A detail line

/-- Clear every tile last used by a collection (R176). -/
def State.clearTiles (s : State) (c : Nat) : State :=
  let none_ (t : Tile) : Tile :=
    let u := t.clear
    { u with last := none }
  let ts := updWhere (fun t : Tile => t.last == some c && t.job.isNone) none_ s.wb.tiles
  { s with wb := { s.wb with tiles := ts } }

/-- A line that a job has read. -/
def Job.line? (j : Job) (o off : Nat) : Option JobLine := j.lines.find? fun l => l.operand == o && l.offset == off

/-- What a stream buffer delivers of a line (R213, R216): its bytes, and whether they are poison. -/
def JobLine.read (l : JobLine) : Bytes × Bool :=
  let r := sramReadLine l.data l.check
  (r.2, l.poison || r.1 == .uncorrectable || r.1 == .poison)

/-- Bytes `[a, a + n)` of an operand's window that a job has read: none while a line is missing; with poison. -/
def Job.bytes? (j : Job) (o a n : Nat) : Option (Bytes × Bool) :=
  let lo := a / 64 * 64
  let ls := (List.range ((a + n - lo + 63) / 64)).map fun i => j.line? o (lo + 64 * i)
  if ls.all Option.isSome then
    let ds := ls.filterMap id
    some (slice (ds.flatMap (·.read.1)) (a - lo) n, ds.any (·.read.2))
  else none

/-- Element `i` of an operand, widened to binary32. -/
def Job.elem? (j : Job) (o i shift : Nat) : Option (Nat × Bool) :=
  match j.operands[o]? with
  | some x =>
    match j.bytes? o (x.offset + shift + i * elemSize x.fmt) (elemSize x.fmt) with
    | some b => some (widen x.fmt (leNat b.1), b.2)
    | none => none
  | none => none

/-- Does a job process the element whose operand-0 bytes start at a window offset (R182 home_only)? -/
def State.jobHas (s : State) (j : Job) (a : Nat) : Bool :=
  !j.homeOnly || (match j.operands[0]? with
    | some x => (s.place x.coll (a / 64 * 64)).wing == j.wing
    | none => true)

/-- Argument fields of a job. -/
def Job.arg (j : Job) (off n : Nat) : Nat := fieldAt j.args off n

/-- ADAMW-UPDATE on one element (R183): the new p, m and v, binary32. -/
def adamw (j : Job) (p grad m v : Nat) : Nat × Nat × Nat :=
  let b1 := j.arg 12 4
  let b2 := j.arg 16 4
  let t := j.arg 32 4
  let g := f32Mul grad (j.arg 28 4)
  let m' := f32Add (f32Mul b1 m) (f32Mul (f32Sub f32One b1) g)
  let v' := f32Add (f32Mul b2 v) (f32Mul (f32Mul (f32Sub f32One b2) g) g)
  let mh := f32Div m' (f32Sub f32One (f32Pow b1 t))
  let vh := f32Div v' (f32Sub f32One (f32Pow b2 t))
  let q := f32Add (f32Div mh (f32Add (f32Sqrt vh) (j.arg 20 4))) (f32Mul (j.arg 24 4) p)
  (f32Sub p (f32Mul (j.arg 8 4) q), m', v')

/-- The value and poison of one output element: none while its inputs have not all been read. -/
def Job.output? (j : Job) (l : Lib) (o i : Nat) : Option (Nat × Bool) :=
  match l with
  | .adamw =>
    match j.elem? 0 i 0, j.elem? 1 i 0, j.elem? 2 i 0, j.elem? 3 i 0 with
    | some p, some g, some m, some v =>
      let r := adamw j p.1 g.1 m.1 v.1
      some (if o = 0 then r.1 else if o = 2 then r.2.1 else r.2.2, p.2 || g.2 || m.2 || v.2)
    | _, _, _, _ => none
  | .reduce =>
    let xs := (List.range (j.arg 0 2)).map fun q => j.elem? 0 i (q * j.arg 16 8)
    if xs.all Option.isSome then
      let vs := xs.filterMap id
      let sum := match vs with
        | [] => 0
        | v :: rest => rest.foldl (fun a x => f32Add a x.1) v.1
      some (f32Mul sum (j.arg 24 4), vs.any (·.2))
    else none
  | .norm =>
    let n := j.arg 4 4
    let g := i / max 1 n
    let xs := (List.range n).map fun k => j.elem? 0 (g * n + k) 0
    if xs.all Option.isSome then
      let vs := xs.filterMap id
      let total (ys : List Nat) : Nat := match ys with | [] => 0 | y :: rest => rest.foldl f32Add y
      let mean := f32Div (total (vs.map (·.1))) (f32OfNat n)
      let std := f32Sqrt (f32Div (total (vs.map fun x => let d := f32Sub x.1 mean; f32Mul d d)) (f32OfNat n))
      let d := f32Sub (vs.getD (i % max 1 n) (0, false)).1 mean
      some (if bitSet (j.arg 12 1) 0 then f32Div d (f32Add std (j.arg 8 4)) else d, vs.any (·.2))
    else none
  | .delta => none
  | .gather => none

/-- One output line: bytes, the mask of bytes written, and poison. -/
structure OutLine where
  data : Bytes
  mask : Nat
  poison : Bool
deriving DecidableEq, Repr

/-- An output line of an element-wise layout: none while an input is missing. -/
def State.elemLine (s : State) (j : Job) (l : Lib) (o off : Nat) : Option OutLine :=
  match j.operands[o]?, j.operands[0]? with
  | some x, some x0 =>
    let size := elemSize x.fmt
    let lo := off
    let es := (List.range (x.length / size)).filter fun i =>
      decide (lo < x.offset + (i + 1) * size) && decide (x.offset + i * size < lo + 64) &&
      s.jobHas j (x0.offset + i * elemSize x0.fmt)
    es.foldl (fun (acc : Option OutLine) i =>
      match acc, j.output? l o i with
      | some a, some r =>
        let bs := leBytes size (narrow x.fmt r.1)
        some ((List.range size).foldl (fun (a : OutLine) k =>
          let at_ := x.offset + i * size + k
          if lo ≤ at_ ∧ at_ < lo + 64 then
            { data := a.data.set (at_ - lo) (bs.getD k 0), mask := putBit a.mask (at_ - lo) true, poison := a.poison || r.2 }
          else { a with poison := a.poison || r.2 }) a)
      | _, _ => none) (some ⟨zeros 64, 0, false⟩)
  | _, _ => none

/-- The source line of DELTA-MATERIALIZE for a destination line (R184). -/
def Job.deltaLine (j : Job) (off : Nat) : Option OutLine :=
  match j.operands[0]?, j.operands[1]? with
  | some x, some y => (j.line? 0 (x.offset + (off - y.offset))).map fun l => ⟨l.read.1, fullMask, l.read.2⟩
  | _, _ => none

/-- Source and destination windows of KV-GATHER (R187): the pool, and both bases. -/
def State.gatherPool (s : State) (j : Job) : Option (Pool × Nat × Nat) :=
  match s.pool j.coll (j.arg 0 4 / 65536 % 8) with
  | some q => some (q, q.base + j.arg 0 4 % 65536 * q.stride, q.base + j.arg 4 4 % 65536 * q.stride)
  | none => none

/-- Index `t` of KV-GATHER: none while not read; with poison. -/
def Job.index? (j : Job) (t : Nat) : Option (Nat × Bool) :=
  match j.operands[0]? with
  | some x => (j.bytes? 0 (x.offset + 4 * t) 4).map fun b => (leNat b.1, b.2)
  | none => none

/-- The first token whose index is read, unpoisoned and at or beyond T_p. -/
def State.gatherFault (s : State) (j : Job) : Option Nat :=
  match s.gatherPool j with
  | some (q, _, _) => (List.range (j.arg 8 4)).find? fun t =>
      match j.index? t with | some x => !x.2 && decide (q.cap ≤ x.1) | none => false
  | none => none

/-- Tokens KV-GATHER writes: up to its fault. -/
def State.gatherCount (s : State) (j : Job) : Nat :=
  match s.gatherFault j with | some t => t | none => j.arg 8 4

/-- A destination line of KV-GATHER (R187): none while an index or a source line is missing. -/
def State.gatherLine (s : State) (j : Job) (off : Nat) : Option OutLine :=
  match s.gatherPool j with
  | none => none
  | some (q, sb, db) =>
    if off < db then none
    else
      let ts := (List.range (s.gatherCount j)).filter fun t =>
        decide (db + t * q.rec_ < off + 64) && decide (off < db + (t + 1) * q.rec_)
      ts.foldl (fun (acc : Option OutLine) t =>
        match acc, j.index? t with
        | some a, some ix =>
          let lo := max off (db + t * q.rec_)
          let hi := min (off + 64) (db + (t + 1) * q.rec_)
          let put (bs : Bytes) (poison : Bool) : OutLine :=
            { data := setSlice a.data (lo - off) bs,
              mask := (List.range (hi - lo)).foldl (fun m k => putBit m (lo - off + k) true) a.mask,
              poison := a.poison || poison }
          if ix.2 then some (put (zeros (hi - lo)) true)
          else
            match j.bytes? 1 (sb + ix.1 * q.rec_ + (lo - (db + t * q.rec_))) (hi - lo) with
            | some b => some (put b.1 b.2)
            | none => none
        | _, _ => none) (some ⟨zeros 64, 0, false⟩)

/-- An output line of a layout that is not the library's: the interior is not described, and what it writes is free, with
poison when any line read was poisoned (R165, R180). -/
def Job.freeLine (j : Job) (o off : Nat) : Option OutLine :=
  match j.operands[o]? with
  | some x =>
    let ins := j.lines.flatMap fun l => leBytes 1 l.operand ++ leBytes 8 l.offset ++ l.read.1
    let mask := (List.range 64).foldl (fun m k => putBit m k (decide (x.offset ≤ off + k) && decide (off + k < x.offset + x.length))) 0
    some ⟨(List.range 64).map fun k => Config.layoutOutput (layId j.header) (j.args ++ ins) (2 ^ 64 * o + off + k), mask,
      j.lines.any (·.read.2)⟩
  | none => none

/-- An output line of a job: none while an input is missing. -/
def State.outLine (s : State) (j : Job) (o off : Nat) : Option OutLine :=
  match libOf j.header with
  | some .delta => j.deltaLine off
  | some .gather => s.gatherLine j off
  | some l => s.elemLine j l o off
  | none => j.freeLine o off

/-- The lines of a range of the data window. -/
def rangeLines (a n : Nat) : List Nat :=
  if n = 0 then [] else (List.range ((a + n - 1) / 64 + 1 - a / 64)).map fun i => (a / 64 + i) * 64

/-- The output lines of a job: operand and data-window offset. -/
def State.outLines (s : State) (j : Job) : List (Nat × Nat) :=
  match libOf j.header with
  | some .gather =>
    match s.gatherPool j with
    | some (q, _, db) => (rangeLines db (s.gatherCount j * q.rec_)).map fun x => (2, x)
    | none => []
  | _ => (List.range j.operands.length).flatMap fun k =>
      match j.operands[k]? with
      | some x => if x.access = 0 then [] else (rangeLines x.offset x.length).map fun y => (k, y)
      | none => []

/-- Has a library job written everything it is to write; may an unlisted layout's job end (its interior decides when)? -/
def State.jobFinished (s : State) (j : Job) : Bool :=
  match libOf j.header with
  | none => true
  | some l =>
    (l != .gather || ((s.gatherFault j).isNone && (List.range (j.arg 8 4)).all fun t => (j.index? t).isSome)) &&
    (s.outLines j).all fun k => j.written.contains k ||
      (match s.outLine j k.1 k.2 with | some o => o.mask == 0 | none => false)

/-- The collection and the lines a job may read of an operand. -/
def State.readable (s : State) (j : Job) (o off : Nat) : Option Nat :=
  if libOf j.header = some .gather ∧ o = 1 then
    match s.gatherPool j with
    | some (q, sb, _) => if sb ≤ off ∧ off < sb + q.cap * q.rec_ then some j.coll else none
    | none => none
  else
    match j.operands[o]? with
    | some x => if x.access ≠ 1 ∧ (rangeLines x.offset x.length).contains off then some x.coll else none
    | none => none

/-- The Wing cache's loan of a line on a borrowing Wing. -/
def State.loan? (s : State) (b c line : Nat) : Option Loan :=
  s.mem.loans.find? fun l => l.borrower == b && l.coll == c && l.line == line

/-- A loan serves a line and becomes the most recently used of its share (R285). -/
def State.useLoan (s : State) (b : Loan) : State :=
  s.updMem fun m => { m with loans := m.loans.erase b ++ [{ b with used := s.tsc }] }

/-- Ask the home Wing of a line for it, once (R285). -/
def State.askLoan (s : State) (w c line : Nat) : State :=
  let m : LoanMsg := { kind := 1, borrower := w, coll := c, line := line, data := [], poison := false }
  if s.mem.loanMsgs.any fun x => x.borrower == w && x.coll == c && x.line == line && (x.kind == 1 || x.kind == 2 || x.kind == 5) then s
  else (s.send (.loan m)).updMem fun x => { x with loanMsgs := x.loanMsgs ++ [m] }

/-- Do a job's reads of a line go through a loan share on its Wing (R52, R164)? -/
def State.borrows (s : State) (j : Job) (c w : Nat) : Bool := s.act.homed c && w != j.wing && s.act.loanShare c != 0

/-- Read a loan under the cache's check bits (R210, R216): an uncorrectable byte poisons it. -/
def State.readLoan (s : State) (b : Loan) : State × Bytes × Bool :=
  let r := s.readSram (wingDie b.borrower) 0xF0 b.coll ⟨b.data, b.check⟩
  let s1 := r.1.updMem fun m => { m with loans := updWhere (· == b) (fun x => { x with data := r.2.2.2.data, check := r.2.2.2.check, poison := x.poison || r.2.2.1 }) m.loans }
  (s1.useLoan { b with data := r.2.2.2.data, check := r.2.2.2.check, poison := b.poison || r.2.2.1 }, r.2.1, b.poison || r.2.2.1)

/-- A line of a source block, as the cache partitions hold it (R164): a loan on the job's Wing, or a whole clean line at its
home. -/
def State.heldLine (s : State) (j : Job) (c w line : Nat) : State × Option (Bytes × Bool) :=
  match (if s.borrows j c w then s.loan? j.wing c line else none) with
  | some b =>
    let r := s.readLoan b
    (r.1, some r.2)
  | none =>
    match s.cached? c w line with
    | some l => if l.valid == fullMask && s.wingUp w then s.cacheRead c w line else (s, none)
    | none => (s, none)

/-- Stream a whole source block of DELTA-MATERIALIZE (R80, R164, R184): its CRC is verified; a failed CRC, now or before, or a
damaged header poisons every line the job takes. A line a partition holds serves it. With a loan share of the collection on
the job's Wing, the lines not held there are asked for as loans as the block passes. -/
def State.streamBlock (s : State) (j : Job) (o c off : Nat) : State :=
  let pl := s.place c off
  let e := s.entry c pl.wing pl.blk
  let up := s.wingUp pl.wing
  let missing := (List.range 64).filter fun l => (s.loan? j.wing c (64 * pl.blk + l)).isNone
  let v := if up then s.verifyRead e else (s, .frozen, none)
  let bad := !up || e.crcFailed || v.2.1 == .crcFailed || v.2.1 == .headerDamaged
  let s1 := v.1.updJob j.num fun j => { j with crcFails := j.crcFails + bit1 (v.2.1 == .crcFailed || (up && e.crcFailed)) }
  let b := match v.2.2 with
    | some x =>
      let s2 := s1.heat e (1 + x.2.length)
      if bad then (s2, zeros 4096, fullMask) else s2.expandBlock e x.1 x.2
    | none =>
      if bad then (s1, zeros 4096, fullMask)
      else
        let r := s1.readBlock e
        (r.1, r.2.1, r.2.2.1)
  let s3 := (List.range 64).foldl (fun s l =>
    let h := if bad then (s, none) else s.heldLine j c pl.wing (64 * pl.blk + l)
    let d := h.2.getD (slice b.2.1 (64 * l) 64, bitSet b.2.2 l)
    h.1.giveLine j.num o (off + 64 * l) (if d.2 then zeros 64 else d.1) d.2) b.1
  if up && s.borrows j c pl.wing then missing.foldl (fun s l => s.askLoan j.wing c (64 * pl.blk + l)) s3 else s3

/-- A job's stream reads one line (R164, R180, R285): from a loan of its Wing, through the read path, or by a fill request,
after whose reply the stream reads the loan (log 18). A line of a block that failed its CRC or is damaged is taken as poison. -/
def State.streamLine (s : State) (j : Job) (o c off : Nat) : State :=
  let pl := s.place c off
  let line := 64 * pl.blk + pl.line
  let e := s.entry c pl.wing pl.blk
  if s.wingUp pl.wing && e.stored && (e.crcFailed || e.segDamage != 0) then s.giveLine j.num o off (zeros 64) true
  else if s.borrows j c pl.wing then
    match s.loan? j.wing c line with
    | some l =>
      let r := s.readLoan l
      r.1.giveLine j.num o off r.2.1 r.2.2
    | none =>
      if !s.wingUp pl.wing then s.giveLine j.num o off (zeros 64) true
      else s.askLoan j.wing c line
  else s.serveRead c off (.job j.num o off)

end Sys2Proof.Machine
end

