-- ==== Sys2Proof/Machine/Isolation.lean ====
section
/-! DEFINITION. A Wing leaves service and returns (R25, R179, R189, R287, R446-R448). -/

namespace Sys2Proof.Machine

/-- Home Wing of a collection's loaned lines: loans are of Homed collections only (R285). -/
def State.loanHome (s : State) (c : Nat) : Nat := s.commandWing c

/-- Requests in an isolated Wing's streams complete, reads with poison (R447 step 3); a DELTA read's anchor is unreadable (R65). -/
def State.failRequests (s : State) (w : Nat) : State :=
  let rs := s.mem.reads.filter (·.wing == w)
  let ws := s.mem.writes.filter (·.wing == w)
  let s1 := s.updMem fun m => { m with reads := m.reads.filter (·.wing != w), writes := m.writes.filter (·.wing != w) }
  let s2 := rs.foldl (fun s r => (s.anchorLost r.entry).answer r.waiter r.coll r.line (zeros 64) true) s1
  ws.foldl (fun s x => s.completeWrite x.waiter) s2

/-- Loans of an isolated Wing's lines are dropped, and the Wing is cleared from every directory entry (R287). -/
def State.dropLoans (s : State) (w : Nat) : State :=
  let home (c : Nat) : Bool := s.loanHome c == w
  let s1 := s.updMem fun m =>
    { m with
      loans := m.loans.filter (fun l => !(l.borrower == w || home l.coll)),
      loanDir := (((m.loanDir.filter (fun d => !home d.coll)).map
        (fun d => { d with borrowers := d.borrowers.filter (· != w) })).filter (fun d => !d.borrowers.isEmpty)),
      loanMsgs := m.loanMsgs.filter (fun x => !(x.borrower == w || home x.coll)) }
  s1.finishWrites

/-- Channels of an isolated Wing (R447 step 5, log 21): their queued writes have issued; in self-refresh when the Wing is reachable; a
re-entry or an evacuation under way ends frozen. -/
def State.restChannels (s : State) (w : Nat) (reachable : Bool) : State :=
  let s := (s.chans.filter fun c => c.wing == w && !c.wq.isEmpty).foldl (fun s c => s.forceChan w c.sel) s
  { s with chans := updWhere (·.wing == w) (fun c =>
      if c.st == 4 || c.st == 5 then { c with st := 3, selfRefresh := true }
      else if c.st == 2 && reachable then { c with st := 8, selfRefresh := true }
      else c) s.chans }

/-- A job's completion line can be written when its home Wing is in service (R179). -/
def State.lineHomeUp (s : State) (j : Job) : Bool := s.wingUp (s.place j.coll (j.paramOffset + 64)).wing

/-- A Wing is isolated (R446, R447). A Wing already isolated stays so; one that is returning is isolated anew (R448). -/
def State.isolateWing (s : State) (w cause : Nat) : State :=
  match s.die? (wingDie w) with
  | none => s
  | some d =>
    if !d.present || d.isoState == 1 || d.isoState == 3 then s
    else
      let near := d.reachable && cause != 4 && cause != 8
      let s1 := s.updDie (wingDie w) fun d => { d with inService := false, isoState := 1, isoCause := cause, reachable := near }
      let s2 := (s1.failRequests w).rebind
      let s3 := (s2.wb.jobs.filter (·.wing == w)).foldl (fun s j => s.abortJob j 4 (s.lineHomeUp j)) s2
      let s4 := (s3.stopDocents (wingDie w)).dropLoans w
      let s5 := s4.updMem fun m => { m with moves := m.moves.filter (·.wing != w), allocs := m.allocs.filter (·.2.wing != w) }
      ((s5.restChannels w near).endFreq w).rederive w

/-- Isolate several Wings. -/
def State.isolateAll (s : State) (ws : List Nat) (cause : Nat) : State := ws.foldl (fun s w => s.isolateWing w cause) s

/-- The die reset of a returning Wing (R176, R431, R448 step 1): tiles, docent contexts and cache partitions are cleared,
and its links come up anew. -/
def State.resetWing (s : State) (w : Nat) : State :=
  let die := wingDie w
  let s1 := (s.stopDocents die).updMem fun m =>
    { m with cache := m.cache.filter (·.wing != w), wmb := m.wmb.filter (·.wing != w),
             loans := m.loans.filter (·.borrower != w) }
  let ts := updWhere (fun t : Tile => t.wing == w) (fun t => { t.clear with last := none, job := none }) s1.wb.tiles
  let s2 : State := { s1 with wb := { s1.wb with tiles := ts, jobs := s1.wb.jobs.filter (·.wing != w) } }
  let fresh (p : CPort) : CPort := { p with helloTries := 0, loopback := 0, inLoopback := false }
  (s2.pkg.asm.cports die).foldl (fun s i =>
    let s3 := ((s.setLink die i 1).updCport die i fresh).sendHello die i
    match s.pkg.asm.peer die i with
    | some q => (s3.updCport q.1 q.2 fresh).sendHello q.1 q.2
    | none => s3) s2

/-- OD 0x8002:01-:04 = 2 (R448). -/
def State.returnEntry (s : State) (w : Nat) : Except Nat State :=
  match s.die? (wingDie w) with
  | none => .error 6
  | some d =>
    if !d.present || d.isoState != 1 || (d.isoCause == 4 && s.pkg.bridgeDown) then .error 6
    else .ok ((s.updDie (wingDie w) fun d => { d with isoState := 2 }).resetWing w)

/-- OD 0x8002:01-:04 = 1 (R446-R448): a Wing already isolated stays as it is; an absent one is STATE (log 21). -/
def State.isolateEntry (s : State) (w : Nat) : Except Nat State :=
  match s.die? (wingDie w) with
  | none => .error 6
  | some d => if !d.present then .error 6 else .ok (s.isolateWing w 1)

/-- A returning Wing whose links are up enters service (R448 steps 3 and 4): every channel but a retired or absent one
re-enters. -/
def State.finishReturn (s : State) (w : Nat) : State :=
  let die := wingDie w
  match s.die? die with
  | none => s
  | some d =>
    if d.isoState != 2 || !((s.cor.filter (·.die == die)).all fun p => p.st == 2) then s
    else
      let s1 := s.updDie die fun d => { d with inService := true, isoState := 0, isoCause := 0, reachable := true }
      let go (c : Chan) : Bool := c.wing == w && c.st != 0 && c.st != 6
      let sels := (s1.chans.filter go).map (·.sel)
      let s2 : State := { s1 with chans := updWhere go (fun c => { c with st := 4, selfRefresh := false }) s1.chans }
      let s3 := (s2.rebind).startRoles die
      (sels.foldl (fun s sel => s.queueTrigger die 2 sel none) s3).rederive w

/-- A returning Wing whose link does not come up stays isolated (R448). -/
def State.failReturn (s : State) (w : Nat) : State :=
  s.updDie (wingDie w) fun d => if d.isoState = 2 then { d with isoState := 1 } else d

end Sys2Proof.Machine
end

