-- ==== Sys2Proof/Machine/Sequences.lean ====
section
/-! DEFINITION. Sequence windows and the blocks of a range (R141-R150, R59), and the fork instant (R153-R157), which a frozen
channel or an isolated Wing holds up (R156). -/

namespace Sys2Proof.Machine

/-- A sequence number's pool and window, when its rsvd bits are 0, its pool is defined and the window below W_p (R143). -/
def State.seqPlace (s : State) (c n : Nat) : Option (Pool × Nat × Nat) :=
  match s.pool c (n / 65536 % 8) with
  | some q => if n < 2 ^ 19 ∧ n % 65536 < q.count then some (q, n / 65536, n % 65536) else none
  | none => none

/-- Base of a window in the data window. -/
def Pool.window (q : Pool) (w : Nat) : Nat := q.base + w * q.stride

/-- Is a window of a pool taken: it holds a live sequence, or a fork under way reserves it (R152)? -/
def State.taken (s : State) (c p w : Nat) : Bool :=
  (s.mem.seqs.any fun q => q.coll == c && q.num == p * 65536 + w) ||
  s.mem.forks.any fun f => f.coll == c && f.first / 65536 == p && decide (f.first % 65536 ≤ w) &&
    decide (w < f.first % 65536 + f.count)

/-- Windows of a collection that are live or reserved. -/
def State.seqCount (s : State) (c : Nat) : Nat :=
  (s.mem.seqs.filter (·.coll == c)).length + sumBy (·.count) (s.mem.forks.filter (·.coll == c))

/-- The same over the device. -/
def State.seqCountAll (s : State) : Nat := s.mem.seqs.length + sumBy (·.count) s.mem.forks

/-- Look for the lowest run of `n` free windows: `run` free ones end before `w`. -/
def findRunAux (free : Nat → Bool) (n : Nat) : Nat → Nat → Nat → Option Nat
  | 0, _, _ => none
  | fuel + 1, w, run =>
    if free w then (if run + 1 = n then some (w + 1 - n) else findRunAux free n fuel (w + 1) (run + 1))
    else findRunAux free n fuel (w + 1) 0

/-- Take `n` consecutive free windows (R144, R147, R152): the first window, or the LIMIT detail. Where several limits are exceeded
the spec gives no order: the depth comes first (`State.startFork`), then the collection, the device and the run (DESIGN CHOICE, log 50). -/
def State.takeWindows (s : State) (c p : Nat) (q : Pool) (n : Nat) : Except Nat Nat :=
  if 65536 < s.seqCount c + n then .error 1
  else if 262144 < s.seqCountAll + n then .error 2
  else
    match findRunAux (fun w => !s.taken c p w) n q.count 0 0 with
    | some w => .ok w
    | none => .error 3

/-- Drop one block: its lines, its merge entries, its hold on its run (R148, R150, R59); 1 when slots were freed. -/
def State.dropBlock (s : State) (c w blk : Nat) : State × Nat :=
  let e := s.entry c w blk
  let freed := bit1 (e.stored && !s.shared e)
  ((s.forgetBlock c w blk).zeroBlock c w blk, freed)

/-- The blocks of a collection that have an entry, a cached line or a merge entry, and meet a test on their offsets. -/
def State.blocksIn (s : State) (c lo hi : Nat) : List (Nat × Nat) :=
  let g := s.act.grain c
  let ws := s.wingsOf c
  let all := ((s.mem.cat.filter (·.coll == c)).map fun e => (e.wing, e.blk)) ++
    ((s.mem.cache.filter (·.coll == c)).map fun l => (l.wing, l.line / 64)) ++
    ((s.mem.wmb.filter (·.coll == c)).map fun l => (l.wing, l.line / 64))
  all.eraseDups.filter fun k => (List.range 64).any fun l =>
    let o := offsetOf g ws k.1 k.2 l
    decide (lo ≤ o) && decide (o < hi)

/-- Drop every block that holds a byte of a range: the state and the blocks whose slots were freed. A block index of RELEASE names
4 KiB of the data window; with a grain below 4 KiB such a range lies in parts of Wing-local blocks, and each of these goes whole
(DESIGN CHOICE, log 51). -/
def State.dropRange (s : State) (c lo hi : Nat) : State × Nat :=
  let r := (s.blocksIn c lo hi).foldl (fun (acc : State × Nat) k =>
    let t := acc.1.dropBlock c k.1 k.2
    (t.1, acc.2 + t.2)) (s, 0)
  (r.1.settle c, r.2)

/-- Write zeros over `[a, b)` of the data window through the write path (R150). -/
def State.writeZeros (s : State) (c a b : Nat) : State :=
  (List.range ((b - a / 64 * 64 + 63) / 64)).foldl (fun s i =>
    let x := (a / 64 + i) * 64
    let be := ((List.range 64).filter fun k => decide (a ≤ x + k) && decide (x + k < b)).foldl (fun m k => m + 2 ^ k) 0
    s.serveWrite c x (zeros 64) be false (.job 0 0 0) 0xFF) s

/-- A PENDING command under way at a place, with its opcode. -/
def State.underWay (s : State) (c : Nat) (src : CmdSrc) (op : Nat) : Option Cmd :=
  match s.cmd? c src with
  | some x => if s.accepting && x.status == stPending && x.forwarded && x.op == op then some x else none
  | none => none

/-- Block `b` of a window, as the catalogue names it, and its Wing. -/
def State.windowBlock (s : State) (c : Nat) (q : Pool) (w b : Nat) : Nat × Nat :=
  let pl := s.place c (q.window w + 4096 * b)
  (pl.wing, pl.blk)

/-- Block f with the bytes from `tail` on set to zero (R153, R154): bytes and poison mask. -/
def tailed (blk : Bytes) (pm tail : Nat) : Bytes × Nat :=
  (slice blk 0 tail ++ zeros (4096 - tail),
   (List.range 64).foldl (fun m l => putBit m l (bitSet pm l && decide (64 * l < tail))) 0)

/-- The child's own copy of the boundary block (R153, R154); `none` when it finds no room. -/
def State.copyBoundary (s : State) (c w blk : Nat) (b : Bytes) (pm : Nat) : Option State :=
  if pm = 0 ∧ allZero b then some s
  else
    let f := if s.act.kind c = 2 then actForm (s.act.fmt c) b (pm != 0) else some (rawForm b)
    match f with
    | none => some s
    | some f =>
      if s.overfull c || s.overflows c 0 f.slots then none
      else
        let s1 := s.storeBlock c w blk f pm .copy
        if (s1.entry c w blk).stored then some s1 else none

/-- Copies of the boundary block for windows `w`, `w + 1`, ... -/
def State.copyAll (s : State) (c : Nat) (q : Pool) (f : Nat) (b : Bytes) (pm : Nat) : List Nat → Option State
  | [] => some s
  | w :: ws =>
    let k := s.windowBlock c q w f
    match s.copyBoundary c k.1 k.2 b pm with
    | some s1 => State.copyAll s1 c q f b pm ws
    | none => none

/-- Undo a fork under way: no copy and no child is left (R154). -/
def State.undoFork (s : State) (f : ForkJob) : State :=
  match s.seqPlace f.coll f.first with
  | none => s
  | some (q, _, w) =>
    let r := s.blocksIn f.coll (q.window w) (q.window (w + f.count))
    let s1 := r.foldl (fun s k => (s.dropBlock f.coll k.1 k.2).1) s
    s1.updMem fun m => { m with forks := m.forks.filter (· != f) }

/-- The fork instant on one Wing (R153-R156). The children's copies are placed on the Wing that homes block f; while a channel that
holds the parent's blocks is frozen there, or the Wing is out of service, the instant is held up (R156). -/
def State.forkOn (s : State) (x : Cmd) (f : ForkJob) (w : Nat) : State :=
  let c := f.coll
  match s.seqPlace c f.parent, s.seqPlace c f.first with
  | some (q, _, pw), some (_, _, cw) =>
    let cut := f.token * q.rec_
    let nf := cut / 4096
    let here := (List.range (nf + bit1 (cut % 4096 != 0))).filter fun b => (s.windowBlock c q pw b).1 == w
    let keys := here.map fun b => (b, (s.windowBlock c q pw b).2)
    let ready := s.wingUp w && keys.all fun k => !s.stuck (s.entry c w k.2)
    let hold (g : ForkJob) : ForkJob := if g == f then { f with waits := w :: f.waits.filter (· != w) } else g
    if !ready then s.updMem fun m => { m with forks := m.forks.map hold }
    else
      let s1 := keys.foldl (fun s k => s.writeBackBlock c w k.2) s
      let kids := (List.range f.count).map (cw + ·)
      let own := cut % 4096 != 0 && here.contains nf
      let fk := (s1.windowBlock c q pw nf).2
      let ef := s1.entry c w fk
      let s2 : Option State :=
        if !own then some s1
        else if ef.tier == .lost then
          some (kids.foldl (fun s k => s.putEntry (.asLost c w (s.windowBlock c q k nf).2)) s1)
        else
          let r := s1.readBlock ef
          let b := tailed r.2.1 r.2.2.1 (cut % 4096)
          r.1.copyAll c q nf b.1 b.2 kids
      match s2 with
      | none => (s.undoFork f).endCmd x stQuota 0 0
      | some s2 =>
        let s3 := (keys.filter (·.1 < nf)).foldl (fun s k =>
          let e := s.entry c w k.2
          kids.foldl (fun s kid =>
            let kb := (s.windowBlock c q kid k.1).2
            if e.tier == .lost then s.putEntry (.asLost c w kb)
            else if e.stored then s.putEntry { e with blk := kb }
            else s) s) s2
        let left := f.wingsLeft.filter (· != w)
        if left.isEmpty then
          let d := match s.seq? c f.parent with | some par => par.depth + 1 | none => 1
          let new := kids.map fun k => (⟨c, f.first / 65536 * 65536 + k, d, some f.parent, f.token⟩ : Seq)
          ((s3.updMem fun m => { m with forks := m.forks.filter (· != f), seqs := m.seqs ++ new }).settle c).endCmd x
            stDone 0 f.first
        else
          let on (g : ForkJob) : ForkJob := if g == f then { f with wingsLeft := left, waits := f.waits.filter (· != w) } else g
          s3.updMem fun m => { m with forks := m.forks.map on }
  | _, _ => s

/-- The forks that a Wing holds up go on when one of its channels serves again, its blocks are evacuated, or it is in service again
(R156). -/
def State.resumeForks (s : State) (w : Nat) : State :=
  (s.mem.forks.filter fun f => f.waits.contains w).foldl (fun s f =>
    match s.underWay f.coll f.src 1 with
    | some x => s.forkOn x f w
    | none => s) s

end Sys2Proof.Machine
end

