-- ==== Sys2Proof/Machine/ChannelOps.lean ====
section
/-! DEFINITION. Gallery and Depot channels (R248-R268): freezing, the freeze record, re-entry, evacuation, refresh and
bands, orders, and the split-write window (R238, R239, R449). -/

namespace Sys2Proof.Machine

/-- Wing and selector of a channel object number (R243). -/
def objWing (o : Nat) : Nat := o / 256
def objSel (o : Nat) : Nat := o % 256

/-- An entry of the command log in a freeze record (R265): TSC, command code, chip select and chip ID, bank group and bank, row,
column. The widths within its 16 bytes are the model's (log 45). -/
def State.logEntry (s : State) (sel : Nat) (x : ChanCmd) : Bytes :=
  let a := s.dramAddr (isDepot sel) (x.addr / 64)
  pack [(4, x.tsc), (1, x.kind), (1, a.rank + 16 * a.chip), (2, a.bank + 256 * a.group), (4, a.row), (4, a.column)]

/-- A queued request in a freeze record (R265): collection, class, read or write, line index, age (log 45). -/
def State.queueEntry (s : State) (coll cls at_ addr : Nat) (read : Bool) : Bytes :=
  pack [(2, coll), (1, cls), (1, bit1 (!read)), (8, addr / 64), (4, min (s.tsc - at_) 0xFFFFFFFF)]

/-- The requests a channel holds when it freezes, in order of arrival (R265). -/
def State.queueEntries (s : State) (w sel : Nat) : List Bytes :=
  let reads := (s.mem.reads.filter fun r => r.wing == w && r.sel == sel).map fun r => (r.id, s.queueEntry r.coll r.cls r.at_ (s.readAddr r) true)
  let writes := (s.writeQueue w sel).map fun q => (q.id, s.queueEntry q.coll q.cls q.at_ q.addr false)
  (sortBy (fun a b : Nat × Bytes => decide (a.1 ≤ b.1)) (reads ++ writes)).map (·.2)

/-- The freeze record of R265. The alert's pins and the PHY words are free values; bytes not named otherwise are 0. -/
def State.freezeRecord (s : State) (c : Chan) (trigger retries : Nat) : Bytes :=
  let n := c.band * 3 + c.fset
  let words (base k : Nat) : Bytes := (List.range k).flatMap fun i => leBytes 8 (c.readReg (base + 8 * i))
  let free (off k : Nat) : Bytes := (List.range k).map fun i => Config.freeByte (s.fresh + off + i)
  let q := (s.queueEntries c.wing c.sel).take 64
  let failed := if trigger = 4 then zeros 16 else match c.log.getLast? with | some x => s.logEntry c.sel x | none => zeros 16
  leBytes 2 0x5A46 ++ ([1, byteOf trigger, byteOf c.sel, byteOf c.wing] : Bytes) ++ leBytes 2 retries ++
  leBytes 8 (s.dieTsc (wingDie c.wing)) ++ ([byteOf c.band, byteOf c.fset] : Bytes) ++ intBytes 1 c.temp ++ ([0] : Bytes) ++
  leBytes 2 (match s.die? (wingDie c.wing) with | some d => d.vdd | none => 0) ++ leBytes 2 q.length ++ zeros 8 ++
  failed ++ (if trigger = 4 then zeros 16 else free 0x30 16) ++ padTo 1024 (c.log.flatMap (s.logEntry c.sel)) ++ padTo 1024 q.flatten ++
  words (0x100 + 0x80 * n) 16 ++ words (0x700 + 0x40 * c.fset) 8 ++ free 0x900 0x700

/-- The started moves of a Wing that a freezing channel meets (R130): a block still to move lies on it, or the run a block is being
copied to does. -/
def State.movesOn (s : State) (w sel : Nat) : List Move :=
  s.mem.moves.filter fun m => m.wing == w && m.started &&
    (((s.lotEntries m.coll w m.lot).any fun e => s.moving e && e.runs.any fun r => s.runSel r == sel) ||
     s.doc.docents.any fun x => docDie x.id == wingDie w && x.a.running && x.a.native == some 5 && decide (1 ≤ x.a.pc) && decide (x.a.pc ≤ 3) &&
       x.a.num 5 != 0 && x.a.num 2 == m.coll && s.homeLot (s.entry m.coll w (x.a.num 3)) == m.lot && s.runSel (x.a.moveRun w) == sel)

/-- The lines of a freezing channel (R264): a write-back still queued stays dirty in the partition and is held, with every dirty line
of a block on the channel; its queued writes issue no more. -/
def State.holdLines (s : State) (w sel : Nat) : State :=
  let on (e : CatEntry) : Bool := e.runs.any fun r => r.wing == w && s.runSel r == sel
  let back (l : CacheLine) : Bool := l.wing == w && l.queued && (s.writeQueue w sel).any fun q => q.coll == l.coll && q.blk == some (l.line / 64)
  let held (l : CacheLine) : CacheLine :=
    if back l then { l with queued := false, dirty := true, held := true }
    else if l.wing == w && l.dirty && on (s.entry l.coll w (l.line / 64)) then { l with held := true }
    else l
  (s.updMem fun m => { m with cache := m.cache.map held }).updChan w sel fun c => { c with wq := [], drain := false }

/-- Does the partner of a channel hold the reserve they share: in service, or filling while this one does (R234, R248)? -/
def State.partnerHolds (s : State) (c : Chan) : Bool :=
  s.reserveHeld c.wing c.sel ||
  (c.st == 1 && match s.chan? c.wing (c.sel ^^^ 1) with | some p => p.st == 1 | none => false)

/-- A channel freezes (R234, R263-R266): its waiting reads complete with poison, dirty lines of its blocks are held, moves of its
blocks are abandoned, and the freeze policy acts. A channel that is absent, frozen or retired, or whose Wing is out of service once
the fill is over, does not freeze. -/
def State.freeze (s : State) (w sel trigger retries : Nat) : State :=
  match s.chan? w sel with
  | none => s
  | some c =>
    if c.st = 0 ∨ c.st = 3 ∨ c.st = 6 ∨ (!s.wingUp w ∧ c.st ≠ 1) then s
    else
      let hit := s.mem.reads.filter fun r => r.wing == w && r.sel == sel
      let record := s.freezeRecord c trigger retries
      let gone := s.movesOn w sel
      let s1 := (({ s with fresh := s.fresh + 0x1000 } : State).holdLines w sel).updChan w sel fun c =>
        { c.noteRank (s.dieTsc (wingDie w)) 0 3 with
                 st := 3, trigger := trigger, freezes := (c.freezes + 1) % 65536, progress := 0, selfRefresh := true,
                 record := some record, postponed := [], poweredDown := [], pendingBand := none, rows := [],
                 flip := { c.flip with ctl := putBit c.flip.ctl 0 false } }
      let s2 := (s1.bump 0x2804 4 (chanObj w sel) 1).event .d 0x44 (chanSrc w sel) 0xFFFF
        (pack [(1, w), (1, sel), (1, trigger)])
      let s3 := s2.updMem fun m => { m with reads := m.reads.filter (fun r => !hit.contains r) }
      let s4 := hit.foldl (fun s r => s.answer r.waiter r.coll r.line (zeros 64) true) s3
      let s5 := gone.foldl (fun s m => s.coalesceC 0x22 (curatorSrc w) m.coll (pack [(1, w), (4, m.lot), (1, sel)]))
        (s4.updMem fun m => { m with moves := m.moves.filter fun x => !gone.contains x })
      let again := c.st == 4 || (match c.lastFlip with | some t => decide (s.tsc ≤ t + 600000 * ms) | none => false)
      let s6 := if c.st = 4 then s5.event .d 0x45 (chanSrc w sel) 0xFFFF (pack [(1, w), (1, sel)]) else s5
      let s7 := s6.queueTrigger (wingDie w) 1 sel none
      let policy := s.act.nat 0x2810 1 0 1
      let s8 := if again || policy = 0 then s7
        else s7.queueTrigger (wingDie w) 2 (if policy = 2 then sel + 256 else sel) none
      let s9 := s8.rederive w
      if s.partnerHolds c then s9 else s9.isolateWing w 3

/-- The flip of a re-entry (R267 steps 3 and 4): what its pass has still to do is done first. -/
def State.flipChannel (s : State) (w sel : Nat) : State :=
  let from_ := match s.chan? w sel with | some c => c.progress | none => 0
  let s1 := (s.reentryPass w sel from_ (s.chanLines (isDepot sel))).updChan w sel fun c =>
    { c with st := 2, epoch := (c.epoch + 1) % 65536, trigger := 0, record := none, progress := 0,
             lastFlip := some s.tsc, selfRefresh := false }
  (s1.releaseHeld w).rederive w

/-- Evacuation ends (R268): every run that finds room has moved, and the channel retires or holds what is left. -/
def State.endEvacuation (s : State) (w sel : Nat) : State :=
  let s1 := (s.runsOnChan w sel).foldl (fun s r => s.evacuateOne w sel r) s
  let left := (s1.blocksOnChan w sel).length
  if left = 0 then
    (s1.updChan w sel fun c => { c with st := 6, trigger := 0, record := none, progress := 0 }).rederive w
  else
    (s1.updChan w sel fun c => { c with st := 3, progress := 0, selfRefresh := true }).event .d 0x46 (chanSrc w sel) 0xFFFF
      (pack [(1, w), (1, sel), (4, left)])

/-- OD 0x2803:04 (R263, R266, R268, R270): an order that does not fit the channel's state returns STATE. -/
def State.orderEntry (s : State) (w sel v : Nat) : Except Nat State :=
  match s.chan? w sel with
  | none => .error 6
  | some c =>
    if v = 1 then (if c.st = 0 ∨ c.st = 3 ∨ c.st = 6 then .error 6 else .ok (s.freeze w sel 4 0))
    else if v = 2 then (if c.st = 3 ∨ c.st = 6 then .ok (s.queueTrigger (wingDie w) 2 sel none) else .error 6)
    else if c.st = 3 then .ok (s.queueTrigger (wingDie w) 2 (sel + 256) none) else .error 6

/-- Lower boundary of a band in degrees (R257). -/
def bandFloor (b : Nat) : Int := if b = 0 then -1000 else if b = 1 then 45 else if b = 2 then 65 else 85

/-- The band a temperature gives a channel (R257): up at a boundary, down at 3 degrees below it. -/
def newBand (old : Nat) (t : Int) : Nat :=
  let up := if 85 ≤ t then 3 else if 65 ≤ t then 2 else if 45 ≤ t then 1 else 0
  if old ≤ up then up
  else
    (List.range (old + 1)).foldl (fun b i => if bandFloor i - 3 < t ∧ up ≤ i then max b i else b) up

/-- Does a channel issue refreshes: not in self-refresh, frozen, retired or absent (R254)? -/
def Chan.refreshes (c : Chan) : Bool := c.st == 1 || c.st == 2 || c.st == 4 || c.st == 5 || c.st == 7

/-- A refresh of a channel issues: a pending band change takes effect, with every rank refreshed together (R257). -/
def Chan.refreshed (c : Chan) (rank : Nat) : Chan :=
  match c.pendingBand with
  | some b => { c with band := b, pendingBand := none, postponed := [] }
  | none => { c with postponed := c.postponed.filter (·.1 != rank) }

/-- Refreshes postponed at a rank. -/
def Chan.owed (c : Chan) (rank : Nat) : Nat := ((c.postponed.find? (·.1 == rank)).map (·.2)).getD 0

/-- OD 0x8010:01 (R243): write back a collection's dirty lines on every Wing and drop its clean lines. -/
def State.writeBackEntry (s : State) (c : Nat) : Except Nat State :=
  if !s.live c then .error 4
  else .ok ((s.wingsOf c).foldl (fun s w =>
    if s.wingUp w then (s.writeBackAll c w).dropLines fun l => l.coll == c && l.wing == w && !l.dirty && !l.queued else s) s)

/-- Does the Host port hold the key, its lease not run out (R338, R339)? -/
def State.hostKey (s : State) : Bool := s.ed.holder == .host && decide (s.tsc < s.ed.lease)

/-- Is the diagnostic window of a Wing there: a diagnostic edition in force, the Wing present and not isolated (R238, R449, R450)? -/
def State.diagOpen (s : State) (w : Nat) : Bool :=
  s.act.nat 0x7003 2 0 0 == 1 &&
  match s.die? (wingDie w) with | some d => d.present && d.reachable && d.isoState != 1 | none => false

/-- Is it open to writes, which take the key (R449)? -/
def State.splitOpen (s : State) (w : Nat) : Bool := s.hostKey && s.diagOpen w

/-- Lines of the Wing SRAM the window reaches (R17, R238). -/
def sramLines : Nat := 786432

/-- Change a Wing's split-write window. -/
def State.updSplit (s : State) (w : Nat) (f : Split → Split) : State :=
  { s with split := updWhere (·.wing == w) f s.split }

/-- Where a split-write command goes (R239): a channel line, a line of SRAM, or a result with no access. -/
inductive SplitDest where
  | chan (sel addr : Nat)
  | sram (addr : Nat)
  | refused (result : Nat)
deriving DecidableEq, Repr

/-- The destination of a window's address and selector. -/
def State.splitDest (s : State) (x : Split) : SplitDest :=
  if x.sel = 0x40 then
    (if s.pkg.bootMode = 2 ∧ x.addr / 64 < sramLines then .sram x.addr else .refused 5)
  else
    match s.chan? x.wing x.sel with
    | none => .refused 5
    | some c =>
      if c.st = 0 ∨ s.chanLines (isDepot x.sel) ≤ x.addr / 64 then .refused 5
      else if c.st = 3 then .refused 4
      else .chan x.sel x.addr

/-- The 3-bit result of what a decoder found (R238). -/
def Found.code : Found → Nat
  | .clean => 0
  | .corrected => 1
  | .uncorrectable => 2
  | .poison => 3

/-- A line of the window's SRAM: data and check fields; zeros with their check fields where nothing was stored. -/
def Split.line (x : Split) (a : Nat) : Bytes × Bytes :=
  match x.sram.find? (·.1 == a) with
  | some l => (l.2.1, l.2.2)
  | none => (zeros 64, (sramStore false (zeros 64)).map byteOf)

/-- Store a line of the window's SRAM. -/
def Split.put (x : Split) (a : Nat) (d k : Bytes) : Split :=
  { x with sram := (x.sram.filter (·.1 != a)) ++ [(a, d, k.map fun b => b &&& 0x1F)] }

/-- Run a split-write command on an open window. -/
def State.runSplit (s : State) (w : Nat) (f : Split → State → State) : State :=
  if !s.splitOpen w then s
  else match s.split.find? (·.wing == w) with
    | some x => f x s
    | none => s

/-- Set a window's result. -/
def State.splitResult (s : State) (w r : Nat) : State := s.updSplit w fun x => { x with result := r }

end Sys2Proof.Machine
end

