-- ==== Sys2Proof/Machine/KeyOps.lean ====
section
/-! DEFINITION. The key and its breaks (R338-R340), the end of the STAGED edition, and the failure of a commit (R289, R345,
R392). -/

namespace Sys2Proof.Machine

/-- Change the editions' state. -/
def State.updEd (s : State) (f : EdState → EdState) : State := { s with ed := f s.ed }

/-- The code and session of a holder (R340, R358). -/
def Holder.code : Holder → Nat
  | .free => 0
  | .host => 1
  | .session _ => 2

def Holder.sessionId : Holder → Nat
  | .free => 0
  | .host => 0
  | .session i => i

/-- No edition is staged. -/
def EdState.unstaged (e : EdState) : EdState :=
  { e with staged := none, stagedState := 0, reason := 0, failIdx := 0, failSub := 0, failObj := 0 }

/-- The key breaks (R340): 1 release, 2 lease, 3 port event, 4 session end, 5 debug unlock. -/
def State.breakKey (s : State) (cause : Nat) : State :=
  if s.ed.holder == .free then s
  else
    let h := s.ed.holder
    let s1 := ((s.updEd fun e => { e with holder := .free, lease := 0 }).bump 0x1020 4 0 1).event .d 0x60 s.primarySrc 0xFFFF
      (pack [(1, h.code), (4, h.sessionId), (1, cause)])
    match s.ed.staged with
    | some x =>
      if s.ed.stagedState = 5 then s1
      else (s1.updEd EdState.unstaged).event .d 0x61 s.primarySrc 0xFFFF (leBytes 4 x.num)
    | none => s1

/-- The key breaks when the Host port holds it and port `p` is the control-capable port (R317, R340). -/
def State.portBreaksKey (s : State) (p : Nat) : State :=
  if s.ed.holder == .host && p == s.act.controlPort then s.breakKey 3 else s

/-- A commit fails before its instant (R289, R345): no die changes, and STAGED returns to valid. -/
def State.failCommit (s : State) (failure die : Nat) : State :=
  match s.ed.staged with
  | some x =>
    if s.ed.stagedState = 5 then
      (s.updEd fun e => { e with stagedState := 3, phase := 0, decision := 0, decisionDie := 0, lastCommit := 2,
                                 failure := failure, newKeys := [] }).event .d 0x64 s.primarySrc 0xFFFF
        (pack [(4, x.num), (2, failure), (1, die)])
    else s
  | none => s

/-- A commit not yet at its instant fails with the emergency sequence (R392), which gives no failure code and no die: free
values (log 1). -/
def State.abandonCommit (s : State) : State :=
  if s.ed.stagedState = 5 then
    let d := s.draw
    d.2.failCommit (Config.freeNat d.1 % 65536) (Config.freeNat (d.1 + 1) % 256)
  else s

end Sys2Proof.Machine
end

