-- ==== Sys2Proof/Machine/PortOps.lean ====
section
/-! DEFINITION. Extents and the Dynamic Capacity event log (R42-R45, R89, R296, R297), and what the resets of a function and
the loss of its link do (R315-R318). -/

namespace Sys2Proof.Machine

/-- Does an edition offer a collection's data extent or view extent at a port (R43, R89)? -/
def Edition.offers (e : Edition) (c p : Nat) (view : Bool) : Bool :=
  e.has c && bitSet (e.ports c) p && (!view || e.viewOn c)

/-- Region, offset and length of an extent (R42, R43, R90). -/
def Edition.extentAt (e : Edition) (c : Nat) (view : Bool) : Nat × Nat × Nat :=
  if view then (e.viewRegion c, e.viewOffset c, viewH (e.size c) + e.size c) else (e.region c, e.offset c, e.size c + 65536)

/-- Is an extent withdrawn and awaiting release (R45)? -/
def Extent.leaving (x : Extent) : Bool := x.st == .releaseWaiting || x.st == .releasing

/-- Is it the same collection's extent of the same kind at the same port? -/
def Extent.same (x : Extent) (p c : Nat) (view : Bool) : Bool := x.port == p && x.coll == c && x.view == view

/-- Change one extent by its number. -/
def State.updExtent (s : State) (h : Nat) (f : Extent → Extent) : State :=
  s.updMem fun m => { m with extents := updWhere (·.handle == h) f m.extents }

/-- An extent is removed (R45): its waiting events go with it. -/
def State.removeExtent (s : State) (h : Nat) : State :=
  s.updMem fun m => { m with extents := m.extents.filter (·.handle != h), dcWait := m.dcWait.filter (·.ext != h) }

/-- May a waiting event enter the log (R297)? -/
def State.dcReady (s : State) (v : DcEvent) : Bool :=
  !(s.mem.dcLog.any (·.ext == v.ext)) &&
  !(v.add && s.mem.extents.any fun x => x.same v.port v.coll v.view && x.handle != v.ext && x.leaving && !x.dead)

/-- Vector of the Dynamic Capacity event: the message number of the event interrupt policy (R303). -/
def Fn.dcVector (f : Fn) : Nat := bits (f.policy.getD 4 0) 4 4

/-- Does the event interrupt policy of the Dynamic Capacity log ask for an interrupt (R296, R303; PRESUMED: mode 1 of CXL)? -/
def Fn.dcSignals (f : Fn) : Bool := bits (f.policy.getD 4 0) 0 2 == 1

/-- An event enters the Dynamic Capacity event log (R45, R296, R303, R320). -/
def State.enterDc (s : State) (v : DcEvent) : State :=
  let p := v.port
  let empty := !(s.mem.dcLog.any (·.port == p))
  let s1 := s.updMem fun m => { m with dcLog := m.dcLog ++ [v], dcWait := m.dcWait.filter fun y => y != v }
  let s2 := s1.updExtent v.ext fun x =>
    if v.add then { x with st := .offered } else { x with st := .releasing, deadline := s.tsc + x.deadline * ms }
  let r := match s.mem.extents.find? (·.handle == v.ext) with | some x => x.region | none => 0
  let s3 := s2.event (.cp p) (if v.add then 0x1B else 0x1C) (portSrc p) v.coll (pack [(1, p), (1, r)])
  let s4 := s3.pme p
  match s.fn? p with
  | some f => if empty && f.dcSignals then s4.signal p 17 f.dcVector else s4
  | none => s4

/-- The waiting events of a port enter its log in arrival order as their conditions hold (R297). -/
def State.tryPortAux (p : Nat) : Nat → State → State
  | 0, s => s
  | n + 1, s =>
    match s.mem.dcWait.find? fun v => v.port == p && s.dcReady v with
    | some v => State.tryPortAux p n (s.enterDc v)
    | none => s

def State.tryPort (s : State) (p : Nat) : State := State.tryPortAux p s.mem.dcWait.length s

/-- The handle of a port's next event record: one above the highest of those it holds (log 22). -/
def State.nextHandle (s : State) (p : Nat) : Nat :=
  1 + ((s.mem.dcLog ++ s.mem.dcWait).filter (·.port == p)).foldl (fun m v => max m v.handle) 0

/-- Queue an event of an extent, which enters at once when it need not wait (R297). -/
def State.dcEvent (s : State) (x : Extent) (add : Bool) : State :=
  (s.updMem fun m => { m with dcWait := m.dcWait ++ [⟨x.port, x.coll, x.view, add, x.handle, s.nextHandle x.port⟩] }).tryPort x.port

/-- Offer an extent at a port (R42, R45). -/
def State.offer (s : State) (c p : Nat) (view : Bool) : State :=
  let a := s.act.extentAt c view
  let d := s.draw
  let x : Extent := ⟨p, c, view, a.1, a.2.1, a.2.2, .offerWaiting, 0, d.1, false, false⟩
  (d.2.updMem fun m => { m with extents := m.extents ++ [x] }).dcEvent x true

/-- Withdraw an extent (R45, R297); `limit` is its release timeout in ms. -/
def State.withdraw (s : State) (x : Extent) (limit : Nat) : State :=
  match x.st with
  | .offerWaiting => (s.removeExtent x.handle).tryPort x.port
  | .offered =>
    if s.mem.dcLog.any (·.ext == x.handle) then
      ((s.updMem fun m => { m with dcLog := m.dcLog.filter (·.ext != x.handle) }).removeExtent x.handle).tryPort x.port
    else (s.updExtent x.handle fun y => { y with st := .releaseWaiting, deadline := limit, shut := true }).dcEvent x false
  | .accepted => (s.updExtent x.handle fun y => { y with st := .releaseWaiting, deadline := limit }).dcEvent x false
  | .releaseWaiting => s
  | .releasing => s

/-- The extents of a port meet a link loss (R317, R318): accepted ones revert to offered, nothing stays mapped. -/
def State.shutExtents (s : State) (p : Nat) : State :=
  let down (x : Extent) : Extent :=
    if x.st == .accepted then { x with st := .offerWaiting } else { x with shut := x.shut || x.leaving }
  s.updMem fun m => { m with extents := updWhere (·.port == p) down m.extents }

/-- The link of a port is up again: each extent that reverted is offered anew (R318). -/
def State.reoffer (s : State) (p : Nat) : State :=
  let xs := s.mem.extents.filter fun x => x.port == p && x.st == .offerWaiting && !(s.mem.dcWait.any (·.ext == x.handle))
  xs.foldl (fun s x => s.dcEvent x true) s

/-- The function's registers at reset values (R316, R317); `sticky` keeps PME_En, PME_Status and
the AER status. -/
def Fn.cleared (f : Fn) (sticky : Bool) : Fn :=
  { Fn.reset f.port with
    link := f.link, rate := f.rate, width := f.width, flit256 := f.flit256, cxl := f.cxl, perst := f.perst,
    ready := f.ready, pmeEn := sticky && f.pmeEn, pmeStatus := sticky && f.pmeStatus, decoders := f.decoders,
    turnOff := f.turnOff, aerUnc := if sticky then f.aerUnc else 0, aerCor := if sticky then f.aerCor else 0 }

/-- Reset a function: its Mover engines' streams end, a load-window parse that began runs on (R316). -/
def State.resetFn (s : State) (p : Nat) (sticky : Bool) : State :=
  (s.updFn p fun f => f.cleared sticky).updMem fun m =>
    { m with ingest := m.ingest.filter fun x => match x.carrier with
        | .engine lobby e => s.act.enginePort (s.pkg.asm.lobbies.length == 1) lobby e != p
        | .loadWindow _ => true }

/-- Uncommit the HDM decoders of a port (R317). -/
def State.dropDecoders (s : State) (p : Nat) : State :=
  s.updFn p fun f => { f with decoders := (List.range 8).map .reset }

/-- A request of a port. -/
def requestPort : Instr → Option Nat
  | .cxlMemRead p _ => some p
  | .cxlMemWrite p _ _ _ _ => some p
  | .compressedViewRead p _ => some p
  | _ => none

/-- The link of a port goes down (R317, R318): to `st`, 1 to retrain and 0 held down. -/
def State.linkDown (s : State) (p st : Nat) (sticky : Bool) : State :=
  let s1 := (((s.portBreaksKey p).resetFn p sticky).dropDecoders p).shutExtents p
  (s1.updFn p fun f => { f with link := st, ready := false }).updEd fun e =>
    { e with heldReqs := e.heldReqs.filter fun i => requestPort i != some p }

/-- Does the package's service of a port stand: its Lobby in service and no bridge loss (R281, R291)? -/
def State.portInService (s : State) (p : Nat) : Bool :=
  !(8 ≤ p && s.pkg.bridgeDown) && !(p < 8 && s.pkg.primary == 1) && !s.pkg.epdDone

/-- Take every link port of a list down and hold it there. -/
def State.portsDown (s : State) (ps : List Nat) : State :=
  ps.foldl (fun s p => match s.fn? p with
    | some f => if f.link = 0 then s else s.linkDown p 0 true
    | none => s) s

end Sys2Proof.Machine
end

