-- ==== Sys2Proof/Machine/Emergency.lean ====
section
/-! DEFINITION. Suspension of the guarantee (R365, R379, R395), the emergency sequence (R392-R394), and the ends of a Corridor
link (R280-R283, R291). -/

namespace Sys2Proof.Machine

/-- Change the Steward's and the clocks' state. -/
def State.updPw (s : State) (f : PwState → PwState) : State := { s with pw := f s.pw }

/-- Change package-wide facts. -/
def State.updPkg (s : State) (f : Pkg → Pkg) : State := { s with pkg := f s.pkg }

/-- A cause suspends the guarantee: 1 pace, 2 thermal, 3 Steward restart, 4 REFCLK, 5 emergency (R395). -/
def State.suspend (s : State) (cause wing : Nat) : State :=
  if bitSet s.pw.causes (cause - 1) then s
  else (s.updPw fun p => { p with causes := putBit p.causes (cause - 1) true }).watermark .d 0x81 s.stewardSrc 0xFFFF false
    (pack [(1, cause), (1, wing)])

/-- A cause ends; the record clears only when every cause has ended (R395). -/
def State.resume (s : State) (cause wing : Nat) : State :=
  if !bitSet s.pw.causes (cause - 1) then s
  else
    let s1 := s.updPw fun p => { p with causes := putBit p.causes (cause - 1) false }
    if s1.pw.causes = 0 then s1.watermark .d 0x81 s.stewardSrc 0xFFFF true (pack [(1, cause), (1, wing)]) else s1

/-- Every running job stops with no completion line (R392 step 1). -/
def State.stopTiles (s : State) : State :=
  let owner (t : Tile) : Option Nat := (s.wb.jobs.find? fun j => some j.num == t.job).map (·.coll)
  { s with wb := { s.wb with
      jobs := [],
      tiles := s.wb.tiles.map fun t => if t.job.isSome then { t with job := none, last := owner t } else t } }

/-- Step 1 of the emergency sequence (R392); a sequence begun stays begun (R391). Moves, flushes and copies stop (R393), and
bring-up with them (R426);
`die` is the die whose control raises the record (R472). -/
def State.emergency (s : State) (cause die : Nat) : State :=
  if s.pw.emergency || !s.running then s
  else
    let s1 := (s.event .d 0x87 (src die 0) 0xFFFF (leBytes 1 cause)).abandonCommit.stopTiles
    let s2 := s1.updPw fun p => { p with emergency := true, emergencyCause := cause, flushing := false }
    (s2.updPkg fun p => { p with phase := if p.phase < 4 then 6 else p.phase }).updMem fun m => { m with moves := [] }

/-- The waiting reads and writes of the Wings complete (R392 step 2). -/
def State.drainReads (s : State) : State := s.mem.reads.foldl (fun s r => s.completeRead r) s

/-- Every dirty line of a collection's durable copy goes to the Depot (R392 step 3). -/
def State.flushDurable (s : State) : State :=
  let cs := s.act.colls.filter s.act.durable
  let s1 := cs.foldl (fun s c => (s.wingsOf c).foldl (fun s w =>
    if s.wingUp w then s.writeBackAll c w else s) s) s
  (s1.mem.writes.map (·.id)).foldl (fun s id => s.depotWritten id) s1

/-- Blocks of durable collections with a line held for a frozen channel (R393). -/
def State.heldDurable (s : State) : Nat :=
  (((s.mem.cache.filter fun l => l.held && l.dirty && s.act.durable l.coll).map fun l => (l.coll, l.wing, l.line / 64)).eraseDups).length

/-- Every Depot rank enters self-refresh (R321, R392 step 4). -/
def State.sleepDepot (s : State) : State :=
  let rest (c : Chan) : Chan :=
    { c with st := if c.st == 2 then 8 else if c.st == 4 || c.st == 5 then 3 else c.st, selfRefresh := true }
  { s with chans := updWhere (fun c => isDepot c.sel && c.st != 0) rest s.chans }

/-- Each Wing writes its retention seal (R423): a random value in its always-on domain and in the reserve of each of its
present Depot channels, once its request processing has been released or in a retained start. -/
def State.writeSeals (s : State) : State :=
  if (s.pkg.phase != 4 && s.pkg.start != 3) || !s.pkg.aon then s
  else (s.dies.filter fun d => 4 ≤ d.code && d.present && d.reachable).foldl (fun s d =>
    let x := s.draw
    let v := (Config.freeNonce x.1).toNat % 2 ^ 64
    let t := x.2.updDie d.code fun d => { d with sealWord := some v }
    { t with chans := updWhere (fun c => c.wing + 4 == d.code && isDepot c.sel && c.st != 0) (fun c => { c with sealWord := some v }) t.chans }) s

/-- A frequency change in progress finishes (R261, R392 step 3). -/
def State.finishFreq (s : State) : State :=
  s.updPw (fun p => { p with freqChange := [] }) |> fun t =>
    { t with chans := s.chans.map fun c =>
        match s.pw.freqChange.head? with
        | some x => if x.1 = c.wing && isDepot c.sel && c.st != 0 && c.st != 3 && c.st != 6 then { c with fset := x.2 } else c
        | none => c }

/-- The Depot write queues drain (R392 step 3). -/
def State.drainQueues (s : State) : State :=
  (s.chans.filter fun c => isDepot c.sel && s.serves c.wing c.sel).foldl (fun s c => s.forceChan c.wing c.sel) s

/-- The end of the emergency sequence (R392 steps 2 to 5, R393, R394). -/
def State.endEmergency (s : State) : State :=
  let s1 := s.drainReads.finishFreq.flushDurable.drainQueues
  let n := s1.heldDurable
  let s2 := if n = 0 then s1 else s1.event .d 0x47 s.primarySrc 0xFFFF (leBytes 4 n)
  let s3 := ((s2.sleepDepot.writeSeals).portsDown (s2.fn.map (·.port))).suspend 5 0xFF
  s3.updPkg fun p => { p with epdDone := true }

/-- A Corridor link goes down (R281): both ends stop, its streams are unbound, and the Wings that depend on it are isolated.
The loss of the bridge takes links 8-15 down until the next cold reset. -/
def State.dropLink (s : State) (die i : Nat) : State :=
  match s.cport? die i with
  | none => s
  | some p =>
    if p.st = 4 then s
    else
      let s1 := (s.setLink die i 4).event .d 0x51 (cportSrc die i) 0xFFFF (pack [(1, die), (1, i)])
      let s2 := (s1.isolateAll (s.pkg.asm.lostBy die i) 4).rebind
      if isBridge die i then
        ((s2.updPkg fun p => { p with bridgeDown := true }).portsDown ((List.range 8).map (8 + ·)))
      else s2

/-- Lobby 1 is lost to a running Lobby 0 (R291): as a bridge loss. -/
def State.loseBridge (s : State) : State := s.dropLink 0 2

/-- Both ends of a link are up after a retrain: each acknowledges, and each sender replays from its oldest flit (R280). -/
def State.resumeLink (s : State) (die i : Nat) : State :=
  let ends := (die, i) :: (s.pkg.asm.peer die i).toList
  let s1 := (s.setLink die i 2).rebind
  ends.foldl (fun s e =>
    (((s.sendLink e.1 e.2 false).replayFrom e.1 e.2 0).updCport e.1 e.2 fun p =>
      { p with retrainFails := 0, lostAt := none, stalled := 0 }).flushPort e.1 e.2) s1

end Sys2Proof.Machine
end

