-- ==== Sys2Proof/Machine/Corridor.lean ====
section
/-! DEFINITION. The commands of the Corridor (R271-R287, R290, R291) and of time (R351-R353): flits and timers, retraining,
bring-up, loans, heartbeats and time-sync; and the tick of the master TSC. -/

namespace Sys2Proof.Machine

/-- A flit discarded whole (R274): a failed crc is counted (R292). -/
def State.badFlit (s : State) (die i : Nat) (f : Bytes) : State :=
  if f.length = 128 ∧ fieldAt f 124 4 = crc32c (slice f 0 124) then s else s.bump 0x2201 1 (cportObj die i) 1

/-- A delivered flit goes on: a die in the middle of its stream's route forwards it (R21, R273), and a Wing of a GW-1404 forwards
time-sync toward the far Wing with its own delay added (R290). -/
def State.forward (s : State) (die i : Nat) (f : Bytes) : State :=
  match s.forwardTo die i (flitStream f) with
  | some t => s.sendPart die t.1 t.2 (flitFirst f) (slice f 4 120)
  | none =>
    if flitStream f = 1 ∧ s.pkg.asm = .gw1404 ∧ 4 ≤ die ∧ i = 0 then
      s.sendData die 2 1 (leBytes 8 (fieldAt f 4 8 + Config.forwardDelay die))
    else s

/-- A sound DATA flit at a port that is up (R277, R278). -/
def State.receiveData (s : State) (die i : Nat) (p : CPort) (f : Bytes) : State :=
  let o := cportObj die i
  let d := (flitSeq f + 4096 - p.expect) % 4096
  if d = 0 then
    let s1 := s.updCport die i fun p =>
      { p with expect := (p.expect + 1) % 4096, delivered := p.delivered ++ [(flitStream f, Sram.store false (slice f 4 120))],
               sinceAck := p.sinceAck + 1, ackFrom := some (p.ackFrom.getD s.tsc), nakUntil := none, dupRun := false }
    let s2 := if 16 ≤ p.sinceAck + 1 then s1.sendLink die i false else s1
    s2.forward die i f
  else if d < 1024 then
    let quiet := match p.nakUntil with | some t => decide (s.tsc < t) | none => false
    let s1 := s.updCport die i fun p => { p with dupRun := false }
    if quiet then s1
    else ((s1.sendLink die i true).bump 0x2201 2 o 1).updCport die i fun p => { p with nakUntil := some (s.tsc + 1500) }
  else if 3072 ≤ d then
    let s1 := s.bump 0x2201 5 o 1
    if p.dupRun then s1 else (s1.sendLink die i false).updCport die i fun p => { p with dupRun := true }
  else (s.bump 0x2201 7 o 1).retrain die i

/-- DATA_FLIT (R274, R277, R278). -/
def execDataFlit (die cport : Nat) (flit : Bytes) (s : State) : Res :=
  .next (match s.cport? die cport with
    | none => s
    | some p =>
      if p.st != 2 then s
      else if !flitSound flit then s.badFlit die cport flit
      else if flitType flit = 0 then s.receiveData die cport p flit
      else s)

/-- The acknowledgement of a LINK flit (R278): the flits it covers leave the replay buffer; a stale one is ignored. -/
def CPort.acked (p : CPort) (a now : Nat) : CPort :=
  let n := (a + 4096 - p.oldest) % 4096
  if n < p.unacked then
    { p with oldest := (a + 1) % 4096, replay := p.replay.drop (n + 1), stalled := 0, timerFrom := now }
  else p

/-- Credits a LINK flit returns (R275). -/
def CPort.credited (p : CPort) (f : Bytes) : CPort :=
  { p with credits := p.credits.mapIdx fun k c => c + fieldAt f (12 + k) 1 }

/-- LINK_FLIT (R275, R276, R278, R279): the acknowledgement first, then a replay from nak_seq when it is not stale. -/
def execLinkFlit (die cport : Nat) (flit : Bytes) (s : State) : Res :=
  .next (match s.cport? die cport with
    | none => s
    | some p =>
      if p.st != 2 then s
      else if !flitSound flit then s.badFlit die cport flit
      else if flitType flit ≠ 1 then s
      else
        let flags := fieldAt flit 4 1
        let p1 := (if bitSet flags 0 then p.acked (bits (fieldAt flit 5 2) 0 12) s.tsc else p).credited flit
        let s1 := s.updCport die cport fun _ => p1
        let k := (bits (fieldAt flit 7 2) 0 12 + 4096 - p1.oldest) % 4096
        let s2 := if bitSet flags 1 && decide (k < p1.unacked) then
            ((s1.bump 0x2201 3 (cportObj die cport) 1).replayFrom die cport k).checkStall die cport
          else s1
        s2.flushPort die cport)

/-- FLIT_CRC_FAILURE (R274, R279): discarded whole and counted; the next flit draws the nak. -/
def execFlitCrcFailure (die cport : Nat) (flit : Bytes) (s : State) : Res :=
  .next (match s.cport? die cport with
    | none => s
    | some p => if p.st != 2 then s else s.badFlit die cport flit)

/-- ACK_TIMER (R278): 200 ns after the first unacknowledged in-order flit. -/
def execAckTimer (die cport : Nat) (s : State) : Res :=
  .next (match s.cport? die cport with
    | none => s
    | some p =>
      match p.ackFrom with
      | some t => if p.st = 2 ∧ t + 200 ≤ s.tsc then s.sendLink die cport false else s
      | none => s)

/-- NAK_HOLDOFF_EXPIRY (R277). -/
def execNakHoldoffExpiry (die cport : Nat) (s : State) : Res :=
  .next (match s.cport? die cport with
    | none => s
    | some p =>
      match p.nakUntil with
      | some t => if t ≤ s.tsc then s.updCport die cport fun p => { p with nakUntil := none } else s
      | none => s)

/-- REPLAY_TIMER (R278, R280). -/
def execReplayTimer (die cport : Nat) (s : State) : Res :=
  .next (match s.cport? die cport with
    | none => s
    | some p =>
      if p.st = 2 ∧ !p.replay.isEmpty ∧ p.timerFrom + 1500 ≤ s.tsc then
        ((s.bump 0x2201 4 (cportObj die cport) 1).replayFrom die cport 0).checkStall die cport
      else s)

/-- Corridor domain of a die (R385). -/
def corridorDomain (die : Nat) : Nat := if die < 4 then 7 else 8

/-- Is either end of a link held in retraining by a PLL out of lock (R282)? -/
def State.pllHolds (s : State) (die i : Nat) : Bool :=
  let ends := die :: ((s.pkg.asm.peer die i).map (·.1)).toList
  s.pw.pllLost.any fun l => ends.contains l.die && l.domain == corridorDomain l.die

/-- RETRAIN_DONE (R280): a success resumes the link; the third failure in a row puts it down. -/
def execRetrainDone (die cport : Nat) (ok : Bool) (s : State) : Res :=
  .next (match s.cport? die cport with
    | none => s
    | some p =>
      if p.st != 3 || s.pllHolds die cport then s
      else if ok then s.resumeLink die cport
      else if 3 ≤ p.retrainFails + 1 then s.dropLink die cport
      else s.updCport die cport fun p => { p with retrainFails := p.retrainFails + 1 })

/-- RECEIVER_LOCK_LOSS (R280): the port retrains; the time from the first loss of lock counts. -/
def execReceiverLockLoss (die cport : Nat) (s : State) : Res :=
  .next (match s.cport? die cport with
    | none => s
    | some p =>
      let lost (s : State) : State := s.updCport die cport fun p => { p with lostAt := some (p.lostAt.getD s.tsc) }
      if p.st = 2 then lost (s.retrain die cport) else if p.st = 3 then lost s else s)

/-- LOCK_LOSS_TIMEOUT (R280, R281): lock lost for 50 us. -/
def execLockLossTimeout (die cport : Nat) (s : State) : Res :=
  .next (match s.cport? die cport with
    | none => s
    | some p =>
      match p.lostAt with
      | some t => if p.st = 3 ∧ t + 50000 ≤ s.tsc then s.dropLink die cport else s
      | none => s)

/-- A Wing that is one end of a link. -/
def State.wingEnds (s : State) (die i : Nat) : List Nat :=
  (die :: ((s.pkg.asm.peer die i).map (·.1)).toList).filterMap dieWing

/-- A link comes up (R240, R272, R273, R283): both ends take the lower version, the features both advertise, fresh sequence
spaces and a wrapping key agreed afresh; the receive buffers' sizes, hence the first credits, and the key are free values (log 1). -/
def State.bringUp (s : State) (die i : Nat) (h : HelloMsg) : State :=
  let ends := (die, i) :: (s.pkg.asm.peer die i).toList
  let s0 := s
  let s1 := ends.foldl (fun (s : State) e =>
    let c := (List.range 32).map fun k => Config.freeNat (s.fresh + k)
    (({ s with fresh := s.fresh + 32 } : State)).updCport e.1 e.2 fun _ =>
      { CPort.reset e.1 e.2 with
        st := 2, version := min (s.ownVersion die) h.version, features := s.ownFeatures die &&& h.features % 8, credits := c,
        wrap := some (Config.freeWrap s0.fresh) }) { s with fresh := s.fresh + 1 }
  (s.wingEnds die i).foldl State.finishReturn s1.rebind

/-- HELLO (R283): bring-up of a link succeeds, or fails and is retried twice before the link is down. -/
def execHello (die cport : Nat) (peer : HelloMsg) (s : State) : Res :=
  .next (match s.cport? die cport with
    | none => s
    | some p =>
      if p.st != 1 then s
      else if s.helloOk die cport peer then s.bringUp die cport peer
      else if 3 ≤ p.helloTries + 1 then
        (s.wingEnds die cport).foldl State.failReturn (s.dropLink die cport)
      else (s.updCport die cport fun p => { p with helloTries := p.helloTries + 1 }).sendHello die cport)

/-- Is every link of a Wing pair's route up (R21, R287)? -/
def State.routeUp (s : State) (u v : Nat) : Bool :=
  let r := wingRoute (min u v) (max u v)
  (r.zip r.tail).all fun e => s.cor.any fun p => p.die == e.1 && p.st == 2 &&
    (match s.pkg.asm.peer p.die p.idx with | some q => q.1 == e.2 | none => false)

/-- Does a loan message travel from the borrower to the home Wing? A request held at its home Wing for a full directory is on no
stream. -/
def LoanMsg.toHome (m : LoanMsg) : Bool := m.kind == 1 || m.kind == 4

/-- Is a loan message the first of its stream and direction (R273, R286)? -/
def State.firstLoan (s : State) (m : LoanMsg) : Bool :=
  m.kind == 5 ||
  (s.mem.loanMsgs.find? fun x => x.kind != 5 && x.borrower == m.borrower && s.loanHome x.coll == s.loanHome m.coll &&
    x.toHome == m.toHome) == some m

/-- The loan message of a kind for a line that its stream delivers next, when the links it travels on move. -/
def State.loanMsg? (s : State) (kind b c line : Nat) : Option LoanMsg :=
  if s.routeUp b (s.loanHome c) then
    s.mem.loanMsgs.find? fun m => m.kind == kind && m.borrower == b && m.coll == c && m.line == line && s.firstLoan m
  else none

/-- Take one loan message off its stream. -/
def State.takeLoan (s : State) (m : LoanMsg) : State := s.updMem fun x => { x with loanMsgs := x.loanMsgs.erase m }

/-- Entries of a home Wing's loan directory. -/
def State.dirOf (s : State) (w : Nat) : List LoanDir := s.mem.loanDir.filter fun d => s.loanHome d.coll == w

/-- Size of a loan directory (R286). -/
def loanDirSize : Nat := 262144

/-- The request for a line that reaches its home Wing: off the stream, or held for a full directory. -/
def State.loanAsk? (s : State) (b c line : Nat) : Option LoanMsg :=
  match s.loanMsg? 1 b c line with
  | some m => some m
  | none => s.loanMsg? 5 b c line

/-- LOAN_FILL_REQUEST (R285, R286): with the directory full, the least recently lent line is recalled first and the request
is held; otherwise the borrower is recorded and the line is served through the read path. -/
def execLoanFillRequest (borrower coll line : Nat) (s : State) : Res :=
  .next (match s.loanAsk? borrower coll line with
    | none => s
    | some m =>
      let w := s.loanHome coll
      let have_ := s.mem.loanDir.any fun d => d.coll == coll && d.line == line
      let dir := s.dirOf w
      let s0 := s.takeLoan m
      if !have_ && decide (loanDirSize ≤ dir.length) then
        let s1 := s0.updMem fun x => { x with loanMsgs := x.loanMsgs ++ [{ m with kind := 5 }] }
        match sortBy (fun a b : LoanDir => decide (a.lent ≤ b.lent)) dir with
        | d :: _ => s1.recall d.coll (· == d.line)
        | [] => s1
      else
        let ds := upsert (fun d => d.coll == coll && d.line == line)
          (fun d => { d with borrowers := if d.borrowers.contains borrower then d.borrowers else d.borrowers ++ [borrower],
                             lent := s.tsc }) ⟨coll, line, [], 0⟩ s.mem.loanDir
        (s0.updMem fun x => { x with loanDir := ds }).serveRead coll (s.offset coll w (line / 64) (line % 64))
          (.loan borrower))

/-- LOAN_FILL_REPLY (R285): the line takes a place in the borrower's loan share, replacing its least recently used loan. -/
def execLoanFillReply (borrower coll line : Nat) (s : State) : Res :=
  .next (match s.loanMsg? 2 borrower coll line with
    | none => s
    | some m =>
      let mine (l : Loan) : Bool := l.borrower == borrower && l.coll == coll
      let rest := s.mem.loans.filter fun l => !(mine l && l.line == line)
      let share := 16 * s.act.loanShare coll
      let old := sortBy (fun a b : Loan => decide (a.used ≤ b.used)) (rest.filter mine)
      let gone := old.take (old.length + 1 - share)
      let kept := rest.filter fun l => !gone.contains l
      let b := Sram.store m.poison m.data
      let loan : Loan := { borrower := borrower, coll := coll, line := line, data := b.data, check := b.check, poison := m.poison, used := s.tsc }
      (s.takeLoan m).updMem fun x =>
        { x with loans := if share = 0 then kept else kept ++ [loan] })

/-- LOAN_RECALL (R286): the borrower drops the line and acknowledges; a fill reply sent before it on the stream is taken first. -/
def execLoanRecall (borrower coll line : Nat) (s : State) : Res :=
  .next (match s.loanMsg? 3 borrower coll line with
    | none => s
    | some m =>
      let ack : LoanMsg := { m with kind := 4, data := [], poison := false }
      ((s.takeLoan m).send (.loan ack)).updMem fun x =>
        { x with loans := x.loans.filter (fun l => !(l.borrower == borrower && l.coll == coll && l.line == line)),
                 loanMsgs := x.loanMsgs ++ [ack] })

/-- RECALL_ACK (R286): the borrower leaves the directory entry; a write whose last recall this was completes. -/
def execRecallAck (borrower coll line : Nat) (s : State) : Res :=
  .next (match s.loanMsg? 4 borrower coll line with
    | none => s
    | some m =>
      let ds := (updWhere (fun d : LoanDir => d.coll == coll && d.line == line)
        (fun d => { d with borrowers := d.borrowers.filter (· != borrower) }) s.mem.loanDir).filter fun d => !d.borrowers.isEmpty
      (((s.takeLoan m).updMem fun x => { x with loanDir := ds }).finishWrites).endStopped)

/-- Dies that hear Lobby 0: present, reachable, and not itself (R288). -/
def Die.hears (d : Die) (master : Nat) : Bool := d.present && d.reachable && d.code != master

/-- LOBBY0_HEARTBEAT (R288): every 10 us, on the control stream, to every die. -/
def execLobby0Heartbeat (s : State) : Res :=
  .next (if !s.running || s.pkg.masterLost then s
    else
      let m := s.pkg.primary
      let s1 := (s.dies.filter (·.hears m)).foldl (fun s d => s.send (.heartbeat d.code)) s
      let s2 := (s.pkg.asm.cports m).foldl (fun s i => s.sendData m i 0 []) s1
      { s2 with dies := updWhere (·.hears m) (fun d => { d with lastBeat := s.tsc }) s2.dies })

/-- HEARTBEAT_TIMEOUT (R291): a die without a heartbeat for 1 ms takes Lobby 0 as lost. -/
def execHeartbeatTimeout (die : Nat) (s : State) : Res :=
  .next (match s.die? die with
    | none => s
    | some d =>
      if !d.present || die == s.pkg.primary || (4 ≤ die && !d.inService) || s.tsc < d.lastBeat + ms || s.pkg.masterLost ||
          !s.running then s
      else
        let s1 := s.updPkg fun p => { p with masterLost := true }
        (s1.portsDown ((List.range 8).map (8 + ·))).emergency 6 die)

/-- TIME_SYNC_SEND (R290): the master's stamp on every Lobby-Wing link and on the bridge. -/
def execTimeSyncSend (s : State) : Res :=
  .next (if !s.running || s.pkg.masterLost then s
    else
      let links := s.pkg.asm.lobbies.flatMap fun l =>
        ((s.pkg.asm.cports l).filter fun i => !(i == 2 && l != s.pkg.primary)).map fun i => (l, i)
      links.foldl (fun s e =>
        match s.cport? e.1 e.2, s.pkg.asm.peer e.1 e.2 with
        | some p, some q => if p.st = 2 then (s.sendData e.1 e.2 1 (leBytes 8 s.tsc)).send (.timeSync q.1 s.tsc) else s
        | _, _ => s) s)

/-- A signed difference of two 64-bit times. -/
def timeDiff (a b : Nat) : Int :=
  let d : Nat := (a + 2 ^ 64 - b % 2 ^ 64) % 2 ^ 64
  if d < 2 ^ 63 then (d : Int) else (d : Int) - 2 ^ 64

/-- Mark or clear a die's time-uncertainty, with its record (R353): cause 1 skew, 2 no time-sync. -/
def State.setUncertain (s : State) (die : Nat) (on : Bool) (cause : Nat) : State :=
  (s.updDie die fun d => { d with uncertain := on }).watermark .d 0x03 (src die 0) 0xFFFF (!on) (pack [(1, die), (1, cause)])

/-- A die takes a time-sync (R352, R353): its offset, its correction, its skew and its certainty. -/
def State.takeSync (s : State) (die stamp delay : Nat) (d : Die) : State :=
  let e := timeDiff (s.dieTsc die) (stamp + delay)
  let step := decide (e < -64)
  let s1 := s.updDie die fun d =>
    { d with latestE := e, lastSync := s.tsc, offset := if step then d.offset - e else d.offset, slew := if step then 0 else e,
             skewHigh := if 8 < e.natAbs then true else if e.natAbs ≤ 4 then false else d.skewHigh }
  let body := leBytes 1 die ++ intBytes 4 e
  let s2 := if !d.skewHigh && decide (8 < e.natAbs) then s1.watermark .d 0x02 (src die 0) 0xFFFF false body
    else if d.skewHigh && decide (e.natAbs ≤ 4) then s1.watermark .d 0x02 (src die 0) 0xFFFF true body
    else s1
  if d.uncertain then
    (if step || decide (e.natAbs ≤ 8) then s2.setUncertain die false 1 else s2)
  else if 1000 < e.natAbs then s2.setUncertain die true 1 else s2

/-- TIME_SYNC_RECEIVE (R352, R353): the master takes none. -/
def execTimeSyncReceive (die stamp delay : Nat) (s : State) : Res :=
  .next (match s.die? die with
    | none => s
    | some d => if !d.present || die == s.pkg.primary || !s.running then s else s.takeSync die stamp delay d)

/-- TIME_SYNC_TIMEOUT (R290, R353): no time-sync for 1 ms; the die runs on its own PLL. -/
def execTimeSyncTimeout (die : Nat) (s : State) : Res :=
  .next (match s.die? die with
    | none => s
    | some d =>
      if !d.present || die == s.pkg.primary || !s.running || d.uncertain || s.tsc < d.lastSync + ms then s
      else s.setUncertain die true 2)

/-- A die slews by 1 ns (R352). -/
def Die.slewed (d : Die) : Die :=
  if 0 < d.slew then { d with offset := d.offset - 1, slew := d.slew - 1 }
  else if d.slew < 0 then { d with offset := d.offset + 1, slew := d.slew + 1 }
  else d

/-- 1 ns passes at the master TSC (R351), which counts while PKG_RESET_N is not asserted and main power is on; one
increment in every 100 a die that slews corrects (R352; log 2). -/
def State.tick (s : State) : State :=
  if !s.running then s
  else
    let t := (s.tsc + 1) % 2 ^ 64
    { s with tsc := t, dies := if t % 100 = 0 then s.dies.map Die.slewed else s.dies }

end Sys2Proof.Machine
end

