-- ==== Sys2Proof/Machine/MemoryPath.lean ====
section
/-! DEFINITION. The commands of the memory path (R26-R35, R46, R84, R91-R93, R294): reads and writes of a link port, the
returns of channels, lines leaving the cache, and the compressed view. -/

namespace Sys2Proof.Machine

/-- An unmapped write raises its notice, coalesced per port (R46). -/
def State.unmapped (s : State) (p hpa : Nat) : State :=
  s.coalesce 0x11 p (portSrc p) 0xFFFF p (pack [(8, hpa), (1, p)])

/-- A read of the view extent (R91-R93): header line or payload line of a logical block. -/
def State.serveView (s : State) (p c off : Nat) : State :=
  let h := viewH (s.act.size c)
  let who := Waiter.port p
  if off < h ∧ s.act.size c / 64 ≤ off then s.answer who c 0 (zeros 64) false
  else
    let blk := if off < h then off / 64 else (off - h) / 4096
    let j := (off - h) % 4096 / 64
    let w := (s.place c (blk * 4096)).wing
    if !s.wingUp w then s.answer who c 0 (zeros 64) true
    else
      let m := s.meterFor who c w true
      let s1 := m.1.writeBackBlock c w blk
      let e := s1.entry c w blk
      let serves := s1.serves w (s1.entrySel e)
      let header := decide (off < h)
      let queue : State :=
        s1.queueRead
          { id := 0, coll := c, wing := w, line := if header then 0 else 64 * blk + j + 1, view := some j, entry := e, cls := m.2,
            waiter := who, merged := [], mergedMask := 0, sel := s1.entrySel e,
            places := s1.placesOf e [if header then 0 else j + 1], at_ := 0, stage := .ingress, got := none }
      match e.tier with
      | .lost => s1.answer who c 0 (zeros 64) true
      | .none => s1.answer who c 0 (if header then zeroHeader (s.act.fmt c) else zeros 64) false
      | _ =>
        if header then
          if e.hdrDamage || !serves then s1.answer who c 0 (zeros 64) true else queue
        else if s1.viewLen e ≤ 64 * j then s1.answer who c 0 (zeros 64) false
        else if !serves then s1.answer who c 0 (zeros 64) true else queue

/-- A read request of a link port (R26). -/
def State.linkRead (s : State) (p hpa : Nat) : State :=
  let s := s.wakeChannels.bump 0x1101 7 p 1
  match s.target p hpa with
  | .undecoded => s.answer (.port p) 0 0 (zeros 64) true
  | .unmapped => s.answer (.port p) 0 0 (zeros 64) true
  | .data c off => s.serveRead c (off / 64 * 64) (.port p)
  | .command c n =>
    let w := s.commandWing c
    if s.wingUp w then ((s.meterFor (.port p) c w true).1).answer (.port p) c n (s.cmdAt c (.line n)).image false
    else s.answer (.port p) c n (zeros 64) true
  | .view c off => s.serveView p c off

/-- A write request of a link port (R31, R32, R46, R58). The line a discarded view write's notice names is its line index within
the view extent (DESIGN CHOICE, log 40). -/
def State.linkWrite (s : State) (p hpa : Nat) (data : Bytes) (be : Nat) (poison : Bool) : State :=
  let s := s.wakeChannels.bump 0x1101 8 p 1
  let who := Waiter.port p
  match s.target p hpa with
  | .undecoded => s.completeWrite who
  | .unmapped => (s.unmapped p hpa).completeWrite who
  | .data c off => s.serveWrite c (off / 64 * 64) data be poison who p
  | .command c n =>
    let w := s.commandWing c
    if s.wingUp w then ((s.meterFor who c w false).1.writeLineCmd c n data be poison).completeWrite who
    else (s.discard c 0 (s.act.size c + 64 * n) p true).completeWrite who
  | .view c off =>
    let h := viewH (s.act.size c)
    let blk := if off < h then off / 64 else (off - h) / 4096
    (s.discard c (s.place c (blk * 4096)).wing off p false).completeWrite who

/-- A Wing whose cache has a tag byte uncorrectable in both copies is isolated (R216, R446 cause 2). -/
def State.isolateTags (s : State) : State :=
  (s.dies.filter (·.tagFault)).foldl (fun s d => (s.updDie d.code fun x => { x with tagFault := false }).isolateWing (d.code - 4) 2) s

/-- CXL_MEM_READ (R26-R30, R46). -/
def execCxlMemRead (port hpa : Nat) (s : State) : Res :=
  .next (s.orHold port hpa (.cxlMemRead port hpa) fun s => (s.linkRead port hpa).isolateTags)

/-- CXL_MEM_WRITE (R31, R32, R35, R46, R58). -/
def execCxlMemWrite (port hpa : Nat) (data : Bytes) (be : Nat) (poison : Bool) (s : State) : Res :=
  .next (s.orHold port hpa (.cxlMemWrite port hpa data be poison) fun s => (s.linkWrite port hpa data be poison).isolateTags)

/-- MEM_SPEC_RD (R294): accepted, no effect and no response. -/
def execMemSpecRd (_port _hpa : Nat) (s : State) : Res := .next s

/-- MEM_INV (R294): completed with Cmp, no other effect. -/
def execMemInv (port _hpa : Nat) (s : State) : Res := .next (if s.accepting then s.completeWrite (.port port) else s)

/-- COALESCE_WINDOW_END (R35): at or after the window's end its count notice is raised. -/
def execCoalesceWindowEnd (kind object : Nat) (s : State) : Res :=
  .next (if s.mem.windows.any fun w => w.kind == kind && w.obj == object && s.windowOver w then
      s.closeWindow kind object
    else s)

/-- CHANNEL_READ_COMPLETE (R26, R251): the read `id`, which its channel has issued, returns, and the channel picks its next
accesses. What has issued completes though a frequency change began since (R261); a channel returns nothing while its PLL is out of lock
(R387), and a Mover read waits while its function is in D3hot (R320). -/
def execChannelReadComplete (id : Nat) (s : State) : Res :=
  .next (match s.mem.reads.find? fun r => r.id == id && r.stage == .issued with
    | some r =>
      let held := s.paused r.wing r.sel && !(isDepot r.sel && s.changing r.wing)
      let asleep := match r.waiter with
        | .mover p _ _ => (match s.fn? p with | some f => f.dstate != 0 | none => false)
        | _ => false
      if held || asleep then s else s.completeRead r
    | none => s)

/-- ACT_BLOCK_EXPANDED (R31, R32): held writes merge into the expanded block. -/
def execActBlockExpanded (coll wing blk : Nat) (s : State) : Res := .next (s.blockExpanded coll wing blk)

/-- LINE_LEAVES_CACHE (R33, R34, R55, R56, R126, R157, R236). -/
def execLineLeavesCache (coll wing line : Nat) (s : State) : Res :=
  .next (match s.cached? coll wing line with
    | some l => if l.canLeave then s.leave coll wing line else s
    | none => s)

/-- DEPOT_WRITE_THROUGH_COMPLETE (R32). -/
def execDepotWriteThroughComplete (id : Nat) (s : State) : Res := .next (s.depotWritten id)

/-- DEFERRED_RUN_FREE (R84): a freed run becomes reusable once no request still reads it. -/
def execDeferredRunFree (wing tier site slot : Nat) (s : State) : Res :=
  let t : Tier := if tier = 1 then .gallery else .depot
  let isIt (r : Run) : Bool := r.wing == wing && r.tier == t && r.site == site && r.slot == slot
  let busy := s.mem.reads.any fun x => x.entry.runs.any isIt
  .next (if busy then s else s.updMem fun m => { m with deferred := m.deferred.filter fun r => !isIt r })

/-- COMPRESSED_VIEW_READ (R91-R93): a read whose address lies in an accepted view extent. -/
def execCompressedViewRead (port hpa : Nat) (s : State) : Res :=
  .next (match s.target port hpa with
    | .view _ _ => s.orHold port hpa (.compressedViewRead port hpa) fun s => (s.linkRead port hpa).isolateTags
    | _ => s)

end Sys2Proof.Machine
end

