-- ==== Sys2Proof/Machine/Commands.lean ====
section
/-! DEFINITION. The commands of a command area and of the sequence request entry (R57-R62, R136, R137, R141-R161). -/

namespace Sys2Proof.Machine

/-- CREATE (R147): every block of the new windows is ZERO. -/
def State.create (x : Cmd) (s : State) : State :=
  let c := x.coll
  let p := fieldAt x.bytes 8 1
  let n := fieldAt x.bytes 12 2
  match if p < 8 then s.pool c p else none with
  | none => s.endCmd x stBadOperand 0 0
  | some q =>
    if n = 0 ∨ 1024 < n then s.endCmd x stBadOperand 0 0
    else
      match s.takeWindows c p q n with
      | .error d => s.endCmd x stLimit d 0
      | .ok w =>
        let new := (List.range n).map fun i => (⟨c, p * 65536 + w + i, 0, none, 0⟩ : Seq)
        let s1 := (s.dropRange c (q.window w) (q.window (w + n))).1
        (s1.updMem fun m => { m with seqs := m.seqs ++ new }).endCmd x stDone 0 (p * 65536 + w)

/-- FORK: its checks and the reservation of its windows (R143, R144, R152). -/
def State.startFork (x : Cmd) (s : State) : State :=
  let c := x.coll
  let n := fieldAt x.bytes 8 4
  let cnt := fieldAt x.bytes 12 2
  let t := fieldAt x.bytes 14 4
  match s.seqPlace c n with
  | none => s.endCmd x stBadOperand 0 0
  | some (q, p, _) =>
    if cnt = 0 ∨ 1024 < cnt ∨ q.cap < t then s.endCmd x stBadOperand 0 0
    else
      match s.seq? c n with
      | none => s.endCmd x stNotFound 0 0
      | some par =>
        if 16 ≤ par.depth then s.endCmd x stLimit 4 0
        else
          match s.takeWindows c p q cnt with
          | .error d => s.endCmd x stLimit d 0
          | .ok w =>
            (s.updMem fun m => { m with forks := m.forks ++ [⟨c, x.src, n, p * 65536 + w, cnt, t, s.wingsOf c, []⟩] }).putCmd
              { x with forwarded := true }

/-- TRUNCATE (R150). -/
def State.truncate (x : Cmd) (s : State) : State :=
  let c := x.coll
  let n := fieldAt x.bytes 8 4
  let t := fieldAt x.bytes 12 4
  match s.seqPlace c n with
  | none => s.endCmd x stBadOperand 0 0
  | some (q, _, w) =>
    if q.cap < t then s.endCmd x stBadOperand 0 0
    else
      match s.seq? c n with
      | none => s.endCmd x stNotFound 0 0
      | some sq =>
        if sq.held ≤ t then s.endCmd x stDone 0 sq.held
        else
          let cut := t * q.rec_
          let base := q.window w
          let s1 := (s.dropRange c (base + ceilDiv cut 4096 * 4096) (base + q.stride)).1
          let s2 := if cut % 4096 = 0 then s1 else s1.writeZeros c (base + cut) (base + ceilDiv cut 4096 * 4096)
          let qs := updWhere (fun y => y.coll == c && y.num == n) (fun y => { y with held := t }) s2.mem.seqs
          (s2.updMem fun m => { m with seqs := qs }).endCmd x stDone 0 t

/-- Command pins of collection lots wholly released end (R137). -/
def State.endPins (s : State) (c first last : Nat) : State :=
  let ls := updWhere (fun l : Lot => l.coll == c && l.pin.isSome &&
      (s.collLots c l.wing l.lot).any fun t => decide (first ≤ 16 * t) && decide (16 * t + 16 ≤ last))
    (fun l => { l with pin := none }) s.mem.lots
  s.updMem fun m => { m with lots := ls }

/-- RELEASE of a sequence (R137, R148): its window is whole collection lots, whose command pins end. -/
def State.releaseSeq (x : Cmd) (s : State) : State :=
  let c := x.coll
  let n := fieldAt x.bytes 12 4
  if fieldAt x.bytes 16 8 ≠ 0 ∨ fieldAt x.bytes 24 8 ≠ 0 then s.endCmd x stBadOperand 0 0
  else
    match s.seqPlace c n with
    | none => s.endCmd x stBadOperand 0 0
    | some (q, _, w) =>
      match s.seq? c n with
      | none => s.endCmd x stNotFound 0 0
      | some _ =>
        let r := s.dropRange c (q.window w) (q.window (w + 1))
        let qs := (r.1.mem.seqs.filter fun y => !(y.coll == c && y.num == n)).map fun y =>
          if y.coll == c && y.parent == some n then { y with parent := none } else y
        let s1 := r.1.updMem fun m => { m with seqs := qs }
        (s1.endPins c (q.window w / 4096) (q.window (w + 1) / 4096)).endCmd x stDone 0 r.2

/-- RELEASE of a block range (R56, R59, R137). A target type other than 0 or 1 is an operand out of range. -/
def State.releaseRange (x : Cmd) (s : State) : State :=
  let c := x.coll
  let first := fieldAt x.bytes 16 8
  let n := fieldAt x.bytes 24 8
  if fieldAt x.bytes 8 1 ≠ 1 ∨ fieldAt x.bytes 12 4 ≠ 0 ∨ s.act.size c < (first + n) * 4096 then s.endCmd x stBadOperand 0 0
  else
    let r := s.dropRange c (4096 * first) (4096 * (first + n))
    (r.1.endPins c first (first + n)).endCmd x stDone 0 r.2

/-- PIN (R135, R136): all or nothing. A Wing lot that an edition pin already holds in the tier is left as it is. -/
def State.pin (x : Cmd) (s : State) : State :=
  let c := x.coll
  let first := fieldAt x.bytes 8 8
  let n := fieldAt x.bytes 16 8
  let tier := fieldAt x.bytes 24 1
  let gal := tier == 0
  if n = 0 ∨ s.act.size c / 65536 < first + n ∨ 1 < tier then s.endCmd x stBadOperand 0 0
  else
    let lots := ((List.range n).flatMap fun i => s.lotsOf c (first + i)).eraseDups
    let byEdition (k : Nat × Nat) : Option Bool := s.act.pinAt c (s.collLots c k.1 k.2)
    if lots.any fun k => byEdition k == some (!gal) then s.endCmd x stKind 1 0
    else
      let pinned := (lots.filter fun k => (byEdition k).isNone).foldl (fun s k => s.updLot c k.1 k.2 fun l => { l with pin := some gal }) s
      let tooMany (w : Nat) : Bool :=
        decide (s.fillSlots c w < 144 * ((pinned.knownLots c w).filter fun l => pinned.pinOf c w l == some true).length)
      match if gal then (s.wingsOf c).find? tooMany else none with
      | some w => s.endCmd x stQuota w 0
      | none =>
        let moved := (s.wingsOf c).foldl (fun (s : State) w =>
          let mine := (lots.filter (·.1 == w)).map (·.2)
          let s1 := mine.foldl (fun s l => if s.lotStored c w l then s else s.updLot c w l fun y => { y with gallery := gal }) s
          let wrong := mine.filter fun l => !s1.resides c w l gal
          let need := s1.chargedOn c w true + s1.pinHeadroom c w
          let dem := if gal then (s1.takeUntil c w (s1.fillSlots c w) (s1.coldLots c w wrong true) need).1 else []
          s1.queueMoves c w ((dem.map fun l => (⟨l, false, false, []⟩ : Decision)) ++ wrong.map fun l => ⟨l, gal, true, []⟩)) pinned
        if lots.all fun k => moved.resides c k.1 k.2 gal then moved.endCmd x stDone 0 n
        else
          let had := (lots.filter fun k => (byEdition k).isNone && (s.lot c k.1 k.2).pin != some gal).map fun k =>
            (k.1, k.2, (s.lot c k.1 k.2).pin)
          moved.putCmd { x with forwarded := true, undo := had }

/-- UNPIN (R137): command pins of the named tier only. -/
def State.unpin (x : Cmd) (s : State) : State :=
  let c := x.coll
  let first := fieldAt x.bytes 8 8
  let n := fieldAt x.bytes 16 8
  let tier := fieldAt x.bytes 24 1
  let gal := tier == 0
  if n = 0 ∨ s.act.size c / 65536 < first + n ∨ 1 < tier then s.endCmd x stBadOperand 0 0
  else
    let hit := (List.range n).filter fun i => (s.lotsOf c (first + i)).any fun k => (s.lot c k.1 k.2).pin == some gal
    let lots := ((List.range n).flatMap fun i => s.lotsOf c (first + i)).eraseDups
    let ls := updWhere (fun l : Lot => l.coll == c && lots.contains (l.wing, l.lot) && l.pin == some gal)
      (fun l => { l with pin := none }) s.mem.lots
    (s.updMem fun m => { m with lots := ls }).endCmd x stDone 0 hit.length

/-- Target type of a RELEASE that waits at a place. -/
def State.releaseType (s : State) (c : Nat) (src : CmdSrc) : Nat := fieldAt (s.cmdAt c src).bytes 8 1

/-- FORK (R152). -/
def execFork (coll : Nat) (src : CmdSrc) (s : State) : Res := .next (s.runCmd coll src 1 State.startFork)

/-- FORK_INSTANT (R153-R156): the forwarded FORK reaches a Wing of the set. -/
def execForkInstant (coll : Nat) (src : CmdSrc) (wing : Nat) (s : State) : Res :=
  .next (match s.underWay coll src 1, s.mem.forks.find? fun f => f.coll == coll && f.src == src && f.wingsLeft.contains wing with
    | some x, some f => s.forkOn x f wing
    | _, _ => s)

/-- TRUNCATE (R150). -/
def execTruncate (coll : Nat) (src : CmdSrc) (s : State) : Res := .next (s.runCmd coll src 2 State.truncate)

/-- RELEASE with target type 0 (R148). -/
def execReleaseSequence (coll : Nat) (src : CmdSrc) (s : State) : Res :=
  .next (if s.releaseType coll src = 0 then s.runCmd coll src 3 State.releaseSeq else s)

/-- RELEASE with target type 1 (R59). -/
def execReleaseBlockRange (coll : Nat) (src : CmdSrc) (s : State) : Res :=
  .next (if s.releaseType coll src = 0 then s else s.runCmd coll src 3 State.releaseRange)

/-- CREATE (R147), through the request entry only. -/
def execCreate (coll : Nat) (src : CmdSrc) (s : State) : Res := .next (s.runCmd coll src 0x10 State.create)

/-- FENCE (R60): it starts, and completes by FENCE_COMPLETE. -/
def execFence (coll : Nat) (src : CmdSrc) (s : State) : Res :=
  .next (s.runCmd coll src 4 fun x s => s.putCmd { x with forwarded := true })

/-- Has everything a FENCE waits for settled (R60): no earlier command of the area is pending, and no write waits for its Depot copy.
Reads of either view take in what the cache and the write-merge buffer hold, so a completed write is visible to every reader. -/
def State.settled (s : State) (x : Cmd) : Bool :=
  !(s.mem.cmds.any fun y => y.coll == x.coll && isLine y.src && y.status == stPending && decide (y.order < x.order)) &&
  !(s.act.durable x.coll && s.mem.writes.any fun y => y.coll == x.coll && y.depot)

/-- FENCE_COMPLETE (R60). -/
def execFenceComplete (coll : Nat) (src : CmdSrc) (s : State) : Res :=
  .next (match s.underWay coll src 4 with
    | some x => if s.settled x then s.endCmd x stDone 0 0 else s
    | none => s)

/-- PIN (R136). -/
def execPin (coll : Nat) (src : CmdSrc) (s : State) : Res := .next (s.runCmd coll src 5 State.pin)

/-- UNPIN (R137). -/
def execUnpin (coll : Nat) (src : CmdSrc) (s : State) : Res := .next (s.runCmd coll src 6 State.unpin)

/-- PIN_MOVE_DONE (R136): every affected Wing lot resides wholly in the pinned tier. -/
def execPinMoveDone (coll : Nat) (src : CmdSrc) (s : State) : Res :=
  .next (match s.underWay coll src 5 with
    | some x =>
      let first := fieldAt x.bytes 8 8
      let n := fieldAt x.bytes 16 8
      let gal := fieldAt x.bytes 24 1 == 0
      let lots := ((List.range n).flatMap fun i => s.lotsOf coll (first + i)).eraseDups
      if lots.all fun k => s.resides coll k.1 k.2 gal then s.endCmd x stDone 0 n else s
    | none => s)

/-- UNDEFINED_COMMAND_OPCODE (R59): a waiting command whose opcode its place does not accept ends BAD_OPCODE. -/
def execUndefinedCommandOpcode (coll : Nat) (src : CmdSrc) (s : State) : Res :=
  .next (match s.cmd? coll src with
    | some x => if x.opOk then s else s.runCmd coll src x.op fun _ s => s
    | none => s)

end Sys2Proof.Machine
end

