-- ==== Sys2Proof/Machine/Function.lean ====
section
/-! DEFINITION. The function of a link port: interrupts and event queues (R303-R306, R361-R363), resets (R315-R318) and power
states (R320-R322). -/

namespace Sys2Proof.Machine

/-- Recheck every queue of a function (R363). -/
def State.recheckAll (s : State) (p : Nat) : State := (List.range 16).foldl (fun s q => s.recheck p q) s

/-- Is INTx the function's mechanism (R303)? -/
def Fn.usesIntx (f : Fn) : Bool := !f.msixEn && !f.msiEn && !f.intxDisable

/-- Assert INTA for the signals held in FN_INT_STAT once messages may be sent again (R303, R315). -/
def State.releaseSignals (s : State) (p : Nat) : State :=
  match s.fn? p with
  | some f => if f.canMaster && f.usesIntx && f.intStat != 0 then s.send (.intx p true) else s
  | none => s

/-- Is a vector's table entry masked (R304)? -/
def Fn.vectorMasked (f : Fn) (v : Nat) : Bool := match f.table.find? (·.1 == v) with | some e => e.2.2.2 | none => true

/-- Send the message of a pending vector that is masked no longer (R304). -/
def State.sendPending (s : State) (p v : Nat) : State :=
  match s.fn? p with
  | some f =>
    if f.msixEn && !f.msixMask && !f.vectorMasked v && bitSet f.pba v && f.canMaster then
      (s.updFn p fun f => { f with pba := putBit f.pba v false }).send (.message p v true)
    else s
  | none => s

/-- MSIX_UNMASK (R304): a vector, or the Function Mask when none is named. -/
def execMsixUnmask (port : Nat) (vector : Option Nat) (s : State) : Res :=
  .next (match vector with
    | some v =>
      if 64 ≤ v then s
      else (s.updFn port fun f =>
        { f with table := upsert (·.1 == v) (fun e => (e.1, e.2.1, e.2.2.1, false)) (v, 0, 0, false) f.table }).sendPending port v
    | none => (List.range 64).foldl (fun s v => s.sendPending port v) (s.updFn port fun f => { f with msixMask := false }))

/-- MODERATION_EXPIRY (R306): the deferred signal of a queue. -/
def execModerationExpiry (port q : Nat) (s : State) : Res :=
  .next (match s.fn? port with
    | none => s
    | some f =>
      let eq := f.queues.getD q .reset
      let due : Bool := match eq.lastMsg with | none => true | some t => decide (t + eq.moderation * 1000 ≤ s.tsc)
      if q < 16 && eq.deferred && due then
        (s.updFn port fun f => f.updQueue q fun eq => { eq with lastMsg := some s.tsc, deferred := false }).signal port q eq.vector
      else s)

/-- INT_STAT_CLEAR (R302, R303): RW1C; INTA is deasserted when no bit is left. -/
def execIntStatClear (port value : Nat) (s : State) : Res :=
  .next (match s.fn? port with
    | none => s
    | some f =>
      let v := f.intStat - (f.intStat &&& value)
      let s1 := s.updFn port fun f => { f with intStat := v }
      if f.usesIntx && f.intStat != 0 && v == 0 then s1.send (.intx port false) else s1)

/-- FN_EQ_HEAD_WRITE (R361, R363). -/
def execFnEqHeadWrite (port q value : Nat) (s : State) : Res :=
  .next (if q < 16 then (s.updFn port fun f => f.updQueue q fun eq => { eq with head := value % 2 ^ 64 }).recheck port q else s)

/-- A write of FN_EQ_BASE (R305): without effect while enabled; a new value empties the queue and clears its lost count
(R363). -/
def EventQueue.setBase (eq : EventQueue) (v : Nat) : EventQueue :=
  let b := bits v 12 52 * 4096
  if eq.enable || b == eq.base then eq else { eq with base := b, tail := 0, head := 0, lost := 0 }

/-- A write of FN_EQ_CTL (R305): the size only while disabled and within 4-16. -/
def EventQueue.setCtl (eq : EventQueue) (v : Nat) : EventQueue :=
  let n := bits v 0 5
  let eq1 : EventQueue :=
    if eq.enable || n == eq.size || n < 4 || 16 < n then eq else { eq with size := n, tail := 0, head := 0, lost := 0 }
  { eq1 with enable := bitSet v 8, vector := bits v 16 6, moderation := bits v 24 8 }

/-- FN_EQ_CTL_WRITE (R305, R363): of FN_EQ_BASE or of FN_EQ_CTL; setting enable rechecks the queue. -/
def execFnEqCtlWrite (port q : Nat) (base : Bool) (value : Nat) (s : State) : Res :=
  .next (if 16 ≤ q then s
    else if base then s.updFn port fun f => f.updQueue q fun eq => eq.setBase value
    else
      let s1 := s.updFn port fun f => f.updQueue q fun eq => eq.setCtl value
      if bitSet value 8 then s1.recheck port q else s1)

/-- FN_EQ_FILTER_WRITE (R360). -/
def execFnEqFilterWrite (port q value : Nat) (s : State) : Res :=
  .next (if q < 16 then s.updFn port fun f => f.updQueue q fun eq => { eq with filter := value % 2 ^ 17 } else s)

/-- An engine meets the clearing of Bus Master Enable (R315). -/
def Engine.stopped (g : Engine) : Engine :=
  if g.st = 2 then { g with st := 4, stopIdx := g.head, aborted := true } else g

/-- BUS_MASTER_ENABLE_CLEAR (R315). -/
def execBusMasterEnableClear (port : Nat) (s : State) : Res :=
  .next (s.updFn port fun f => { f with bme := false, engines := f.engines.map .stopped })

/-- Write the ABORTED status of a stopped engine's descriptor (R309, R315). -/
def State.writeAborted (s : State) (p : Nat) (g : Engine) : State :=
  if !g.aborted then s
  else
    let s1 := s.send (.hostWrite p (g.base + 64 * g.stopIdx + 48)
      (leBytes 2 0x800A ++ leBytes 2 0 ++ leBytes 4 g.poisonLines ++ leBytes 8 g.moved) false false)
    let s2 := match g.desc with
      | some d =>
        if bitSet (descFlags d) 1 then s1.event (.queue p g.queue) 0x24 (moverSrc p g.e) 0xFFFF
          (pack [(1, g.e), (2, g.stopIdx), (4, descTicket d), (2, 0x800A)])
        else s1
      | none => s1
    s2.updEngine p g.e fun g => { g with aborted := false }

/-- BUS_MASTER_ENABLE_SET (R315, R363): the ABORTED statuses, the queues, then the engines' next descriptors. -/
def execBusMasterEnableSet (port : Nat) (s : State) : Res :=
  .next (match s.fn? port with
    | none => s
    | some f =>
      if f.bme then s
      else
        let s1 := s.updFn port fun f => { f with bme := true }
        let s2 := f.engines.foldl (fun s g => s.writeAborted port g) s1
        let s3 := (s2.recheckAll port).releaseSignals port
        (List.range 16).foldl (fun s i => s.fetchNext port i) s3)

/-- FLR (R316, R317). -/
def execFlr (port : Nat) (s : State) : Res :=
  .next (match s.fn? port with
    | none => s
    | some f =>
      if !f.ready then s
      else (((s.portBreaksKey port).resetFn port true).updFn port fun f => { f with resetting := true }).bump 0x1101 11 port 1)

/-- FLR_READY (R316): configuration requests complete normally again. -/
def execFlrReady (port : Nat) (s : State) : Res :=
  .next (s.updFn port fun f => { f with resetting := false })

/-- HOT_RESET (R317, R318), also a secondary bus reset and a link down: the link retrains. -/
def execHotReset (port : Nat) (s : State) : Res :=
  .next (match s.fn? port with
    | none => s
    | some f => if f.link = 2 then s.linkDown port 1 true else s)

/-- PERST_N_ASSERT (R317, R318): the link is held down and sticky bits are reset too. -/
def execPerstNAssert (port : Nat) (s : State) : Res :=
  .next ((s.linkDown port 0 false).updFn port fun f => { f with perst := true })

/-- PERST_N_DEASSERT (R318): link training starts. -/
def execPerstNDeassert (port : Nat) (s : State) : Res :=
  .next (s.updFn port fun f =>
    if f.perst then { f with perst := false, link := if s.running && s.portInService port then 1 else 0 } else f)

/-- May a link of this rate and width come up (R284, R293)? -/
def State.linkMode (s : State) (rate width : Nat) (flit256 : Bool) : Bool :=
  (width == 8 || width == 4) && [2, 5, 8, 16, 32].contains rate && !(flit256 && s.pkg.mark == 1) ||
  (width == 8 || width == 4) && rate == 64 && s.pkg.mark == 2

/-- PORT_LINK_UP (R293, R318): a training link comes up; the rate is in whole GT/s (2 for 2.5). -/
def execPortLinkUp (port rate width : Nat) (flit256 cxl : Bool) (s : State) : Res :=
  .next (match s.fn? port with
    | none => s
    | some f =>
      if f.link != 1 || f.perst || !s.accepting || !s.portInService port || !s.linkMode rate width flit256 then s
      else (s.updFn port fun f => { f with link := 2, rate := rate, width := width, flit256 := flit256, cxl := cxl }).reoffer port)

/-- FUNCTION_READY (R318, R424): configuration requests stop receiving Configuration Request Retry Status. -/
def execFunctionReady (port : Nat) (s : State) : Res :=
  .next (s.updFn port fun f => if s.running && s.pkg.fwRunning && !f.perst && f.link != 0 then { f with ready := true } else f)

/-- D3HOT_ENTRY (R320). -/
def execD3hotEntry (port : Nat) (s : State) : Res :=
  .next (s.updFn port fun f => if f.ready && !f.resetting then { f with dstate := 3 } else f)

/-- D0_RETURN (R317, R320, R363): No_Soft_Reset; the queues are rechecked and each engine resumes its descriptor. -/
def execD0Return (port : Nat) (s : State) : Res :=
  .next (match s.fn? port with
    | none => s
    | some f =>
      if f.dstate = 0 then s
      else
        let s1 := ((s.updFn port fun f => { f with dstate := 0 }).recheckAll port).releaseSignals port
        (List.range 16).foldl (fun s i => (s.issueReads port i).fetchNext port i) s1)

/-- Is a function in D3hot, or in D3cold with its link held down (R320)? -/
def Fn.asleep (f : Fn) : Bool := f.dstate == 3 || (f.perst && f.link == 0)

/-- IDLE_SELF_REFRESH (R320): every function in D3, and no request or job for 1 ms. -/
def execIdleSelfRefresh (s : State) : Res :=
  .next (if s.accepting && s.fn.all (·.asleep) && s.mem.reads.isEmpty && s.mem.writes.isEmpty && s.wb.jobs.isEmpty &&
      decide (s.pw.busyAt + ms ≤ s.tsc) then
      { s with pw := { s.pw with idleRefresh := true },
               chans := updWhere (fun c => c.st == 2) (fun c => { c with st := 8, selfRefresh := true }) s.chans }
    else s)

/-- Has PME_Turn_Off been received on every port whose link is up (R321)? -/
def State.allOff (s : State) : Bool := s.fn.all fun f => f.link != 2 || f.turnOff

/-- PME_TURN_OFF (R321): with the last one the flush begins, and every write is written through from then on. -/
def execPmeTurnOff (port : Nat) (s : State) : Res :=
  .next (if !s.accepting || !s.linkUp port then s
    else
      let s1 := s.updFn port fun f => { f with turnOff := true }
      if s1.allOff then s1.updPw fun p => { p with flushing := true } else s1)

/-- Copy one Gallery run of a non-durable collection to the Depot, verified as any move (R80, R82), with every entry that shares it,
or lose its blocks where the Depot has no room (R131, R321): the state and the blocks lost. -/
def State.moveToDepot (s : State) (r : Run) : State × Nat :=
  let es := s.mem.cat.filter fun e => e.wing == r.wing && e.primary == some r
  match es with
  | [] => (s, 0)
  | e :: _ =>
    if s.stuck e || !s.wingUp r.wing then (s, 0)
    else
      match s.findRun e.coll r.wing e.blk false r.slots [r] none with
      | none => (es.foldl (fun s x => s.loseBlock x.coll x.wing x.blk false) s, es.length)
      | some (ch, slot, _) =>
        let d : Run := ⟨r.wing, .depot, 0, slot, r.slots⟩
        let s1 := ({ s with fresh := s.fresh + 2 } : State).docCopy r d (some e)
        let s2 := es.foldl (fun s x => s.putEntry { s.entry x.coll x.wing x.blk with tier := .depot, site := 0, slot := slot }) s1
        (((s2.freeRuns [r]).settle e.coll).bump 0x2804 5 (chanObj r.wing ch) (if ch == s.preferred e.coll e.blk false then 0 else 1), 0)

/-- Write back every dirty line of the package (R321 step 1). -/
def State.flushLines (s : State) : State :=
  s.act.colls.foldl (fun s c => (s.wingsOf c).foldl (fun s w =>
    if s.wingUp w then s.writeBackAll c w else s) s) s

/-- D3COLD_FLUSH_COMPLETE (R321): the flush's three steps, then PME_TO_Ack on each port. -/
def execD3coldFlushComplete (s : State) : Res :=
  .next (if !s.accepting || !s.pw.flushing || !s.allOff then s
    else
      let s0 := s.flushLines
      let s1 := (s0.mem.writes.map (·.id)).foldl (fun s id => s.depotWritten id) s0
      let rs := ((s1.mem.cat.filter fun e => e.tier == .gallery && !s1.act.durable e.coll).filterMap (·.primary)).eraseDups
      let t := rs.foldl (fun (a : State × Nat) r => let b := a.1.moveToDepot r; (b.1, a.2 + b.2)) (s1, 0)
      let s2 := if t.2 = 0 then t.1 else t.1.event .d 0x47 s.primarySrc 0xFFFF (leBytes 4 t.2)
      let s3 := s2.sleepDepot.writeSeals
      (s3.fn.filter fun f => f.link == 2).foldl (fun s f => s.send (.pmeToAck f.port)) s3)

/-- OD 0x1102:01 (R322). -/
def State.prepareEntry (s : State) (v : Nat) : State :=
  if v = 1 then (if s.pw.prepared then s else (s.updPw fun p => { p with prepared := true, preparing := true }).notePrepared)
  else s.updPw fun p => { p with prepared := false, preparing := false }

end Sys2Proof.Machine
end

