-- ==== Sys2Proof/Machine/Ingest.lean ====
section
/-! DEFINITION. Ingest (R114-R118): the record at the front of a carrier's stream, its eleven checks, what an accepted
record stores and how a refusal is reported; and the end of a heat period (R127, R128). -/

namespace Sys2Proof.Machine

/-- The port a carrier belongs to (R307, R314). -/
def State.carrierPort (s : State) : Carrier → Nat
  | .engine lobby e => s.act.enginePort (s.pkg.asm.lobbies.length == 1) lobby e
  | .loadWindow p => p

/-- The unit of a carrier (R354). -/
def carrierSrc : Carrier → Nat
  | .engine lobby e => src lobby (0x20 + e)
  | .loadWindow p => portSrc p

/-- A carrier's stream. -/
def State.stream? (s : State) (k : Carrier) : Option IngestStream := s.mem.ingest.find? (·.carrier == k)

/-- Change a carrier's stream. -/
def State.updStream (s : State) (k : Carrier) (f : IngestStream → IngestStream) : State :=
  s.updMem fun m => { m with ingest := updWhere (·.carrier == k) f m.ingest }

/-- What stands at the front of a stream: more bytes are awaited; the record is refused with a reason and the rest of the
transfer with it; the record of this length is refused or sound. -/
inductive Front where
  | waits
  | ends (reason : Nat)
  | refused (reason len : Nat)
  | record (len : Nat)
deriving DecidableEq, Repr

/-- Was any of the first `n` bytes carried in a poisoned line? -/
def IngestStream.hit (x : IngestStream) (n : Nat) : Bool :=
  x.bad.any fun l => decide (64 * l < x.addr + n) && decide (x.addr < 64 * l + 64)

/-- The length that the bytes of a record give (R114), poison and soundness apart; none when they cannot be trusted. -/
def lengthField (s : Bytes) : Option Nat :=
  if fieldAt s 0 2 ≠ 0xC51A ∨ fieldAt s 2 1 ≠ 1 ∨ 1 < fieldAt s 3 1 ∨ fieldAt s 6 2 ≠ 0 then none
  else if fieldAt s 3 1 = 1 then some 16
  else if fieldAt s 16 2 ≠ 0xB10C ∨ fieldAt s 18 1 ≠ 1 ∨ 4096 < fieldAt s 22 2 then none
  else some (16 + 64 * ceilDiv (64 + fieldAt s 22 2) 64)

/-- Checks 1 and 2 of R115 on the front of a stream. A record that the end of its transfer cuts off is refused with the rest of the
transfer: BAD_RECORD, or POISONED where a byte that arrived was poisoned (DESIGN CHOICE, log 52). -/
def IngestStream.front (x : IngestStream) : Front :=
  let b := x.bytes
  let zero := fieldAt b 3 1 % 2 == 1
  let lead := if zero then 16 else 24
  if x.hit (min lead b.length) then .ends 0x0B
  else if b.length < 16 || b.length < lead then (if x.whole then .ends 1 else .waits)
  else
    match lengthField b with
    | none => .ends 1
    | some n =>
      if b.length < n then (if x.whole then .ends (if x.hit n then 0x0B else 1) else .waits)
      else if x.hit n then .refused 0x0B n
      else if !zero && !allZero (slice b (80 + fieldAt b 22 2) (n - 80 - fieldAt b 22 2)) then .ends 1
      else .record n

/-- Is a staged edition that revokes the collection's grant validated and not yet committed or discarded (R65)? -/
def State.revoking (s : State) (c : Nat) : Bool :=
  match s.ed.staged with
  | some e =>
    (s.ed.stagedState == 2 || s.ed.stagedState == 3 || s.ed.stagedState == 5) &&
      s.act.colls.any fun x => (s.act.grants x).contains c && !((e.grants x).contains c)
  | none => false

/-- The 4,096 expanded bytes of an anchor block, or none where it is DELTA, lost, damaged, has an unreadable line, or its
Wing is out of service (check 9 of R115). Heat counts only a collection's own traffic (R127). -/
def State.anchorBytes (s : State) (e : CatEntry) : State × Option Bytes :=
  if !s.wingUp e.wing || e.tier == .lost || e.coding == 3 || e.hdrDamage || e.segDamage != 0 then (s, none)
  else
    let r := (List.range 16).foldl (fun (acc : State × Bytes × Bool) g =>
      let f := acc.1.anchorSegment e g
      (f.s, acc.2.1 ++ f.data, acc.2.2 || f.poison)) (s, [], false)
    (r.1, if r.2.2 then none else some r.2.1)

/-- Has the home Wing room for a loaded block's run in the tier R116 names, or in both for a durable Gallery lot
(check 11 of R115)? -/
def State.ingestRoom (s : State) (c w blk n : Nat) (old : List Run) : Bool :=
  let lot := s.lotOf c blk
  let gal := s.allowedTier c w (if s.lotStored c w lot then (s.lot c w lot).gallery else false)
  (!gal || (s.findRun c w blk true n old none).isSome) &&
  ((gal && !s.act.durable c) || (s.findRun c w blk false n old none).isSome)

/-- Has the instant of a commit that destroys the collection come (R117)? -/
def State.dying (s : State) (c : Nat) : Bool :=
  s.ed.quiescing && match s.ed.incoming with | some e => !e.has c | none => false

/-- Checks 3 to 11 of R115 on a record: the failing reason, if any. A DELTA block is accepted into a collection that a validated
edition is about to make an exhibit: the spec gives no refusal (DESIGN CHOICE, log 53). -/
def State.checkRecord (s : State) (k : Carrier) (c : Nat) (r : Bytes) : State × Option Nat :=
  let blk := fieldAt r 8 8
  let zero := fieldAt r 3 1 == 1
  let h := slice r 16 64
  let payload := slice r 80 (hdrLen h)
  let w := (s.place c (4096 * blk)).wing
  if fieldAt r 4 2 ≠ c ∨ !s.live c ∨ s.dying c ∨ !s.accepted (s.carrierPort k) c ∨ s.act.kind c ≠ 3 ∨ s.act.exhibit c ∨
      s.act.size c / 4096 ≤ blk then (s, some 2)
  else if !s.wingUp w then (s, some 0x0A)
  else if zero then (s, none)
  else if !headerSound h none || hdrFmt h != s.act.fmt c then (s, some 3)
  else if !(List.range 16).all (segmentSound h payload) then (s, some 4)
  else if blockCrc h payload ≠ hdrCrc h then (s, some 5)
  else
    let old := s.entry c w blk
    let n := slotsFor (hdrLen h)
    let held := if old.stored then old.slots else 0
    let last (s : State) : State × Option Nat :=
      if s.act.capacity c < s.charged c - held + n || !s.ingestRoom c w blk n old.runs then (s, some 9) else (s, none)
    if hdrCoding h = 3 then
      if s.act.anchor c = 0xFFFF ∨ hdrAnchor h ≠ s.act.anchor c ∨ s.revoking c then (s, some 6)
      else
        match s.anchorBytes (s.entry (s.act.anchor c) w blk) with
        | (s1, none) => (s1, some 7)
        | (s1, some a) => if crc32c a ≠ hdrAnchorCrc h then (s1, some 8) else last s1
    else last s

/-- Report a refusal (R118, R472). The block index of a record that check 1 or 2 refuses is its bytes 15:8 as they came, and the refusal
counts for the carrier's target (DESIGN CHOICE, log 54). -/
def State.refuseRecord (s : State) (k : Carrier) (c : Nat) (r : Bytes) (reason : Nat) : State :=
  let blk := fieldAt r 8 8
  let lobby := !s.live c || !s.accepted (s.carrierPort k) c
  let w := if reason ≤ 2 || reason == 0x0B then s.commandWing c else (s.place c (4096 * blk)).wing
  let s1 := s.coalesceC 0x19 (if lobby then carrierSrc k else ingressSrc w) c (pack [(5, blk), (1, reason)])
  (s1.bump 0x3009 2 c 1).updStream k fun x => { x with refused := x.refused + 1 }

/-- Take `n` bytes off the front of a stream. -/
def IngestStream.advance (x : IngestStream) (n : Nat) : IngestStream :=
  { x with bytes := x.bytes.drop n, addr := x.addr + min n x.bytes.length }

/-- An accepted record replaces its block whole (R116). -/
def State.acceptRecord (s : State) (c : Nat) (r : Bytes) : State :=
  let blk := fieldAt r 8 8
  let w := (s.place c (4096 * blk)).wing
  let h := slice r 16 64
  let s1 := (s.forgetBlock c w blk).bump 0x3009 1 c 1
  if fieldAt r 3 1 = 1 then (s1.zeroBlock c w blk).settle c
  else s1.storeBlock c w blk { header := h, payload := slice r 80 (hdrLen h) } 0 .load

/-- The end of a carrier's transfer (R310, R314): the descriptor's status, or FN_LOAD_STAT. -/
def State.endCarrier (s : State) (x : IngestStream) : State :=
  let s1 := s.updMem fun m => { m with ingest := m.ingest.filter (·.carrier != x.carrier) }
  match x.carrier with
  | .engine _ e => s1.finishDesc (s.carrierPort x.carrier) e 2 x.refused
  | .loadWindow p => s1.updFn p fun f =>
      if f.loadBusy then { f with loadBusy := false, loadRefused := x.refused % 65536, loadAccepted := x.accepted % 2 ^ 32 } else f

/-- When a stream has delivered everything and nothing is left, its carrier ends. -/
def State.streamDone (s : State) (k : Carrier) : State :=
  match s.stream? k with
  | some x => if x.whole && x.bytes.isEmpty then s.endCarrier x else s
  | none => s

/-- One record of a stream (R115). -/
def State.ingestOne (s : State) (k : Carrier) : State :=
  match s.stream? k with
  | none => s
  | some x =>
    if x.bytes.isEmpty then s
    else
      match x.front with
      | .waits => s
      | .ends why => (s.refuseRecord k x.coll x.bytes why).updStream k fun y => { y.advance y.bytes.length with dropped := true }
      | .refused why n => (s.refuseRecord k x.coll x.bytes why).updStream k fun y => y.advance n
      | .record n =>
        let r := slice x.bytes 0 n
        match s.checkRecord k x.coll r with
        | (s1, some why) => (s1.refuseRecord k x.coll r why).updStream k fun y => y.advance n
        | (s1, none) => (s1.acceptRecord x.coll r).updStream k fun y => { y.advance n with accepted := y.accepted + 1 }

/-- INGEST_RECORD (R115-R118): the record at the front of a carrier's stream; the last one ends the transfer. -/
def execIngestRecord (carrier : Carrier) (s : State) : Res := .next (if s.accepting then (s.ingestOne carrier).streamDone carrier else s)

/-- The heat period in ms (R140). -/
def State.heatPeriod (s : State) : Nat := s.act.nat 0x2110 1 0 10

/-- HEAT_PERIOD_END (R127, R128): a period after the last one's end; the moves of a Wing out of service are left as they are. -/
def execHeatPeriodEnd (s : State) : Res :=
  .next (if s.accepting && decide (s.mem.periodAt + s.heatPeriod * ms ≤ s.tsc) then
      (s.pkg.asm.wings.foldl (fun s w => if s.wingUp w then s.periodOn w else s)
        (s.updMem fun m => { m with periodAt := s.tsc })).notePrepared
    else s)

end Sys2Proof.Machine
end

