-- ==== Sys2Proof/Machine/Mover.lean ====
section
/-! DEFINITION. The Mover's descriptors (R308-R313) and the load window (R314). -/

namespace Sys2Proof.Machine

/-- MOVER_DOORBELL (R308): FN_MOV_TAIL. -/
def execMoverDoorbell (port engine value : Nat) (s : State) : Res :=
  .next (match s.engine? port engine with
    | none => s
    | some _ => (s.updEngine port engine fun g => { g with tail := value % 2 ^ 64 }).fetchNext port engine)

/-- A write of FN_MOV_CTL (R308): size only while disabled and within 4-16; enabling makes an engine idle; restart moves a
stopped one past the descriptor it stopped at. -/
def Engine.setCtl (g : Engine) (v : Nat) : Engine :=
  let n := bits v 0 5
  let g1 : Engine := if g.enable || n < 4 || 16 < n then g else { g with size := n }
  let g2 := { g1 with enable := bitSet v 8, queue := bits v 16 4, st := if bitSet v 8 && g.st == 0 then 1 else g.st }
  if bitSet v 9 && (g.st == 3 || g.st == 4) then
    { g2 with st := 1, head := (g.stopIdx + 1) % 2 ^ g2.size, desc := none, begun := false, fetching := false, issued := 0,
              moved := 0, poisonLines := 0 }
  else g2

/-- A write of FN_MOV_CTL at a port: reads of a descriptor a restart leaves behind are dropped. -/
def State.writeMovCtl (s : State) (p i v : Nat) : State :=
  match s.engine? p i with
  | none => s
  | some g =>
    let s1 := s.updEngine p i fun g => g.setCtl v
    let s2 := if bitSet v 9 && (g.st == 3 || g.st == 4) then
        s1.updFn p fun f => { f with hostReads := f.hostReads.filter (·.engine != i) }
      else s1
    s2.fetchNext p i

/-- MOVER_RESTART (R308): FN_MOV_CTL written with restart set. -/
def execMoverRestart (port engine value : Nat) (s : State) : Res :=
  .next (if bitSet value 9 then s.writeMovCtl port engine value else s)

/-- The descriptor an engine has fetched and not begun, when the engine may act (R315, R320, R392)
and no quiesce holds it (R344). -/
def State.fetched (s : State) (p i : Nat) (op : Nat → Bool) : Option Bytes :=
  match s.fn? p, s.engine? p i with
  | some f, some g =>
    if s.accepting && f.canMaster && g.st == 2 && !g.fetching && !g.begun then
      match g.desc with
      | some d => if op (descOp d) && !s.quiet (descColl d) && !s.engineHeld p i then some d else none
      | none => none
    else none
  | _, _ => none

/-- Are the rsvd fields of a descriptor 0 (R309, R310)? -/
def descSound (d : Bytes) : Bool := descFlags d < 4 && allZero (slice d 32 16)

/-- Begin a descriptor. -/
def State.beginDesc (s : State) (p i : Nat) : State := s.updEngine p i fun g => { g with begun := true }

/-- DESCRIPTOR_NOP (R309). -/
def execDescriptorNop (port engine : Nat) (s : State) : Res :=
  .next (match s.fetched port engine (· == 0) with
    | none => s
    | some d => s.finishDesc port engine (if descSound d then 2 else 0x8002) 0)

/-- UNDEFINED_DESCRIPTOR_OPCODE (R310). -/
def execUndefinedDescriptorOpcode (port engine : Nat) (s : State) : Res :=
  .next (match s.fetched port engine (fun o => decide (3 < o)) with
    | none => s
    | some _ => s.finishDesc port engine 0x8001 0)

/-- The check that fails of a copying descriptor (R309, R310): fields, target, range, and kind for TO_DEVICE. -/
def State.copyCheck (s : State) (p : Nat) (d : Bytes) : Option Nat :=
  let c := descColl d
  if !descSound d || descHost d % 64 != 0 || descOff d % 64 != 0 || descLen d % 64 != 0 || descLen d == 0 ||
      decide (2 ^ 32 < descLen d) then some 0x8002
  else if !s.live c || !s.accepted p c then some 0x8007
  else if s.act.size c < descOff d + descLen d then some 0x8002
  else if descOp d == 1 && (s.act.kind c == 3 || s.act.exhibit c) then some 0x8008
  else none

/-- TO_DEVICE (R309, R311): its reads are issued; the lines are written as they arrive. -/
def execToDevice (port engine : Nat) (s : State) : Res :=
  .next (match s.fetched port engine (· == 1) with
    | none => s
    | some d =>
      match s.copyCheck port d with
      | some st => s.finishDesc port engine st 0
      | none => (s.beginDesc port engine).issueReads port engine)

/-- TO_HOST (R309, R312): every line is read through the read path, and written to the host as it returns. -/
def execToHost (port engine : Nat) (s : State) : Res :=
  .next (match s.fetched port engine (· == 2) with
    | none => s
    | some d =>
      match s.copyCheck port d with
      | some st => s.finishDesc port engine st 0
      | none => (List.range (descLen d / 64)).foldl (fun s k =>
          s.serveRead (descColl d) (descOff d + 64 * k) (.mover port engine (descHost d + 64 * k))) (s.beginDesc port engine))

/-- INGEST (R114, R309, R311): its stream opens and its reads are issued. -/
def execIngest (port engine : Nat) (s : State) : Res :=
  .next (match s.fetched port engine (· == 3) with
    | none => s
    | some d =>
      if !descSound d || descHost d % 16 != 0 || descLen d % 16 != 0 || descLen d == 0 || descOff d != 0 then
        s.finishDesc port engine 0x8002 0
      else if !s.live (descColl d) || !s.accepted port (descColl d) then s.finishDesc port engine 0x8007 0
      else
        let x : IngestStream := ⟨.engine (port / 8) engine, descColl d, [], descHost d, [], 0, 0, false, false⟩
        ((s.updMem fun m => { m with ingest := (m.ingest.filter (·.carrier != x.carrier)) ++ [x] }).beginDesc port engine).issueReads port engine)

/-- Write the bytes of a completion into a read's buffer (R210, R311): those of a completion with EP with the poison syndrome. -/
def HostRead.fill (r : HostRead) (off : Nat) (bs : Bytes) (ep : Bool) : HostRead :=
  let ck := sramStore ep bs
  { r with got := r.got.mapIdx fun i x =>
      if off ≤ i ∧ i < off + bs.length then some (bs.getD (i - off) 0, ck.getD (i - off) 0) else x }

/-- A whole stretch of a read, as its buffer holds it. -/
def HostRead.part? (r : HostRead) (off n : Nat) : Option Sram :=
  let xs := (r.got.drop off).take n
  if xs.length == n && xs.all (·.isSome) then some ⟨xs.filterMap fun x => x.map (·.1), xs.filterMap fun x => x.map (·.2)⟩ else none

/-- Take bytes out of an engine's buffer (R213, R216): with their poison. -/
def State.takeBuffer (s : State) (p engine c : Nat) (b : Sram) : State × Bytes × Bool :=
  let r := s.readSram (p / 8) (0x20 + engine) c b
  (r.1, r.2.1, r.2.2.1)

/-- Lines of the carrier that a stretch of addresses touches (R313). -/
def touchedLines (a n : Nat) : List Nat := (List.range (ceilDiv (a % 64 + n) 64)).map (a / 64 + ·)

/-- Change one read of a function. -/
def State.updRead (s : State) (p tag : Nat) (f : HostRead → HostRead) : State :=
  s.updFn p fun x => { x with hostReads := updWhere (·.tag == tag) f x.hostReads }

/-- A read is done: its tag is free. -/
def State.dropRead (s : State) (p tag : Nat) : State :=
  s.updFn p fun x => { x with hostReads := x.hostReads.filter (·.tag != tag) }

/-- Parse every record a stream has received whole (R310: what was received before a failure stands). -/
def State.ingestAll (k : Carrier) : Nat → State → State
  | 0, s => s
  | n + 1, s => State.ingestAll k n (s.ingestOne k)

/-- A read of an engine fails (R310): the descriptor ends with the status, later lines are not written, and the engine stops.
A failed descriptor fetch has no descriptor, whose flags are taken as 0. -/
def State.failRead (s : State) (p : Nat) (r : HostRead) (status : Nat) : State :=
  let k := Carrier.engine (p / 8) r.engine
  let n := match s.stream? k with | some x => x.bytes.length / 16 + 1 | none => 0
  let s1 := (State.ingestAll k n s).updFn p fun f => { f with hostReads := f.hostReads.filter (·.engine != r.engine) }
  match s1.engine? p r.engine with
  | none => s1
  | some g =>
    let refused := match s1.stream? k with | some x => x.refused | none => g.poisonLines
    let s2 := s1.updMem fun m => { m with ingest := m.ingest.filter (·.carrier != k) }
    if g.st != 2 then s2
    else (s2.updEngine p r.engine fun g =>
      { g with fetching := false, desc := some (g.desc.getD (zeros 64)) }).finishDesc p r.engine status refused

/-- The lines a completion finishes are written to the collection (R311, R313): full-line writes, poisoned where any byte came
with EP. An engine stopped by Bus Master Enable still takes them (R315). -/
def State.writeLines (s : State) (p : Nat) (old new : HostRead) (d : Bytes) : State :=
  (List.range (new.length / 64)).foldl (fun s k =>
    match old.part? (64 * k) 64, new.part? (64 * k) 64 with
    | none, some b =>
      let x := s.takeBuffer p new.engine (descColl d) b
      (x.1.updEngine p new.engine fun g => { g with poisonLines := g.poisonLines + bit1 x.2.2 }).serveWrite (descColl d)
        (descOff d + new.dest + 64 * k) x.2.1 fullMask x.2.2 (.mover p new.engine 0) p
    | _, _ => s) s

/-- Places of a buffer whose byte cannot be delivered (R213). -/
def Sram.badAt (b : Sram) : List Nat :=
  let fs := List.zipWith (fun d k => (sramRead d k).1) b.data b.check
  (List.range fs.length).filter fun i => fs.getD i .clean == .uncorrectable || fs.getD i .clean == .poison

/-- Move the whole reads at the front of an INGEST into its stream, in stream order (R311). -/
def State.feedStream (p i : Nat) : Nat → State → State
  | 0, s => s
  | n + 1, s =>
    match s.fn? p with
    | none => s
    | some f =>
      match sortBy (fun a b : HostRead => decide (a.dest ≤ b.dest)) (f.hostReads.filter fun r => r.engine == i && !r.fetch) with
      | [] => s
      | r :: _ =>
        match r.part? 0 r.length with
        | none => s
        | some b =>
          let k := Carrier.engine (p / 8) i
          let x := s.takeBuffer p i (match s.stream? k with | some y => y.coll | none => 0xFFFF) b
          let hurt := b.badAt.map fun j => (r.addr + j) / 64
          let s1 := (x.1.dropRead p r.tag).updStream k fun y =>
            if y.dropped then y else { y with bytes := y.bytes ++ x.2.1, bad := y.bad ++ hurt }
          State.feedStream p i n ((s1.updEngine p i fun g => { g with moved := g.moved + r.length }).bump 0x1101 10 p r.length)

/-- An INGEST whose reads have all arrived has its whole stream. -/
def State.wholeStream (s : State) (p i : Nat) (d : Bytes) : State :=
  match s.fn? p, s.engine? p i with
  | some f, some g =>
    if g.st == 2 && descLen d ≤ g.issued && !(f.hostReads.any fun r => r.engine == i) then
      (s.updStream (.engine (p / 8) i) fun x => { x with whole := true }).streamDone (.engine (p / 8) i)
    else s
  | _, _ => s

/-- Bytes arrive for a read (R311): with EP they poison every line of the carrier that they touch (R313). -/
def State.readArrives (s : State) (p : Nat) (r : HostRead) (off : Nat) (bs : Bytes) (ep : Bool) : State :=
  let r' := r.fill off bs ep
  let s := if ep && !r.fetch then
      s.updStream (.engine (p / 8) r.engine) fun y => { y with bad := y.bad ++ touchedLines (r.addr + off) bs.length }
    else s
  let s1 := s.updRead p r.tag fun _ => r'
  let done := (r'.part? 0 r'.length).isSome
  match s.engine? p r.engine with
  | none => if done then s1.dropRead p r.tag else s1
  | some g =>
    if r.fetch then
      match r'.part? 0 64 with
      | none => s1
      | some b =>
        let x := s1.takeBuffer p r.engine 0xFFFF b
        let s2 := x.1.dropRead p r.tag
        if g.st = 2 ∧ g.fetching then s2.updEngine p r.engine fun g => { g with fetching := false, desc := some x.2.1 } else s2
    else
      match g.desc with
      | none => if done then s1.dropRead p r.tag else s1
      | some d =>
        if descOp d = 3 then ((State.feedStream p r.engine 1024 s1).issueReads p r.engine).wholeStream p r.engine d
        else
          let s2 := if done then s1.dropRead p r.tag else s1
          ((s2.writeLines p r r' d)).issueReads p r.engine

/-- Requests that waited for a tag are issued (R307, R311). -/
def State.useTags (s : State) (p : Nat) : State := (List.range 16).foldl (fun s i => (s.issueReads p i).fetchNext p i) s

/-- READ_COMPLETION (R300, R310, R311, R313, R315, R316): a tag with no read waiting is discarded silently; a poisoned one is
an advisory non-fatal error. -/
def execReadCompletion (port tag : Nat) (cpl : Completion) (s : State) : Res :=
  .next (match s.fn? port with
    | none => s
    | some f =>
      match f.hostReads.find? (·.tag == tag) with
      | none => s
      | some r =>
        match cpl with
        | .error => (s.failRead port r 0x800F).useTags port
        | .data off bs ep =>
          (if ep then s.updFn port fun f => { f with aerCor := putBit f.aerCor 13 true } else s).readArrives port r off bs ep |>.useTags port)

/-- COMPLETION_TIMEOUT (R300, R310). -/
def execCompletionTimeout (port tag : Nat) (s : State) : Res :=
  .next (match s.fn? port with
    | none => s
    | some f =>
      match f.hostReads.find? (·.tag == tag) with
      | none => s
      | some r => ((s.updFn port fun f => { f with aerUnc := putBit f.aerUnc 14 true }).failRead port r 0x800E).useTags port)

/-- The bytes of the load window. -/
def Fn.loadImage (f : Fn) (n : Nat) : Bytes :=
  (List.range n).map fun i => match f.loadBytes.find? (·.1 == i) with | some x => x.2 | none => 0

/-- Length field of FN_LOAD_CTL (R314). -/
def loadLength (v : Nat) : Nat := bits v 32 20

/-- Lines of the load window that a poisoned write reached (R115). -/
def Fn.loadBad (f : Fn) : List Nat := (f.loadPoison.map (· / 8)).eraseDups

/-- LOAD_GO (R314): FN_LOAD_CTL written with go; a length that is no multiple of 16, or beyond the window, starts nothing. -/
def execLoadGo (port value : Nat) (s : State) : Res :=
  .next (match s.fn? port with
    | none => s
    | some f =>
      if f.loadBusy || f.resetting || !bitSet value 63 || !s.accepting then s
      else
        let n := loadLength value
        let s1 := s.updFn port fun f => { f with loadColl := bits value 0 12, loadLen := n }
        if n % 16 != 0 || 524288 < n then s1
        else
          let x : IngestStream := ⟨.loadWindow port, bits value 0 12, f.loadImage n, 0, f.loadBad, 0, 0, true, false⟩
          ((s1.updFn port fun f => { f with loadBusy := true }).updMem fun m =>
            { m with ingest := (m.ingest.filter (·.carrier != .loadWindow port)) ++ [x] }).streamDone (.loadWindow port))

end Sys2Proof.Machine
end

