-- ==== Sys2Proof/Machine/Power.lean ====
section
/-! DEFINITION. Power, pace, clocks and the emergency input (R369-R395). Temperatures are in units of 0.25 degrees, voltages in
mV, pace in ring cycles per us. Rails: 0-3 VDD_WING0-3, the others as the rail codes of R420. -/

namespace Sys2Proof.Machine

/-- P_W and the required pace of the ACTIVE edition's latency class (R375, R376). -/
def paceW : Nat := 1600
def State.paceR (s : State) : Nat := if s.act.nat 0x2130 1 0 0 = 1 then 2200 else paceW

/-- A Wing's pace: its slowest ring (R375). -/
def Die.pace (d : Die) : Nat := d.rings.foldl min (d.rings.headD 0)

/-- The ACTIVE edition: from the instant the committed one, though its slow objects still wait for their quiesce (R344, R346). -/
def State.activeEdition (s : State) : Edition :=
  if s.ed.quiescing && s.pkg.mark != 1 then s.ed.incoming.getD s.act else s.act

/-- The power limit (R396). -/
def State.powerLimit (s : State) : Nat := s.act.nat 0x2132 1 0 s.pkg.asm.envelope

/-- May the Steward change Depot frequencies while this edition is ACTIVE (R260)? -/
def Edition.freqOpen (e : Edition) : Bool := e.nat 0x2810 5 0 0 == 1 || !(e.colls.any e.class0)

/-- The dies' estimate of a rail's power in uW (R369). -/
def State.railEstimate (s : State) (rail : Nat) : Nat :=
  sumBy (fun d => sumBy (·.2) (d.power.filter (·.1 == rail))) (s.dies.filter (·.present))

/-- A rail's power in uW: the dies' estimate scaled to the rail's last reading (R370); a rail that no die estimates as it was read. -/
def State.railPower (s : State) (rail : Nat) : Rat :=
  match s.pw.rails.find? (·.1 == rail) with
  | none => s.railEstimate rail
  | some x => if x.2.2 = 0 then x.2.1 else (s.railEstimate rail : Rat) * x.2.1 / x.2.2

/-- Package power in W: the sum over the package rails (R370). -/
def State.packagePower (s : State) : Rat :=
  let rails := (s.pw.rails.map (·.1) ++ s.dies.flatMap fun d => d.power.map (·.1)).eraseDups
  (rails.map s.railPower).foldl (· + ·) 0 / 1000000

/-- A round's power joins the last 1 ms: ten rounds of 100 us (R369, R381). -/
def State.takePower (s : State) : State :=
  let xs := (s.packagePower :: s.pw.samples).take 10
  { s with pw := { s.pw with samples := xs, power := xs.foldl (· + ·) 0 / xs.length } }

/-- Set a Wing's VDD_WING over PMBus (R371, R377). -/
def State.setVdd (s : State) (w mv : Nat) : State :=
  match s.die? (wingDie w) with
  | none => s
  | some d =>
    if d.vdd = mv then s else (s.updDie (wingDie w) fun d => { d with vdd := mv }).send (.vout w mv)

/-- The Wings in service. -/
def State.wingsUp (s : State) : List Nat := s.pkg.asm.wings.filter s.wingUp

/-- A Wing's pace is found below P_W (R379). -/
def State.slowWing (s : State) (w : Nat) : State :=
  match s.die? (wingDie w) with
  | none => s
  | some d =>
    let s1 := s.updDie (wingDie w) fun d => { d with paceLow := true, goodRounds := 0 }
    if d.paceLow then s1
    else (s1.updPw fun p => { p with causes := putBit p.causes 0 true }).watermark .d 0x81 s.stewardSrc 0xFFFF false
      (pack [(1, 1), (1, w)])

/-- The voltage one round's step gives a Wing (R373, R377). -/
def nextVdd (hold : Bool) (vdd pace need : Nat) : Nat :=
  if hold then vdd
  else if 100 * pace < 103 * need then min 900 (vdd + 5)
  else if 108 * need < 100 * pace then max 650 (vdd - 5)
  else vdd

/-- One Wing at a telemetry round (R377, R379). -/
def State.roundWing (s : State) (w : Nat) : State :=
  match s.die? (wingDie w) with
  | none => s
  | some d =>
    let v := nextVdd d.vddHold d.vdd d.pace s.paceR
    let s1 := s.setVdd w v
    let s2 := if d.pace < paceW then s1.slowWing w
      else
        let t := s1.updDie (wingDie w) fun d => { d with goodRounds := d.goodRounds + 1, paceLow := d.paceLow && decide (d.goodRounds + 1 < 10) }
        if t.dies.any (·.paceLow) then t else t.resume 1 w
    let short := decide (d.pace < s.paceR) && s.paceR != paceW && v == 900
    let body := pack [(1, w), (2, d.pace)]
    if short && !d.paceShort then
      (s2.updDie (wingDie w) fun d => { d with paceShort := true }).watermark .d 0x82 s.stewardSrc 0xFFFF false body
    else if d.paceShort && decide (s.paceR ≤ d.pace) then
      (s2.updDie (wingDie w) fun d => { d with paceShort := false }).watermark .d 0x82 s.stewardSrc 0xFFFF true body
    else s2

/-- The Depot frequency set of a throttle stage over the edition's target (R380). -/
def State.stageFset (s : State) (stage : Nat) : Nat := max (s.act.nat 0x2810 3 0 0) (stage - 32)

/-- Order a Depot frequency change on every Wing in service whose set differs, one Wing after another (R261, R380, R381); none while
an edition is ACTIVE that forbids it (R260). A change in progress runs on. -/
def State.orderFreq (s : State) (f : Nat) : State :=
  if !s.activeEdition.freqOpen then s
  else
    let ws := s.wingsUp.filter fun w => s.chans.any fun c =>
      c.wing == w && isDepot c.sel && c.st != 0 && c.st != 3 && c.st != 6 && c.fset != f
    let now := s.pw.freqChange.take 1
    let s1 := s.updPw fun p => { p with freqChange := now ++ (ws.filter fun w => !now.contains (w, f)).map fun w => (w, f) }
    if now.isEmpty then s1.startFreq else s1

/-- The throttle stage becomes `n` (R380, R381): leaving 0 and returning to it raise THROTTLE. -/
def State.setStage (s : State) (n cause : Nat) : State :=
  let old := s.pw.stage
  if n = old then s
  else
    let c := if n = 0 then s.pw.stageCause else cause
    let s1 := s.updPw fun p => { p with stage := n, stageCause := c, lastChange := s.tsc }
    let body := pack [(1, n), (1, c)]
    let s2 := if old = 0 then (s1.watermark .d 0x80 s.stewardSrc 0xFFFF false body).bump 0x2135 1 0 1
      else if n = 0 then s1.watermark .d 0x80 s.stewardSrc 0xFFFF true body else s1
    if s.stageFset n = s.stageFset old then s2 else s2.orderFreq (s.stageFset n)

/-- The hottest present die. -/
def State.hottest (s : State) : Int := (s.dies.filter (·.present)).foldl (fun m d => max m d.temp) (-400)

/-- The last stage of the ladder (R380). -/
def State.lastStage (s : State) : Nat := if s.activeEdition.freqOpen then 34 else 32

/-- The stage's move at a round (R381). -/
def State.moveStage (s : State) : State :=
  let p := s.pw.power
  let excess := decide ((s.powerLimit : Rat) < p)
  let hot := decide (400 < s.hottest)
  if !s.pw.freqChange.isEmpty then s
  else if excess || hot then
    (if s.pw.stage < s.lastStage then s.setStage (s.pw.stage + 1) (if excess then 1 else 2) else s)
  else if decide (100 * p ≤ 95 * s.powerLimit) && decide (s.hottest ≤ 388) && decide (s.pw.lastChange + ms ≤ s.tsc) then
    s.setStage (s.pw.stage - 1) s.pw.stageCause
  else s

/-- The thermal limit of the guarantee (R383): above 105 C, until every die is at or below 103 C. -/
def State.thermal (s : State) : State :=
  if 420 < s.hottest then s.suspend 2 0xFF else if s.hottest ≤ 412 then s.resume 2 0xFF else s

/-- Is a PLL domain of a die out of lock? -/
def State.pllOut (s : State) (die domain : Nat) : Bool := s.pw.pllLost.any fun l => l.die == die && l.domain == domain

/-- Does the Steward act now (R374, R387)? -/
def State.stewardRuns (s : State) : Bool := s.running && s.pw.stewardUp && !s.pllOut s.pkg.primary 6

/-- TELEMETRY_ROUND (R369, R377-R383) at a Lobby: the Steward is on the primary Lobby alone (R291). -/
def execTelemetryRound (lobby : Nat) (s : State) : Res :=
  .next (if !s.stewardRuns || lobby != s.pkg.primary then s
    else
      let s1 := (s.settleBuckets.takePower).updPw fun p => { p with lastRound := s.tsc }
      (((s1.wingsUp).foldl State.roundWing s1).thermal).moveStage)

/-- A rail faults (R372): a Wing's rail isolates it, any other starts the emergency sequence. -/
def State.railFault (s : State) (rail status : Nat) : State :=
  let s1 := s.event .d 0x83 s.stewardSrc 0xFFFF (pack [(1, rail), (2, status)])
  if rail < 4 then s1.isolateWing rail 6 else s1.emergency 4 s.pkg.primary

/-- Take a rail's reading with the dies' estimate of that moment (R370). -/
def State.readRail (s : State) (r : RailReading) : State :=
  s.updPw fun p => { p with rails := p.rails.filter (·.1 != r.rail) ++ [(r.rail, r.vout * r.iout, s.railEstimate r.rail)] }

/-- PMBUS_POLL (R370, R372): the STATUS_WORD of a regulator that did not answer is a free value (log 1). -/
def execPmbusPoll (rails : List RailReading) (s : State) : Res :=
  .next (if !s.stewardRuns then s
    else (rails.filter fun r => !r.acked || r.faulted).foldl (fun s r =>
      if r.acked then s.railFault r.rail r.status
      else
        let d := s.draw
        d.2.railFault r.rail (Config.freeNat d.1 % 65536)) ((rails.filter (·.acked)).foldl State.readRail s))

/-- PMB_ALERT (R372): PMB_ALERT_N asserts with a fault of a rail. -/
def execPmbAlert (rail status : Nat) (s : State) : Res :=
  .next (if s.stewardRuns then s.railFault rail status else s)

/-- TELEMETRY_LOST (R373). -/
def execTelemetryLost (die : Nat) (s : State) : Res :=
  .next (match s.die? die with
    | none => s
    | some d =>
      if !s.stewardRuns || !d.present || !d.inService || d.telemetryLost || s.tsc < d.lastTelemetry + ms then s
      else
        let s1 := (s.updDie die fun d => { d with telemetryLost := true }).event .d 0x84 s.stewardSrc 0xFFFF (leBytes 1 die)
        match dieWing die with
        | some w => (s1.setVdd w 900).updDie die fun d => { d with vddHold := true }
        | none => s1)

/-- TELEMETRY_ISOLATION_TIMEOUT (R373). -/
def execTelemetryIsolationTimeout (wing : Nat) (s : State) : Res :=
  .next (match s.die? (wingDie wing) with
    | none => s
    | some d => if s.running && d.inService && decide (d.lastTelemetry + 10 * ms ≤ s.tsc) then s.isolateWing wing 7 else s)

/-- Lobby 0 restarts the Steward and falls back (R374): every VDD_WING at 0.85 V and throttle stage 16. -/
def State.stewardFallback (s : State) : State :=
  let s1 := s.updPw fun p => { p with stewardUp := false }
  let s2 := (s.pkg.asm.wings.filter fun w => match s.die? (wingDie w) with | some d => d.present | none => false).foldl
    (fun s w => s.setVdd w 850) s1
  (s2.setStage 16 3).suspend 3 0xFF

/-- STEWARD_WATCHDOG (R374): no telemetry round for 10 ms. -/
def execStewardWatchdog (s : State) : Res :=
  .next (if s.running && s.pw.stewardUp && decide (s.pw.lastRound + 10 * ms ≤ s.tsc) then s.stewardFallback else s)

/-- STEWARD_RESTART_DONE (R374): the first complete round of the restarted Steward. -/
def execStewardRestartDone (s : State) : Res :=
  .next (if s.running && !s.pw.stewardUp then
      (s.updPw fun p => { p with stewardUp := true, lastRound := s.tsc }).resume 3 0xFF
    else s)

/-- PACE_COMPARATOR_ALERT (R378, R379): a ring's comparator finds this pace. -/
def execPaceComparatorAlert (ring : PaceRing) (pace : Nat) (s : State) : Res :=
  .next (match s.die? (wingDie ring.wing) with
    | none => s
    | some d =>
      if !s.stewardRuns || !d.inService || s.paceR ≤ pace || d.rings.length ≤ ring.idx then s
      else
        let s1 := (s.updDie (wingDie ring.wing) fun d => { d with rings := d.rings.set ring.idx pace }).setVdd ring.wing
          (if d.vddHold then d.vdd else min 900 (d.vdd + 25))
        if pace < paceW then s1.slowWing ring.wing else s1)

/-- THERMTRIP (R384): a die reaches 115 C; THERMTRIP_N stays asserted until main power is removed. -/
def execThermtrip (die : Nat) (s : State) : Res :=
  .next (match s.die? die with
    | none => s
    | some d =>
      if !s.running || !d.present then s
      else (s.updPkg fun p => { p with thermtrip := true }).emergency 3 s.pkg.primary)

/-- Clock domains with a PLL whose loss of lock has an outcome (R385, R387), by die. -/
def pllDomains (die : Nat) : List Nat := if die < 4 then [1, 2, 3, 4, 6, 7] else [1, 8, 9, 10, 11, 12]

/-- Corridor ports of a die whose links are up or retraining. -/
def State.livePorts (s : State) (die : Nat) : List Nat :=
  (s.cor.filter fun p => p.die == die && (p.st == 2 || p.st == 3)).map (·.idx)

/-- Every link of a die that is up retrains (R282, R388). -/
def State.retrainDie (s : State) (die : Nat) : State :=
  (s.cor.filter fun p => p.die == die && p.st == 2).foldl (fun s p =>
    match s.cport? die p.idx with
    | some q => if q.st = 2 then s.retrain die p.idx else s
    | none => s) s

/-- A die becomes time-uncertain with its REF/TSC PLL (R387); the cause field of that record is a free value (log 1). -/
def State.holdover (s : State) (die : Nat) : State :=
  match s.die? die with
  | some d =>
    if d.uncertain || die == s.pkg.primary || !d.present then s
    else
      let x := s.draw
      x.2.setUncertain die true (Config.freeNat x.1 % 256)
  | none => s

/-- PLL_LOCK_LOSS (R282, R387). -/
def execPllLockLoss (die domain : Nat) (s : State) : Res :=
  .next (match s.die? die with
    | none => s
    | some d =>
      if !s.running || !d.present || !(pllDomains die).contains domain || s.pllOut die domain then s
      else
        let s1 := s.updPw fun p => { p with pllLost := p.pllLost ++ [⟨die, domain, s.tsc⟩] }
        if domain = corridorDomain die then s1.retrainDie die else if domain = 1 then s1.holdover die else s1)

/-- A PLL is back in lock. -/
def State.relock (s : State) (die domain : Nat) : State :=
  s.updPw fun p => { p with pllLost := p.pllLost.filter fun l => !(l.die == die && l.domain == domain) }

/-- PLL_RELOCK (R387): traffic resumes, the channels with what has queued; a Corridor link's retrain ends with RETRAIN_DONE. -/
def execPllRelock (die domain : Nat) (s : State) : Res :=
  .next (let s1 := s.relock die domain
    if domain < 9 then s1 else (s1.chans.filter (·.wing + 4 == die)).foldl (fun s c => s.pump c.wing c.sel) s1)

/-- Link ports of a Lobby's PLL domain (R385). -/
def domainPorts (die domain : Nat) : List Nat :=
  let g := 8 * die
  if domain = 2 then (List.range 4).map (g + ·) else if domain = 3 then (List.range 4).map (g + 4 + ·)
  else if domain = 4 then (List.range 8).map (g + ·) else []

/-- What follows when a PLL does not relock within 50 us (R387). -/
def State.pllFails (s : State) (die domain : Nat) : State :=
  if domain = corridorDomain die then (s.livePorts die).foldl (fun s i => s.dropLink die i) s
  else if 9 ≤ domain then s.isolateWing (die - 4) 8
  else if domain = 1 then (s.suspend 4 0xFF).emergency 5 s.pkg.primary
  else if domain = 6 then s.stewardFallback
  else (domainPorts die domain).foldl (fun s p =>
    match s.fn? p with
    | some f => if f.link = 2 then s.linkDown p 1 true else s
    | none => s) s

/-- PLL_RELOCK_TIMEOUT (R282, R387). -/
def execPllRelockTimeout (die domain : Nat) (s : State) : Res :=
  .next (if s.pw.pllLost.any fun l => l.die == die && l.domain == domain && decide (l.at_ + 50000 ≤ s.tsc) then
      (s.pllFails die domain).relock die domain
    else s)

/-- REFCLK_LOSS (R388): every PLL holds its last frequency. -/
def execRefclkLoss (s : State) : Res :=
  .next (if s.running && s.pw.refclk then s.updPw fun p => { p with refclk := false, refclkLostAt := s.tsc } else s)

/-- REFCLK_RETURN (R388): within 1 ms every PLL relocks, with the outcomes of R387 for relock. -/
def execRefclkReturn (s : State) : Res :=
  .next (if s.running && !s.pw.refclk then
      let s1 := s.updPw fun p => { p with refclk := true }
      let ds := (s.dies.filter (·.present)).map (·.code)
      if s.pw.emergency then s1 else ds.foldl (fun s c => (s.retrainDie c).holdover c) s1
    else s)

/-- REFCLK_ABSENCE_TIMEOUT (R388). -/
def execRefclkAbsenceTimeout (s : State) : Res :=
  .next (if s.running && !s.pw.refclk && decide (s.pw.refclkLostAt + ms ≤ s.tsc) then
      (s.suspend 4 0xFF).emergency 5 s.pkg.primary
    else s)

/-- Is a sample of the emergency input taken now (R389, R391)? -/
def State.sampling (s : State) : Bool := s.accepting && s.tsc % 100000 == 0

/-- N of R389. -/
def State.epdLimit (s : State) : Nat := 10 * s.act.nat 0x2134 1 0 20

/-- EPD_EMERGENCY (R390): both channels asserted. -/
def execEpdEmergency (s : State) : Res :=
  .next (if s.sampling then (s.updPw fun p => { p with epdA := true, epdB := true }).emergency 1 s.pkg.primary else s)

/-- A sample finds exactly one channel asserted: 0 A, 1 B (R390). -/
def State.oneChannel (s : State) (channel : Nat) : State :=
  s.updPw fun p => { p with epdA := channel == 0, epdB := channel != 0, epdCount := p.epdCount + 1, epdLast := channel }

/-- EPD_SAMPLE (R390): exactly one channel asserted and n below N. -/
def execEpdSample (channel : Nat) (s : State) : Res :=
  .next (if s.sampling && decide (s.pw.epdCount + 1 < s.epdLimit) then s.oneChannel channel else s)

/-- EPD_FAULT (R390): n reaches N. -/
def execEpdFault (channel : Nat) (s : State) : Res :=
  .next (if s.sampling && decide (s.epdLimit ≤ s.pw.epdCount + 1) then
      ((s.oneChannel channel).event .d 0x86 s.primarySrc 0xFFFF (leBytes 1 channel)).emergency 2 s.pkg.primary
    else s)

/-- EPD_DISCREPANCY (R390): neither channel asserted after n ≥ 1. -/
def execEpdDiscrepancy (s : State) : Res :=
  .next (if s.sampling && s.pw.epdCount != 0 then
      ((s.updPw fun p => { p with epdA := false, epdB := false, epdCount := 0 }).event .d 0x85 s.primarySrc 0xFFFF
        (pack [(1, s.pw.epdLast), (4, 100 * s.pw.epdCount)])).bump 0x2135 2 0 1
    else s)

/-- EPD_DONE (R392-R394): the sequence finishes. -/
def execEpdDone (s : State) : Res :=
  .next (if s.running && s.pw.emergency && !s.pkg.epdDone then s.endEmergency else s)

end Sys2Proof.Machine
end

