-- ==== Sys2Proof/Machine/Dict.lean ====
section
/-! DEFINITION. The object dictionary's entries (R325, R326): type, access, scope, default, limits and which ports
see each, from the dictionary tables of every chapter. -/

namespace Sys2Proof.Machine

/-- Access codes of DESCRIBE (R328): 1 RO, 2 RW, 3 WO, 4 RWE, 5 RWK. Visibility: 0 every port, 1 the control ports
only, 2 DAP sessions only.. -/
structure OdRow where
  idx : Nat
  sub : Nat
  subHi : Nat
  ty : Nat
  len : Nat
  acc : Nat
  scope : Nat
  dflt : Nat
  lo : Nat
  hi : Nat
  vis : Nat
  counter : Bool
deriving DecidableEq, Repr

/-- A numeric entry (types 1-4 unsigned, 5-8 signed). -/
def num (idx sub subHi ty acc scope dflt vis : Nat) : OdRow :=
  let len := 2 ^ ((ty - 1) % 4)
  ⟨idx, sub, subHi, ty, len, acc, scope, dflt, 0, 2 ^ (8 * len) - 1, vis, false⟩

/-- A numeric entry with limits. -/
def lim (idx sub subHi ty acc scope dflt vis lo hi : Nat) : OdRow :=
  { num idx sub subHi ty acc scope dflt vis with lo := lo, hi := hi }

/-- A counter (R367). -/
def ctr (idx sub subHi scope vis : Nat) : OdRow := { num idx sub subHi 4 1 scope 0 vis with counter := true }

/-- An octets entry. -/
def oct (idx sub subHi n acc scope vis : Nat) : OdRow := ⟨idx, sub, subHi, 0x10, n, acc, scope, 0, 0, 0, vis, false⟩

/-- A domain entry. -/
def dom (idx sub subHi vis : Nat) : OdRow := ⟨idx, sub, subHi, 0x11, 0, 4, 0, 0, 0, 0x100000, vis, false⟩

/-- Identity, ports, the key, sessions (R324, R349, R437). -/
def odRows1 : List OdRow :=
  [num 0x1000 1 1 2 1 0 0 0, num 0x1000 2 2 1 1 0 0 0, num 0x1000 3 3 4 1 0 0 0,
   lim 0x1010 1 1 1 4 0 0 0 0 15, num 0x1010 2 2 1 1 0 0 1, lim 0x1010 3 3 1 4 0 8 0 1 16, num 0x1010 4 4 4 1 0 0 0,
   num 0x1020 1 1 1 2 0 0 1, num 0x1020 2 2 3 1 0 0 1, num 0x1020 3 3 4 1 0 0 1, ctr 0x1020 4 4 0 1,
   num 0x1030 1 8 3 1 0 0 1,
   lim 0x1031 1 1 3 4 0 60 1 10 3600, ctr 0x1031 2 3 0 1,
   lim 0x1100 1 1 1 2 0 0 0 0 15,
   num 0x1101 1 5 1 1 1 0 0, num 0x1101 6 6 2 1 1 0 0, ctr 0x1101 7 11 1 0,
   lim 0x1102 1 1 1 5 0 0 1 0 1, num 0x1102 2 2 2 1 0 0 1,
   num 0x1103 1 0x20 1 4 0 0 0,
   lim 0x1104 1 8 4 4 1 0 0 0 (2 ^ 50)]

/-- Package and dies (R4, R25, R51, R140, R243, R292, R396, R414, R437). -/
def odRows2 : List OdRow :=
  [num 0x2000 1 1 2 1 0 0 0, num 0x2000 2 4 1 1 0 0 0,
   num 0x2001 1 2 1 1 0 0 0,
   num 0x2010 1 2 1 1 0 0 0, num 0x2010 3 3 2 1 0 0 0, num 0x2010 4 4 4 1 0 0 0, num 0x2010 5 5 2 1 0 0 0,
   num 0x2010 6 6 1 1 0 0 0, num 0x2010 7 7 3 1 0 0 0,
   lim 0x2110 1 1 2 4 0 10 0 1 1000, lim 0x2110 2 2 1 4 0 8 0 0 32, lim 0x2110 3 3 1 4 0 8 0 1 32,
   lim 0x2111 1 4 1 4 0 8 0 0 16,
   ctr 0x2120 1 8 0 0, ctr 0x2121 1 8 0 0,
   lim 0x2130 1 1 1 4 0 0 0 0 1, num 0x2130 2 5 2 1 0 0 0, num 0x2131 1 4 2 1 0 0 0,
   lim 0x2132 1 1 2 4 0 150 0 50 340, num 0x2132 2 2 2 1 0 0 0, num 0x2132 3 3 1 1 0 0 0,
   num 0x2133 1 8 6 1 0 0 0,
   lim 0x2134 1 1 1 4 0 20 0 2 200, num 0x2134 2 2 1 1 0 0 0,
   ctr 0x2135 1 2 0 0, num 0x2136 1 2 1 1 0 0 0,
   num 0x2140 1 4 3 1 0 0 0, num 0x2141 1 4 3 1 0 0 0, num 0x2142 1 4 3 1 0 0 0, num 0x2143 1 4 3 1 0 0 0,
   num 0x2144 1 0x10 2 1 0 1000 0, num 0x2145 1 0x10 2 1 0 1000 0, ctr 0x2146 1 1 0 0,
   num 0x2200 1 1 1 2 0 0 1, num 0x2200 2 5 1 1 5 0 1, ctr 0x2201 1 7 5 1,
   num 0x2202 1 2 1 1 0 0 0, num 0x2202 3 6 3 1 0 0 0, ctr 0x2202 7 10 0 0]

/-- Channels (R243, R270). -/
def odRows3 : List OdRow :=
  [num 0x2800 1 1 2 2 0 0 0, ctr 0x2801 1 6 4 0, num 0x2801 7 7 4 1 4 0 0,
   lim 0x2802 1 1 3 4 4 1000 0 1 1000000,
   num 0x2803 1 3 1 1 4 0 0, lim 0x2803 4 4 1 5 4 0 1 1 3, num 0x2803 5 5 1 1 4 0 0, num 0x2803 6 6 2 1 4 0 0,
   ctr 0x2804 1 5 4 0,
   lim 0x2810 1 1 1 4 0 1 0 0 2, lim 0x2810 2 2 3 4 0 1000 0 64 1000000, lim 0x2810 3 3 1 4 0 0 0 0 2,
   lim 0x2810 4 4 3 4 0 20000 0 1000 1000000, lim 0x2810 5 5 1 4 0 0 0 0 1]

/-- Collections (R68, R96, R119, R140, R188, R243, R414). -/
def odRows4 : List OdRow :=
  [lim 0x3000 1 1 2 2 0 0 0 0 0xFFF, num 0x3000 2 2 1 1 2 0 0,
   lim 0x3001 1 1 1 4 2 0 0 0 3, lim 0x3001 2 2 1 4 2 0 0 0 5, lim 0x3001 3 3 4 4 2 0 0 0 (2 ^ 46),
   lim 0x3001 4 4 1 4 2 0 0 0 15, num 0x3001 5 5 2 4 2 0xFFFF 0,
   num 0x3002 1 2 4 4 2 0 0, num 0x3002 3 5 4 1 2 0 0,
   lim 0x3003 1 1 1 4 2 0 0 0 1, lim 0x3003 2 2 1 4 2 0 0 0 15, lim 0x3003 3 3 1 4 2 12 0 8 16, num 0x3003 4 4 1 1 2 0 0,
   num 0x3004 1 1 3 4 2 8 0, num 0x3004 2 2 3 4 2 0 0,
   lim 0x3005 1 1 1 4 2 3 0 0 3, num 0x3005 2 3 3 4 2 0 0, ctr 0x3005 4 4 2 0, num 0x3005 5 5 2 1 2 1000 0,
   num 0x3006 1 1 2 4 2 0 0, num 0x3006 2 2 2 1 2 0 0, lim 0x3006 3 3 3 4 2 10000 0 100 600000,
   lim 0x3006 4 4 1 4 2 0 0 0 7, num 0x3006 5 5 4 4 2 0 0,
   num 0x3007 1 0x40 2 4 2 0xFFFF 0,
   num 0x3008 1 1 1 4 2 0xFF 0, num 0x3008 2 2 2 1 2 0 0, num 0x3008 3 5 4 1 2 0 0, num 0x3008 6 6 4 4 2 (2 ^ 64 - 1) 0,
   ctr 0x3009 1 2 2 0,
   lim 0x300A 1 1 1 4 2 0 0 0 1, lim 0x300A 2 2 1 4 2 32 0 1 255, lim 0x300A 3 3 1 4 2 4 0 0 254,
   lim 0x300A 4 4 1 4 2 0 0 0 1, lim 0x300A 5 5 1 4 2 100 0 0 100,
   num 0x300B 1 4 4 1 2 0 0, ctr 0x300B 5 7 2 0,
   num 0x300C 1 0x10 4 4 2 0 0,
   num 0x300D 1 1 1 1 2 0 0,
   num 0x3010 1 0x10 2 4 2 0xFFFF 0, lim 0x3011 1 1 1 4 2 64 0 0 64, lim 0x3011 2 2 1 4 2 16 0 0 16]

/-- Sequence pools, one index each (R162). -/
def poolRows (i : Nat) : List OdRow :=
  [num i 1 1 4 4 2 0 0, num i 2 2 3 4 2 0 0, num i 3 3 3 4 2 0 0, num i 4 4 3 4 2 0 0, num i 5 5 4 1 2 0 0]

/-- Sequence objects (R162). -/
def odRows5 : List OdRow :=
  ((List.range 8).flatMap fun p => poolRows (0x3800 + p)) ++
  [num 0x3810 1 1 3 2 2 0 0, num 0x3810 2 2 1 1 3 0 0, num 0x3810 3 3 3 1 3 0 0, num 0x3810 4 4 1 1 3 0 0,
   num 0x3810 5 5 3 1 3 0 0, num 0x3810 6 6 4 1 3 0 0,
   oct 0x3811 1 1 56 3 2 1, num 0x3811 2 3 2 1 2 0 1, num 0x3811 4 4 3 1 2 0 1,
   num 0x3812 1 1 3 1 2 0 0, num 0x3812 2 2 4 1 2 0 0, ctr 0x3812 3 3 2 0,
   num 0x38FF 1 1 3 1 0 0 0]

/-- Workbench and docents (R188, R209). -/
def odRows6 : List OdRow :=
  [lim 0x4000 1 4 2 4 0 96 0 0 256, num 0x4001 1 0x40 3 1 0 0 0, dom 0x4002 1 0x40 1,
   lim 0x4010 1 1 1 2 0 0 0 0 3, num 0x4010 2 3 1 1 6 0 0, num 0x4010 4 4 2 1 6 0 0, num 0x4010 5 5 4 1 6 0 0,
   ctr 0x4011 1 2 6 0,
   num 0x4012 1 1 3 2 0 0 0, num 0x4012 2 3 2 1 7 0 0, num 0x4012 4 4 1 1 7 0 0, num 0x4012 5 5 4 1 7 0 0,
   oct 0x4013 1 1 56 3 2 1, num 0x4013 2 3 2 1 2 0 1, num 0x4013 4 4 3 1 2 0 1,
   num 0x4014 1 1 3 3 0 0 1,
   num 0x4100 1 0x20 3 1 0 0 1, num 0x4101 1 0x40 3 4 0 0 1, lim 0x4102 1 5 1 4 0 0 1 0 32, dom 0x4103 1 0x20 1,
   lim 0x4110 1 1 1 2 0 0 1 0 0x3F, num 0x4110 2 5 1 1 8 0 1, ctr 0x4110 6 6 8 1,
   lim 0x4111 1 1 1 3 0 0 1 0 0x3F, num 0x4112 1 1 4 3 0 0 1,
   lim 0x4120 1 1 3 4 0 86400 1 3600 604800, lim 0x4120 2 2 1 4 0 2 1 1 16, lim 0x4120 3 3 1 4 0 25 1 5 100,
   num 0x4121 1 1 2 3 0 0 1, num 0x4121 2 2 2 1 0 0 1,
   num 0x4130 1 1 2 2 8 0 1, num 0x4130 2 2 4 1 8 0 1, num 0x4130 3 3 2 1 8 0 1] ++
  (List.range 32).map fun p => num (0x4140 + p) 1 0x10 4 4 0 0 1

/-- Telemetry, events, editions, diagnostics, security (R349, R368, R437, R243, R454). -/
def odRows7 : List OdRow :=
  [num 0x5000 1 1 4 1 0 0 0, num 0x5001 1 8 7 1 0 0 0, num 0x5001 9 9 1 1 0 0 0,
   oct 0x5002 1 1 8 2 0 1, num 0x5002 2 2 4 2 0 0 1, num 0x5002 3 3 1 1 0 0 1,
   num 0x6010 1 1 3 2 0 0 2, num 0x6010 2 2 3 1 0 0 2, oct 0x6011 1 1 1024 1 0 2,
   num 0x7000 1 1 3 1 0 0 0, oct 0x7000 2 2 48 1 0 0, num 0x7000 3 3 3 1 0 0 0, oct 0x7000 4 4 48 1 0 0,
   num 0x7000 5 5 1 1 0 0 0, num 0x7000 6 6 4 1 0 0 0,
   lim 0x7001 1 1 1 5 0 0 1 1 5, num 0x7001 2 2 1 1 0 0 1, oct 0x7001 3 3 48 1 0 1, num 0x7001 4 5 2 1 0 0 1,
   num 0x7001 6 6 1 1 0 0 1, num 0x7001 7 8 3 1 0 0 1,
   num 0x7002 1 1 4 5 0 0 1, num 0x7002 2 2 1 1 0 0 1, num 0x7002 3 3 2 1 0 0 1,
   lim 0x7003 1 1 3 4 0 30000 1 1000 3600000, lim 0x7003 2 2 1 4 0 0 1 0 1,
   oct 0x8001 1 4 1024 1 4 1, num 0x8001 5 5 2 1 4 0 1,
   lim 0x8002 1 4 1 5 0 0 1 1 2, num 0x8002 5 8 1 1 0 0 1,
   num 0x8010 1 1 2 5 0 0xFFFF 1, num 0x8011 1 4 4 5 4 0 1,
   oct 0x8020 1 1 64 1 0 1, oct 0x8020 2 2 96 5 0 1, num 0x8020 3 3 1 1 0 0 1,
   oct 0xA000 1 9 1024 1 0 0,
   num 0xA001 1 2 3 1 0 0 1, lim 0xA001 3 3 1 5 0 0 1 1 1, oct 0xA001 4 4 97 1 0 1,
   oct 0xA002 1 2 97 5 0 1, num 0xA002 3 3 1 1 0 0 1,
   num 0xA003 1 1 3 5 0 0 1, oct 0xA003 2 2 256 5 0 1, lim 0xA003 3 3 1 5 0 0 1 1 2, num 0xA003 4 4 1 1 0 0 1]

/-- Every entry, in ascending index and subindex (subindex 0 apart). -/
def odRows : List OdRow :=
  odRows1 ++ odRows2 ++ odRows3 ++ odRows4 ++ odRows5 ++ odRows6 ++ odRows7

/-- The row of an entry. -/
def odRow (idx sub : Nat) : Option OdRow :=
  odRows.find? fun r => r.idx == idx && r.sub ≤ sub && sub ≤ r.subHi

/-- The highest subindex of an index, when the index exists (R325, subindex 0). -/
def odHighest (idx : Nat) : Option Nat :=
  match odRows.filter (·.idx == idx) with
  | [] => none
  | rs => some (rs.foldl (fun m r => max m r.subHi) 0)

/-- The (index, subindex) pairs of the rows of a list, subindex 0 of each index before its others; `last` is the index of the
row before. -/
def entriesFrom (last : Option Nat) : List OdRow → List (Nat × Nat)
  | [] => []
  | r :: rs =>
    (if last = some r.idx then [] else [(r.idx, 0)]) ++ (List.range' r.sub (r.subHi + 1 - r.sub)).map (fun i => (r.idx, i)) ++
      entriesFrom (some r.idx) rs

/-- Every (index, subindex) of the dictionary in ascending order, subindex 0 of each index included. -/
def odEntries : List (Nat × Nat) := entriesFrom none odRows

end Sys2Proof.Machine
end

