-- ==== Sys2Proof/Machine/Signature.lean ====
section
/-! DEFINITION. ECDSA P-384 with SHA-384 (R167, R419, R433, R452): verification of a signature of r and s, 48 bytes each,
big-endian, under an uncompressed public key of 97 bytes. -/

namespace Sys2Proof.Machine

/-- Field prime, order, curve coefficient b and base point of P-384; its coefficient a is -3. -/
def p384 : Nat := 2 ^ 384 - 2 ^ 128 - 2 ^ 96 + 2 ^ 32 - 1
def p384n : Nat := 0xFFFFFFFFFFFFFFFFFFFFFFFFFFFFFFFFFFFFFFFFFFFFFFFFC7634D81F4372DDF581A0DB248B0A77AECEC196ACCC52973
def p384b : Nat := 0xB3312FA7E23EE7E4988E056BE3F82D19181D9C6EFE8141120314088F5013875AC656398D8A2ED19D2A85C8EDD3EC2AEF
def p384G : Nat × Nat :=
  (0xAA87CA22BE8B05378EB1C71EF320AD746E1D3B628BA79B9859F741E082542A385502F25DBF55296C3A545E3872760AB7,
   0x3617DE4A96262C6F5D9E98BF9292DC29F8F41DBD289A147CE9DA3113B5F0B8C00A60B1CE1D7E819D7A431D7C90EA0E5F)

/-- `b ^ e mod m`, over the lowest `k` bits of `e`. -/
def powMod (m : Nat) : Nat → Nat → Nat → Nat
  | 0, _, _ => 1 % m
  | k + 1, b, e =>
    let r := powMod m k (b * b % m) (e / 2)
    if e % 2 = 1 then r * b % m else r

/-- Inverse modulo a prime of at most 384 bits. -/
def invMod (m x : Nat) : Nat := powMod m 384 (x % m) (m - 2)

/-- Sum of two points of the curve; none is the point at infinity. -/
def pointAdd : Option (Nat × Nat) → Option (Nat × Nat) → Option (Nat × Nat)
  | none, q => q
  | p, none => p
  | some (x1, y1), some (x2, y2) =>
    let sub (a b : Nat) : Nat := (a + p384 - b) % p384
    if x1 = x2 ∧ (y1 + y2) % p384 = 0 then none
    else
      let l := if x1 = x2 then sub (3 * x1 * x1 % p384) 3 * invMod p384 (2 * y1) % p384
        else sub y2 y1 * invMod p384 (sub x2 x1) % p384
      let x := sub (sub (l * l % p384) x1) x2
      some (x, sub (l * sub x1 x % p384) y1)

/-- A multiple of a point, by the lowest `k` bits of the factor. -/
def pointMul : Nat → Nat → Option (Nat × Nat) → Option (Nat × Nat)
  | 0, _, _ => none
  | k + 1, n, p =>
    let r := pointMul k (n / 2) (pointAdd p p)
    if n % 2 = 1 then pointAdd r p else r

/-- The point of an uncompressed public key, when it lies on the curve. -/
def keyPoint (key : Bytes) : Option (Nat × Nat) :=
  let x := beNat (slice key 1 48)
  let y := beNat (slice key 49 48)
  if key.length = 97 ∧ key.headD 0 = 4 ∧ x < p384 ∧ y < p384 ∧ y * y % p384 = (x * x * x + (p384 - 3) * x + p384b) % p384 then some (x, y)
  else none

/-- Does a signature over a message verify under a public key? -/
def ecdsaVerifies (key msg sig : Bytes) : Bool :=
  let r := beNat (slice sig 0 48)
  let s := beNat (slice sig 48 48)
  match keyPoint key with
  | none => false
  | some q =>
    if r = 0 ∨ s = 0 ∨ p384n ≤ r ∨ p384n ≤ s then false
    else
      let w := invMod p384n s
      let u := pointMul 384 (beNat (sha384 msg) * w % p384n) (some p384G)
      match pointAdd u (pointMul 384 (r * w % p384n) (some q)) with
      | none => false
      | some t => t.1 % p384n == r

/-- A public key of Barlon's held in the boot ROM: 0 image-signing, 1 firmware, 2 debug. -/
def romKey (k : Nat) : Bytes := (List.range 97).map (Config.romKey k)

end Sys2Proof.Machine
end

