-- ==== Sys2Proof/Machine/Validation.lean ====
section
/-! DEFINITION. Validation of the STAGED edition (R343): the checks in the manual's order, each answering the entry that
fails it, and the edition hash (R341). -/

namespace Sys2Proof.Machine

/-- The entry that fails a check: index, subindex, object. -/
abbrev Fail := Nat × Nat × Nat

/-- The granularity of an entry's values: 1, or the multiple its contents name (R38, R42, R51, R52, R68, R96, R141). -/
def odStep (idx sub : Nat) : Nat :=
  if idx = 0x1104 ∨ (idx = 0x3001 ∧ sub = 3) ∨ idx = 0x3002 ∨ (idx = 0x3006 ∧ sub = 5) ∨ (idx = 0x3008 ∧ sub = 6) then 65536
  else if idx = 0x3004 then (if sub = 1 then 8 else 256)
  else if 0x3800 ≤ idx ∧ idx ≤ 0x3807 ∧ sub = 2 then 64
  else 1

/-- Bits of an entry that are rsvd: a 1 written there is ignored (R11, R140, R209). -/
def odRsvd (idx : Nat) : Nat := if idx = 0x300C then 3 * 2 ^ 61 else if idx = 0x4101 then 2 ^ 32 - 1 - 0x1F3F else 0

/-- A value of an entry less its rsvd bits. -/
def dropRsvd (idx : Nat) (v : Bytes) : Bytes :=
  if odRsvd idx = 0 then v else leBytes v.length (leNat v - (leNat v &&& odRsvd idx))

/-- Limits of an entry: those that depend on the package (R324, R349, R396), otherwise the row's. -/
def State.odHi (s : State) (r : OdRow) : Nat :=
  if r.idx = 0x1010 ∧ r.sub = 1 then s.pkg.asm.ports - 1
  else if r.idx = 0x2132 ∧ r.sub = 1 then s.pkg.asm.envelope
  else r.hi

/-- Lower limit of an entry: a partition is at least 8 KiB and a size at least 64 KiB (R38, R51). -/
def odLo (r : OdRow) : Nat :=
  if r.idx = 0x3004 ∧ r.sub = 1 then 8 else if r.idx = 0x3001 ∧ r.sub = 3 then 65536 else r.lo

/-- Does a value lie within its entry's own limits? An unset view offset reads all ones. -/
def State.valueOk (s : State) (r : OdRow) (sub : Nat) (v : Bytes) : Bool :=
  if r.ty = 0x11 then v.length ≤ r.hi
  else v.length == r.len && (r.ty == 0x10 ||
    (decide (odLo r ≤ leNat v) && decide (leNat v ≤ s.odHi r) && leNat v % odStep r.idx sub == 0))

/-- The objects of a scope in an edition (R325, R341): of a collection-scoped entry, the collections that exist. -/
def State.scopeObjects (s : State) (e : Edition) (scope : Nat) : List Nat :=
  if scope = 0 then [0]
  else if scope = 1 then List.range s.pkg.asm.ports
  else if scope = 2 then sortBy (fun a b => decide (a ≤ b)) e.colls
  else if scope = 4 then sortBy (fun a b => decide (a ≤ b)) (s.chans.map fun c => chanObj c.wing c.sel)
  else []

/-- May an edition hold a value for this object of a scope? -/
def State.objectOk (s : State) (scope o : Nat) : Bool :=
  if scope = 2 then o < 4096 else (s.scopeObjects s.act scope).contains o

/-- The default of an RWE entry: that of its row, or the one its chapter computes (R203, R307, R396). -/
def State.defaultValue (s : State) (r : OdRow) (sub : Nat) : Bytes :=
  if r.ty = 0x11 then (if r.idx = 0x4103 then Config.defaultImage sub else [])
  else if r.idx = 0x1103 then
    leBytes 1 (if 0x11 ≤ sub ∧ s.pkg.asm.lobbies.length = 1 then 0xFF else 8 * ((sub - 1) / 16) + (sub - 1) % 16 % 8)
  else if r.idx = 0x2132 then leBytes 2 s.pkg.asm.envelope
  else if r.idx = 0x4101 then leBytes 4 (defaultBinding s.sites s.pkg.bootMode (sub - 1))
  else if r.idx = 0x4102 then leBytes 1 (defaultHandler sub)
  else leBytes r.len r.dflt

/-- The value of an RWE entry in an edition. -/
def State.editionValue (s : State) (e : Edition) (r : OdRow) (sub o : Nat) : Bytes :=
  match e.get r.idx sub o with
  | some v => v
  | none => s.defaultValue r sub

/-- The RWE rows of an index. -/
def rweRows (i : Nat) : List OdRow := odRows.filter fun r => r.idx == i && r.acc == 4

/-- What the edition hash covers (R341). -/
def State.hashBytes (s : State) (e : Edition) : Bytes :=
  (((odRows.filter (·.acc == 4)).map (·.idx)).eraseDups).flatMap fun i =>
    (s.scopeObjects e (((rweRows i).headD (num 0 0 0 1 4 0 0 0)).scope)).flatMap fun o =>
      (rweRows i).flatMap fun r => (List.range (r.subHi + 1 - r.sub)).flatMap fun k =>
        let v := s.editionValue e r (r.sub + k) o
        leBytes 2 i ++ leBytes 1 (r.sub + k) ++ leBytes 4 o ++ leBytes 4 v.length ++ v

/-- The edition hash (R341). -/
def State.editionHash (s : State) (e : Edition) : Bytes := sha384 (s.hashBytes e)

/-- Wings present and in service (R25). -/
def State.upWings (s : State) : List Nat := s.pkg.asm.wings.filter s.wingUp

/-- The Wings a collection of an edition names, or those in service for a Spread set of 0 (R47). -/
def State.namedWings (s : State) (e : Edition) (c : Nat) : List Nat :=
  if e.setNamed c = 0 ∧ !e.homed c then s.upWings else maskList 4 (e.setNamed c)

/-- The Wing set a collection has under an edition: fixed at creation (R47). -/
def State.wsIn (s : State) (e : Edition) (c : Nat) : List Nat := if s.live c then s.wingsOf c else s.namedWings e c

/-- Is a collection of an edition one the edition creates? -/
def State.isNew (s : State) (c : Nat) : Bool := !s.act.has c

/-- Does a live collection hold a stored DELTA block? -/
def State.holdsDelta (s : State) (c : Nat) : Bool := s.mem.cat.any fun e => e.coll == c && e.stored && e.coding == 3

/-- The first of some values for which a test gives an entry. -/
def firstFail {α : Type} (l : List α) (f : α → Option Fail) : Option Fail := l.findSome? f

/-- An entry when a test fails. -/
def failIf (b : Bool) (idx sub o : Nat) : Option Fail := if b then some (idx, sub, o) else none

/-- 0x0701 VALUE: an entry outside its limits, or one the edition must set and has not (R68). -/
def State.checkValue (s : State) (e : Edition) : Option Fail :=
  (firstFail e.vals fun v => match odRow v.idx v.sub with
    | none => some (v.idx, v.sub, v.obj)
    | some r => failIf (r.acc != 4 || !s.valueOk r v.sub v.val || !s.objectOk r.scope v.obj) v.idx v.sub v.obj).or
  (firstFail e.colls fun c =>
    (firstFail [(0x3001, 3), (0x3002, 1), (0x3002, 2), (0x3003, 1)] fun k => failIf (e.get k.1 k.2 c).isNone k.1 k.2 c).or
    ((failIf (e.kind c != 1 && e.fmt c == 0) 0x3001 2 c).or
    (firstFail [(0x3006, 4), (0x3006, 5)] fun k => failIf ((e.get k.1 k.2 c).isNone) k.1 k.2 c)))

/-- 0x0101 CREATION: a Creation attribute of an existing collection changes (R39). -/
def State.checkCreation (s : State) (e : Edition) : Option Fail :=
  let a := s.act
  firstFail (e.colls.filter fun c => a.has c) fun c =>
    (failIf (e.kind c != a.kind c) 0x3001 1 c).or
    ((failIf (e.kind c != 1 && e.fmt c != a.fmt c) 0x3001 2 c).or
    ((failIf (e.size c != a.size c) 0x3001 3 c).or
    ((failIf (e.flags c % 8 != a.flags c % 8) 0x3001 4 c).or
    ((failIf (e.anchor c != a.anchor c) 0x3001 5 c).or
    ((failIf (e.homed c != a.homed c) 0x3003 1 c).or
    ((failIf (e.setNamed c != a.setNamed c) 0x3003 2 c).or
    (failIf (e.grainLog c != a.grainLog c) 0x3003 3 c)))))))

/-- 0x0102 KIND (R40, R48, R63): what a collection of each kind may be. -/
def State.checkKind (s : State) (e : Edition) : Option Fail :=
  firstFail e.colls fun c =>
    let k := e.kind c
    let fine := decide (e.grainLog c < 12)
    (failIf (k != 3 && e.anchor c != 0xFFFF) 0x3001 5 c).or
    ((failIf (k != 1 && fine) 0x3003 3 c).or
    ((failIf (k == 1 && fine && (e.viewOn c || e.exhibit c)) 0x3001 4 c).or
    (failIf (e.exhibit c && (k == 2 || s.holdsDelta c)) 0x3001 4 c)))

/-- 0x0103 PLACEMENT, of the collections the edition creates (R47, R64). -/
def State.checkPlacement (s : State) (e : Edition) : Option Fail :=
  firstFail (e.colls.filter s.isNew) fun c =>
    let ws := maskList 4 (e.setNamed c)
    let x := e.anchor c
    (failIf (ws.any fun w => !s.wingUp w) 0x3003 2 c).or
    ((failIf (e.homed c && ws.length != 1) 0x3003 2 c).or
    ((failIf ((s.namedWings e c).isEmpty) 0x3003 2 c).or
    (failIf (x != 0xFFFF &&
      (!e.has x || !e.exhibit x || !(e.grants x).contains c || decide (e.size x < e.size c) || e.homed x != e.homed c ||
       s.wsIn e x != s.wsIn e c || e.grainLog x != e.grainLog c)) 0x3001 5 c)))

/-- The extents an edition offers at a port: collection, whether of the view, region, offset, length. -/
def Edition.extentsAt (e : Edition) (p : Nat) : List (Nat × Bool × Nat × Nat × Nat) :=
  (e.colls.filter fun c => bitSet (e.ports c) p).flatMap fun c =>
    (c, false, e.extentAt c false) :: (if e.viewOn c then [(c, true, e.extentAt c true)] else [])

/-- Entry that places an extent. -/
def placeEntry (view : Bool) (c : Nat) : Fail := (if view then 0x3008 else 0x3006, if view then 6 else 5, c)

/-- 0x0104 EXTENT (R42, R43, R96). -/
def State.checkExtent (s : State) (e : Edition) : Option Fail :=
  (firstFail e.colls fun c =>
    (failIf (e.viewOn c && (e.get 0x3008 1 c).isNone) 0x3008 1 c).or
    ((failIf (e.viewOn c && (e.get 0x3008 6 c).isNone) 0x3008 6 c).or
    (failIf (e.viewOn c && e.viewRegion c == e.region c) 0x3008 1 c))).or
  (firstFail (List.range 16) fun p =>
    let xs := e.extentsAt p
    (firstFail xs fun x =>
      if e.regionSize p x.2.2.1 = 0 ∨ 8 ≤ x.2.2.1 ∨ e.regionSize p x.2.2.1 < x.2.2.2.1 + x.2.2.2.2 then
        some (placeEntry x.2.1 x.1)
      else if xs.any fun y => (y.1, y.2.1) != (x.1, x.2.1) && y.2.2.1 == x.2.2.1 &&
          decide (x.2.2.2.1 < y.2.2.2.1 + y.2.2.2.2) && decide (y.2.2.2.1 < x.2.2.2.1 + x.2.2.2.2) then
        some (placeEntry x.2.1 x.1)
      else none).or
    (failIf (decide (256 < xs.length + (s.mem.extents.filter fun y => y.port == p && y.leaving).length)) 0x3006 1
      ((xs.getLast?.map (·.1)).getD 0)))

/-- Unique content of the internal reserve, in bytes (R41): 1/32 of a channel for each Depot pair with a channel present. -/
def State.reserveUnique (s : State) : Nat :=
  sumBy (fun w => sumBy (fun k => if s.chanPresent w (2 * k) || s.chanPresent w (2 * k + 1) then s.depotBytes / 32 else 0) [0, 1])
    s.pkg.asm.wings

/-- 0x0105 CATALOGUE (R41). -/
def State.checkCatalogue (s : State) (e : Edition) : Option Fail :=
  failIf (decide (3 * s.reserveUnique < 4 * sumBy (fun c => e.size c / 256) e.colls)) 0x3001 3 ((e.colls.getLast?).getD 0)

/-- 0x0106 PARTITION, in KiB (R51, R52). -/
def State.checkPartition (s : State) (e : Edition) : Option Fail :=
  firstFail s.pkg.asm.wings fun w =>
    let loan := 1024 * e.nat 0x2111 (w + 1) 0 8
    let home := e.colls.filter fun c => (s.wsIn e c).contains w
    let lent := e.colls.filter fun c => e.homed c && !(s.wsIn e c).contains w
    (failIf (decide (44 * 1024 < loan + sumBy e.partition home)) 0x3004 1 ((home.getLast?).getD 0)).or
    (failIf (decide (loan < sumBy e.loanShare lent)) 0x3004 2 ((lent.getLast?).getD 0))

/-- Capacity of a tier on a Wing in slots, outside the reserve (R123): the channels present and not retired. -/
def State.tierCapacity (s : State) (w : Nat) (gallery : Bool) : Nat :=
  (s.chans.filter fun c => c.wing == w && isDepot c.sel == !gallery && c.st != 0 && c.st != 6).length * s.usableSlots (!gallery)

/-- Quota that the slot capacity is derived from (R54). -/
def Edition.baseQuota (e : Edition) (c : Nat) : Nat := if e.durable c then e.quotaD c else e.quotaG c + e.quotaD c

/-- 0x0107 QUOTA (R53, R54, R123). -/
def State.checkQuota (s : State) (e : Edition) : Option Fail :=
  (firstFail e.colls fun c =>
    (failIf (e.durable c && decide (e.quotaD c < e.quotaG c)) 0x3002 1 c).or
    ((failIf (decide ((if e.overcommit c then 4 else 1) * e.baseQuota c < e.size c)) 0x3001 3 c).or
    ((failIf (s.live c && decide (quotaSlots (e.quotaG c) < s.chargedTier c true)) 0x3002 1 c).or
    (failIf (s.live c && decide (quotaSlots (e.quotaD c) < s.chargedTier c false)) 0x3002 2 c)))).or
  (firstFail s.pkg.asm.wings fun w => firstFail [true, false] fun g =>
    let cs := e.colls.filter fun c => (s.wsIn e c).contains w
    failIf (decide (s.tierCapacity w g < sumBy (fun c => shareOf e (s.wsIn e c) c w g) cs)) 0x3002 (if g then 1 else 2)
      ((cs.getLast?).getD 0))

/-- 0x0108 GRANT (R38, R63, R65): grants belong to exhibits, and an exhibit with a grant keeps its mark and stays. -/
def State.checkGrant (s : State) (e : Edition) : Option Fail :=
  (firstFail e.colls fun c => failIf (!e.exhibit c && !(e.grants c).isEmpty) 0x3007 1 c).or
  (firstFail s.act.colls fun x =>
    ((failIf (!e.has x && !(s.act.grants x).isEmpty) 0x3001 1 x).or
    (failIf (s.act.exhibit x && e.has x && !e.exhibit x && !(s.act.grants x).isEmpty) 0x3001 4 x)).or
    (firstFail (s.act.grants x) fun g =>
      failIf (e.has x && !(e.grants x).contains g && e.has g && s.live g && s.holdsDelta g) 0x3007 1 x))

/-- The four values of a pool (R141, R162). -/
def Edition.poolVals (e : Edition) (c p : Nat) : List Nat := (List.range 4).map fun i => e.nat (0x3800 + p) (i + 1) c 0

/-- Does an edition define a pool: is its record size not 0 (R162)? -/
def Edition.definesPool (e : Edition) (c p : Nat) : Bool := e.nat (0x3800 + p) 2 c 0 != 0

/-- 0x0109 POOL (R141, R142). -/
def State.checkPool (s : State) (e : Edition) : Option Fail :=
  (firstFail e.colls fun c => firstFail ((List.range 8).filter (e.definesPool c)) fun p =>
    let v := e.poolVals c p
    let i := 0x3800 + p
    let r := v.getD 1 0
    let t := v.getD 2 0
    let n := v.getD 3 0
    let u := Nat.lcm 65536 (e.grain c * max 1 (s.wsIn e c).length)
    let st := ceilDiv (t * r) u * u
    let base := v.getD 0 0
    (failIf (e.kind c == 3 || e.exhibit c || (e.kind c == 1 && decide (e.grainLog c < 12))) i 2 c).or
    ((failIf (r % 64 != 0 || decide (r < 64) || decide (2 ^ 20 < r)) i 2 c).or
    ((failIf (t == 0 || decide (4194304 < t)) i 3 c).or
    ((failIf (n == 0 || decide (65536 < n)) i 4 c).or
    ((failIf (base % u != 0 || decide (e.size c < base + n * st)) i 1 c).or
    (firstFail (List.range p) fun q => match e.pool (s.wsIn e c).length c q with
      | some y => failIf (decide (base < y.base + y.bytes) && decide (y.base < base + n * st)) i 1 c
      | none => none)))))).or
  (firstFail (e.colls.filter s.live) fun c => firstFail (List.range 8) fun p =>
    failIf (e.poolVals c p != s.act.poolVals c p && s.mem.seqs.any fun q => q.coll == c && q.num / 65536 == p) (0x3800 + p) 2 c)

/-- Edition pins with the subindex of each: subindex, first lot, count, to the Gallery. -/
def Edition.pinList (e : Edition) (c : Nat) : List (Nat × Nat × Nat × Bool) :=
  (List.range 0x10).filterMap fun i =>
    let v := e.nat 0x300C (i + 1) c 0
    if bitSet v 63 then some (i + 1, bits v 0 30, bits v 30 30, !bitSet v 60) else none

/-- The Wing lots of a Wing that collection lots [a, a + n) reach: first, and one past the last (R120, R121). -/
def lotSpan (g : Nat) (ws : List Nat) (w a n : Nat) : Nat × Nat :=
  let lo := bytesOn g ws (65536 * a) w
  let hi := bytesOn g ws (65536 * (a + n)) w
  if hi ≤ lo then (0, 0) else (lo / 65536, ceilDiv hi 65536)

/-- Number of lots in a union of spans given in ascending order of their firsts. -/
def spanUnion : Nat → List (Nat × Nat) → Nat
  | _, [] => 0
  | done, x :: xs => (x.2 - max done x.1) + spanUnion (max done x.2) xs

/-- Slots the edition's own Gallery pins reserve on a Wing (R135, R138). -/
def pinSlots (e : Edition) (ws : List Nat) (c w : Nat) : Nat :=
  let spans := ((e.pinList c).filter (·.2.2.2)).map fun p => lotSpan (e.grain c) ws w p.2.1 p.2.2.1
  144 * spanUnion 0 (sortBy (fun a b : Nat × Nat => decide (a.1 ≤ b.1)) spans)

/-- 0x0110 CURATOR (R138). -/
def State.checkCurator (s : State) (e : Edition) : Option Fail :=
  firstFail e.colls fun c =>
    let ps := e.pinList c
    (failIf (decide (e.promote c ≤ e.demote c)) 0x300A 3 c).or
    ((firstFail ps fun p => failIf (p.2.2.1 == 0 || decide (e.size c / 65536 < p.2.1 + p.2.2.1)) 0x300C p.1 c).or
    ((firstFail ps fun p => failIf (ps.any fun q => decide (q.1 < p.1) && decide (p.2.1 < q.2.1 + q.2.2.1) &&
        decide (q.2.1 < p.2.1 + p.2.2.1)) 0x300C p.1 c).or
    (firstFail (s.wsIn e c) fun w =>
      failIf (decide (e.fill c * shareOf e (s.wsIn e c) c w true < 100 * pinSlots e (s.wsIn e c) c w)) 0x300C
        ((((ps.filter (·.2.2.2)).head?).map (·.1)).getD 0) c)))

/-- Does the signature block of an image verify (R167)? Selector 0 is Barlon's image-signing key, 1 the provisioning key,
under which the library flag must be clear. -/
def State.signed (s : State) (img : Bytes) (library : Bool) : Bool :=
  let n := img.length - 128
  let sel := fieldAt img n 1
  let sig := slice img (n + 16) 96
  let body := img.take n
  if sel = 0 then ecdsaVerifies (romKey 0) body sig
  else if sel = 1 then
    match s.id.provKey with
    | some k => !library && ecdsaVerifies k body sig
    | none => false
  else false

/-- Do the rsvd bytes of an image's signature block read 0 (R167)? -/
def sigRsvd (img : Bytes) : Bool := allZero (slice img (img.length - 127) 15)

/-- Operand fields an opcode uses: d, a, b, and the format (0 R, 1 I, 2 K, 3 B); none for an undefined opcode (R196,
R197). -/
def opFields (op : Nat) : Option (Bool × Bool × Bool × Nat) :=
  if op = 0 then some (false, false, false, 0)
  else if op ≤ 0x0B then some (true, true, true, 0)
  else if 0x10 ≤ op ∧ op ≤ 0x16 then some (true, true, true, 1)
  else if op = 0x18 ∨ op = 0x19 then some (true, false, false, 2)
  else if 0x20 ≤ op ∧ op ≤ 0x23 then some (true, true, false, 3)
  else if op = 0x24 then some (false, false, false, 3)
  else if op = 0x28 then some (true, false, true, 1)
  else if op = 0x29 then some (true, false, false, 1)
  else if op = 0x2A ∨ op = 0x2B then some (false, true, true, 1)
  else if op = 0x2C then some (false, false, true, 1)
  else if 0x2D ≤ op ∧ op ≤ 0x31 ∧ op ≠ 0x2F then some (true, true, true, 1)
  else if 0x34 ≤ op ∧ op ≤ 0x37 then some (true, true, true, 0)
  else if op = 0x38 ∨ op = 0x39 ∨ op = 0x3C ∨ op = 0x3E then some (true, true, false, 0)
  else if op = 0x3A ∨ op = 0x3F then some (true, true, true, 0)
  else if op = 0x3B then some (false, true, true, 0)
  else if op = 0x3D then some (true, false, false, 0)
  else none

/-- Is an instruction word well encoded (R196, R197, R202 ENCODING)? -/
def wordOk (w : Nat) : Bool :=
  match opFields (wOp w) with
  | none => false
  | some (d, a, b, f) =>
    (d || bits w 22 4 == 0) &&
    (if f = 0 then (a || bits w 18 4 == 0) && (b || bits w 14 4 == 0) && bits w 0 14 == 0
     else if f = 1 then (a || bits w 18 4 == 0) && (b || bits w 0 18 == 0) &&
       !(decide (0x14 ≤ wOp w) && decide (wOp w ≤ 0x16) && bits w 6 12 != 0)
     else if f = 2 then bits w 16 4 == 0
     else (a || bits w 18 4 == 0) && bits w 8 10 == 0)

/-- The capability bits of which an opcode needs one (R190, R197): SWEEP permits WRREG to delay registers. -/
def opCaps (op : Nat) : List Nat :=
  if op = 0x2D then [0]
  else if op = 0x2E then [1, 5]
  else if 0x34 ≤ op ∧ op ≤ 0x37 then [2]
  else if 0x38 ≤ op ∧ op ≤ 0x3D then [3]
  else if op = 0x3E then [4]
  else if op = 0x3F then [5]
  else []

def progCaps (img : Bytes) : Nat := fieldAt img 6 2
def progKind (img : Bytes) : Nat := fieldAt img 15 1
def progLibrary (img : Bytes) : Bool := bitSet (fieldAt img 5 1) 0
def progWords (img : Bytes) : List Nat := (List.range (min 256 (progCount img))).map (progWord img)

/-- 0x0201 BAD_IMAGE. -/
def badImage (img : Bytes) : Bool :=
  let n := progCount img
  let code := ceilDiv (4 * n) 64 * 64
  decide (img.length < 256) || decide (1216 < img.length) || img.length % 64 != 0 ||
  (decide (1 ≤ n) && decide (n ≤ 256) && img.length != 192 + code) ||
  fieldAt img 0 4 != 0x504F4344 || fieldAt img 4 1 != 1 || decide (1 < fieldAt img 5 1) || decide (63 < progCaps img) ||
  decide (progKind img < 1) || decide (3 < progKind img) ||
  (decide (n ≤ 256) && !allZero (slice img (64 + 4 * n) (img.length - 192 - 4 * n))) || !sigRsvd img

/-- 0x0202 SIGNATURE. -/
def State.badSignature (s : State) (img : Bytes) : Bool :=
  sha384 (slice img 64 (img.length - 192)) != slice img 16 48 || !s.signed img (progLibrary img)

/-- 0x0205 TARGET. -/
def badTarget (img : Bytes) : Bool :=
  (progWords img).any fun w =>
    (decide (0x20 ≤ wOp w) && decide (wOp w ≤ 0x24) && decide (progCount img ≤ wTarget w)) ||
    (wOp w == 0x28 && decide (progParams img ≤ bits w 0 18))

/-- 0x0206 CAPABILITY. -/
def badCapability (img : Bytes) : Bool :=
  ((progWords img).any fun w => !(opCaps (wOp w)).isEmpty && !(opCaps (wOp w)).any (bitSet (progCaps img))) ||
  (fieldAt img (img.length - 128) 1 == 1 && decide (1 < progCaps img)) ||
  (progKind img != 1 && decide (3 < progCaps img))

/-- The program images an edition sets, ascending: number and image. -/
def Edition.images (e : Edition) : List (Nat × Bytes) :=
  (List.range 32).filterMap fun i => match e.get 0x4103 (i + 1) 0 with
    | some v => if v.isEmpty then none else some (i + 1, v)
    | none => none

/-- Kinds of die a program may run on: its header's, Wings for a default program, and none for a number that names no program. -/
def Edition.progFits (e : Edition) (n die : Nat) : Bool :=
  match e.get 0x4103 n 0 with
  | some v => !v.isEmpty && bitSet (progKind v) (if die < 4 then 1 else 0)
  | none => (e.native n).isSome && decide (4 ≤ die)

/-- Triggers bound to a docent (R209), bits 12:8. -/
def State.triggersIn (s : State) (e : Edition) (d : Nat) : Nat := bits (s.bindingIn e d) 8 5

/-- 0x0207 BINDING. -/
def State.badBinding (s : State) (e : Edition) : Option Fail :=
  (firstFail (List.range 0x40) fun d =>
    let die := d / 8
    let role := s.roleIn e d
    let trig := s.triggersIn e d
    let absent := match s.die? die with | some x => !x.present || decide (die < 4 && 4 ≤ d % 8) | none => true
    let unfit (i : Nat) : Bool := bitSet trig i && e.handler (i + 1) != 0 && !e.progFits (e.handler (i + 1)) die
    failIf ((absent && e.nat 0x4101 (d + 1) 0 0 != 0) ||
        (!absent && ((role != 0 && !e.progFits role die) || (decide (die < 4) && trig % 16 != 0) || (List.range 5).any unfit)))
      0x4101 (d + 1) 0).or
  (firstFail s.upWings fun w => firstFail [0, 1, 3] fun i =>
    failIf (!(List.range 8).any fun k => bitSet (s.triggersIn e (8 * wingDie w + k)) i) 0x4101 (8 * wingDie w + 1) 0)

/-- 0x0208 PARAMS: the parameters of the default sweep, when the edition keeps that program and sets any (R204); the others' ranges
are those of their entries. -/
def Edition.badParams (e : Edition) : Bool :=
  let n := defaultProgram 6
  e.native n == some 6 && (e.vals.any fun v => v.idx == 0x413F + n) &&
  (let p (i : Nat) : Nat := e.nat (0x413F + n) (i + 1) 0 0
   p 3 == 0 || decide (512 < (p 2 - p 1) / p 3 + 1) || decide (p 4 < 64) || decide (2 ^ 20 < p 4) || decide (3 < p 5))

/-- 0x0201 to 0x0208 (R202), with the reason. -/
def State.checkPrograms (s : State) (e : Edition) : Option (Nat × Fail) :=
  let im (reason : Nat) (f : Bytes → Bool) : Option (Nat × Fail) :=
    e.images.findSome? fun x => if f x.2 then some (reason, 0x4103, x.1, 0) else none
  (im 0x0201 badImage).or
  ((im 0x0202 s.badSignature).or
  ((im 0x0203 fun x => progCount x == 0 || decide (256 < progCount x) || decide (16 < progParams x)).or
  ((im 0x0204 fun x => (progWords x).any fun w => !wordOk w).or
  ((im 0x0205 badTarget).or
  ((im 0x0206 badCapability).or
  (((s.badBinding e).map fun f => (0x0207, f)).or
  (if e.badParams then some (0x0208, 0x413F + defaultProgram 6, 1, 0) else none)))))))

/-- Is a layout image refused (R165-R167)? -/
def State.badLayout (s : State) (e : Edition) (h : Bytes) : Bool :=
  let n := h.length
  decide (n < 256) || decide (2 ^ 20 < n) || n % 64 != 0 || fieldAt h 0 4 != 0x594C4257 || fieldAt h 4 1 != 1 ||
  decide (3 < layFlags h) || fieldAt h 6 2 != 0 || fieldAt h 12 4 != n || layCols h == 0 || decide (8 < layCols h) ||
  layRows h == 0 || decide (8 < layRows h) || fieldAt h 18 2 != 0 || fieldAt h 20 4 == 0 || decide (262144 < fieldAt h 20 4) ||
  layStreams h == 0 || decide (192 < layStreams h) || layBandwidth h == 0 || decide (256 < layBandwidth h) ||
  layMin h == 0 || decide (8 < layMax h) || decide (layMax h < layMin h) || decide (1024 < layArgs h) ||
  ((List.range 8).any fun j => decide (3 < layRule h j 3)) || !allZero (slice h 112 16) || !sigRsvd h ||
  sha384 (slice h 128 (n - 256)) != slice h 64 48 || !s.signed h (layLibrary h) ||
  s.pkg.asm.wings.all fun w => decide (e.nat 0x4000 (w + 1) 0 96 < layBandwidth h)

/-- 0x0301 LAYOUT (R167). -/
def State.checkLayout (s : State) (e : Edition) : Option Fail :=
  firstFail (List.range 64) fun i => match e.get 0x4002 (i + 1) 0 with
    | some v => failIf (!v.isEmpty && s.badLayout e v) 0x4002 (i + 1) 0
    | none => none

/-- 0x0501 ENGINE (R307, R324): an engine serves a port of its own Lobby, or none (0xFF). -/
def State.checkEngine (s : State) (e : Edition) : Option Fail :=
  firstFail (List.range 0x20) fun i => match e.get 0x1103 (i + 1) 0 with
    | none => none
    | some v =>
      let l := i / 16
      failIf (leNat v != 0xFF && (decide (s.pkg.asm.lobbies.length ≤ l) || leNat v / 8 != l)) 0x1103 (i + 1) 0

/-- 0x0402 FREQUENCY (R260). -/
def Edition.checkFrequency (e : Edition) : Option Fail :=
  failIf (e.nat 0x2810 3 0 0 != 0 && e.nat 0x2810 5 0 0 == 0 && e.colls.any e.class0) 0x2810 3 0

/-- 0x0401 BUDGET (R404): the lowest failing Wing in service is the object. -/
def State.checkBudget (s : State) (e : Edition) : Option Fail :=
  firstFail s.upWings fun w => failIf (!s.admitsOn e (s.wsIn e) w) 0 0 w

/-- Validation (R343): the first failure, with its reason; none when the edition is valid. -/
def State.validateEdition (s : State) (e : Edition) : Option (Nat × Fail) :=
  let tag (n : Nat) (f : Option Fail) : Option (Nat × Fail) := f.map fun x => (n, x)
  (tag 0x0701 (s.checkValue e)).or
  ((tag 0x0101 (s.checkCreation e)).or
  ((tag 0x0102 (s.checkKind e)).or
  ((tag 0x0103 (s.checkPlacement e)).or
  ((tag 0x0104 (s.checkExtent e)).or
  ((tag 0x0105 (s.checkCatalogue e)).or
  ((tag 0x0106 (s.checkPartition e)).or
  ((tag 0x0107 (s.checkQuota e)).or
  ((tag 0x0108 (s.checkGrant e)).or
  ((tag 0x0109 (s.checkPool e)).or
  ((tag 0x0110 (s.checkCurator e)).or
  ((s.checkPrograms e).or
  ((tag 0x0301 (s.checkLayout e)).or
  ((tag 0x0501 (s.checkEngine e)).or
  ((tag 0x0402 e.checkFrequency).or
  (tag 0x0401 (s.checkBudget e))))))))))))))))

end Sys2Proof.Machine
end

