-- ==== Sys2Proof/Machine/Editions.lean ====
section
/-! DEFINITION. The key, the edition commands and what a commit does (R240, R338-R348): creating, changing and destroying
collections, the fast objects at the instant and the slow ones when their quiesce ends. -/

namespace Sys2Proof.Machine

/-- The lease of the key (R339): 2 s. -/
def leaseTime : Nat := 2000 * ms

/-- A write that arrives at or after the lease's expiry finds the key broken (R339). -/
def State.expireLease (s : State) : State :=
  if s.ed.holder != .free && decide (s.ed.lease ≤ s.tsc) then s.breakKey 2 else s

/-- A write operation of the holder restarts the lease (R339). -/
def State.renewLease (s : State) (h : Holder) : State :=
  if s.ed.holder == h && h != .free then s.updEd fun e => { e with lease := s.tsc + leaseTime } else s

/-- OD 0x1020:01 = 1 (R338): the key is taken when free, renewed by its holder, and HELD for anyone else. -/
def State.takeEntry (s : State) (h : Holder) : Except Nat State :=
  if s.ed.holder == .free || s.ed.holder == h then .ok (s.updEd fun e => { e with holder := h, lease := s.tsc + leaseTime })
  else .error 0xA

/-- OD 0x1020:01 = 0 (R340): the holder breaks its key; a free key stays free. -/
def State.releaseEntry (s : State) (h : Holder) : Except Nat State :=
  if s.ed.holder == .free then .ok s else if s.ed.holder == h then .ok (s.breakKey 1) else .error 0xA

/-- The highest edition number held (R341). -/
def State.topNumber (s : State) : Nat :=
  max s.act.num (max ((s.ed.previous.map (·.num)).getD 0) ((s.ed.staged.map (·.num)).getD 0))

/-- Stage a copy of an edition (R342). -/
def State.stage (s : State) (e : Edition) : State :=
  s.updEd fun d => { d with staged := some { e with num := s.topNumber + 1 }, stagedState := 1, reason := 0, failIdx := 0,
                            failSub := 0, failObj := 0 }

/-- Edition command 1 (R342). -/
def State.beginActiveEntry (s : State) : Except Nat State :=
  if s.ed.stagedState = 0 ∧ s.ed.confirmed then .ok (s.stage s.activeEdition) else .error 6

/-- Edition command 2 (R342). -/
def State.beginPreviousEntry (s : State) : Except Nat State :=
  match s.ed.previous with
  | some e => if s.ed.stagedState = 0 ∧ s.ed.confirmed then .ok (s.stage e) else .error 6
  | none => .error 6

/-- Edition command 3 (R342, R343): validation begins. -/
def State.validateEntry (s : State) : Except Nat State :=
  if s.ed.stagedState = 1 ∨ s.ed.stagedState = 3 ∨ s.ed.stagedState = 4 then
    .ok (s.updEd fun e => { e with stagedState := 2 })
  else .error 6

/-- Edition command 4 (R342). -/
def State.discardEntry (s : State) : Except Nat State :=
  if 1 ≤ s.ed.stagedState ∧ s.ed.stagedState ≤ 4 then .ok (s.updEd EdState.unstaged) else .error 6

/-- Edition command 5 (R342, R348). -/
def State.confirmEntry (s : State) : Except Nat State :=
  if s.ed.confirmed ∨ s.ed.deadline ≤ s.tsc then .error 6 else .ok (s.updEd fun e => { e with confirmed := true })

/-- OD 0x7001:01 (R342). -/
def State.editionEntry (s : State) (v : Nat) : Except Nat State :=
  if v = 1 then s.beginActiveEntry
  else if v = 2 then s.beginPreviousEntry
  else if v = 3 then s.validateEntry
  else if v = 4 then s.discardEntry
  else s.confirmEntry

/-- The end of validation (R343): valid, or invalid with its reason and entry. -/
def State.endValidation (s : State) : State :=
  match s.ed.staged with
  | none => s
  | some x =>
    if s.ed.stagedState != 2 then s
    else
      let r := s.validateEdition x
      let f : Nat × Fail := r.getD (0, 0, 0, 0)
      (s.updEd fun e => { e with stagedState := if r.isNone then 3 else 4, reason := f.1, failIdx := f.2.1, failSub := f.2.2.1,
                                 failObj := f.2.2.2 }).event .d 0x62 s.primarySrc 0xFFFF (pack [(4, x.num), (2, f.1)])

/-- A collection key (R240): a free value whose two halves differ, as generating it again until they do leaves it. -/
def State.newKey (s : State) : BitVec 512 × State :=
  let k := Config.freeKey s.fresh
  (if k.toNat % 2 ^ 256 = k.toNat / 2 ^ 256 then k ^^^ 1 else k, { s with fresh := s.fresh + 1 })

/-- The root of trust sends a key to a Wing over the control stream of every link on its way, wrapped under the wrapping key of the
link (R240, R272; the message's format is private to its engines, log 46). -/
def State.sendKey (s : State) (c w : Nat) (k : BitVec 512) : State :=
  let r := s.pkg.asm.route s.pkg.primary w
  (r.zip r.tail).foldl (fun (s : State) e =>
    match s.portTo e.1 e.2 with
    | none => s
    | some i =>
      match s.cport? e.1 i with
      | none => s
      | some p =>
        match p.wrap with
        | some kek => s.sendData e.1 i 0 ([byteOf (wingDie w)] ++ leBytes 2 c ++ keyWrap kek (leBytes 64 k.toNat))
        | none => s) s

/-- Keys for the collections an edition creates, sent to their Wings (R240, R345 step 1). -/
def State.prepareKeys (s : State) (new : Edition) : State :=
  (new.colls.filter fun c => !s.act.has c).foldl (fun (s : State) c =>
    let k := s.newKey
    ((s.namedWings new c).foldl (fun s w => s.sendKey c w k.1) k.2).updEd fun e => { e with newKeys := e.newKeys ++ [(c, k.1)] }) s

/-- 5 ms, the least notice of a commit (R345). -/
def commitNotice : Nat := 5 * ms

/-- OD 0x7002:01 (R345, R347): on /LM1 only T = 0. -/
def State.commitEntry (s : State) (t : Nat) : Except Nat State :=
  let early := t != 0 && (s.pkg.mark == 1 || decide (t < s.tsc + commitNotice) || decide (s.tsc + 60000 * ms < t))
  if early then .error 4
  else if s.ed.stagedState != 3 || !s.ed.confirmed || s.ed.phase != 0 then .error 6
  else .ok ((s.prepareKeys (s.ed.staged.getD s.act)).updEd fun e =>
    { e with stagedState := 5, phase := 1, accepted := s.tsc, decision := 0, decisionDie := 0,
             instant := if t = 0 then s.tsc + commitNotice else t })

/-- Copy one entry of one object from an edition, its absence included. -/
def Edition.copyEntry (e src : Edition) (idx sub o : Nat) : Edition :=
  match src.get idx sub o with
  | some v => e.set idx sub o v
  | none => e.clear idx sub o

/-- Is an index collection-scoped (R326)? -/
def collIdx (i : Nat) : Bool := 0x3000 ≤ i && i < 0x3900

/-- Keep a collection as another edition has it. -/
def Edition.keepColl (e src : Edition) (c : Nat) : Edition :=
  let own := src.vals.filter fun v => collIdx v.idx && v.obj == c
  own.foldl (fun e v => e.set v.idx v.sub v.obj v.val) { e with vals := e.vals.filter fun v => !(collIdx v.idx && v.obj == c) }

/-- Collections an edition destroys, shrinks a quota of, or sets or clears the exhibit mark of (R344). -/
def goneColls (old new : Edition) : List Nat := old.colls.filter fun c => !new.has c

/-- Those whose Gallery or Depot quota shrinks. -/
def shrunkColls (old new : Edition) : List Nat :=
  old.colls.filter fun c => new.has c && (decide (new.quotaG c < old.quotaG c) || decide (new.quotaD c < old.quotaD c))

/-- Those whose exhibit mark is set or cleared. -/
def markedColls (old new : Edition) : List Nat := old.colls.filter fun c => new.has c && new.exhibit c != old.exhibit c

/-- The collections whose traffic a commit quiesces (R344). -/
def quiescedBy (old new : Edition) : List Nat :=
  (goneColls old new ++ shrunkColls old new ++
    (markedColls old new).flatMap (fun c => c :: (old.grants c ++ new.grants c))).eraseDups

/-- The engine entries an edition changes (R344). -/
def engineSubs (old new : Edition) : List Nat :=
  ((List.range 0x20).map (· + 1)).filter fun k => old.get 0x1103 k 0 != new.get 0x1103 k 0

/-- Does an edition change a slow object (R344)? -/
def isSlow (old new : Edition) : Bool :=
  !(quiescedBy old new).isEmpty || old.controlPort != new.controlPort || !(engineSubs old new).isEmpty

/-- The edition in force from the instant until the quiesce ends: the new one with its slow objects as they were (R344). -/
def mixEdition (old new : Edition) : Edition :=
  let a := (goneColls old new).foldl (fun e c => e.keepColl old c) new
  let b := (shrunkColls old new).foldl (fun e c =>
    let g := if new.quotaG c < old.quotaG c then e.copyEntry old 0x3002 1 c else e
    if new.quotaD c < old.quotaD c then g.copyEntry old 0x3002 2 c else g) a
  let m := (markedColls old new).foldl (fun e c => e.copyEntry old 0x3001 4 c) b
  let d := if old.controlPort = new.controlPort then m else m.copyEntry old 0x1010 1 0
  (engineSubs old new).foldl (fun e k => e.copyEntry old 0x1103 k 0) d

/-- A mask of Wing numbers. -/
def wingMask (ws : List Nat) : Nat := ws.foldl (fun m w => putBit m w true) 0

/-- The key of a collection: the one its commit generated, or where none did, at a start or a revert, one generated now (R240, R348). -/
def State.collKey (s : State) (c : Nat) (ws : List Nat) : BitVec 512 × State :=
  match s.ed.newKeys.find? (·.1 == c) with
  | some k => (k.2, s.updEd fun e => { e with newKeys := e.newKeys.filter (·.1 != c) })
  | none =>
    let k := s.newKey
    (k.1, ws.foldl (fun s w => s.sendKey c w k.1) k.2)

/-- A collection of the edition in force is created (R47, R240, R367, R398): its Wing set, its key on each Wing of the set,
its counters at 0. -/
def State.createColl (s : State) (c : Nat) : State :=
  let ws := s.namedWings s.act c
  let k := s.collKey c ws
  let s0 := k.2
  let s1 := s0.updMem fun m =>
    { m with
      colls := m.colls.filter (·.coll != c) ++ [⟨c, wingMask ws, false, false, false⟩],
      keys := m.keys.filter (·.coll != c) ++ ws.map (fun w => (⟨c, w, k.1⟩ : KeyEntry)),
      cmds := m.cmds.filter (·.coll != c), buckets := m.buckets.filter (·.coll != c) }
  { s1 with ev := { s1.ev with counters := s1.ev.counters.filter fun x => !(collIdx x.idx && x.obj == c) } }

/-- A collection is destroyed (R39, R45, R62, R143, R176, R242, R287): extents withdrawn, loans dropped, the key erased, and
then its storage and all that names it freed. `limit` is its release timeout. An extent that still awaits its release leads nowhere
from then on, a collection created later under the same number included (R66; DESIGN CHOICE, log 38). -/
def State.destroyColl (s : State) (c limit : Nat) : State :=
  let s0 := (s.mem.extents.filter (·.coll == c)).foldl (fun s x => s.withdraw x limit) s
  let s1 := s0.updMem fun m =>
    { m with loans := m.loans.filter (·.coll != c), loanDir := m.loanDir.filter (·.coll != c),
             loanMsgs := m.loanMsgs.filter (·.coll != c), keys := m.keys.filter (·.coll != c) }
  let gone (x : Extent) : Extent := { x with dead := true }
  let s2 := (s1.clearTiles c).updMem fun m =>
    { m with extents := updWhere (·.coll == c) gone m.extents, cat := m.cat.filter (·.coll != c), allocs := m.allocs.filter (·.1 != c),
             cache := m.cache.filter (·.coll != c), wmb := m.wmb.filter (·.coll != c),
             reads := m.reads.filter (·.coll != c), writes := m.writes.filter (·.coll != c),
             lots := m.lots.filter (·.coll != c), moves := m.moves.filter (·.coll != c),
             colls := m.colls.filter (·.coll != c), cmds := m.cmds.filter (·.coll != c),
             buckets := m.buckets.filter (·.coll != c), seqs := m.seqs.filter (·.coll != c),
             forks := m.forks.filter (·.coll != c) }
  s2

/-- The extents of the edition in force (R42, R45): those it withdraws or moves are withdrawn, those it adds or moves are
offered. `old` gives the release timeout of a collection that is gone. -/
def State.syncExtents (s : State) (old : Edition) : State :=
  let stale (x : Extent) : Bool :=
    !x.leaving && !(s.act.offers x.coll x.port x.view && s.act.extentAt x.coll x.view == (x.region, x.offset, x.length))
  let s1 := (s.mem.extents.filter stale).foldl (fun s x =>
    s.withdraw x (if s.act.has x.coll then s.act.relTimeout x.coll else old.relTimeout x.coll)) s
  s1.act.colls.foldl (fun s c => (List.range s.pkg.asm.ports).foldl (fun s p =>
    [false, true].foldl (fun s v =>
      if s.act.offers c p v && !(s.mem.extents.any fun x => x.same p c v && !x.leaving && !x.dead) then s.offer c p v else s) s) s) s1

/-- Values of an index of a collection. -/
def Edition.collVals (e : Edition) (i c : Nat) : List EdVal := e.vals.filter fun v => v.idx == i && v.obj == c

/-- The entries a command depends on (R62): pools and quotas for the sequence commands, quotas, thresholds and pins for PIN
and UNPIN, partners and allowances for a launch, and the exhibit mark for all of them but PIN and UNPIN. -/
def dependsOn (op : Nat) : List Nat :=
  if op = 1 ∨ op = 2 ∨ op = 3 ∨ op = 0x10 then 0x3001 :: 0x3002 :: (List.range 8).map (0x3800 + ·)
  else if op = 5 ∨ op = 6 then [0x3002, 0x300A, 0x300C]
  else if op = 7 then [0x3001, 0x3010, 0x3011]
  else []

/-- Does a commit end a PENDING command ABORTED (R62)? -/
def abortedBy (old new : Edition) (x : Cmd) : Bool :=
  x.status == stPending && (!new.has x.coll || (dependsOn x.op).any fun i => old.collVals i x.coll != new.collVals i x.coll)

/-- The pins a PENDING PIN has set are taken back, and its waiting moves dropped (R62; what it has moved stays, log 28). -/
def State.undoPin (s : State) (x : Cmd) : State :=
  let gal := fieldAt x.bytes 24 1 == 0
  let s1 := x.undo.foldl (fun (s : State) k =>
    if (s.lot x.coll k.1 k.2.1).pin == some gal then s.updLot x.coll k.1 k.2.1 fun l => { l with pin := k.2.2 } else s) s
  s1.updMem fun m => { m with moves := m.moves.filter fun y =>
    !(y.coll == x.coll && y.pinMove && !y.started && x.undo.any fun k => k.1 == y.wing && k.2.1 == y.lot) }

/-- A PENDING command ends ABORTED with no effect: a fork under way is undone, and so are pins. -/
def State.abortCmd (s : State) (x : Cmd) : State :=
  let mine := s.mem.forks.filter fun f => f.coll == x.coll && f.src == x.src
  ((mine.foldl (fun s f => s.undoFork f) s).undoPin x).endCmd x stAborted 0 0

/-- Running jobs a commit aborts (R179). -/
def State.commitJobs (s : State) (old new : Edition) : State :=
  s.wb.jobs.foldl (fun s j =>
    if !new.has j.coll then s.abortJob j 2 false
    else if j.operands.any fun o => o.coll != j.coll && (!new.has o.coll || (old.mayRead j.coll o.coll && !new.mayRead j.coll o.coll))
    then s.abortJob j 3 true
    else s) s

/-- Drop a borrower's least recently used loans of a collection until `n` remain (R51, R287). -/
def dropLoansTo (b c n : Nat) (l : List Loan) : List Loan :=
  let mine := sortBy (fun x y : Loan => decide (y.used ≤ x.used)) (l.filter fun x => x.borrower == b && x.coll == c)
  l.filter fun x => !(mine.drop n).contains x

/-- Loans beyond their collection's share are dropped. -/
def State.trimLoans (s : State) : State :=
  let pairs := (s.mem.loans.map fun x => (x.borrower, x.coll)).eraseDups
  s.updMem fun m => { m with loans := pairs.foldl (fun l p => dropLoansTo p.1 p.2 (16 * s.act.loanShare p.2) l) m.loans }

/-- Lines beyond their partition leave, least recently used first (R51). -/
def State.trimCaches (s : State) : State :=
  s.act.colls.foldl (fun s c => (s.wingsOf c).foldl (fun s w => if s.wingUp w then (s.makeRoom c w 0).1 else s) s) s

/-- A command pin ends where an edition pin to the other tier is added on its lot (R137). -/
def State.trimPins (s : State) : State :=
  let lost (x : Lot) : Bool := match x.pin, s.act.pinAt x.coll (s.collLots x.coll x.wing x.lot) with
    | some a, some b => a != b
    | _, _ => false
  s.updMem fun m => { m with lots := updWhere lost (fun x => { x with pin := none }) m.lots }

/-- The Depot target of the edition in force (R260, R261, R344): a change is ordered after the instant, also one that the edition
before forbade. -/
def State.syncFreq (s : State) (old : Edition) : State :=
  if s.act.nat 0x2810 3 0 0 = old.nat 0x2810 3 0 0 && old.freqOpen then s else s.orderFreq (s.stageFset s.pw.stage)

/-- The windows of a pool that the edition in force adds are free, and every block of them ZERO (R142, R145). A revert alone can change
a pool that holds live sequences, which end with it (DESIGN CHOICE, log 55). -/
def State.clearPools (s : State) (old : Edition) : State :=
  (s.act.colls.filter fun c => old.has c).foldl (fun (s : State) c => (List.range 8).foldl (fun (s : State) p =>
    if old.poolVals c p = s.act.poolVals c p then s
    else
      let s1 := s.updMem fun m => { m with seqs := m.seqs.filter fun q => !(q.coll == c && q.num / 65536 == p) }
      match s1.pool c p with
      | some q => (s1.dropRange c q.base (q.window q.count)).1
      | none => s1) s) s

/-- Apply an edition as the one in force (R344): `new` is the committed edition whole, `force` what holds from now. -/
def State.applyFast (s : State) (force new : Edition) : State :=
  let old := s.act
  let s0 := (s.mem.cmds.filter (abortedBy old new)).foldl (fun s x => s.abortCmd x) (s.settleBuckets.commitJobs old new)
  let s1 := s0.updEd fun e => { e with active := force }
  let s2 := (force.colls.filter fun c => !old.has c).foldl (fun s c => s.createColl c) s1
  let s3 := (goneColls old force).foldl (fun s c => s.destroyColl c (old.relTimeout c)) s2
  let s4 := ((((s3.syncExtents old).clearPools old).trimCaches).trimLoans).trimPins
  let s5 := (s4.applyBindings old).syncFreq old
  (force.colls.foldl (fun s c => s.settle c) s5).rederiveAll

/-- Engine slots a commit reassigns start anew at their port (R307). -/
def State.resetEngines (s : State) (subs : List Nat) : State :=
  let moved (p e : Nat) : Bool := subs.contains (16 * (p / 8) + e + 1)
  { s with fn := s.fn.map fun f =>
      { f with engines := f.engines.map (fun g => if moved f.port g.e then Engine.reset g.e else g),
               hostReads := f.hostReads.filter (fun r => !moved f.port r.engine) } }

/-- The slow objects of a commit are applied (R344): the key breaks when another control-capable port is named (R340). -/
def State.applySlow (s : State) (new : Edition) : State :=
  let old := s.act
  let s1 := (s.applyFast new new).resetEngines (engineSubs old new)
  if old.controlPort != new.controlPort && s1.ed.holder == .host then s1.breakKey 3 else s1

/-- The committed edition takes force (R346), or PREVIOUS in a revert (R348): numbers, deadline and notice. -/
def State.takeForce (s : State) (old new : Edition) (t : Nat) (revert : Bool) : State :=
  if revert then
    (s.updEd fun e => { e with previous := none, confirmed := true, deadline := 0, lastCommit := 3 }).event .d 0x65 s.primarySrc
      0xFFFF (pack [(4, old.num), (4, new.num)])
  else
    ((s.updEd EdState.unstaged).updEd fun e =>
      { e with previous := some old, confirmed := false, deadline := t + new.nat 0x7003 1 0 30000 * ms, lastCommit := 1,
               failure := 0, decision := 0, decisionDie := 0 }).event .d 0x63 s.primarySrc 0xFFFF (pack [(4, new.num), (8, t)])

/-- An edition meets its instant on /LM2 (R345, R348): fast objects now, slow ones when their quiesce ends. -/
def State.reachInstant (s : State) (new : Edition) (t : Nat) (revert : Bool) : State :=
  let old := s.act
  let s1 := (s.applyFast (mixEdition old new) new).takeForce old new t revert
  if isSlow old new then
    s1.updEd fun e => { e with phase := 0, quiescing := true, incoming := some new, reverting := revert, quiesced := quiescedBy old new }
  else s1.updEd fun e => { e with phase := 0, quiescing := false, incoming := none, reverting := false }

/-- An edition is applied whole under quiesce (R347). -/
def State.swapWhole (s : State) (new : Edition) (t : Nat) (revert : Bool) : State :=
  let old := s.act
  ((s.applySlow new).takeForce old new t revert).updEd fun e =>
    { e with phase := 0, quiescing := false, incoming := none, reverting := false, quiesced := [] }

/-- Is any traffic of a collection in flight? A command under way is none: R62 ends it, or lets it go on. -/
def State.inFlight (s : State) (c : Nat) : Bool := s.mem.reads.any (·.coll == c) || s.mem.writes.any (·.coll == c)

/-- The first die in service with a link that retrains, if any (R289). -/
def State.retraining (s : State) : Option Nat :=
  (s.dies.find? fun d => d.present && d.inService && s.cor.any fun p => p.die == d.code && p.st == 3).map (·.code)

/-- The dies asked for their hash (R289, R345): those in service. -/
def State.askedDies (s : State) : List Nat := (s.dies.filter fun d => d.present && d.inService).map (·.code)

/-- The failure an answer means, if any (OD 0x7002:03): 1 LATE, 2 HASH, 3 NO_ANSWER, 4 RETRAIN. -/
def answerFault (want : Nat) : Option HashAnswer → Option Nat
  | some (.hash h) => if h = want then none else some 2
  | some .none => some 3
  | some .unprepared => some 1
  | some .retraining => some 4
  | none => some 3

/-- The hash question's verdict: the first die that disagrees, with its failure; LATE comes first (R345). -/
def State.verdict (s : State) (want : Nat) (as : List (Nat × HashAnswer)) : Option (Nat × Nat) :=
  let bad := s.askedDies.filterMap fun d =>
    (answerFault want ((as.find? (·.1 == d)).map (·.2))).map fun n => (n, d)
  match bad.find? (·.1 == 1) with
  | some x => some x
  | none => bad.head?

end Sys2Proof.Machine
end

