-- ==== Sys2Proof/Machine/Boot.lean ====
section
/-! DEFINITION. Power-up and resets (R415-R431, R467): the cold reset and what survives it, the firmware slots, the board
profile and the boot edition in flash, the release of the Wings, D3cold and wake-up. -/

namespace Sys2Proof.Machine

/-- The sealed edition's place while a held start applies none (R424): ACTIVE, PREVIOUS and whether ACTIVE is confirmed.
An unfinished revert counts as an ACTIVE that still has to be reverted (R425). -/
def EdState.kept (e : EdState) (held : Bool) : EdState :=
  let a := if held then e.incoming.getD e.active else e.active
  let back := !held && e.quiescing && e.reverting
  { (State.ofAssembly .gw1204 1 1 1).ed with
    active := a, previous := if back then e.incoming else e.previous, confirmed := e.confirmed && !back }

/-- What a cold reset keeps (R416, R424, R431): the flash, the fuses, the key stores, the stored lines, what the reserve
holds, the seals, and the levels of the board's pins. Everything else starts anew. -/
def State.coldReset (s : State) : State :=
  let b := State.ofAssembly s.pkg.asm s.pkg.mark s.pkg.dimms s.pkg.dimmCode
  let sealOf (w sel : Nat) : Option Nat := match s.chan? w sel with | some c => c.sealWord | none => none
  { b with
    pending := s.pending, out := s.out, fresh := s.fresh,
    pkg := { b.pkg with mainPower := s.pkg.mainPower, aon := s.pkg.aon, aonKept := s.pkg.aonKept, absent := s.pkg.absent,
                        thermtrip := s.pkg.thermtrip && s.pkg.mainPower, wake := s.pkg.wake, start := s.pkg.start },
    dies := s.dies.map fun d => { Die.reset d.code with present := d.present, sealWord := d.sealWord },
    chans := b.chans.map fun c => { c with sealWord := sealOf c.wing c.sel },
    fn := s.fn.map fun f => { Fn.reset f.port with perst := f.perst },
    ed := s.ed.kept (s.pkg.start == 4),
    mem := { b.mem with dram := s.mem.dram, cat := s.mem.cat, lots := s.mem.lots, colls := s.mem.colls, seqs := s.mem.seqs,
                        keys := s.mem.keys, cmds := s.mem.cmds },
    id := { b.id with flash := s.id.flash, minSvn := s.id.minSvn, svnRaises := s.id.svnRaises,
                      controlBanks := s.id.controlBanks, provBanks := s.id.provBanks } }

/-- PKG_RESET_ASSERT (R416). -/
def execPkgResetAssert (s : State) : Res := .next s.coldReset

/-- Does every Wing hold a seal equal to that of each of its Depot channels (R424)? A channel that was absent holds none. -/
def State.sealed (s : State) : Bool :=
  s.pkg.asm.wings.all fun w => match s.die? (wingDie w) with
    | some d => d.sealWord.isSome && (s.chans.filter fun c => c.wing == w && isDepot c.sel).all fun c =>
        bitSet s.pkg.absent (4 * w + c.sel) || c.sealWord == d.sealWord
    | none => false

/-- Start kinds (R424): 1 cold, 2 unretained, 3 retained, 4 held. -/
def State.startKind (s : State) (mode : Nat) : Nat :=
  if !s.pkg.aonKept then 1
  else if mode = 1 then 4
  else if mode = 0 ∧ s.sealed then 3
  else 2

/-- No collection, key or command survives (R242, R424). -/
def State.dropCollections (s : State) : State :=
  let t := s.updMem fun m => { m with cat := [], lots := [], colls := [], seqs := [], keys := [], cmds := [] }
  t.updEd fun e => { e with active := ⟨0, []⟩, previous := none, confirmed := true }

/-- A retained start's changes (R425): a Gallery block of a durable collection takes its copy, any other is lost and
counted; every lot tier is Depot; PENDING commands read ABORTED. -/
def State.retainDepot (s : State) : State :=
  let lost (e : CatEntry) : Bool := e.tier == .gallery && e.copySlot.isNone
  let move (e : CatEntry) : CatEntry :=
    if e.tier != .gallery then e
    else match e.copySlot with
      | some c => { e with tier := .depot, site := 0, slot := c, copySlot := none }
      | none => .asLost e.coll e.wing e.blk
  let n := (s.mem.cat.filter lost).length
  let lots := ((s.act.colls.flatMap fun c => (s.wingsOf c).flatMap fun w => (s.knownLots c w).map fun l => s.lot c w l)).map
    fun l => { l with gallery := false }
  (s.updMem fun m =>
    { m with cat := m.cat.map move, lots := lots,
             cmds := m.cmds.map fun x => if x.status = stPending then { x with status := stAborted } else x }).updPkg fun p =>
    { p with bootLost := n }

/-- PKG_RESET_DEASSERT (R415, R417, R423-R427, R432): the straps are sampled, the TSC starts, the start kind is decided and
training starts at each port whose PERST_N is deasserted. Lobby 1 becomes primary when Lobby 0 is not there (R291). -/
def State.startUp (s : State) (nodeId mode : Nat) : State :=
  let k := s.startKind mode
  let first := match s.die? 0 with | some d => d.present | none => false
  let s1 := s.updPkg fun p =>
    { p with inReset := false, nodeId := nodeId % 16, bootMode := mode % 4, start := k, phase := 0, aon := true, aonKept := true,
             primary := if first then 0 else 1 }
  let s2 := if k = 3 then s1.retainDepot
    else if k = 4 then s1.updEd fun e => { e with incoming := some e.active, active := ⟨0, []⟩ }
    else s1.dropCollections
  let s3 : State := if k = 3 ∨ k = 4 then s2
    else { s2 with dies := s2.dies.map fun d => { d with sealWord := none } }
  { s3 with fn := s3.fn.map fun f => if !f.perst && s3.portInService f.port then { f with link := 1 } else f }

/-- PKG_RESET_DEASSERT. -/
def execPkgResetDeassert (nodeId bootMode : Nat) (s : State) : Res :=
  .next (if s.pkg.mainPower && s.pkg.inReset then s.startUp nodeId bootMode else s)

/-- A byte of the SPI flash (R418). -/
def State.flashAt (s : State) (a : Nat) : Byte :=
  match s.id.flash.find? (·.1 == a) with
  | some x => x.2
  | none => Config.flashByte a

/-- Bytes of the SPI flash. -/
def State.flashN (s : State) (a n : Nat) : Bytes := (List.range n).map fun i => s.flashAt (a + i)

/-- First byte of a firmware slot (R418). -/
def slotBase (slot : Nat) : Nat := if slot = 0 then 0x100000 else 0x300000

/-- Fields of a slot's header (R419). -/
def State.slotField (s : State) (slot off n : Nat) : Nat := leNat (s.flashN (slotBase slot + off) n)

/-- Is a firmware slot valid (R419)? -/
def State.slotValid (s : State) (slot : Nat) : Bool :=
  let n := s.slotField slot 16 4
  let b := slotBase slot
  s.slotField slot 0 4 == 0x57465742 && s.slotField slot 4 1 == 1 && s.slotField slot 5 3 == 0 && decide (256 ≤ n) &&
  decide (n ≤ 0x200000) && allZero (s.flashN (b + 24) 40) && allZero (s.flashN (b + 112) 16) &&
  sha384 (s.flashN (b + 128) (n - 256)) == s.flashN (b + 64) 48 && s.slotField slot (n - 128) 1 == 0 &&
  allZero (s.flashN (b + n - 127) 15) &&
  ecdsaVerifies (romKey 1) (s.flashN b (n - 128)) (s.flashN (b + n - 112) 96) &&
  decide (s.id.minSvn ≤ s.slotField slot 8 4) && bitSet (s.slotField slot 20 4) Config.stepping.toNat

/-- Does the boot ROM boot this slot (R419, R430): the valid one with the higher sequence, slot A on a tie; slot B only in
recovery? -/
def State.boots (s : State) (slot : Nat) : Bool :=
  s.slotValid slot &&
  (if s.pkg.bootMode = 1 then slot == 1
   else !s.slotValid (1 - slot) || decide (s.slotField (1 - slot) 12 4 < s.slotField slot 12 4) ||
     (slot == 0 && s.slotField 1 12 4 == s.slotField 0 12 4))

/-- Where the board profile lies (R418). -/
def profileBase : Nat := 0x10000

/-- Is the board profile used (R420)? -/
def State.profileOk (s : State) : Bool :=
  let n := leNat (s.flashN (profileBase + 48) 4)
  let p := s.flashN profileBase n
  leNat (s.flashN profileBase 2) == 0x4250 && leNat (s.flashN (profileBase + 2) 1) == 1 && decide (64 ≤ n) &&
  decide (n ≤ 225344) && crc32c (setSlice p 52 (zeros 4)) == fieldAt p 52 4 && fieldAt p 4 2 == s.pkg.asm.code &&
  decide (fieldAt p 8 1 ≤ 2)

/-- Fields of the board profile: its channel mask and override mask. -/
def State.profileMask (s : State) : Nat := leNat (s.flashN (profileBase + 10) 2)
def State.profileSites (s : State) : Nat := leNat (s.flashN (profileBase + 12) 1)

/-- Is a Depot channel absent (R420, R421)? -/
def State.depotAbsent (s : State) (w sel : Nat) : Bool :=
  !s.profileOk || !bitSet s.profileMask (4 * w + sel) || leNat (s.flashN (profileBase + 6) 1) != s.pkg.dimms ||
  leNat (s.flashN (profileBase + 7) 1) != s.pkg.dimmCode

/-- First byte of a channel's sets in the profile, when it has them (R420). -/
def State.profileSets (s : State) (w sel : Nat) : Option Nat :=
  if isDepot sel then
    (if bitSet s.profileMask (4 * w + sel) then some (profileBase + 64 + 1792 * (maskList (4 * w + sel) s.profileMask).length)
     else none)
  else
    let site := 2 * w + siteOf sel
    if bitSet s.profileSites site then
      some (profileBase + 64 + 1792 * (maskList 16 s.profileMask).length + 24576 * (maskList site s.profileSites).length +
        1536 * ((sel - 0x10) % 16))
    else none

/-- Does a channel's record in the profile hold timing sets (R430)? Words of zeros alone count as none (DEDUCED, log 56). -/
def State.hasTiming (s : State) (a : Nat) : Bool := !allZero (s.flashN (a + 8 * 192) 192)

/-- The delay and timing words a channel starts with (R256, R420): a profile's record; otherwise, and for the timing of a Gallery channel,
the sets held in the package, which are free values. In board-qualify mode a Depot channel without timing sets takes its module's (R430). -/
def State.loadSets (s : State) (c : Chan) : Chan :=
  let depot := isDepot c.sel
  (List.range 216).foldl (fun c i =>
    let v := match s.profileSets c.wing c.sel with
      | some a =>
        if depot && decide (192 ≤ i) && s.pkg.bootMode == 3 && !s.hasTiming a then Config.moduleTiming s.pkg.dimmCode i
        else if depot || i < 192 then leNat (s.flashN (a + 8 * i) 8)
        else Config.packageSet c.wing c.sel i
      | none => Config.packageSet c.wing c.sel i
    c.setWord (0x100 + 8 * i) (v &&& setMask depot (chanReg (0x100 + 8 * i)))) c

/-- The channels as initialisation leaves them (R421, R424, R430): absent, filling, kept, or qualifying; in recovery none is
initialised. -/
def State.initChannels (s : State) : State :=
  let one (c : Chan) : Chan :=
    let absent := if isDepot c.sel then s.depotAbsent c.wing c.sel else !s.profileOk
    let st := if absent then 0 else if s.pkg.bootMode != 0 then 7 else if s.pkg.start == 3 && isDepot c.sel then 2 else 1
    { (if absent then c else s.loadSets c) with st := st, fset := if isDepot c.sel then 0 else s.pkg.galleryFset }
  if s.pkg.bootMode = 1 then s
  else { s with chans := s.chans.map one }

/-- Where the boot edition lies (R418). -/
def bootBase : Nat := 0x500000

/-- The boot edition region, when its magic, version and CRC are right (R422). -/
def State.bootRead (s : State) : Option Bytes :=
  let n := leNat (s.flashN (bootBase + 4) 4)
  let r := s.flashN bootBase (min n 0x800000)
  if fieldAt r 0 2 = 0x4245 ∧ fieldAt r 2 1 = 1 ∧ 16 ≤ n ∧ n ≤ 0x800000 ∧ crc32c (setSlice r 8 (zeros 4)) = fieldAt r 8 4 then
    some r
  else none

/-- The digest of the board profile as read (R435). -/
def State.profileDigest (s : State) : Bytes :=
  sha384 (s.flashN profileBase (min (leNat (s.flashN (profileBase + 48) 4)) 225344))

/-- Where the provisioning record lies (R418); its two keys stand at bytes 0 and 128 (log 23). -/
def recordBase : Nat := 0x50000

/-- A key counts as provisioned when the record holds a key whose hash is the newest fused one (R433). -/
def State.provisioned (s : State) (banks : List Bytes) (off : Nat) : Option Bytes :=
  let k := s.flashN (recordBase + off) 97
  match banks.getLast? with
  | some h => if sha384 k = h then some k else none
  | none => none

/-- The reserve key of a Wing that has none, delivered like a collection key (R240, R241). -/
def State.reserveKey (s : State) (w : Nat) : State :=
  if s.mem.keys.any fun k => k.coll == 0x1000 && k.wing == w then s
  else
    let k := s.newKey
    (k.2.sendKey 0x1000 w k.1).updMem fun m => { m with keys := m.keys ++ [⟨0x1000, w, k.1⟩] }

/-- The fill has ended (R203, R232, R424): every channel but a retained Depot channel, or one that froze during the fill (R234), holds
zeros, and no docent runs FILL. -/
def State.endFill (s : State) : State :=
  let t := (s.chans.filter fun c => c.st == 1).foldl (fun s c =>
    (s.fillChannel c.wing c.sel).updChan c.wing c.sel fun c => { c with st := 2 }) s
  { t with doc := { t.doc with docents := updWhere (fun x : Docent => x.a.native == some 0) (fun x => { x with a := .idle }) t.doc.docents } }

/-- The records of a boot edition over the default edition (R422). -/
def parseBoot : Nat → Bytes → Edition → Edition
  | 0, _, e => e
  | n + 1, bs, e =>
    let i := fieldAt bs 0 2
    let len := fieldAt bs 8 4
    if bs.length < 16 ∨ i = 0xFFFF then e
    else parseBoot n (bs.drop (16 + ceilDiv len 8 * 8)) (e.set i (fieldAt bs 2 1) (fieldAt bs 4 4) (dropRsvd i (slice bs 16 len)))

/-- The edition of a start that is not retained takes force as edition 1, confirmed (R422). -/
def State.bootEdition (s : State) : State :=
  let none_ : Edition := ⟨1, []⟩
  let r : Edition × Nat := match s.id.bootRegion with
    | none => (none_, 0)
    | some b =>
      let e := parseBoot (b.length / 16) (b.drop 16) none_
      match s.validateEdition e with
      | none => (e, 1)
      | some f => (none_, f.1)
  ((s.applyFast r.1 r.1).updPkg fun p => { p with bootStatus := r.2 }).updEd fun e => { e with confirmed := true, previous := none }

/-- The programs of a start (R203): FILL in normal mode; in board-qualify mode, where no Wing is released, the roles bound there, DELAY-SWEEP
among them; and no edition waits for a release in die-test and board-qualify modes (R424). -/
def State.startPrograms (s : State) : State :=
  if s.pkg.bootMode = 0 then s.startFill
  else if s.pkg.bootMode = 3 then s.pkg.asm.dies.foldl (fun s d => s.startRoles d) s.bootEdition
  else if s.pkg.bootMode = 2 then s.bootEdition
  else s

/-- Firmware runs on every die (R427 steps 4 to 6): the Corridor comes up, the profile is checked, the Steward owns the
PMBus, the channels are initialised, and the programs of the start run. -/
def State.runFirmware (s : State) (slot : Nat) : State :=
  let ok := s.profileOk
  let s1 := s.updPkg fun p =>
    { p with fwRunning := true, fwSlot := slot, phase := if p.bootMode = 0 then 3 else 5,
             galleryFset := if ok then leNat (s.flashN (profileBase + 8) 1) else 0,
             absent := if p.bootMode = 1 then 0
               else sumBy (fun k => if s.depotAbsent (k / 4) (k % 4) then 2 ^ k else 0) ((p.asm.wings.flatMap fun w => (List.range 4).map (4 * w + ·))) }
  let s2 : State := { s1.initChannels with
    id := { s1.id with svn := s.slotField slot 8 4, profileHash := s.profileDigest, bootRegion := s.bootRead,
                       controlRoot := s.provisioned s.id.controlBanks 0, provKey := s.provisioned s.id.provBanks 128,
                       certNo := s.fresh },
    fresh := s1.fresh + 1,
    cor := s1.cor.map fun p => if p.st = 0 then { p with st := 1 } else p,
    pw := { s1.pw with stewardUp := true, lastRound := s.tsc } }
  let s3 := (s1.cor.filter (·.st == 0)).foldl (fun s p => s.sendHello p.die p.idx) s2
  (s3.updDie s.pkg.primary fun d => { d with inService := true }).startPrograms

/-- FIRMWARE_SLOT_VERIFIED (R419): the slot's firmware runs, or the slot is not the one to boot; with neither valid the
package stays in the boot-failed state. -/
def execFirmwareSlotVerified (slot : Nat) (s : State) : Res :=
  .next (if !s.running || s.pkg.fwRunning || s.pkg.bootFailed || s.pkg.phase != 0 || 2 ≤ slot then s
    else if s.boots slot then s.runFirmware slot
    else if s.slotValid slot then s
    else s.updPkg fun p =>
      let tried := if p.slotsTried.contains slot then p.slotsTried else p.slotsTried ++ [slot]
      { p with slotsTried := tried, bootFailed := if p.bootMode = 1 then tried.contains 1 else decide (2 ≤ tried.length) })

/-- The Wings that can be released (R248, R421, R429): not isolated, every link up, a channel of each reserve pair present. -/
def State.releasable (s : State) (w : Nat) : Bool :=
  (match s.die? (wingDie w) with | some d => d.present && d.isoState == 0 | none => false) &&
  ((s.cor.filter (·.die == wingDie w)).all fun p => p.st == 2) &&
  (s.chanPresent w 0 || s.chanPresent w 1) && (s.chanPresent w 2 || s.chanPresent w 3)

/-- Does a Wing's bring-up still run: a link neither up nor down? -/
def State.comingUp (s : State) (w : Nat) : Bool :=
  (match s.die? (wingDie w) with | some d => d.present && d.isoState == 0 | none => false) &&
  (s.cor.filter (·.die == wingDie w)).any fun p => p.st == 1 || p.st == 3

/-- The edition of a retained start (R425): ACTIVE as confirmed, or PREVIOUS when ACTIVE awaited confirmation. -/
def State.restoreEdition (s : State) : State :=
  let s1 := match s.ed.confirmed, s.ed.previous with
    | false, some e => s.applySlow e
    | _, _ => s
  (s1.updEd fun e => { e with confirmed := true, previous := none }).syncExtents s1.act

/-- WING_RELEASE (R427 step 8, R203, R429): the Wings enter service, the edition takes force, and Wing request processing is
released. With no Wing to release, nothing is. -/
def State.releaseWings (s : State) : State :=
  let ws := s.pkg.asm.wings.filter s.releasable
  let out := s.pkg.asm.wings.filter fun w => !ws.contains w
  let s1 := s.endFill
  let enter (d : Die) : Die :=
    if d.code < 4 then { d with inService := d.present }
    else if ws.contains (d.code - 4) then { d with inService := true }
    else if out.contains (d.code - 4) && d.present && d.isoState == 0 then { d with isoState := 1, isoCause := 3 }
    else if !d.present then { d with isoState := 3 }
    else d
  let s2 : State := { s1 with dies := s1.dies.map enter }
  let s3 := ws.foldl (fun s w => s.reserveKey w) (s2.updPkg fun p => { p with phase := 4, releaseMs := s.tsc / ms })
  let s4 := if s.pkg.start = 3 then s3.restoreEdition else s3.bootEdition
  ((s.pkg.asm.lobbies ++ ws.map wingDie).foldl (fun s d => s.startRoles d) s4.rebind).rederiveAll

/-- WING_RELEASE. -/
def execWingRelease (s : State) : Res :=
  .next (if s.accepting && s.pkg.phase == 3 && !s.pkg.asm.wings.any s.comingUp && s.pkg.asm.wings.any s.releasable then
      s.releaseWings
    else s)

/-- VDD_AON_LOSS (R416, R242, R372): every key is lost, and with main power on it is a rail fault of rail code 6, whose
STATUS_WORD is a free value (log 1). -/
def execVddAonLoss (s : State) : Res :=
  let noSeal (d : Die) : Die := { d with sealWord := none }
  let s0 : State := { s with dies := s.dies.map noSeal }
  let s1 := (s0.updMem fun m => { m with keys := [] }).updPkg fun p => { p with aon := false, aonKept := false }
  .next (if s.running then
      let d := s1.draw
      d.2.railFault 6 (Config.freeNat d.1 % 65536)
    else s1)

/-- MAIN_POWER_REMOVAL (R321, R467): the package enters D3cold, with its wake detector alone running. -/
def execMainPowerRemoval (s : State) : Res :=
  .next (if s.pkg.mainPower then (s.updPkg fun p => { p with mainPower := false }).coldReset else s)

/-- MAIN_POWER_RETURN (R323, R415): the rails rise under PKG_RESET_N, and WAKE_N is released. -/
def execMainPowerReturn (s : State) : Res :=
  .next (s.updPkg fun p => { p with mainPower := true, wake := false })

/-- WAKE_FRAME (R323, R467): a frame for the device's MAC address, IPv6 and port 45,223 asserts WAKE_N in D3cold. -/
def execWakeFrame (mac etherType udpPort : Nat) (s : State) : Res :=
  .next (if !s.pkg.mainPower && s.pkg.aon && mac == Config.macAddress.toNat && etherType == 0x86DD && udpPort == 45223 then
      s.updPkg fun p => { p with wake := true }
    else s)

end Sys2Proof.Machine
end

