-- ==== Sys2Proof/Machine/Channels.lean ====
section
/-! DEFINITION. The commands of storage protection and of the channels: windows of R224, split-write (R239), refresh and
bands (R254-R257), power-down (R262), alerts (R263), the flip of re-entry and the end of evacuation (R267, R268), and the
end of a Depot frequency change (R261). -/

namespace Sys2Proof.Machine

/-- CORRECTED_RATE_WINDOW_END (R224, R365): a window of 1 s that started at a TSC multiple of 10^9 has ended. -/
def execCorrectedRateWindowEnd (wing sel : Nat) (s : State) : Res :=
  .next (match s.chan? wing sel with
    | none => s
    | some c =>
      if s.tsc / 1000000000 ≤ c.winEnd then s
      else
        let high := decide (s.act.nat 0x2802 1 (chanObj wing sel) 1000 < c.winCorrected)
        let s1 := s.updChan wing sel fun c => { c with winCorrected := 0, overRate := high, winEnd := s.tsc / 1000000000 }
        let body := pack [(1, wing), (1, sel), (4, min c.winCorrected 0xFFFFFFFF)]
        if high && !c.overRate then s1.watermark .d 0x41 (chanSrc wing sel) 0xFFFF false body
        else if !high && c.overRate then s1.watermark .d 0x41 (chanSrc wing sel) 0xFFFF true body
        else s1)

/-- READ_RAW (R239). -/
def execReadRaw (wing : Nat) (s : State) : Res :=
  .next (s.runSplit wing fun x s =>
    match s.splitDest x with
    | .refused r => s.splitResult wing r
    | .chan sel a =>
      let l := s.rawLine wing sel a
      s.updSplit wing fun x => { x with data := l.1, check := padTo 16 l.2,
                                        result := (lineDecode (isDepot sel) l.1 l.2).1.code }
    | .sram a =>
      let l := x.line a
      s.updSplit wing fun x => { x with data := l.1, scheck := l.2, result := (sramReadLine l.1 (l.2.map (·.toNat))).1.code })

/-- WRITE_DATA (R239): check bits the device computes. -/
def execWriteData (wing : Nat) (s : State) : Res :=
  .next (s.runSplit wing fun x s =>
    match s.splitDest x with
    | .refused r => s.splitResult wing r
    | .chan sel a => (s.docStore wing sel a x.data false).splitResult wing 0
    | .sram a => s.updSplit wing fun x => { x.put a x.data ((sramStore false x.data).map byteOf) with result := 0 })

/-- Store a line's data and check bytes as given, ordered with requester writes (R239). -/
def State.splitStore (s : State) (w sel a : Nat) (data check : Bytes) : State :=
  (s.queueWrite w sel a data check 0xFFFF 3 none).dropHeaders w sel a 1

/-- WRITE_CHECK (R239): the stored data unchanged. -/
def execWriteCheck (wing : Nat) (s : State) : Res :=
  .next (s.runSplit wing fun x s =>
    match s.splitDest x with
    | .refused r => s.splitResult wing r
    | .chan sel a =>
      (s.splitStore wing sel a (s.rawLine wing sel a).1 (slice x.check 0 (checkLen (isDepot sel)))).splitResult wing 0
    | .sram a => s.updSplit wing fun x => { x.put a (x.line a).1 x.scheck with result := 0 })

/-- WRITE_BOTH (R239). -/
def execWriteBoth (wing : Nat) (s : State) : Res :=
  .next (s.runSplit wing fun x s =>
    match s.splitDest x with
    | .refused r => s.splitResult wing r
    | .chan sel a => (s.splitStore wing sel a x.data (slice x.check 0 (checkLen (isDepot sel)))).splitResult wing 0
    | .sram a => s.updSplit wing fun x => { x.put a x.data x.scheck with result := 0 })

/-- COMPUTE (R239): no memory access; the selector and the address have to name a line all the same. -/
def execCompute (wing : Nat) (s : State) : Res :=
  .next (s.runSplit wing fun x s =>
    match s.splitDest x with
    | .refused 5 => s.splitResult wing 5
    | .sram _ => s.updSplit wing fun x => { x with scheck := (sramStore false x.data).map byteOf, result := 0 }
    | _ => s.updSplit wing fun x => { x with check := padTo 16 (lineCheck (isDepot x.sel) x.data), result := 0 })

/-- Do reads of class 0 or 1 wait for a rank of a Depot channel (R254)? -/
def State.urgentReads (s : State) (w sel rank : Nat) : Bool :=
  s.mem.reads.any fun r => r.wing == w && r.sel == sel && decide (s.reqClass (.read r) ≤ 1) && s.rankOf (s.readAddr r) == rank

/-- DEPOT_REFRESH_DUE (R254, R257): at most 4 are postponed, only while reads of class 0 or 1 wait; a rank in self-refresh for a
frequency change refreshes itself. -/
def execDepotRefreshDue (wing sel dimm cs : Nat) (s : State) : Res :=
  let rank := 2 * dimm + cs
  .next (match s.chan? wing sel with
    | none => s
    | some c =>
      let note (c : Chan) : Chan := c.noteRank (s.dieTsc (wingDie wing)) rank 2
      if !isDepot sel || !c.refreshes || s.pkg.dimms ≤ dimm || 2 ≤ cs || s.changing wing then s
      else if s.urgentReads wing sel rank && decide (c.owed rank < 4) then
        (s.updChan wing sel fun c =>
          { c with postponed := (c.postponed.filter (·.1 != rank)) ++ [(rank, c.owed rank + 1)] }).bump 0x2804 3 (chanObj wing sel) 1
      else if s.urgentReads wing sel rank && c.pendingBand.isNone then s.updChan wing sel note
      else s.updChan wing sel fun c => note (c.refreshed rank))

/-- GALLERY_REFRESH_DUE (R255, R257): never postponed. -/
def execGalleryRefreshDue (wing sel bank : Nat) (s : State) : Res :=
  .next (match s.chan? wing sel with
    | none => s
    | some c => if isDepot sel || !c.refreshes || 64 ≤ bank then s else s.updChan wing sel fun c => c.refreshed bank)

/-- THERMAL_SENSOR_POLL (R257): readings by Wing and channel selector; a stack's reading is that of every channel of its
site. The new band waits for the channel's next refresh. -/
def execThermalSensorPoll (temps : List (Nat × Nat × Int)) (s : State) : Res :=
  .next (if !s.pw.stewardUp then s
    else { s with chans := s.chans.map fun c =>
      match temps.find? fun t => t.1 == c.wing &&
          (if isDepot t.2.1 then t.2.1 == c.sel else !isDepot c.sel && siteOf t.2.1 == siteOf c.sel) with
      | none => c
      | some t =>
        let b := newBand c.band t.2.2
        { c with temp := t.2.2, pendingBand := if b = c.band then none else some b } })

/-- RANK_POWER_DOWN (R262): a Depot rank with no queued request that has been idle for the timer OD 0x2810:02. -/
def execRankPowerDown (wing sel rank : Nat) (s : State) : Res :=
  .next (match s.chan? wing sel with
    | none => s
    | some c =>
      let busy := (s.mem.reads.any fun r => r.wing == wing && r.sel == sel && s.rankOf (s.readAddr r) == rank) ||
        c.wq.any fun q => s.rankOf q.addr == rank
      let since := ((c.idleFrom.find? (·.1 == rank)).map (·.2)).getD 0
      if !isDepot sel || c.st != 2 || 2 * s.pkg.dimms ≤ rank || busy || c.poweredDown.contains rank || s.changing wing ||
          s.tsc < since + s.act.nat 0x2810 2 0 1000 then s
      else s.updChan wing sel fun c => { c.noteRank (s.dieTsc (wingDie wing)) rank 3 with poweredDown := c.poweredDown ++ [rank] })

/-- An alert that recurs on `recurrences` of its retries (R263): each retry is counted, and the third recurrence freezes. -/
def State.alert (s : State) (w sel sub trigger recurrences : Nat) : State :=
  match s.chan? w sel with
  | none => s
  | some c =>
    if !isDepot sel || !c.refreshes || (!s.wingUp w && c.st != 1) then s
    else
      let n := min 3 (recurrences + 1)
      let s1 := s.bump 0x2804 sub (chanObj w sel) n
      if 3 ≤ recurrences then s1.freeze w sel trigger n else s1

/-- CA_PARITY_ALERT (R263). -/
def execCaParityAlert (wing sel recurrences : Nat) (s : State) : Res := .next (s.alert wing sel 1 1 recurrences)

/-- WRITE_CRC_ALERT (R263). -/
def execWriteCrcAlert (wing sel recurrences : Nat) (s : State) : Res := .next (s.alert wing sel 2 2 recurrences)

/-- GALLERY_PARITY_ERROR (R263): no retry. -/
def execGalleryParityError (wing sel : Nat) (s : State) : Res :=
  .next (match s.chan? wing sel with
    | none => s
    | some c => if isDepot sel || !c.refreshes then s else s.freeze wing sel 3 0)

/-- CHANNEL_FLIP (R156, R267): of a re-entering channel of a Wing in service; the pass pauses during a frequency change (R261), and the
forks the channel held up go on. -/
def execChannelFlip (wing sel : Nat) (s : State) : Res :=
  .next (match s.chan? wing sel with
    | none => s
    | some c => if c.st = 4 ∧ s.wingUp wing ∧ s.accepting ∧ !(isDepot sel && s.changing wing) then (s.flipChannel wing sel).resumeForks wing
      else s)

/-- EVACUATION_COMPLETE (R156, R268). -/
def execEvacuationComplete (wing sel : Nat) (s : State) : Res :=
  .next (match s.chan? wing sel with
    | none => s
    | some c => if c.st = 5 ∧ s.wingUp wing ∧ s.accepting ∧ !s.changing wing then (s.endEvacuation wing sel).resumeForks wing
      else s)

/-- DEPOT_FREQUENCY_CHANGE_DONE (R261): every channel of the Wing but a frozen or retired one leaves self-refresh with the new set and
one refresh per rank, what has queued resumes, and the budgets follow (R405). -/
def execDepotFrequencyChangeDone (wing : Nat) (s : State) : Res :=
  .next (match s.pw.freqChange.head? with
    | none => s
    | some x =>
      if x.1 != wing then s
      else
      let s0 := s.settleBuckets.endFreq wing
      let s1 : State := { s0 with
        chans := updWhere (fun c => c.wing == wing && isDepot c.sel && c.st != 0 && c.st != 3 && c.st != 6)
          (fun c => { c with fset := x.2, band := c.pendingBand.getD c.band, pendingBand := none, postponed := [],
                             selfRefresh := c.st == 8 }) s0.chans }
      ((s1.chans.filter fun c => c.wing == wing && isDepot c.sel).foldl (fun s c => s.pump wing c.sel) s1).rederive wing)

end Sys2Proof.Machine
end

