-- ==== Sys2Proof/Machine/Workbench.lean ====
section
/-! DEFINITION. The commands of the Workbench (R168-R188): launch, admission, streams and the ends of a job. -/

namespace Sys2Proof.Machine

/-- JOB_LAUNCH: the checks of the command Wing, and forwarding (R168). -/
def State.launchJob (x : Cmd) (s : State) : State :=
  let c := x.coll
  let w := fieldAt x.bytes 12 1
  let po := fieldAt x.bytes 16 8
  if !(s.wingsOf c).contains w || !s.wingUp w || po % 64 != 0 || decide (s.act.size c < po + 128) then
    s.endCmd x stBadOperand 0 0
  else if (s.layoutImage (fieldAt x.bytes 8 4)).isEmpty then s.endCmd x stNotFound 0 0
  else s.putCmd { x with forwarded := true }

/-- A refused launch (R172). -/
def State.refuseJob (s : State) (x : Cmd) (w detail : Nat) : State := (s.endCmd x stRefused detail 0).bump 0x4011 2 w 1

/-- Admissions counted on a Wing (R174). -/
def State.admissions (s : State) (w : Nat) : Nat :=
  match s.wb.admissions.find? (·.1 == w) with | some a => a.2 | none => 0

/-- An admitted job (R173, R174, R176): its slot is one of the free ones, which the manual leaves open (log 1). -/
def State.admitJob (s : State) (x : Cmd) (w : Nat) (h b : Bytes) (tiles : List Nat) : State :=
  let c := x.coll
  let used := (s.jobsOn w).map (·.num % 16)
  let slots := (List.range 16).filter fun i => !used.contains i
  let slot := slots.getD (Config.freeNat s.fresh % max 1 slots.length) 0
  let n := (s.admissions w + 1) % 2 ^ 26
  let num := slot + 16 * w + 64 * n
  let po := fieldAt x.bytes 16 8
  let m := fieldAt b 3 1
  let dirty := s.wb.tiles.any fun t => t.wing == w && tiles.contains t.idx &&
    (match t.last with | some o => o != c | none => false)
  let job : Job :=
    { num := num, wing := w, coll := c, layout := fieldAt x.bytes 8 4, header := slice h 0 128, ticket := x.ticket,
      event := bitSet x.flags 0, paramOffset := po, operands := paramOperands b,
      args := slice b (128 + 64 * ceilDiv m 2) (fieldAt b 4 2), homeOnly := bitSet (fieldAt b 12 1) 0,
      timeLimit := fieldAt b 8 4, tiles := tiles, streams := layStreams h, bandwidth := layBandwidth h, clearing := true,
      started := 0, lines := [], written := [], poisoned := 0, crcFails := 0, status := 1, ending := none }
  let ts := updWhere (fun t : Tile => t.wing == w && tiles.contains t.idx) (fun t => { t with job := some num }) s.wb.tiles
  let wb : WbState :=
    { s.wb with jobs := s.wb.jobs ++ [job], ended := s.wb.ended.filter (·.num != num), tiles := ts,
                admissions := (s.wb.admissions.filter (·.1 != w)) ++ [(w, s.admissions w + 1)] }
  let s1 : State := { s with wb := wb, fresh := s.fresh + 1 }
  let line1 := leBytes 2 1 ++ leBytes 2 0 ++ leBytes 4 num ++ zeros 56
  let s2 := ((s1.jobWrite c (po + 64) line1 fullMask false).endCmd x stDone 0 num).bump 0x4011 1 w 1
  if dirty then s2 else s2.startJob num

/-- The chosen Wing decides a forwarded launch (R172, R173). -/
def State.decideJob (s : State) (x : Cmd) : State :=
  let c := x.coll
  let w := fieldAt x.bytes 12 1
  let po := fieldAt x.bytes 16 8
  let h := s.layoutImage (fieldAt x.bytes 8 4)
  if !s.wingUp w then s.endCmd x stBadOperand 0 0
  else if h.isEmpty then s.endCmd x stNotFound 0 0
  else
    let r := s.linesNow c po 2
    if r.2.2 then r.1.refuseJob x w 0x0A
    else if s.act.size c < po + paramExtent r.2.1 then r.1.endCmd x stBadOperand 0 0
    else
      let r2 := r.1.linesNow c (po + 128) (ceilDiv (paramExtent r.2.1) 64 - 2)
      let b := r.2.1 ++ r2.2.1
      if r2.2.2 then r2.1.refuseJob x w 0x0A
      else if !paramsOk h b then r2.1.refuseJob x w 8
      else if !r2.1.operandsOk h c (paramOperands b) (slice b (128 + 64 * ceilDiv (fieldAt b 3 1) 2) (fieldAt b 4 2)) then
        r2.1.refuseJob x w 7
      else
        match r2.1.placeJob h c w with
        | .error d => r2.1.refuseJob x w d
        | .ok ts => r2.1.admitJob x w h b ts

/-- The running job of a number, its tiles cleared and started, and not stopped. -/
def State.started? (s : State) (n : Nat) : Option Job :=
  match s.job? n with
  | some j => if j.clearing || j.ending.isSome then none else some j
  | none => none

/-- Lines of a job that a stream buffer can no longer deliver become poison, with the notice of their slot (R216). -/
def State.checkBuffers (s : State) (j : Job) : State :=
  let lost := j.lines.filter fun l => (sramReadLine l.data l.check).1 == .uncorrectable
  lost.foldl (fun s l =>
    ((s.bump 0x2121 (j.wing + 5) 0 1).event .d 0x40 (src (wingDie j.wing) (0xD0 + j.num % 16)) j.coll []).updJob j.num fun x =>
      { x with lines := updWhere (· == l) (fun y => { y with check := sramStore true y.data, poison := true }) x.lines }) s

/-- The vector registers of a job's tiles hold what its last output line left in them: the interior's, hence free (R163, R165). -/
def State.touchVectors (s : State) (j : Job) : State :=
  let v := (List.range 128).map fun i => Config.freeByte (s.fresh + i)
  let ts := updWhere (fun t : Tile => t.wing == j.wing && j.tiles.contains t.idx) (fun t => { t with vec := v }) s.wb.tiles
  { s with fresh := s.fresh + 128, wb := { s.wb with tiles := ts } }

/-- OD 0x4014:01: abort a job by its number (R179, R188); STATE when there is none. -/
def State.abortEntry (s : State) (n : Nat) : Except Nat State :=
  match s.job? n with
  | some j => .ok (s.abortJob j 1 true)
  | none => .error 6

/-- JOB_LAUNCH (R168). -/
def execJobLaunch (coll : Nat) (src : CmdSrc) (s : State) : Res := .next (s.runCmd coll src 7 State.launchJob)

/-- JOB_ADMISSION (R172-R174). -/
def execJobAdmission (coll : Nat) (src : CmdSrc) (s : State) : Res :=
  .next (match s.underWay coll src 7 with
    | some x => s.decideJob x
    | none => s)

/-- TILE_CLEAR_DONE (R176): the tiles are clear and the job starts. -/
def execTileClearDone (job : Nat) (s : State) : Res :=
  .next (match s.job? job with
    | some j => if j.clearing then s.startJob job else s
    | none => s)

/-- JOB_STREAM_READ (R164, R170, R178, R180, R184): each line is read once. -/
def execJobStreamRead (job operand offset : Nat) (s : State) : Res :=
  .next (match s.started? job with
    | none => s
    | some j =>
      let waits := s.mem.reads.any fun r => r.waiter == .job job operand offset
      match s.readable j operand offset with
      | none => s
      | some c =>
        if waits || (j.line? operand offset).isSome || offset % 64 != 0 then s
        else if libOf j.header == some .delta then
          (if offset % 4096 = 0 then s.streamBlock j operand c offset else s)
        else s.streamLine j operand c offset)

/-- JOB_STREAM_WRITE (R164, R180, R181, R183-R187): an output line whose inputs have been read, once; KV-GATHER's in
ascending order. -/
def execJobStreamWrite (job operand offset : Nat) (s : State) : Res :=
  .next (match s.started? job with
    | none => s
    | some j =>
      let s := s.checkBuffers j
      let j := (s.job? job).getD j
      let outs := s.outLines j
      let early := outs.takeWhile (· != (operand, offset))
      let ordered := libOf j.header != some .gather || early.all j.written.contains
      if !outs.contains (operand, offset) || j.written.contains (operand, offset) || !ordered then s
      else
        match s.outLine j operand offset with
        | none => s
        | some o =>
          if o.mask = 0 then s
          else
            let up := s.wingUp (s.place j.coll offset).wing
            ((s.touchVectors j).serveWrite j.coll offset o.data o.mask o.poison (.job job operand offset) 0xFF).updJob job fun j =>
              { j with written := j.written ++ [(operand, offset)], poisoned := j.poisoned + bit1 (o.poison && up) })

/-- JOB_COMPLETION (R177, R178): every output written and complete; a stopped job ends once its writes are complete. -/
def execJobCompletion (job : Nat) (s : State) : Res :=
  .next (let s := s.endStopped
    match s.started? job with
    | some j =>
      if s.jobFinished j && !s.jobBusy job then s.endJob j (if j.lines.any (·.read.2) then 3 else 2) 0 true else s
    | none => s)

/-- JOB_FAULT (R187): an index at or beyond T_p, the earlier tokens written. -/
def execJobFault (job : Nat) (s : State) : Res :=
  .next (match s.started? job with
    | some j =>
      if libOf j.header == some .gather && (s.gatherFault j).isSome && (s.outLines j).all j.written.contains &&
          !s.jobBusy job then s.endJob j 0x800D 0x0101 true
      else s
    | none => s)

/-- JOB_TIMEOUT (R177): time_limit has elapsed since the job's start; writes made stand. -/
def execJobTimeout (job : Nat) (s : State) : Res :=
  .next (match s.started? job with
    | some j =>
      if j.timeLimit != 0 && decide (j.started + j.timeLimit * ms ≤ s.tsc) then s.stopJob j 0x800C 0 true else s
    | none => s)

end Sys2Proof.Machine
end

