-- ==== Sys2Proof/Machine/DictValue.lean ====
section
/-! DEFINITION. What a READ of each dictionary entry returns (R325-R328): the requester's cursors, which entries it sees,
and the value of every entry, from the dictionary tables of each chapter. -/

namespace Sys2Proof

/-- The number that names a requester's cursors (R327): a port, or a DAP session above them. -/
def Requester.owner : Requester → Nat
  | .window p | .windowRsvd p => p
  | .dap i _ | .dapRsvd i _ => 0x10000 + i

/-- Who a requester is to the key (R338). -/
def Requester.holder : Requester → Machine.Holder
  | .window _ | .windowRsvd _ => .host
  | .dap i _ | .dapRsvd i _ => .session i

/-- Is the requester a DAP session? -/
def Requester.field : Requester → Bool
  | .window _ | .windowRsvd _ => false
  | .dap _ _ | .dapRsvd _ _ => true

/-- Is a rsvd field of its request not 0 (R329)? -/
def Requester.rsvd : Requester → Bool
  | .window _ | .dap _ _ => false
  | .windowRsvd _ | .dapRsvd _ _ => true

/-- The port whose dictionary window sends the request. -/
def Requester.port? : Requester → Option Nat
  | .window p | .windowRsvd p => some p
  | .dap _ _ | .dapRsvd _ _ => none

/-- The dictionary window of a port, and whether a rsvd field of its request is not 0. -/
def Requester.ofWindow (p : Nat) (rsvd : Bool) : Requester := if rsvd then .windowRsvd p else .window p

end Sys2Proof

namespace Sys2Proof.Machine

/-- Is the requester one of the control ports: a DAP session, or the window of the control-capable port (R330)? -/
def State.control (s : State) : Requester → Bool
  | .window p | .windowRsvd p => p == s.act.controlPort
  | .dap _ _ | .dapRsvd _ _ => true

/-- Cursors not yet written (R325). -/
def Cursors.start (o : Nat) : Cursors :=
  { owner := o, port := 0, coll := 0, seq := 0, chan := 0, corridor := 0, wing := 0, job := 0, docent := 0 }

/-- A requester's cursors; a port other than the control ports selects only itself (R324, R327). -/
def State.cursors (s : State) (q : Requester) : Cursors :=
  let c := (s.ed.cursors.find? (·.owner == q.owner)).getD (.start q.owner)
  if s.control q then c else { c with port := q.owner }

/-- Change a requester's cursors. -/
def State.setCursors (s : State) (q : Requester) (f : Cursors → Cursors) : State :=
  s.updEd fun e => { e with cursors := (e.cursors.filter (·.owner != q.owner)) ++ [f (s.cursors q)] }

/-- The object a scope's cursor selects (R325). -/
def Cursors.object (c : Cursors) (scope : Nat) : Nat :=
  match scope with
  | 1 => c.port
  | 2 => c.coll
  | 3 => c.seq
  | 4 => c.chan
  | 5 => c.corridor
  | 6 => c.wing
  | 7 => c.job
  | 8 => c.docent
  | _ => 0

/-- The scope an entry is the cursor of, if any (R325). -/
def cursorScope (idx sub : Nat) : Option Nat :=
  if sub ≠ 1 then none
  else if idx = 0x1100 then some 1
  else if idx = 0x3000 then some 2
  else if idx = 0x3810 then some 3
  else if idx = 0x2800 then some 4
  else if idx = 0x2200 then some 5
  else if idx = 0x4010 then some 6
  else if idx = 0x4012 then some 7
  else if idx = 0x4110 then some 8
  else none

/-- Set a cursor; the rsvd bits of a sequence number, a channel and a Corridor port are dropped (R11, R143, R243, R292). -/
def Cursors.put (c : Cursors) (scope v : Nat) : Cursors :=
  match scope with
  | 1 => { c with port := v }
  | 2 => { c with coll := v }
  | 3 => { c with seq := v % 2 ^ 19 }
  | 4 => { c with chan := v % 1024 }
  | 5 => { c with corridor := v &&& 0x37 }
  | 6 => { c with wing := v }
  | 7 => { c with job := v }
  | 8 => { c with docent := v }
  | _ => c

/-- Does a requester see an entry of this visibility: 0 every port, 1 the control ports, 2 DAP sessions? -/
def State.seesVis (s : State) (q : Requester) (vis : Nat) : Bool :=
  vis == 0 || (vis == 1 && s.control q) || (vis == 2 && q.field)

/-- The row of an entry that a requester sees; subindex 0 of an index that exists is a u8 (R325). -/
def State.visibleRow (s : State) (q : Requester) (idx sub : Nat) : Option OdRow :=
  if sub = 0 then
    match (odRows.filter fun r => r.idx == idx && s.seesVis q r.vis), odHighest idx with
    | _ :: _, some h => some { num idx 0 0 1 1 0 h 0 with hi := h }
    | _, _ => none
  else
    match odRow idx sub with
    | some r => if s.seesVis q r.vis then some r else none
    | none => none

/-- Is the die absent or isolated (R329)? -/
def State.dieGone (s : State) (c : Nat) : Bool :=
  match s.die? c with
  | some d => !d.present || d.isoState != 0
  | none => true

/-- Does an entry live on a die that is absent or isolated (R329)? Editions are held at the primary Lobby, and the docents'
states say themselves that a die is absent or isolated (R209). -/
def State.unavailable (s : State) (r : OdRow) (o : Nat) : Bool :=
  if r.acc = 4 then false
  else match r.scope with
    | 1 => s.dieGone (o / 8)
    | 4 => s.dieGone (wingDie (o / 256))
    | 5 => s.dieGone (o % 8)
    | 6 => s.dieGone (wingDie o)
    | _ => false

/-- Is the object hidden from a requester: off the control ports, a collection not offered at the port, and a job whose
launching collection is not (R68, R188)? -/
def State.hidden (s : State) (q : Requester) (scope o : Nat) : Bool :=
  if s.control q then false
  else if scope = 2 ∨ scope = 3 then !bitSet (s.act.ports (s.cursors q).coll) q.owner
  else if scope = 7 then
    match s.job? o, s.wb.ended.find? (·.num == o) with
    | some j, _ => !bitSet (s.act.ports j.coll) q.owner
    | none, some j => !bitSet (s.act.ports j.coll) q.owner
    | none, none => false
  else false

/-- A Wing's number 0-3 out of a subindex that starts at `lo`, and the die there. -/
def State.wingAt (s : State) (sub lo : Nat) (f : Die → Nat) : Nat :=
  match s.die? (wingDie (sub - lo)) with
  | some d => if d.present then f d else 0
  | none => 0

/-- A two's complement value in so many bytes. -/
def twosComp (n : Nat) (i : Int) : Nat := leNat (intBytes n i)

/-- Ports where an extent of a collection is accepted (R68, R96). -/
def State.acceptedMask (s : State) (c : Nat) (view : Bool) : Nat :=
  wingMask ((List.range 16).filter fun p => s.mem.extents.any fun x => x.same p c view && x.st == .accepted)

/-- Lobby 0x1000-0x1FFF (R324, R349, R437). -/
def State.read1 (s : State) (idx sub o free : Nat) : Nat :=
  match idx, sub with
  | 0x1000, 1 => Config.vendorId.toNat
  | 0x1000, 2 => Config.stepping.toNat
  | 0x1000, 3 => Config.serial.toNat
  | 0x1010, 2 => bit1 s.pkg.fieldLink
  | 0x1010, 4 => Config.macAddress.toNat
  | 0x1020, 1 => s.ed.holder.code
  | 0x1020, 2 => s.ed.holder.sessionId
  | 0x1020, 3 => s.ed.lease
  | 0x1030, _ => (((s.ed.sessions.filter (·.opened)).map (·.id))[sub - 1]?).getD 0
  | 0x1101, _ =>
    match s.fn? o with
    | none => 0
    | some f =>
      match sub with
      | 1 => f.link
      | 2 => f.rate
      | 3 => f.width
      | 4 => bit1 f.flit256
      | 5 => f.dstate
      | _ => wingMask ((List.range 16).filter fun e => s.act.enginePort (s.pkg.asm.lobbies.length == 1) (o / 8) e == o)
  | 0x1102, 1 => bit1 s.pw.prepared
  | 0x1102, 2 => if !s.pw.prepared then 0 else if s.galleryClear then 1000 else Config.freeNat free % 1000
  | _, _ => 0

/-- Admitted budget and demand of a tier of a Wing of the assembly, scrub included in the demand (R401-R403, R414). -/
def State.budgetAt (s : State) (w : Nat) (depot : Bool) : Rat := if s.pkg.asm.wings.contains w then s.budget s.act w depot else 0
def State.demandAt (s : State) (w : Nat) (depot : Bool) : Rat :=
  if s.pkg.asm.wings.contains w then
    sumRat (fun k => s.act.classDemand s.wingsOf w depot k) (List.range 4) + s.scrubDemand s.act w depot
  else 0

/-- Package and dies, 0x2000-0x27FF (R4, R25, R292, R396, R414, R437). -/
def State.read2 (s : State) (idx sub o : Nat) : Nat :=
  match idx with
  | 0x2000 =>
    if sub = 1 then s.pkg.asm.code
    else if sub = 2 then s.pkg.mark
    else if sub = 3 then
      wingMask (s.pkg.asm.wings.flatMap fun w => (List.range s.pkg.asm.sites).map (2 * w + ·))
    else wingMask (s.pkg.asm.wings.filter s.wingUp) +
      sumBy (fun l => match s.die? l with | some d => if d.present then 2 ^ (4 + l) else 0 | none => 0) s.pkg.asm.lobbies
  | 0x2001 => if sub = 1 then s.pkg.bootMode else s.pkg.nodeId
  | 0x2010 =>
    match sub with
    | 1 => s.pkg.start
    | 2 => s.pkg.phase
    | 3 => s.pkg.absent
    | 4 => s.pkg.bootLost
    | 5 => s.pkg.bootStatus
    | 6 => s.pkg.fwSlot
    | _ => s.pkg.releaseMs
  | 0x2130 => s.wingAt sub 2 (·.vdd)
  | 0x2131 => s.wingAt sub 1 Die.pace
  | 0x2132 => if sub = 2 then s.pw.power.floor.toNat else s.pw.stage
  | 0x2133 => match s.die? (sub - 1) with | some d => if d.present then twosComp 2 d.temp else 0 | none => 0
  | 0x2134 =>
    bit1 s.pw.epdA + 2 * bit1 s.pw.epdB + 4 * bit1 (s.pw.epdCount != 0) + 8 * bit1 s.pw.emergency
  | 0x2136 => if sub = 1 then bit1 (s.pw.causes != 0) else s.pw.causes
  | 0x2140 => (s.budgetAt (sub - 1) false).floor.toNat
  | 0x2141 => (s.budgetAt (sub - 1) true).floor.toNat
  | 0x2142 => (s.demandAt (sub - 1) false).ceil.toNat
  | 0x2143 => (s.demandAt (sub - 1) true).ceil.toNat
  | 0x2144 => permille (s.tierFactor ((sub - 1) / 4) false ((sub - 1) % 4))
  | 0x2145 => permille (s.tierFactor ((sub - 1) / 4) true ((sub - 1) % 4))
  | 0x2200 =>
    match s.cport? (o % 8) (o / 16) with
    | none => 0
    | some p =>
      match sub with
      | 2 => p.st
      | 3 => p.version
      | 4 => p.features
      | _ => (maskList 32 p.bound).length
  | 0x2202 =>
    if sub = 1 then s.corVersion
    else if sub = 2 then s.corFeatures
    else (s.mem.loanDir.filter fun x => s.loanHome x.coll == sub - 3).length
  | _ => 0

/-- Progress of a re-entry over the channel's lines, or of an evacuation over its runs, in permille (R270). -/
def State.orderProgress (s : State) (c : Chan) : Nat :=
  if c.st = 4 then c.progress * 1000 / s.chanLines (isDepot c.sel)
  else if c.st = 5 then c.progress * 1000 / max 1 (c.progress + (s.runsOnChan c.wing c.sel).length)
  else 0

/-- Channels (R243, R270). -/
def State.read3 (s : State) (idx sub o : Nat) : Nat :=
  match s.chan? (objWing o) (objSel o) with
  | none => 0
  | some c =>
    match idx, sub with
    | 0x2801, 7 => c.walk
    | 0x2803, 1 => c.st
    | 0x2803, 2 => c.band
    | 0x2803, 3 => c.fset
    | 0x2803, 5 => if c.st = 3 then c.trigger else 0
    | 0x2803, 6 => s.orderProgress c
    | _, _ => 0

/-- Wing lots of a collection on a Wing (R120). -/
def State.lotCount (s : State) (c w : Nat) : Nat := ceilDiv (bytesOn (s.act.grain c) (s.wingsOf c) (s.act.size c) w) 65536

/-- Wing lots whose lot tier is Gallery (R140): the listed ones, and the others at the new-lot tier. -/
def State.galleryLots (s : State) (c w : Nat) : Nat :=
  let listed := s.mem.lots.filter fun l => l.coll == c && l.wing == w
  (listed.filter fun l => s.allowedTier c w l.gallery).length +
    (if s.allowedTier c w (!s.act.newDepot c) then s.lotCount c w - listed.length else 0)

/-- Wing lots a Wing holds pinned to a tier (R135, R140). -/
def State.pinnedLots (s : State) (c w : Nat) (gallery : Bool) : Nat :=
  let spans := ((s.act.pins c).filter fun p => p.2.2 == gallery).map fun p =>
    lotSpan (s.act.grain c) (s.wingsOf c) w p.1 p.2.1
  spanUnion 0 (sortBy (fun a b : Nat × Nat => decide (a.1 ≤ b.1)) spans) +
    (s.mem.lots.filter fun l => l.coll == c && l.wing == w && l.pin == some gallery &&
      (s.act.pinAt c (s.collLots c w l.lot)).isNone).length

/-- The request entry of a requester (R146, R168): its status, detail and result. -/
def State.requestField (s : State) (c : Nat) (src : CmdSrc) (sub : Nat) : Nat :=
  let x := s.cmdAt c src
  if sub = 2 then x.status else if sub = 3 then x.detail else x.result

/-- Collections (R68, R96, R140, R243, R414). -/
def State.read4 (s : State) (idx sub c : Nat) : Nat :=
  let mine := s.mem.cat.filter (·.coll == c)
  let view := s.live c && s.act.viewOn c
  match idx, sub with
  | 0x3000, _ =>
    if !s.live c then 0
    else match s.coll? c with
      | some k => if k.overfull then 3 else if k.guarded then 2 else 1
      | none => 0
  | 0x3002, 3 => s.chargedTier c true
  | 0x3002, 4 => s.chargedTier c false
  | 0x3002, _ => (mine.filter (·.tier == .lost)).length
  | 0x3003, _ => wingMask (s.wingsOf c)
  | 0x3005, _ => if s.live c then s.lowestFactor c else 1000
  | 0x3006, _ => s.acceptedMask c false
  | 0x3008, 2 => s.acceptedMask c true
  | 0x3008, 3 => if view then viewH (s.act.size c) else 0
  | 0x3008, 4 => if !view then 0 else (mine.filter (·.crcFailed)).length
  | 0x3008, _ => if !view then 0 else (mine.filter fun e => e.hdrDamage || e.segDamage != 0).length
  | 0x300B, 1 => sumBy (s.galleryLots c) (s.wingsOf c)
  | 0x300B, 2 => sumBy (fun w => s.pinnedLots c w true) (s.wingsOf c)
  | 0x300B, 3 => sumBy (fun w => s.pinnedLots c w false) (s.wingsOf c)
  | 0x300B, _ => (mine.filter s.displaced).length
  | 0x300D, _ => bit1 (s.live c && (s.wingsOf c).all fun w => s.mem.keys.any fun k => k.coll == c && k.wing == w)
  | _, _ => 0

/-- Stored blocks of a live sequence's window that no other sequence shares (R157, R162). -/
def State.ownBlocks (s : State) (c n : Nat) : Nat :=
  (s.mem.cat.filter fun e => e.coll == c && e.stored && !s.shared e &&
    (match s.windowAt c (s.offset c e.wing e.blk 0) with
     | some (p, _, w, _) => p * 65536 + w == n
     | none => false)).length

/-- Sequence objects (R162). -/
def State.read5 (s : State) (q : Requester) (idx sub c : Nat) : Nat :=
  let field := q.field
  if idx = 0x3810 then
    let n := (s.cursors q).seq
    match s.seq? c n with
    | none => 0
    | some t =>
      match sub with
      | 2 => 1
      | 3 => t.held
      | 4 => t.depth
      | 5 => t.parent.getD 0xFFFFFFFF
      | _ => s.ownBlocks c n
  else if idx = 0x3811 then s.requestField c (.seqEntry field) sub
  else if idx = 0x3812 then
    (if sub = 1 then (s.mem.seqs.filter (·.coll == c)).length
     else (((s.mem.cat.filter fun e => e.coll == c && s.shared e).map (·.primary)).eraseDups).length)
  else if idx = 0x38FF then s.mem.seqs.length
  else match s.pool c (idx - 0x3800) with
    | some p => p.stride
    | none => 0

/-- A job, running or ended. -/
def State.anyJob (s : State) (n : Nat) : Option Job := (s.job? n).or (s.wb.ended.find? (·.num == n))

/-- Workbench and docents (R188, R209). -/
def State.read6 (s : State) (q : Requester) (idx sub o c : Nat) : Nat :=
  let field := q.field
  match idx with
  | 0x4001 => layId (s.layoutImage sub)
  | 0x4010 =>
    match sub with
    | 2 => (s.freeTiles o).length
    | 3 => s.freeStreams o
    | 4 => (s.freeBandwidth o / 1000).floor.toNat
    | _ => wingMask ((s.wb.tiles.filter fun t => t.wing == o && t.job.isSome).map (·.idx))
  | 0x4012 =>
    match s.anyJob o with
    | none => 0
    | some j =>
      match sub with
      | 2 => if (s.job? o).isSome then 1 else j.status
      | 3 => j.coll
      | 4 => j.layout
      | _ => j.poisoned
  | 0x4013 => s.requestField c (.jobEntry field) sub
  | 0x4100 => fieldAt (s.act.image sub) 8 4
  | 0x4110 =>
    match s.docent? o with
    | none => 0
    | some x =>
      match sub with
      | 2 => s.docentState o
      | 3 => if x.shown.running then x.shown.prog else 0
      | 4 => x.shown.pc
      | _ => x.fault
  | 0x4121 => (s.doc.triggers.filter (·.code == 3)).length
  | 0x4130 =>
    match s.docent? o with
    | none => 0
    | some x =>
      match sub with
      | 1 => x.point
      | 2 => (x.sweep[x.point]?).getD 0
      | _ => x.sweep.length
  | _ => 0

/-- The counter the selector names (R368): its row, subindex and object. -/
def State.selected (s : State) : Option (OdRow × Nat × Nat) :=
  let v := s.ev.selector
  match odRow (bits v 0 16) (bits v 16 8) with
  | some r => if r.counter then some (r, bits v 16 8, bits v 32 32) else none
  | none => none

/-- Telemetry, events, editions, diagnostics, security (R349, R368, R437, R454). -/
def State.read7 (s : State) (q : Requester) (idx sub o : Nat) : Nat :=
  match idx, sub with
  | 0x5000, _ => s.dieTsc s.pkg.primary
  | 0x5001, 9 => wingMask ((s.dies.filter (·.uncertain)).map (·.code))
  | 0x5001, _ =>
    match s.die? (sub - 1) with
    | some d => if d.present && d.code != s.pkg.primary then twosComp 4 d.latestE else 0
    | none => 0
  | 0x5002, 2 => match s.selected with | some x => s.counter x.1.idx x.2.1 x.2.2 | none => 0
  | 0x5002, _ =>
    match s.selected with
    | some x => bit1 (s.ev.counters.any fun k => k.idx == x.1.idx && k.sub == x.2.1 && k.obj == x.2.2 && k.wrap)
    | none => 0
  | 0x6010, _ =>
    match s.ed.sessions.find? fun x => 0x10000 + x.id == q.owner with
    | some x => if sub = 1 then x.filter else x.lost
    | none => 0
  | 0x7000, 1 => s.act.num
  | 0x7000, 3 => (s.ed.previous.map (·.num)).getD 0
  | 0x7000, 5 => bit1 !s.ed.confirmed
  | 0x7000, _ => s.ed.deadline
  | 0x7001, 2 => s.ed.stagedState
  | 0x7001, 4 => s.ed.reason
  | 0x7001, 5 => s.ed.failIdx
  | 0x7001, 6 => s.ed.failSub
  | 0x7001, 7 => s.ed.failObj
  | 0x7001, 8 => (s.ed.staged.map (·.num)).getD 0
  | 0x7002, 1 => s.ed.instant
  | 0x7002, 2 => s.ed.lastCommit
  | 0x7002, _ => s.ed.failure
  | 0x8001, _ => match s.chan? (objWing o) (objSel o) with | some c => c.freezes % 65536 | none => 0
  | 0x8002, _ =>
    match s.die? (wingDie ((sub - 1) % 4)) with
    | some d => if sub ≤ 4 then (if d.present then d.isoState else 3) else d.isoCause
    | none => if sub ≤ 4 then 3 else 0
  | 0x8010, _ => s.mem.writingBack
  | 0x8011, _ =>
    match s.chan? (objWing o) (objSel o) with
    | some c => [c.flip.ctl, c.flip.addr, c.flip.sel0, c.flip.sel1].getD (sub - 1) 0
    | none => 0
  | 0x8020, _ => s.id.debugState
  | 0xA001, 1 => s.id.minSvn
  | 0xA001, 2 => s.id.svn
  | 0xA002, _ => s.id.controlBanks.length % 16 + s.id.provBanks.length % 16 * 16
  | 0xA003, 1 => s.id.flashOff
  | 0xA003, 3 => bit1 s.id.flashOp.isSome
  | 0xA003, 4 => s.id.flashResult
  | _, _ => 0

/-- The challenge (R452). -/
def State.challengeBytes (s : State) (nonce : Nat) : Bytes :=
  leBytes 32 nonce ++ leBytes 8 Config.serial.toNat ++ leBytes 1 Config.stepping.toNat ++ leBytes 1 s.pkg.bootMode ++ zeros 22

/-- The value of an octets entry that no edition holds (R349, R368, R437, R454). -/
def State.readOctets (s : State) (q : Requester) (idx sub o : Nat) : Bytes :=
  match idx, sub with
  | 0x5002, _ => leBytes 8 s.ev.selector
  | 0x7000, 2 => s.editionHash s.activeEdition
  | 0x7000, _ => match s.ed.previous with | some e => s.editionHash e | none => zeros 48
  | 0x7001, _ => match s.ed.staged with | some e => if s.ed.stagedState = 3 then s.editionHash e else zeros 48 | none => zeros 48
  | 0x6011, _ =>
    match s.ed.sessions.find? fun x => 0x10000 + x.id == q.owner with
    | some x => slice ((x.queue.take 32).flatMap (·.bytes)) 0 1024
    | none => zeros 1024
  | 0x8001, _ =>
    match s.chan? (objWing o) (objSel o) with
    | some c => match c.record with | some b => slice b (1024 * (sub - 1)) 1024 | none => zeros 1024
    | none => zeros 1024
  | 0x8020, 1 => s.challengeBytes (s.id.nonce.getD 0)
  | 0x8020, _ => slice s.id.response 0 96
  | 0xA000, 9 => (List.range 1024).map fun i => Config.dieCertificate (16 + s.id.certNo) i
  | 0xA000, _ =>
    match s.die? (sub - 1) with
    | some d => if d.present then (List.range 1024).map fun i => Config.dieCertificate (sub - 1) i else zeros 1024
    | none => zeros 1024
  | 0xA001, _ => romKey 0
  | 0xA002, 1 => s.id.controlRoot.getD (zeros 97)
  | 0xA002, _ => s.id.provKey.getD (zeros 97)
  | 0xA003, _ => slice s.id.flashData 0 256
  | _, _ => []

/-- The numeric value of an entry that no edition holds and that is no counter and no cursor. -/
def State.readNum (s : State) (q : Requester) (idx sub o free : Nat) : Nat :=
  if idx < 0x2000 then s.read1 idx sub o free
  else if idx < 0x2800 then s.read2 idx sub o
  else if idx < 0x3000 then s.read3 idx sub o
  else if idx < 0x3800 then s.read4 idx sub o
  else if idx < 0x4000 then s.read5 q idx sub (s.cursors q).coll
  else if idx < 0x5000 then s.read6 q idx sub o (s.cursors q).coll
  else s.read7 q idx sub o

/-- The value of an entry to a requester (R10, R68, R188, R328); `free` numbers the free value it may need. -/
def State.odValue (s : State) (q : Requester) (r : OdRow) (sub free : Nat) : Bytes :=
  let o := (s.cursors q).object r.scope
  if sub = 0 then leBytes 1 r.dflt
  else match cursorScope r.idx sub with
    | some k => leBytes r.len ((s.cursors q).object k)
    | none =>
      if s.hidden q r.scope o then zeros r.len
      else if r.counter then leBytes 8 (s.counter r.idx sub o)
      else if r.acc = 4 then s.editionValue s.act r sub o
      else if r.ty = 0x10 then s.readOctets q r.idx sub o
      else leBytes r.len (s.readNum q r.idx sub o free)

end Sys2Proof.Machine
end

