-- ==== Sys2Proof/Machine/Identity.lean ====
section
/-! DEFINITION. The flash and the fuses (R433, R436), debug unlock (R452, R453). -/

namespace Sys2Proof.Machine

/-- Change the identity state. -/
def State.updId (s : State) (f : IdState → IdState) : State := { s with id := f s.id }

/-- Bytes of the SPI flash reachable with 3-byte addresses (R418). -/
def flashSize : Nat := 0x1000000

/-- Store bytes in the flash. -/
def storeFlash (l : List (Nat × Byte)) (a : Nat) (d : Bytes) : List (Nat × Byte) :=
  (l.filter fun x => !(decide (a ≤ x.1) && decide (x.1 < a + d.length))) ++ d.mapIdx fun i b => (a + i, b)

/-- Does a range meet the running firmware slot or the provisioning record (R436)? -/
def State.flashGuarded (s : State) (a n : Nat) : Bool :=
  let meets (b m : Nat) : Bool := decide (a < b + m) && decide (b < a + n)
  meets (slotBase s.pkg.fwSlot) 0x200000 || meets recordBase 0x1000

/-- OD 0xA003:03 (R436): 1 erases the 64 KiB block at the offset, 2 programs 256 bytes at it. -/
def State.flashEntry (s : State) (v : Nat) : Except Nat State :=
  let off := s.id.flashOff
  if flashSize ≤ off ∨ (v = 2 ∧ off % 256 ≠ 0) then .error 4
  else if s.id.flashOp.isSome then .error 6
  else
    let a := if v = 1 then off / 65536 * 65536 else off
    let n := if v = 1 then 65536 else 256
    if s.flashGuarded a n then .ok (s.updId fun i => { i with flashResult := 1 })
    else .ok (s.updId fun i => { i with flashOp := some (v == 1, a, if v = 1 then [] else slice i.flashData 0 256) })

/-- FLASH_OP_DONE (R418, R436): erased bytes read 0xFF and a page program only clears bits, as NOR flash does (log 24); what
a failed operation leaves there is a free value (log 1). -/
def execFlashOpDone (ok : Bool) (s : State) : Res :=
  .next (match s.id.flashOp with
    | none => s
    | some (erase, a, d) =>
      let n := if erase then 65536 else 256
      let bytes : Bytes := if !ok then (List.range n).map fun i => Config.freeByte (s.fresh + i)
        else if erase then List.replicate 65536 0xFF
        else d.mapIdx fun i b => b &&& s.flashAt (a + i)
      ({ s with fresh := s.fresh + (if ok then 0 else n) }).updId fun i =>
        { i with flashOp := none, flashResult := if ok then 0 else 2, flash := storeFlash i.flash a bytes })

/-- OD 0xA001:03 = 1 (R436): the fused minimum rises to the running svn; at most 64 times. -/
def State.svnEntry (s : State) : Except Nat State :=
  if s.id.svn ≤ s.id.minSvn then .ok s
  else if 64 < s.id.svnRaises + 1 then .error 6
  else .ok (s.updId fun i => { i with minSvn := i.svn, svnRaises := i.svnRaises + 1 })

/-- OD 0xA002:01 and :02 (R433): fuse the key's digest into the next bank unless it is the newest, and write the record. -/
def State.provisionEntry (s : State) (control : Bool) (key : Bytes) : Except Nat State :=
  let banks := if control then s.id.controlBanks else s.id.provBanks
  let h := sha384 key
  let same := banks.getLast? == some h
  if !same && decide (4 ≤ banks.length) then .error 6
  else
    let nb := if same then banks else banks ++ [h]
    .ok (s.updId fun i =>
      { i with controlBanks := if control then nb else i.controlBanks, provBanks := if control then i.provBanks else nb,
               controlRoot := if control then some key else i.controlRoot, provKey := if control then i.provKey else some key,
               flash := storeFlash i.flash (recordBase + if control then 0 else 128) key })

/-- A challenge read makes a nonce when one is due (R452). -/
def State.makeNonce (s : State) : State :=
  if s.id.nonce.isSome then s
  else
    let d := s.draw
    d.2.updId fun i => { i with nonce := some (Config.freeNonce d.1).toNat }

/-- Every response ends its nonce; one refused counts (R452, R453). -/
def State.refuseDebug (s : State) : State :=
  s.updId fun i =>
    let n := min 3 (i.failures + 1)
    { i with failures := n, debugState := if i.debugState = 2 then 2 else if n = 3 then 3 else 0 }

/-- A debug response arrives (R453): checked only while held by boot mode and not yet refused until cold reset. -/
def State.debugResponse (s : State) (r : Bytes) : State :=
  if s.pkg.phase != 5 || s.id.debugState == 3 then
    s.refuseDebug.updId fun i => { i with nonce := none, response := r }
  else s.updId fun i => { i with response := r, debugState := if i.debugState = 2 then 2 else 1 }

/-- Does the response under check verify under Barlon's debug key (R452)? Without a challenge read since the last response there is no
nonce to sign. -/
def State.debugPasses (s : State) : Bool :=
  s.id.nonce.isSome && ecdsaVerifies (romKey 2) (s.challengeBytes (s.id.nonce.getD 0)) (slice s.id.response 0 96)

/-- The primary Lobby pulses the key-erase wire of every present Wing (R453 step 3): `keep` names a Wing whose store did not
answer and kept its contents. -/
def State.eraseKeys (s : State) (keep : Option Nat) : State :=
  let hit (w : Nat) : Bool := keep != some w && (match s.die? (wingDie w) with | some d => d.present | none => false)
  let noSeal (d : Die) : Die := if 4 ≤ d.code && hit (d.code - 4) then { d with sealWord := none } else d
  ({ s with dies := s.dies.map noSeal } : State).updMem fun m => { m with keys := m.keys.filter fun k => !hit k.wing }

/-- DEBUG_SIGNATURE_CHECKED (R453): a response that passes erases every key, breaks the key and unlocks; one that fails is
refused. -/
def execDebugSignatureChecked (s : State) : Res :=
  .next (if s.id.debugState != 1 then s
    else if s.debugPasses then
      ((s.eraseKeys none).breakKey 5).updId fun i => { i with debugState := 2, nonce := none }
    else s.refuseDebug.updId fun i => { i with nonce := none })

/-- KEY_ERASE_ACK_TIMEOUT (R453): unlock does not take effect, and every response is refused until the next cold reset; the
erasures made stand, and whether the silent store erased its keys is a free value (log 1). -/
def execKeyEraseAckTimeout (wing : Nat) (s : State) : Res :=
  .next (if s.id.debugState == 1 && s.debugPasses && (match s.die? (wingDie wing) with | some d => d.present | none => false) then
      let d := s.draw
      (d.2.eraseKeys (if Config.freeNat d.1 % 2 = 0 then none else some wing)).updId fun i =>
        { i with debugState := 3, nonce := none }
    else s)

end Sys2Proof.Machine
end

