-- ==== Sys2Proof/Machine/Mailbox.lean ====
section
/-! DEFINITION. The primary mailbox of a function (R295-R298), the Dynamic Capacity commands (R44, R45, R297) and the commit
of an HDM decoder (R42). Return codes and payload layouts are the CXL standard's (PRESUMED, log 22). -/

namespace Sys2Proof.Machine

/-- Return codes of the mailbox. -/
def mbOk : Nat := 0
def mbBackground : Nat := 1
def mbInvalid : Nat := 2
def mbUnsupported : Nat := 3
def mbBusy : Nat := 6

/-- Can software reach the mailbox of a port? -/
def State.mailOpen (s : State) (p : Nat) : Bool :=
  match s.fn? p with
  | some f => s.running && f.ready && !f.resetting && f.dstate == 0 && !s.pkg.epdDone
  | none => false

/-- End a mailbox command: its return code and payload, and the signal of R302. -/
def State.mailDone (s : State) (p code : Nat) (payload : Bytes) : State := (s.send (.mailbox p code payload)).signal p 16 0

/-- Run a mailbox command. -/
def State.mail (s : State) (p : Nat) (f : State → State × Nat × Bytes) : State :=
  if s.mailOpen p then
    let r := f s
    r.1.mailDone p r.2.1 r.2.2
  else s

/-- Device ID (R299). -/
def State.deviceId (s : State) : Nat := if s.pkg.mark = 1 then 0x6A11 else 0x6A12

/-- IDENTIFY (R295, R299). -/
def execIdentify (port : Nat) (s : State) : Res :=
  .next (s.mail port fun s => (s, mbOk, leBytes 2 Config.vendorId.toNat ++ leBytes 2 s.deviceId ++ zeros 4 ++
    leBytes 8 Config.serial.toNat))

/-- BACKGROUND_OPERATION_STATUS (R295): the share done of a running Scan Media is a free value. -/
def execBackgroundOperationStatus (port : Nat) (s : State) : Res :=
  .next (s.mail port fun s =>
    let d := s.draw
    match s.fn? port with
    | some f =>
      if f.background = 0 then (s, mbOk, zeros 8)
      else if f.background = 1 then (d.2, mbOk, leBytes 2 0x4304 ++ leBytes 6 (Config.freeNat d.1 % 100))
      else (s, mbOk, leBytes 2 0x4304 ++ leBytes 6 100)
    | none => (s, mbOk, zeros 8))

/-- GET_SUPPORTED_LOGS (R295): the Command Effects Log alone, by the UUID of the CXL standard. -/
def execGetSupportedLogs (port : Nat) (s : State) : Res :=
  .next (s.mail port fun s => (s, mbOk, leBytes 2 1 ++ zeros 6 ++ beBytes 16 0x0DA9C0B5BF414B788F7996B1623B3F17 ++
    leBytes 4 Config.effectsLog.length))

/-- GET_LOG (R295). -/
def execGetLog (port : Nat) (commandEffects : Bool) (s : State) : Res :=
  .next (s.mail port fun s => if commandEffects then (s, mbOk, Config.effectsLog) else (s, mbUnsupported, []))

/-- IDENTIFY_MEMORY_DEVICE (R295): total, volatile and persistent static capacity are 0. -/
def execIdentifyMemoryDevice (port : Nat) (s : State) : Res := .next (s.mail port fun s => (s, mbOk, zeros 24))

/-- GET_HEALTH_INFO (R295): status, media status, additional status, life used not implemented, the temperature of the hottest
die in degrees, dirty-shutdown count 0. Maintenance is needed while a present Wing is out of service. -/
def execGetHealthInfo (port : Nat) (s : State) : Res :=
  .next (s.mail port fun s =>
    let hurt := s.dies.any fun d => d.present && 4 ≤ d.code && !d.inService
    let hot := (s.dies.filter (·.present)).foldl (fun m d => max m d.temp) (-400)
    (s, mbOk, ([byteOf (bit1 hurt), 0, 0, 0xFF] : Bytes) ++ intBytes 2 (hot / 4) ++ zeros 4))

/-- Device physical address of an extent (R42). -/
def State.extentDpa (s : State) (x : Extent) : Nat := s.act.regionBase x.port x.region + x.offset

/-- The Tag of an extent (R43, R89). -/
def extentTag (c : Nat) (view : Bool) : Bytes := leBytes 2 c ++ leBytes 1 (bit1 view) ++ zeros 13

/-- A record of the Dynamic Capacity event log as the mailbox returns it: handle, type (0 add, 1 release), DPA, length, tag. -/
def State.dcBytes (s : State) (v : DcEvent) : Bytes :=
  let a := match s.mem.extents.find? (·.handle == v.ext) with
    | some x => (s.extentDpa x, x.length)
    | none => (0, 0)
  leBytes 2 v.handle ++ leBytes 1 (bit1 (!v.add)) ++ leBytes 8 a.1 ++ leBytes 8 a.2 ++ extentTag v.coll v.view

/-- GET_EVENT_RECORDS (R296): logs 0-3 are always empty, log 4 is the Dynamic Capacity log. -/
def execGetEventRecords (port log : Nat) (s : State) : Res :=
  .next (s.mail port fun s =>
    if 4 < log then (s, mbInvalid, [])
    else if log < 4 then (s, mbOk, leBytes 2 0)
    else
      let vs := s.mem.dcLog.filter (·.port == port)
      (s, mbOk, leBytes 2 vs.length ++ vs.flatMap s.dcBytes))

/-- CLEAR_EVENT_RECORDS (R296, R297): waiting events then enter the log. -/
def execClearEventRecords (port log : Nat) (handles : List Nat) (s : State) : Res :=
  .next (s.mail port fun s =>
    let mine (h : Nat) : Bool := s.mem.dcLog.any fun v => v.port == port && v.handle == h
    if 4 < log || (log < 4 && !handles.isEmpty) || (log = 4 && !(handles.all mine)) then (s, mbInvalid, [])
    else if log < 4 then (s, mbOk, [])
    else
      ((s.updMem fun m => { m with dcLog := m.dcLog.filter fun v => !(v.port == port && handles.contains v.handle) }).tryPort port,
        mbOk, []))

/-- GET_EVENT_INTERRUPT_POLICY (R296). -/
def execGetEventInterruptPolicy (port : Nat) (s : State) : Res :=
  .next (s.mail port fun s => (s, mbOk, match s.fn? port with | some f => f.policy.map byteOf | none => []))

/-- SET_EVENT_INTERRUPT_POLICY (R296): one setting per log, five in all. -/
def execSetEventInterruptPolicy (port : Nat) (settings : List Nat) (s : State) : Res :=
  .next (s.mail port fun s =>
    if settings.length = 5 ∧ settings.all (· < 256) then (s.updFn port fun f => { f with policy := settings }, mbOk, [])
    else (s, mbInvalid, []))

/-- GET_DYNAMIC_CAPACITY_CONFIGURATION (R42): base, length and block size of the 8 regions. -/
def execGetDynamicCapacityConfiguration (port : Nat) (s : State) : Res :=
  .next (s.mail port fun s => (s, mbOk, ([8] : Bytes) ++ (List.range 8).flatMap fun r =>
    leBytes 8 (s.act.regionBase port r) ++ leBytes 8 (s.act.regionSize port r) ++ leBytes 8 65536))

/-- GET_DYNAMIC_CAPACITY_EXTENT_LIST (R44): the extents mapped at the port. -/
def execGetDynamicCapacityExtentList (port : Nat) (s : State) : Res :=
  .next (s.mail port fun s =>
    let xs := s.mem.extents.filter fun x => x.port == port && x.mapped
    (s, mbOk, leBytes 4 xs.length ++ xs.flatMap fun x =>
      leBytes 8 (s.extentDpa x) ++ leBytes 8 x.length ++ extentTag x.coll x.view))

/-- The extents of a port a list of (DPA, length) names among those that meet a test; none when one is not found. -/
def State.namedExtents (s : State) (p : Nat) (l : List (Nat × Nat)) (ok : Extent → Bool) : Option (List Extent) :=
  let xs := l.filterMap fun a => s.mem.extents.find? fun x => x.port == p && ok x && s.extentDpa x == a.1 && x.length == a.2
  if xs.length = l.length then some xs else none

/-- ADD_DYNAMIC_CAPACITY_RESPONSE (R45): the named offers are accepted, all or none. -/
def execAddDynamicCapacityResponse (port : Nat) (extents : List (Nat × Nat)) (s : State) : Res :=
  .next (s.mail port fun s =>
    match s.namedExtents port extents (·.st == .offered) with
    | none => (s, mbInvalid, [])
    | some xs => (xs.foldl (fun s x => s.updExtent x.handle fun y => { y with st := .accepted, shut := false }) s, mbOk, []))

/-- RELEASE_DYNAMIC_CAPACITY (R45, R297): a withdrawn extent is gone; one still offered is unmapped and offered anew. -/
def execReleaseDynamicCapacity (port : Nat) (extents : List (Nat × Nat)) (s : State) : Res :=
  .next (s.mail port fun s =>
    match s.namedExtents port extents (·.mapped) with
    | none => (s, mbInvalid, [])
    | some xs =>
      (xs.foldl (fun s x =>
        if x.st == .accepted then (s.updExtent x.handle fun y => { y with st := .offerWaiting }).dcEvent x true
        else (s.removeExtent x.handle).tryPort port) s, mbOk, []))

/-- RELEASE_TIMEOUT (R45, R297): the device removes the extent and raises a forced-release event. -/
def execReleaseTimeout (port coll : Nat) (view : Bool) (s : State) : Res :=
  .next (match s.mem.extents.find? fun x => x.same port coll view && x.st == .releasing with
    | none => s
    | some x =>
      if s.running && decide (x.deadline ≤ s.tsc) then
        ((s.event (.cp port) 0x18 (portSrc port) coll (pack [(1, port), (1, x.region)])).removeExtent x.handle).tryPort port
      else s)

/-- GET_SCAN_MEDIA_CAPABILITIES (R298): the device physical address range and the estimate in ms. -/
def execGetScanMediaCapabilities (port : Nat) (s : State) : Res :=
  .next (s.mail port fun s => (s, mbOk, leBytes 8 0 ++ leBytes 8 (s.act.regionBase port 8) ++ leBytes 4 3600000))

/-- Every SCRUB-WALK role restarts from line 0 (R298). -/
def State.restartWalks (s : State) : State :=
  let ds := s.pkg.asm.docents.filter fun d => s.act.native (s.roleIn s.act d) == some 1
  ds.foldl State.restartRole { s with chans := s.chans.map fun c => { c with walk := 0 } }

/-- SCAN_MEDIA (R298): on the control-capable port, over the whole range. -/
def execScanMedia (port start length : Nat) (s : State) : Res :=
  .next (s.mail port fun s =>
    if port != s.act.controlPort then (s, mbUnsupported, [])
    else if start != 0 || length != s.act.regionBase port 8 then (s, mbInvalid, [])
    else if s.fn.any (·.scanning) then (s, mbBusy, [])
    else (s.restartWalks.updFn port fun f => { f with scanning := true, background := 1 }, mbBackground, []))

/-- SCAN_MEDIA_COMPLETE (R298): every walk has finished its pass. -/
def execScanMediaComplete (s : State) : Res :=
  .next { s with fn := updWhere (·.scanning) (fun f => { f with scanning := false, background := 2 }) s.fn }

/-- GET_SCAN_MEDIA_RESULTS (R298): zero media error records. -/
def execGetScanMediaResults (port : Nat) (s : State) : Res := .next (s.mail port fun s => (s, mbOk, leBytes 2 0))

/-- GET_TIMESTAMP (R295): the TSC in ns. -/
def execGetTimestamp (port : Nat) (s : State) : Res :=
  .next (s.mail port fun s => (s, mbOk, leBytes 8 (s.dieTsc (port / 8))))

/-- UNSUPPORTED_MAILBOX_COMMAND (R295). -/
def execUnsupportedMailboxCommand (port _opcode : Nat) (s : State) : Res :=
  .next (s.mail port fun s => (s, mbUnsupported, []))

/-- HDM_DECODER_COMMIT (R42, R294): 1-way only; any other setting reports a commit error and decodes nothing. -/
def execHdmDecoderCommit (port decoder base size ways : Nat) (s : State) : Res :=
  .next (match s.fn? port with
    | none => s
    | some f =>
      if !s.running || !f.ready || f.resetting || 8 ≤ decoder then s
      else
        let ok := ways == 1
        let set (d : Decoder) : Decoder := { d with base := base, size := size, committed := ok, error := !ok }
        (s.updFn port fun f => { f with decoders := updWhere (·.r == decoder) set f.decoders }).send (.hdm port decoder ok))

end Sys2Proof.Machine
end

