-- ==== Sys2Proof/Machine/Dictionary.lean ====
section
/-! DEFINITION. The dictionary's operations and their commands (R327-R332, R336, R337, R428): who is served when, the order of
the checks, and the effect of a write of every entry. -/

namespace Sys2Proof.Machine

/-- What an operation gives: a code of R329, or the state after it and the data it returns. -/
abbrev OpResult := Except Nat (State × Bytes)

/-- Does a requester hold the key (R338)? -/
def State.holds (s : State) (q : Requester) : Bool := s.control q && s.ed.holder == q.holder

/-- Is an operation a write (R339)? -/
def isWrite (op : Nat) : Bool := op == 2 || op == 4

/-- Is an operation served now (R392, R428, R430, R443)? -/
def State.opServed (s : State) (op idx : Nat) : Bool :=
  if s.pkg.epdDone then op == 1
  else if s.pw.emergency then !isWrite op
  else if s.pkg.phase = 4 ∨ (s.pkg.phase = 5 ∧ 2 ≤ s.pkg.bootMode) then true
  else if !s.pkg.fwRunning then false
  else
    ((op == 1 || op == 5 || op == 6) && ((0x1000 ≤ idx && idx < 0x3000) || (0xA000 ≤ idx && idx < 0xB000))) ||
    idx == 0x1020 || idx == 0xA002 || idx == 0xA003 || (idx == 0x8020 && s.pkg.phase == 5)

/-- The bytes one operation carries (R330, R334). -/
def opLimit (q : Requester) : Nat := if q.field then 1024 else 4096

/-- The piece of a value an access names (R328): a numeric value whole, octets and domains by offset and length. -/
def piece (q : Requester) (r : OdRow) (v : Bytes) (offset length : Nat) : Except Nat Bytes :=
  if r.ty ≤ 8 then
    (if length ≠ r.len then .error 5 else if offset ≠ 0 then .error 4 else .ok v)
  else if (r.idx = 0x6011 ∧ (offset ≠ 0 ∨ length ≠ 1024)) ∨ opLimit q < length then .error 5
  else if v.length < offset + length then .error 4
  else .ok (slice v offset length)

/-- The LOST_RECORDS record of a session (R357, R364, R472). -/
def State.sessionLost (s : State) (n : Nat) : Rec := lostRecord (src 0 0x40) (s.dieTsc 0) n

/-- A READ of OD 0x6011:01 consumes the records it returns, and a lost count enters behind those left (R364). -/
def State.consume (s : State) (q : Requester) : State :=
  let f (x : Session) : Session :=
    let rest := x.queue.drop 32
    if x.lost = 0 then { x with queue := rest } else { x with queue := rest ++ [s.sessionLost x.lost], lost := 0 }
  s.updEd fun e => { e with sessions := updWhere (fun x => 0x10000 + x.id == q.owner) f e.sessions }

/-- READ (R328). -/
def State.readOp (s : State) (q : Requester) (idx sub offset length : Nat) : OpResult :=
  match s.visibleRow q idx sub with
  | none => .error 1
  | some r =>
    if sub ≠ 0 ∧ s.unavailable r ((s.cursors q).object r.scope) then .error 0xE
    else if r.acc = 3 then .error 2
    else
      let s0 := if idx = 0x8020 ∧ sub = 1 then s.makeNonce else s
      let d := s0.draw
      match piece q r (padTo (if idx = 0x6011 ∧ sub = 1 then 1024 else 0) (d.2.odValue q r sub d.1)) offset length with
      | .error e => .error e
      | .ok v => .ok (if idx = 0x6011 ∧ sub = 1 then d.2.consume q else d.2, v)

/-- READ_STAGED (R328, R342). -/
def State.readStagedOp (s : State) (q : Requester) (idx sub offset length : Nat) : OpResult :=
  match s.visibleRow q idx sub with
  | none => .error 1
  | some r =>
    if !s.control q || r.acc != 4 then .error 2
    else
      let e := s.ed.staged.getD s.act
      match piece q r (s.editionValue e r sub ((s.cursors q).object r.scope)) offset length, s.ed.staged with
      | .error c, _ => .error c
      | .ok _, none => .error 6
      | .ok v, some _ => .ok (s, v)

/-- An entry whose default the manual leaves empty: a value staged there stays, whatever it is. -/
def noDefault (idx sub : Nat) : Bool :=
  (idx == 0x3001 && sub ≤ 3) || idx == 0x3002 || (idx == 0x3003 && sub == 1) || (idx == 0x3006 && (sub == 4 || sub == 5)) ||
  (idx == 0x3008 && (sub == 1 || sub == 6))

/-- Bytes of domain content an edition holds (R342). -/
def Edition.domainBytes (e : Edition) : Nat :=
  sumBy (·.val.length) (e.vals.filter fun v => match odRow v.idx v.sub with | some r => r.ty == 0x11 | none => false)

/-- Put a value into an edition: a default is not listed, and a collection whose kind becomes 0 is gone (log 14). -/
def State.putValue (s : State) (e : Edition) (r : OdRow) (sub o : Nat) (v : Bytes) : Edition :=
  if r.idx = 0x3001 ∧ sub = 1 ∧ leNat v = 0 then { e with vals := e.vals.filter fun x => !(collIdx x.idx && x.obj == o) }
  else if v == s.defaultValue r sub && !noDefault r.idx sub then e.clear r.idx sub o
  else e.set r.idx sub o v

/-- The value a WRITE_STAGED gives an entry (R328): numeric whole, a domain extended or emptied by a piece. -/
def State.stagedValue (s : State) (q : Requester) (r : OdRow) (sub offset : Nat) (d : Bytes) : Except Nat Bytes :=
  if r.ty ≤ 8 then
    let v := dropRsvd r.idx d
    if d.length ≠ r.len then .error 5
    else if offset ≠ 0 ∨ !(decide (odLo r ≤ leNat v) && decide (leNat v ≤ s.odHi r)) then .error 4
    else .ok v
  else
    let cur := s.editionValue (s.ed.staged.getD s.act) r sub 0
    if opLimit q < d.length then .error 5
    else if 0x100000 < offset + d.length then .error 4
    else if offset = 0 ∧ d = [] then .ok []
    else if s.ed.staged.isSome ∧ cur.length < offset then .error 4
    else .ok (setSlice cur offset d)

/-- WRITE_STAGED (R342). -/
def State.writeStagedOp (s : State) (q : Requester) (idx sub offset : Nat) (d : Bytes) : OpResult :=
  match s.visibleRow q idx sub with
  | none => .error 1
  | some r =>
    let o := (s.cursors q).object r.scope
    if !s.control q || r.acc != 4 then .error 2
    else if !s.holds q then .error 3
    else match s.stagedValue q r sub offset d with
      | .error c => .error c
      | .ok v =>
        if !s.objectOk r.scope o then .error 4
        else match s.ed.staged with
          | none => .error 6
          | some e =>
            let e1 := s.putValue e r sub o v
            if s.act.domainBytes + 0x4000000 < e1.domainBytes then .error 4
            else if s.ed.stagedState = 1 ∨ s.ed.stagedState = 3 ∨ s.ed.stagedState = 4 then
              .ok (s.updEd fun x => { x with staged := some e1, stagedState := 1, reason := 0, failIdx := 0, failSub := 0,
                                             failObj := 0 }, [])
            else .error 6

/-- A write of a request entry issues its command (R146, R168). -/
def State.requestEntry (s : State) (c : Nat) (src : CmdSrc) (v : Bytes) : Except Nat State :=
  if !s.live c then .error 6
  else if s.isPending c src then .error 0xC
  else .ok (s.acceptCmd c src v)

/-- The effect of a write of a numeric entry that is no cursor. -/
def State.numEffect (s : State) (q : Requester) (idx sub o n : Nat) : Except Nat State :=
  match idx, sub with
  | 0x1020, _ => if n = 1 then s.takeEntry q.holder else if n = 0 then s.releaseEntry q.holder else .error 4
  | 0x1102, _ => .ok (s.prepareEntry n)
  | 0x2803, _ => s.orderEntry (objWing o) (objSel o) n
  | 0x4014, _ => s.abortEntry n
  | 0x4111, _ => s.restartEntry n
  | 0x4112, _ => s.customerEntry n
  | 0x4121, _ => s.verifyEntry n
  | 0x4130, _ => .ok (s.updDocent o fun x => { x with point := n })
  | 0x5002, _ =>
    match s.selected with
    | some x => .ok (s.setCounter x.1.idx x.2.1 x.2.2 n)
    | none => .error 4
  | 0x6010, _ =>
    .ok (s.updEd fun e => { e with sessions := updWhere (fun x => 0x10000 + x.id == q.owner) (fun x => { x with filter := n % 8 })
                                                 e.sessions })
  | 0x7001, _ => s.editionEntry n
  | 0x7002, _ => s.commitEntry n
  | 0x8002, _ => if n = 1 then s.isolateEntry (sub - 1) else s.returnEntry (sub - 1)
  | 0x8010, _ => s.writeBackEntry n
  | 0x8011, _ => .ok (s.updChan (objWing o) (objSel o) fun c => c.writeReg (0xF00 + 8 * (sub - 1)) n true)
  | 0xA001, _ => s.svnEntry
  | 0xA003, 1 => .ok (s.updId fun i => { i with flashOff := n })
  | 0xA003, _ => s.flashEntry n
  | _, _ => .error 2

/-- Does a counter's object exist under its scope (R5, R368)? -/
def State.counterObject (s : State) (scope o : Nat) : Bool :=
  match scope with
  | 0 => o == 0
  | 1 => decide (o < s.pkg.asm.ports)
  | 2 => decide (o < 4096)
  | 4 => (s.chan? (objWing o) (objSel o)).isSome && o == chanObj (objWing o) (objSel o)
  | 5 => (s.cport? (o % 8) (o / 16)).isSome && o == cportObj (o % 8) (o / 16)
  | 6 => s.pkg.asm.wings.contains o
  | 8 => (s.docent? o).isSome
  | _ => false

/-- The effect of a write of an octets entry, its whole new value given. -/
def State.octEffect (s : State) (q : Requester) (idx sub : Nat) (v : Bytes) : Except Nat State :=
  let field := q.field
  match idx with
  | 0x3811 => s.requestEntry (s.cursors q).coll (.seqEntry field) v
  | 0x4013 => s.requestEntry (s.cursors q).coll (.jobEntry field) v
  | 0x5002 =>
    match odRow (fieldAt v 0 2) (fieldAt v 2 1) with
    | some r => if r.counter && s.counterObject r.scope (fieldAt v 4 4) then .ok { s with ev := { s.ev with selector := leNat (setSlice v 3 [0]) } } else .error 4
    | none => .error 4
  | 0x8020 => .ok (s.debugResponse v)
  | 0xA002 => s.provisionEntry (sub == 1) v
  | 0xA003 => .ok (s.updId fun i => { i with flashData := v })
  | _ => .error 2

/-- Write a cursor (R324, R327). -/
def State.cursorEffect (s : State) (q : Requester) (scope n : Nat) : Except Nat State :=
  if scope = 1 ∧ !s.control q ∧ n ≠ q.owner then .error 4 else .ok (s.setCursors q fun c => c.put scope n)

/-- WRITE (R328, R329). -/
def State.writeOp (s : State) (q : Requester) (idx sub offset : Nat) (d : Bytes) : OpResult :=
  match s.visibleRow q idx sub with
  | none => .error 1
  | some r =>
    let o := (s.cursors q).object r.scope
    let cur := cursorScope idx sub
    let done (x : Except Nat State) : OpResult := x.map fun t => (t, [])
    if sub ≠ 0 ∧ cur.isNone ∧ s.unavailable r o then .error 0xE
    else if (!s.control q && (cur.isNone || sub == 0)) || r.acc == 1 || r.acc == 4 then .error 2
    else if r.acc == 5 && !s.holds q then .error 3
    else if idx == 0x1020 && s.ed.holder != .free && !s.holds q then .error 0xA
    else if r.ty ≤ 8 then
      (if d.length ≠ r.len then .error 5
       else if offset ≠ 0 ∨ leNat d < r.lo ∨ r.hi < leNat d then .error 4
       else match cur with
        | some k => done (s.cursorEffect q k (leNat d))
        | none => done (s.numEffect q idx sub o (leNat d)))
    else if ((idx = 0x3811 ∨ idx = 0x4013) ∧ (offset ≠ 0 ∨ d.length ≠ 56)) ∨ opLimit q < d.length then .error 5
    else if r.len < offset + d.length then .error 4
    else done (s.octEffect q idx sub (if r.acc = 3 then d else setSlice (s.odValue q r sub 0) offset d))

/-- DESCRIBE (R328): numeric defaults and limits, a domain's present length; the unit's text is a free value (log 1). -/
def State.describeOp (s : State) (q : Requester) (idx sub : Nat) : OpResult :=
  match s.visibleRow q idx sub with
  | none => .error 1
  | some r =>
    let numeric := decide (r.ty ≤ 8)
    let len := if r.ty = 0x11 then (s.editionValue s.act r sub 0).length else r.len
    let dflt := if !numeric then 0 else if r.acc = 4 then leNat (s.defaultValue r sub)
      else if cursorScope idx sub = some 1 ∧ !s.control q then q.owner else r.dflt
    let lo := if numeric then odLo r else 0
    let hi := if r.ty = 0x10 then 0 else s.odHi r
    .ok (s, pack [(1, r.ty), (1, r.acc), (1, r.scope), (1, 0), (4, len), (8, dflt), (8, lo), (8, hi)] ++
      (List.range 16).map fun i => Config.unitByte idx sub i)

/-- The first entry after one, in the order of index and subindex, that the requester sees (R328). -/
def State.entryAfter (s : State) (q : Requester) (idx sub : Nat) : Option (Nat × Nat) :=
  odEntries.find? fun x => (decide (idx < x.1) || (x.1 == idx && decide (sub < x.2))) && (s.visibleRow q x.1 x.2).isSome

/-- NEXT (R328): the next entry the requester sees, as index and subindex (log 25). -/
def State.nextOp (s : State) (q : Requester) (idx sub : Nat) : OpResult :=
  match s.entryAfter q idx sub with
  | some x => .ok (s, pack [(2, x.1), (1, x.2)])
  | none => .ok (s, pack [(2, 0xFFFF), (1, 0)])

/-- An operation's result when it is served, BUSY with a retry hint otherwise, MALFORMED when a rsvd field of its request is
not 0 (R329, R428): the state after it, its code and its data. -/
def State.perform (s : State) (q : Requester) (op idx : Nat) (f : State → OpResult) : State × Nat × Bytes :=
  if !s.opServed op idx then
    let d := s.draw
    (d.2, 7, leBytes 4 (max 10 (Config.freeNat d.1 % 2 ^ 32)))
  else
    let r := match (if q.rsvd && 1 ≤ op && op ≤ 6 then .error 0xD else f s : OpResult) with
      | .ok x => (x.1, 0, x.2)
      | .error c => (s, c, [])
    (if isWrite op && s.control q then r.1.renewLease q.holder else r.1, r.2)

/-- The window's registers as a request leaves them (R330). -/
def State.setWindow (s : State) (p op idx sub offset length : Nat) (rsvd : Bool) : State :=
  s.updFn p fun f =>
    { f with dict := { f.dict with addr := idx % 65536 + sub % 256 * 65536 + offset % 2 ^ 32 * 2 ^ 32,
                                   rsvd := f.dict.rsvd && rsvd,
                                   ctl := op % 256 + length % 8192 * 65536 } }

/-- The window's registers as a reply leaves them (R330). -/
def State.endWindow (s : State) (p code : Nat) (data : Bytes) : State :=
  s.updFn p fun f =>
    { f with dict := { f.dict with error := code, returned := data.length, done := (f.dict.done + 1) % 2 ^ 32,
                                   data := setSlice f.dict.data 0 data } }

/-- Is a window reachable: its link up and its function ready, in D0 (R316, R320)? -/
def State.windowOpen (s : State) (p : Nat) : Bool := s.mailOpen p && s.linkUp p

/-- Does the Field port answer (R291, R333, R419, R428)? -/
def State.fieldOpen (s : State) : Bool :=
  s.running && s.pkg.fieldLink && s.pkg.primary == 0 && !s.pkg.bootFailed

/-- A session. -/
def State.session? (s : State) (i : Nat) : Option Session := s.ed.sessions.find? (·.id == i)

/-- Change one session. -/
def State.updSession (s : State) (i : Nat) (f : Session → Session) : State :=
  s.updEd fun e => { e with sessions := updWhere (·.id == i) f e.sessions }

/-- A session ends (R335, R340): its cursors go with it, and the key breaks when it held it. -/
def State.endSession (s : State) (i : Nat) : State :=
  let s1 := if s.ed.holder == .session i then s.breakKey 4 else s
  s1.updEd fun e => { e with sessions := e.sessions.filter (·.id != i), cursors := e.cursors.filter (·.owner != 0x10000 + i) }

/-- Run an operation for a requester (R330, R336, R337). A window's request sets its registers and its reply too; a session's
is handled by its sequence number: executed once, resent, or refused with SEQUENCE, and BUSY consumes nothing. -/
def State.operate (s : State) (q : Requester) (op idx sub offset length : Nat) (f : State → OpResult) : State :=
  match q with
  | .window p | .windowRsvd p =>
    if !s.windowOpen p then s
    else
      let r := (s.expireLease.setWindow p op idx sub offset length q.rsvd).perform q op idx f
      (r.1.endWindow p r.2.1 r.2.2).send (.reply q r.2.1 r.2.2)
  | .dap i n | .dapRsvd i n =>
    if !s.fieldOpen then s
    else match s.ed.sessions.find? fun x => x.id == i && x.opened with
      | none => s.bump 0x1031 2 0 1
      | some x =>
        let s0 := (s.updSession i fun x => { x with idleFrom := s.tsc }).expireLease
        match n == x.last, x.reply with
        | true, some r => (s0.bump 0x1031 3 0 1).send (.reply q r.1 r.2)
        | _, _ =>
          if n ≠ x.last + 1 then (if isWrite op then s0.renewLease q.holder else s0).send (.reply q 8 [])
          else
            let r := s0.perform q op idx f
            let s1 := r.1.send (.reply q r.2.1 r.2.2)
            if r.2.1 = 7 then s1
            else
              let s2 := s1.updSession i fun x => { x with last := n, reply := some r.2 }
              if n = 2 ^ 32 - 1 then s2.endSession i else s2

/-- Is a requester's window held by a quiesce of the control-capable port (R344)? -/
def State.windowHeld (s : State) : Requester → Bool
  | .window p | .windowRsvd p =>
    s.ed.quiescing && (match s.ed.incoming with
      | some e => e.controlPort != s.act.controlPort && (p == e.controlPort || p == s.act.controlPort)
      | none => false)
  | .dap _ _ | .dapRsvd _ _ => false

/-- Run an operation, or hold its request. -/
def State.orHoldOp (s : State) (q : Requester) (i : Instr) (f : State → State) : State :=
  if s.windowHeld q then s.updEd fun e => { e with heldReqs := e.heldReqs ++ [i] } else f s

/-- The operations of R328, each for a requester. -/
def State.dictRead (s : State) (q : Requester) (idx sub offset length : Nat) : State :=
  s.orHoldOp q (.read q idx sub offset length) fun s =>
    s.operate q 1 idx sub offset length fun s => s.readOp q idx sub offset length

def State.dictWrite (s : State) (q : Requester) (idx sub offset : Nat) (d : Bytes) : State :=
  s.orHoldOp q (.write q idx sub offset d) fun s =>
    s.operate q 2 idx sub offset d.length fun s => s.writeOp q idx sub offset d

def State.dictReadStaged (s : State) (q : Requester) (idx sub offset length : Nat) : State :=
  s.orHoldOp q (.readStaged q idx sub offset length) fun s =>
    s.operate q 3 idx sub offset length fun s => s.readStagedOp q idx sub offset length

def State.dictWriteStaged (s : State) (q : Requester) (idx sub offset : Nat) (d : Bytes) : State :=
  s.orHoldOp q (.writeStaged q idx sub offset d) fun s =>
    s.operate q 4 idx sub offset d.length fun s => s.writeStagedOp q idx sub offset d

def State.dictDescribe (s : State) (q : Requester) (idx sub : Nat) : State :=
  s.orHoldOp q (.describe q idx sub) fun s => s.operate q 5 idx sub 0 0 fun s => s.describeOp q idx sub

def State.dictNext (s : State) (q : Requester) (idx sub : Nat) : State :=
  s.orHoldOp q (.nextEntry q idx sub) fun s => s.operate q 6 idx sub 0 0 fun s => s.nextOp q idx sub

def State.dictBad (s : State) (q : Requester) (op : Nat) : State :=
  s.orHoldOp q (.badOp q op) fun s => s.operate q op 0 0 0 0 fun _ => .error 9

/-- A request a quiesce held is served when it ends, in order of arrival (R344). -/
def State.runHeld (s : State) : Instr → State
  | .cxlMemRead p a => s.linkRead p a
  | .cxlMemWrite p a d be x => s.linkWrite p a d be x
  | .compressedViewRead p a => s.linkRead p a
  | .read q i u o n => s.dictRead q i u o n
  | .write q i u o d => s.dictWrite q i u o d
  | .readStaged q i u o n => s.dictReadStaged q i u o n
  | .writeStaged q i u o d => s.dictWriteStaged q i u o d
  | .describe q i u => s.dictDescribe q i u
  | .nextEntry q i u => s.dictNext q i u
  | .badOp q op => s.dictBad q op
  | _ => s

/-- READ, WRITE, READ_STAGED, WRITE_STAGED, DESCRIBE and NEXT (R328), and an operation that is none of them (R329). -/
def execRead (req : Requester) (idx sub offset length : Nat) (s : State) : Res := .next (s.dictRead req idx sub offset length)
def execWrite (req : Requester) (idx sub offset : Nat) (data : Bytes) (s : State) : Res :=
  .next (s.dictWrite req idx sub offset data)
def execReadStaged (req : Requester) (idx sub offset length : Nat) (s : State) : Res :=
  .next (s.dictReadStaged req idx sub offset length)
def execWriteStaged (req : Requester) (idx sub offset : Nat) (data : Bytes) (s : State) : Res :=
  .next (s.dictWriteStaged req idx sub offset data)
def execDescribe (req : Requester) (idx sub : Nat) (s : State) : Res := .next (s.dictDescribe req idx sub)
def execNextEntry (req : Requester) (idx sub : Nat) (s : State) : Res := .next (s.dictNext req idx sub)
def execBadOp (req : Requester) (op : Nat) (s : State) : Res :=
  .next (if (1 ≤ op && op ≤ 6) || op == 0x40 || op == 0x41 then s else s.dictBad req op)

/-- JOB_ABORT (R179): OD 0x4014:01. -/
def execJobAbort (req : Requester) (job : Nat) (s : State) : Res := .next (s.dictWrite req 0x4014 1 0 (leBytes 4 job))

/-- VERIFY_REQUEST (R192): OD 0x4121:01. -/
def execVerifyRequest (req : Requester) (coll : Nat) (s : State) : Res := .next (s.dictWrite req 0x4121 1 0 (leBytes 2 coll))

/-- CUSTOMER_TRIGGER (R192): OD 0x4112:01. -/
def execCustomerTrigger (req : Requester) (value : Nat) (s : State) : Res := .next (s.dictWrite req 0x4112 1 0 (leBytes 8 value))

/-- ROLE_RESTART (R200): OD 0x4111:01. -/
def execRoleRestart (req : Requester) (docent : Nat) (s : State) : Res := .next (s.dictWrite req 0x4111 1 0 (leBytes 1 docent))

/-- WRITE_BACK_COLLECTION (R243): OD 0x8010:01. -/
def execWriteBackCollection (req : Requester) (coll : Nat) (s : State) : Res :=
  .next (s.dictWrite req 0x8010 1 0 (leBytes 2 coll))

/-- FREEZE_ORDER (R263): OD 0x2803:04 = 1. -/
def execFreezeOrder (req : Requester) (s : State) : Res := .next (s.dictWrite req 0x2803 4 0 (leBytes 1 1))

/-- REENTER_ORDER (R266): OD 0x2803:04 = 2. -/
def execReenterOrder (req : Requester) (s : State) : Res := .next (s.dictWrite req 0x2803 4 0 (leBytes 1 2))

/-- EVACUATE_ORDER (R268): OD 0x2803:04 = 3. -/
def execEvacuateOrder (req : Requester) (s : State) : Res := .next (s.dictWrite req 0x2803 4 0 (leBytes 1 3))

/-- PREPARE_D3COLD (R322): OD 0x1102:01 = 1. -/
def execPrepareD3cold (req : Requester) (s : State) : Res := .next (s.dictWrite req 0x1102 1 0 (leBytes 1 1))

/-- END_D3COLD_PREPARATION (R322): OD 0x1102:01 = 0. -/
def execEndD3coldPreparation (req : Requester) (s : State) : Res := .next (s.dictWrite req 0x1102 1 0 (leBytes 1 0))

/-- SESSION_QUEUE_READ (R364): a whole READ of OD 0x6011:01. -/
def execSessionQueueRead (req : Requester) (s : State) : Res := .next (s.dictRead req 0x6011 1 0 1024)

/-- COUNTER_WRITE (R367): OD 0x5002:02. -/
def execCounterWrite (req : Requester) (value : Nat) (s : State) : Res := .next (s.dictWrite req 0x5002 2 0 (leBytes 8 value))

/-- FLASH_ERASE (R436): OD 0xA003:03 = 1. -/
def execFlashErase (req : Requester) (s : State) : Res := .next (s.dictWrite req 0xA003 3 0 (leBytes 1 1))

/-- FLASH_PROGRAM (R436): OD 0xA003:03 = 2. -/
def execFlashProgram (req : Requester) (s : State) : Res := .next (s.dictWrite req 0xA003 3 0 (leBytes 1 2))

/-- RAISE_MIN_SVN (R436): OD 0xA001:03 = 1. -/
def execRaiseMinSvn (req : Requester) (s : State) : Res := .next (s.dictWrite req 0xA001 3 0 (leBytes 1 1))

/-- PROVISION_CONTROL_ROOT (R433): OD 0xA002:01. -/
def execProvisionControlRoot (req : Requester) (key : Bytes) (s : State) : Res := .next (s.dictWrite req 0xA002 1 0 key)

/-- PROVISION_KEY (R433): OD 0xA002:02. -/
def execProvisionKey (req : Requester) (key : Bytes) (s : State) : Res := .next (s.dictWrite req 0xA002 2 0 key)

/-- WING_ISOLATE (R447): OD 0x8002 = 1. -/
def execWingIsolate (req : Requester) (wing : Nat) (s : State) : Res := .next (s.dictWrite req 0x8002 (wing + 1) 0 (leBytes 1 1))

/-- WING_RETURN (R448): OD 0x8002 = 2. -/
def execWingReturn (req : Requester) (wing : Nat) (s : State) : Res := .next (s.dictWrite req 0x8002 (wing + 1) 0 (leBytes 1 2))

end Sys2Proof.Machine
end

