-- ==== Sys2Proof/Machine/Sessions.lean ====
section
/-! DEFINITION. The Field port and SPDM (R333-R336, R434, R435): which requests are answered, DAP sessions and their end, and
the measurements. The standards' own message layouts are free values (log 1). -/

namespace Sys2Proof.Machine

/-- Is SPDM served over a way (R428, R434)? Over DOE once the function is ready, over DAP on the Field port, in a session
while it is open. -/
def State.spdmOpen (s : State) : SpdmVia → Bool
  | .doe p => s.mailOpen p && s.linkUp p
  | .dap => s.fieldOpen
  | .session i => s.fieldOpen && s.ed.sessions.any fun x => x.id == i && x.opened

/-- A frame of opcode 0x40 that comes before the ROM has handed over is BUSY with a hint of 100 ms (R428). -/
def State.tooEarly (s : State) : SpdmVia → Bool
  | .dap => !s.pkg.fwRunning
  | _ => false

/-- Answer an SPDM request. A frame in a session is consumed and its reply stored like any other (R336). -/
def State.spdmAnswer (s : State) (via : SpdmVia) (ok : Bool) (body : Bytes) : State :=
  let s1 := s.send (.spdm via ok body)
  match via with
  | .session i => s1.updSession i fun x => { x with last := x.last + 1, reply := some (0, body), idleFrom := s.tsc }
  | _ => s1

/-- Serve an SPDM request that every way supports. -/
def State.serveSpdm (s : State) (via : SpdmVia) (f : State → State) : State :=
  if !s.spdmOpen via then s
  else if s.tooEarly via then s.send (.spdm via false (leBytes 4 100))
  else f s

/-- An SPDM request the standard answers from the device's identity alone; `code` names the request. -/
def State.plainSpdm (s : State) (code : Nat) (via : SpdmVia) (m : Bytes) : State :=
  s.serveSpdm via fun s => s.spdmAnswer via true (Config.spdmResponse code m)

/-- GET_VERSION, GET_CAPABILITIES, NEGOTIATE_ALGORITHMS, GET_DIGESTS and CHALLENGE (R434). -/
def execGetVersion (via : SpdmVia) (message : Bytes) (s : State) : Res := .next (s.plainSpdm 0x84 via message)
def execGetCapabilities (via : SpdmVia) (message : Bytes) (s : State) : Res := .next (s.plainSpdm 0xE1 via message)
def execNegotiateAlgorithms (via : SpdmVia) (message : Bytes) (s : State) : Res := .next (s.plainSpdm 0xE3 via message)
def execGetDigests (via : SpdmVia) (message : Bytes) (s : State) : Res := .next (s.plainSpdm 0x81 via message)
def execChallenge (via : SpdmVia) (message : Bytes) (s : State) : Res := .next (s.plainSpdm 0x83 via message)

/-- GET_CERTIFICATE (R432, R434): a part of slot 0's chain. -/
def execGetCertificate (via : SpdmVia) (offset length : Nat) (s : State) : Res :=
  .next (s.plainSpdm 0x82 via (leBytes 4 offset ++ leBytes 4 length ++ leBytes 8 s.id.certNo))

/-- The digests of a list of images, 48 zero bytes for an empty one (R435). -/
def digests (l : List Bytes) (at_ : Nat) : Bytes :=
  l.flatMap fun b => if b.isEmpty then zeros 48 else slice b at_ 48

/-- A measurement (R435). -/
def State.measurement (s : State) (i : Nat) : Bytes :=
  match i with
  | 1 => (leBytes 48 Config.bootRomDigest.toNat)
  | 2 => sha384 (s.flashN (slotBase s.pkg.fwSlot) (s.slotField s.pkg.fwSlot 16 4 - 128))
  | 3 => s.id.profileHash
  | 4 => sha384 (digests ((List.range 32).map fun k => s.act.image (k + 1)) 16)
  | 5 => sha384 (digests ((List.range 64).map fun k => s.layoutImage (k + 1)) 64)
  | 6 => s.editionHash s.activeEdition
  | 7 => pack [(1, s.pkg.bootMode), (1, bit1 (s.id.debugState == 2)), (1, s.pkg.fwSlot), (1, 0)]
  | _ => sha384 (s.id.controlBanks.getLastD (zeros 48) ++ s.id.provBanks.getLastD (zeros 48))

/-- GET_MEASUREMENTS (R435): one index, or every one for index 0xFF, signed; an index there is none of is an error. -/
def execGetMeasurements (via : SpdmVia) (index : Nat) (nonce : Bytes) (s : State) : Res :=
  .next (s.serveSpdm via fun s =>
    if index = 0xFF ∨ (1 ≤ index ∧ index ≤ 8) then
      let body := if index = 0xFF then (List.range 8).flatMap fun i => s.measurement (i + 1) else s.measurement index
      s.spdmAnswer via true (body ++ Config.spdmResponse 0xE0 (nonce ++ body))
    else s.spdmAnswer via false [])

/-- The ids of open sessions and of handshakes under way. -/
def State.sessionIds (s : State) : List Nat := s.ed.sessions.map (·.id)

/-- KEY_EXCHANGE (R335, R433, R434): only in frames of opcode 0x40, with a control root provisioned and fewer than 8 sessions;
the session's id is a free value that names no other session (log 1). -/
def execKeyExchange (via : SpdmVia) (message : Bytes) (s : State) : Res :=
  .next (s.serveSpdm via fun s =>
    match via with
    | .doe _ => s.spdmAnswer via false []
    | .session _ => s.spdmAnswer via false []
    | .dap =>
      if 8 ≤ s.ed.sessions.length then s.spdmAnswer via false [3]
      else match s.id.controlRoot with
        | none => s.spdmAnswer via false []
        | some k =>
          let d := s.draw
          let id := 1 + (Config.freeNat d.1 % (2 ^ 32 - 1))
          if s.sessionIds.contains id || !Config.spdmVerifies 0 (k ++ message) then d.2.spdmAnswer via false []
          else
            (d.2.updEd fun e =>
              { e with sessions := e.sessions ++
                  [{ id := id, opened := false, last := 0, reply := none, idleFrom := s.tsc, filter := 0, queue := [], lost := 0 }] }).spdmAnswer
              via true (leBytes 4 id ++ Config.spdmResponse 0xE4 message))

/-- FINISH (R335): the handshake whose transcript it closes becomes an open session. -/
def execFinish (via : SpdmVia) (message : Bytes) (s : State) : Res :=
  .next (s.serveSpdm via fun s =>
    match via with
    | .doe _ => s.spdmAnswer via false []
    | .session _ => s.spdmAnswer via false []
    | .dap =>
      match s.ed.sessions.find? fun x => !x.opened && Config.spdmVerifies x.id message with
      | none => s.spdmAnswer via false []
      | some x =>
        (s.updSession x.id fun x => { x with opened := true, idleFrom := s.tsc }).spdmAnswer via true (Config.spdmResponse 0xE5 message))

/-- END_SESSION (R335): acknowledged, and the session ends. -/
def execEndSession (session : Nat) (s : State) : Res :=
  .next (s.serveSpdm (.session session) fun s =>
    (s.spdmAnswer (.session session) true (Config.spdmResponse 0xEC [])).endSession session)

/-- HEARTBEAT (R434): an authenticated frame of the session. -/
def execHeartbeat (session : Nat) (s : State) : Res :=
  .next (s.serveSpdm (.session session) fun s => s.spdmAnswer (.session session) true (Config.spdmResponse 0xE8 []))

/-- SESSION_IDLE_TIMEOUT (R335): no authenticated frame for OD 0x1031:01 seconds; an unfinished handshake ends alike. -/
def execSessionIdleTimeout (session : Nat) (s : State) : Res :=
  .next (match s.session? session with
    | some x => if s.running && decide (x.idleFrom + s.act.nat 0x1031 1 0 60 * 1000 * ms ≤ s.tsc) then s.endSession session else s
    | none => s)

/-- FIELD_LINK_LOSS (R335): every session ends. -/
def execFieldLinkLoss (s : State) : Res :=
  .next (s.sessionIds.foldl (fun s i => s.endSession i) (s.updPkg fun p => { p with fieldLink := false }))

/-- FIELD_LINK_UP (R333, R349). -/
def execFieldLinkUp (s : State) : Res :=
  .next (if s.running && s.pkg.primary == 0 then s.updPkg fun p => { p with fieldLink := true } else s)

/-- DAP_FRAME_DROP (R336): nothing but the count. -/
def execDapFrameDrop (_why : DropCause) (s : State) : Res := .next (if s.fieldOpen then s.bump 0x1031 2 0 1 else s)

/-- The device's link-local address: fe80::/64 with the modified EUI-64 identifier of its MAC address (R333). -/
def linkLocal : Nat :=
  let m := Config.macAddress.toNat
  0xFE80 * 2 ^ 112 + (((m / 2 ^ 24) ^^^ 0x020000) * 2 ^ 40 + 0xFFFE * 2 ^ 24 + m % 2 ^ 24)

/-- NEIGHBOR_SOLICITATION (R333): answered for the device's own address; to an address probe, to every node. -/
def execNeighborSolicitation (source target : Nat) (s : State) : Res :=
  .next (if s.fieldOpen && target == linkLocal then
      s.send (.neighborAdvertisement (if source = 0 then 0xFF02 * 2 ^ 112 + 1 else source) target)
    else s)

/-- ICMPV6_ECHO (R333). -/
def execIcmpv6Echo (source : Nat) (payload : Bytes) (s : State) : Res :=
  .next (if s.fieldOpen then s.send (.echoReply source payload) else s)

/-- RECORD_HOLD_EXPIRY (R355, R359, R362): the earliest held record, due 2 us after its TSC, is written to each of its
receivers, or counted lost there. -/
def execRecordHoldExpiry (s : State) : Res :=
  .next (match s.ev.heldRecs with
    | [] => s
    | h :: t =>
      if h.body.tsc + 2000 ≤ s.tsc then
        h.dest.foldl (fun s r => s.writeTo h.body r) { s with ev := { s.ev with heldRecs := t } }
      else s)

end Sys2Proof.Machine
end

