-- ==== Sys2Proof/Machine/Control.lean ====
section
/-! DEFINITION. The commands of the key and of editions (R338-R348), and the dies' telemetry as the arbiter takes it (R288,
R289, R369). -/

namespace Sys2Proof.Machine

/-- KEY_TAKE (R338): OD 0x1020:01 = 1. -/
def execKeyTake (req : Requester) (s : State) : Res := .next (s.dictWrite req 0x1020 1 0 (leBytes 1 1))

/-- KEY_RELEASE (R340): OD 0x1020:01 = 0. -/
def execKeyRelease (req : Requester) (s : State) : Res := .next (s.dictWrite req 0x1020 1 0 (leBytes 1 0))

/-- LEASE_EXPIRY (R339, R340). -/
def execLeaseExpiry (s : State) : Res := .next (if s.running then s.expireLease else s)

/-- BEGIN_FROM_ACTIVE (R342): OD 0x7001:01 = 1. -/
def execBeginFromActive (req : Requester) (s : State) : Res := .next (s.dictWrite req 0x7001 1 0 (leBytes 1 1))

/-- BEGIN_FROM_PREVIOUS (R342): OD 0x7001:01 = 2. -/
def execBeginFromPrevious (req : Requester) (s : State) : Res := .next (s.dictWrite req 0x7001 1 0 (leBytes 1 2))

/-- VALIDATE (R342, R343): OD 0x7001:01 = 3. -/
def execValidate (req : Requester) (s : State) : Res := .next (s.dictWrite req 0x7001 1 0 (leBytes 1 3))

/-- VALIDATION_DONE (R343). -/
def execValidationDone (s : State) : Res := .next (if s.running then s.endValidation else s)

/-- DISCARD (R342): OD 0x7001:01 = 4. -/
def execDiscard (req : Requester) (s : State) : Res := .next (s.dictWrite req 0x7001 1 0 (leBytes 1 4))

/-- CONFIRM (R348): OD 0x7001:01 = 5. -/
def execConfirm (req : Requester) (s : State) : Res := .next (s.dictWrite req 0x7001 1 0 (leBytes 1 5))

/-- COMMIT (R345, R347): OD 0x7002:01. -/
def execCommit (req : Requester) (instant : Nat) (s : State) : Res := .next (s.dictWrite req 0x7002 1 0 (leBytes 8 instant))

/-- COMMIT_HASH_QUERY (R289, R345): at T - 2 ms. A die that is not prepared fails the commit at once; any other disagreement
waits for the decision. -/
def execCommitHashQuery (answers : List (Nat × HashAnswer)) (s : State) : Res :=
  .next (match s.ed.staged with
    | none => s
    | some x =>
      if !s.running || s.ed.phase != 1 || decide (s.tsc + 2 * ms < s.ed.instant) then s
      else match s.verdict (leNat (s.editionHash x)) answers with
        | none => s.updEd fun e => { e with phase := 2, decision := 1, decisionDie := 0 }
        | some (n, d) =>
          if n = 1 then s.failCommit 1 d
          else s.updEd fun e => { e with phase := 2, decision := n + 1, decisionDie := d })

/-- COMMIT_DECISION (R289, R345): at T - 1 ms, go or abort to every die. -/
def execCommitDecision (s : State) : Res :=
  .next (if !s.running || s.ed.phase != 2 || decide (s.tsc + ms < s.ed.instant) then s
    else if s.ed.decision = 1 then s.updEd fun e => { e with phase := 3 }
    else s.failCommit (s.ed.decision - 1) s.ed.decisionDie)

/-- Is a commit at its instant (R345, R347)? -/
def State.atInstant (s : State) : Bool := s.running && s.ed.phase == 3 && !s.ed.quiescing && decide (s.ed.instant ≤ s.tsc)

/-- COMMIT_INSTANT (R289, R344-R346): on /LM2. A link that retrains across the instant fails the commit. -/
def execCommitInstant (s : State) : Res :=
  .next (match s.ed.staged with
    | none => s
    | some x =>
      if !s.atInstant || s.pkg.mark == 1 then s
      else match s.retraining with
        | some d => s.failCommit 4 d
        | none => s.reachInstant x s.ed.instant false)

/-- Serve what a quiesce held, oldest first (R344). -/
def State.releaseHeldReqs (s : State) : State :=
  let l := s.ed.heldReqs
  l.foldl State.runHeld (s.updEd fun e => { e with heldReqs := [] })

/-- Has the traffic a quiesce holds drained: none in flight, and no read of a reassigned engine outstanding? -/
def State.drained (s : State) (new : Edition) : Bool :=
  !s.ed.quiesced.any s.inFlight &&
  !s.fn.any fun f => f.hostReads.any fun r => (engineSubs s.act new).contains (16 * (f.port / 8) + r.engine + 1)

/-- QUIESCE_COMPLETE (R344): the slow objects are applied, or on /LM1 a whole revert (R348), and the held requests served. -/
def execQuiesceComplete (s : State) : Res :=
  .next (match s.ed.incoming with
    | none => s
    | some x =>
      if !s.running || !s.ed.quiescing || !s.drained x then s
      else
        let s1 := if s.pkg.mark = 1 then s.swapWhole x s.ed.deadline s.ed.reverting
          else (s.applySlow x).updEd fun e => { e with quiescing := false, incoming := none, reverting := false, quiesced := [] }
        s1.releaseHeldReqs)

/-- QUIESCED_SWAP (R347): on /LM1, with nothing in flight; then what was held is served. -/
def execQuiescedSwap (s : State) : Res :=
  .next (match s.ed.staged with
    | none => s
    | some x =>
      if !s.atInstant || s.pkg.mark != 1 || s.act.colls.any s.inFlight then s
      else match s.retraining with
        | some d => (s.failCommit 4 d).releaseHeldReqs
        | none => (s.swapWhole x s.ed.instant false).releaseHeldReqs)

/-- CONFIRM_DEADLINE (R348): an unconfirmed ACTIVE reverts to PREVIOUS, at the deadline on /LM2 and by a quiesced swap on /LM1. -/
def execConfirmDeadline (s : State) : Res :=
  .next (match s.ed.previous with
    | none => s
    | some x =>
      if !s.running || s.ed.confirmed || s.ed.quiescing || decide (s.tsc < s.ed.deadline) then s
      else if s.pkg.mark = 1 then
        s.updEd fun e => { e with quiescing := true, incoming := some x, reverting := true, quiesced := s.act.colls }
      else s.reachInstant x s.ed.deadline true)

/-- TELEMETRY_MESSAGE (R288, R289, R369, R373): the Steward holds the die's report, a voltage held for want of telemetry is
held no more, and a Wing in service whose ACTIVE hash differs is isolated. -/
def execTelemetryMessage (die : Nat) (msg : Telemetry) (s : State) : Res :=
  .next (match s.die? die with
    | none => s
    | some d =>
      if !s.running || !s.pkg.fwRunning || !d.present then s
      else
        let s1 := s.updDie die fun d =>
          { d with temp := msg.temp, rings := msg.rings, power := msg.power, hash := msg.hash, lastTelemetry := s.tsc,
                   telemetryLost := false, vddHold := false }
        match dieWing die with
        | some w =>
          if d.inService && s.pkg.phase == 4 && msg.hash != leNat (s.editionHash s.activeEdition) then s1.isolateWing w 5 else s1
        | none => s1)

end Sys2Proof.Machine
end

