-- ==== Sys2Proof/Machine/Registers.lean ====
section
/-! DEFINITION. A posted 8-byte write through BAR0, BAR2 or the configuration space of a port (R10-R13, R299-R308, R314, R330,
R331, R449). Offsets 0 to 0x3FFFFFF are BAR0, 0x4000000 on is BAR2, and 0x4001000 on is the configuration space. A write
that is another command's own act has that command's effect. -/

namespace Sys2Proof.Machine

/-- Start of BAR2 and of the configuration space in the numbering of REGISTER_WRITE. -/
def bar2Start : Nat := 0x4000000
def cfgStart : Nat := 0x4001000

/-- Write 8 bytes of the load window (R314), listing no byte that is 0 and each word whose write carried poison (R115). -/
def Fn.writeLoad (f : Fn) (o v : Nat) (poison : Bool) : Fn :=
  let rest := f.loadBytes.filter fun x => x.1 / 8 != o / 8
  let new := ((List.range 8).map fun i => (o / 8 * 8 + i, byteOf (v / 2 ^ (8 * i)))).filter fun x => x.2 != 0
  { f with
    loadBytes := new.foldl (fun l x => insertBy (fun a b : Nat × Byte => decide (a.1 ≤ b.1)) x l) rest
    loadPoison := (if poison then [o / 8] else []) ++ f.loadPoison.filter (· != o / 8) }

/-- FN_MOV_BASE (R308): 4 KiB-aligned, unchanged while enabled. -/
def Engine.setBase (g : Engine) (v : Nat) : Engine := if g.enable then g else { g with base := bits v 12 52 * 4096 }

/-- A write of a Mover engine's slot (R308). -/
def State.writeSlot (s : State) (p e r v : Nat) : Res :=
  if r = 0x00 then .next (s.updEngine p e fun g => g.setBase v)
  else if r = 0x08 then .next (s.writeMovCtl p e v)
  else if r = 0x10 then execMoverDoorbell p e v s
  else .next s

/-- A write of an event queue's registers (R305, R360). -/
def writeQueueReg (s : State) (p q r v : Nat) : Res :=
  if r = 0x00 then execFnEqCtlWrite p q true v s
  else if r = 0x08 then execFnEqCtlWrite p q false v s
  else if r = 0x18 then execFnEqHeadWrite p q v s
  else if r = 0x20 then .next (s.updFn p fun f => f.updQueue q fun eq => { eq with shadow := bits v 3 61 * 8 })
  else if r = 0x28 then execFnEqFilterWrite p q v s
  else .next s

/-- A write of FN_LOAD_CTL (R314). -/
def writeLoadCtl (s : State) (p v : Nat) : Res :=
  if bitSet v 63 then execLoadGo p v s
  else .next (s.updFn p fun f => if f.loadBusy then f else { f with loadColl := bits v 0 12, loadLen := loadLength v })

/-- A write of the function block (R302). -/
def writeFnBlock (s : State) (p o v : Nat) : Res :=
  if o = 0x8 then execIntStatClear p v s
  else if o = 0x10 then writeLoadCtl s p v
  else if 0x20000 ≤ o ∧ o < 0x21000 then s.writeSlot p ((o - 0x20000) / 0x100) (o % 0x100) v
  else if 0x21000 ≤ o ∧ o < 0x21400 then writeQueueReg s p ((o - 0x21000) / 0x40) (o % 0x40) v
  else if 0x80000 ≤ o then .next (s.updFn p fun f => if f.loadBusy then f else f.writeLoad (o - 0x80000) v false)
  else .next s

/-- The bytes of FN_DICT_DATA (R330). -/
def DictWindow.bytes (d : DictWindow) (n : Nat) : Bytes := (List.range n).map fun i => d.data.getD i 0

/-- The operation that FN_DICT_CTL written with go starts (R328-R331); `rsvd` says that a rsvd field of the request is not 0. -/
def State.windowGo (s : State) (p : Nat) (d : DictWindow) (rsvd : Bool) : State :=
  let idx := bits d.addr 0 16
  let sub := bits d.addr 16 8
  let off := bits d.addr 32 32
  let op := bits d.ctl 0 8
  let len := bits d.ctl 16 13
  match op with
  | 1 => s.dictRead (.ofWindow p rsvd) idx sub off len
  | 2 => s.dictWrite (.ofWindow p rsvd) idx sub off (d.bytes len)
  | 3 => s.dictReadStaged (.ofWindow p rsvd) idx sub off len
  | 4 => s.dictWriteStaged (.ofWindow p rsvd) idx sub off (d.bytes len)
  | 5 => s.dictDescribe (.ofWindow p rsvd) idx sub
  | 6 => s.dictNext (.ofWindow p rsvd) idx sub
  | _ => s.dictBad (.ofWindow p rsvd) op

/-- Change a function's dictionary window. -/
def State.updDict (s : State) (p : Nat) (g : DictWindow → DictWindow) : State :=
  s.updFn p fun f => { f with dict := g f.dict }

/-- Is an operation of a window held by a quiesce, so that FN_DICT_STAT.busy reads 1 (R330, R344)? -/
def State.windowBusy (s : State) (p : Nat) : Bool :=
  s.ed.heldReqs.any fun
    | .read q _ _ _ _ => q.port? == some p
    | .write q _ _ _ _ => q.port? == some p
    | .readStaged q _ _ _ _ => q.port? == some p
    | .writeStaged q _ _ _ _ => q.port? == some p
    | .describe q _ _ => q.port? == some p
    | .nextEntry q _ _ => q.port? == some p
    | .badOp q _ => q.port? == some p
    | _ => false

/-- A write of the dictionary window (R330, R331). -/
def State.writeWindow (s : State) (p o v : Nat) : State :=
  match s.fn? p with
  | none => s
  | some f =>
    if s.windowBusy p then s
    else if o = 0x0 then s.updDict p fun d => { d with addr := bits v 0 24 + bits v 32 32 * 2 ^ 32, rsvd := bits v 24 8 != 0 }
    else if o = 0x8 then
      let d := { f.dict with ctl := bits v 0 8 + bits v 16 13 * 2 ^ 16 }
      let s1 := s.updDict p fun _ => d
      if bitSet v 31 then s1.windowGo p d (d.rsvd || bits v 8 8 != 0 || bits v 29 2 != 0 || bits v 32 32 != 0) else s1
    else if 0x1000 ≤ o ∧ o < 0x2000 then
      let k := o - 0x1000
      s.updDict p fun d => { d with data := setSlice (d.bytes (max d.data.length (k + 8))) k (leBytes 8 v) }
    else s

/-- A write of WNG_SPLIT or WNG_CAT_SEL (R238, R449): RWK fields, and the command of R239. -/
def writeDiag (s : State) (w o v : Nat) : Res :=
  let put (g : Split → Split) : Res := .next (if s.splitOpen w then s.updSplit w g else s)
  if o = 0x00 then put fun x => { x with addr := bits v 6 50 * 64, sel := bits v 56 8 }
  else if o = 0x08 then
    (match bits v 0 3 with
      | 1 => execReadRaw w s
      | 2 => execWriteData w s
      | 3 => execWriteCheck w s
      | 4 => execWriteBoth w s
      | 5 => execCompute w s
      | _ => .next s)
  else if 0x40 ≤ o ∧ o < 0x80 then put fun x => { x with data := setSlice x.data (o - 0x40) (leBytes 8 v) }
  else if 0x80 ≤ o ∧ o < 0x90 then
    put fun x =>
      let k := setSlice x.check (o - 0x80) (leBytes 8 v)
      { x with check := if isDepot x.sel then k else slice k 0 8 ++ zeros 8 }
  else if 0xC0 ≤ o ∧ o < 0x100 then
    put fun x => { x with scheck := setSlice x.scheck (o - 0xC0) ((leBytes 8 v).map fun b => b &&& 0x1F) }
  else if o = 0x1000 then put fun x => { x with catSel := bits v 0 12 + bits v 16 34 * 2 ^ 16 }
  else .next s

/-- WNG_CAT_STAT.valid: the selected block is homed on the Wing and its entry exists (R449). -/
def State.catValid (s : State) (x : Split) : Bool := s.entryExists x.wing (bits x.catSel 0 12) (bits x.catSel 16 34)

/-- WNG_CAT_ENT: one copy of the selected entry, or zeros (R84, R85, R449). -/
def State.catEnt (s : State) (x : Split) : Bytes :=
  if s.catValid x then (s.entry (bits x.catSel 0 12) x.wing (bits x.catSel 16 34)).bytes else zeros 16

/-- What an 8-byte word of a Wing's diagnostic windows reads (R238, R449). -/
def State.readDiag (s : State) (w o : Nat) : Nat :=
  match s.split.find? (·.wing == w) with
  | none => 0
  | some x =>
    if !s.diagOpen w then 0
    else if o = 0x00 then x.addr + x.sel * 2 ^ 56
    else if o = 0x10 then x.result * 2
    else if 0x40 ≤ o ∧ o < 0x80 then fieldAt x.data (o - 0x40) 8
    else if 0x80 ≤ o ∧ o < 0x90 then fieldAt x.check (o - 0x80) 8
    else if 0xC0 ≤ o ∧ o < 0x100 then fieldAt x.scheck (o - 0xC0) 8
    else if o = 0x1000 then x.catSel
    else if o = 0x1008 then bit1 (s.catValid x)
    else if o = 0x1010 then fieldAt (s.catEnt x) 0 8
    else if o = 0x1018 then fieldAt (s.catEnt x) 8 8
    else 0

/-- What a register of an event queue reads (R305, R360, R363). -/
def EventQueue.readReg (q : EventQueue) (r : Nat) : Nat :=
  match r with
  | 0x00 => q.base
  | 0x08 => q.size + bit1 q.enable * 2 ^ 8 + q.vector * 2 ^ 16 + q.moderation * 2 ^ 24
  | 0x10 => q.tail
  | 0x18 => q.head
  | 0x20 => q.shadow
  | 0x28 => q.filter
  | 0x30 => q.lost
  | _ => 0

/-- What a register of an engine's slot reads (R308). -/
def Engine.readReg (g : Engine) (r : Nat) : Nat :=
  match r with
  | 0x00 => g.base
  | 0x08 => g.size + bit1 g.enable * 2 ^ 8 + g.queue * 2 ^ 16
  | 0x10 => g.tail
  | 0x18 => g.head
  | 0x20 => g.st + g.stopIdx * 2 ^ 16
  | _ => 0

/-- What an 8-byte word of the function block reads (R302, R305, R307, R308, R314); of the blocks of CXL's own registers and of the rest,
0 (Scope). -/
def State.readFnBlock (s : State) (f : Fn) (o : Nat) : Nat :=
  if o = 0x0 then s.pkg.asm.code + s.pkg.mark * 2 ^ 16 + f.port * 2 ^ 20 + bit1 (f.port == s.act.controlPort) * 2 ^ 24
  else if o = 0x8 then f.intStat
  else if o = 0x10 then f.loadColl + f.loadLen * 2 ^ 32
  else if o = 0x18 then bit1 f.loadBusy + f.loadRefused % 2 ^ 16 * 2 ^ 16 + f.loadAccepted % 2 ^ 32 * 2 ^ 32
  else if 0x20000 ≤ o ∧ o < 0x21000 then
    (match s.engine? f.port ((o - 0x20000) / 0x100) with
     | some g => g.readReg (o % 0x100)
     | none => 0)
  else if 0x21000 ≤ o ∧ o < 0x21400 then (f.queues.getD ((o - 0x21000) / 0x40) .reset).readReg (o % 0x40)
  else if 0x80000 ≤ o ∧ o < 0x100000 then
    leNat ((List.range 8).map fun i => ((f.loadBytes.find? (·.1 == o - 0x80000 + i)).map (·.2)).getD 0)
  else 0

/-- What an 8-byte word of the dictionary window reads (R330). -/
def State.readWindow (s : State) (f : Fn) (o : Nat) : Nat :=
  let d := f.dict
  if o = 0x0 then d.addr
  else if o = 0x8 then d.ctl
  else if o = 0x10 then bit1 (s.windowBusy f.port) + d.error * 2 ^ 8 + d.returned * 2 ^ 16 + d.done * 2 ^ 32
  else if 0x1000 ≤ o ∧ o < 0x2000 then fieldAt d.data (o - 0x1000) 8
  else 0

/-- What an 8-byte word of a port's BAR0 reads (R301); no command of the table is such a read. -/
def State.readBar0 (s : State) (p o : Nat) : Nat :=
  match s.fn? p with
  | none => 0
  | some f =>
    if o < 0x100000 then s.readFnBlock f o
    else if o < 0x200000 then s.readWindow f (o - 0x100000)
    else if p ≠ s.act.controlPort then 0
    else if o < 0x300000 then s.readDieReg 0 (o - 0x200000)
    else if o < 0x400000 then s.readDieReg 1 (o - 0x300000)
    else if o < 0x1000000 then 0
    else if o < 0x2000000 then s.readDieReg (wingDie ((o - 0x1000000) / 0x400000)) ((o - 0x1000000) % 0x400000)
    else if o < 0x3000000 then s.readDiag ((o - 0x2000000) / 0x400000) ((o - 0x2000000) % 0x400000)
    else 0

/-- A write of an 8-byte word of BAR0 (R301): die blocks and diagnostic windows only on the control-capable port. -/
def writeBar0 (s : State) (p o v : Nat) : Res :=
  let key := s.hostKey
  if o < 0x100000 then writeFnBlock s p o v
  else if o < 0x200000 then .next (s.writeWindow p (o - 0x100000) v)
  else if p ≠ s.act.controlPort then .next s
  else if o < 0x300000 then .next (s.writeDieReg 0 (o - 0x200000) v key)
  else if o < 0x400000 then .next (s.writeDieReg 1 (o - 0x300000) v key)
  else if o < 0x1000000 then .next s
  else if o < 0x2000000 then
    .next (s.writeDieReg (wingDie ((o - 0x1000000) / 0x400000)) ((o - 0x1000000) % 0x400000) v key)
  else if o < 0x3000000 then writeDiag s ((o - 0x2000000) / 0x400000) ((o - 0x2000000) % 0x400000) v
  else .next s

/-- Set one entry of the MSI-X table, all zeros and masked where nothing was written. -/
def Fn.updVector (f : Fn) (k : Nat) (g : Nat × Nat × Nat × Bool → Nat × Nat × Nat × Bool) : Fn :=
  { f with table := upsert (·.1 == k) g (k, 0, 0, true) f.table }

/-- A write of 8 bytes of the MSI-X table (R302, R304): the address, or the data and the mask; an unmasked vector whose PBA
bit is set sends its message. -/
def State.writeTable (s : State) (p o v : Nat) : State :=
  let k := o / 16
  if 64 ≤ k then s
  else if o % 16 = 0 then s.updFn p fun f => f.updVector k fun e => (e.1, bits v 2 62 * 4, e.2.2.1, e.2.2.2)
  else (s.updFn p fun f => f.updVector k fun e => (e.1, e.2.1, bits v 0 32, bitSet v 32)).sendPending p k

/-- Bytes of a Device Control size code (PCI Express). -/
def sizeOfCode (c : Nat) : Nat := 128 * 2 ^ min c 5

/-- Send the messages of MSI vectors no longer masked (R304). -/
def State.sendMsiPending (s : State) (p : Nat) : State :=
  match s.fn? p with
  | some f =>
    if !f.msiEn || !f.canMaster then s
    else (List.range 32).foldl (fun s v =>
      if bitSet f.msiPending v && !bitSet f.msiMask v then
        (s.updFn p fun f => { f with msiPending := putBit f.msiPending v false }).send (.message p v false)
      else s) s
  | none => s

/-- The writable bits of the other configuration words: the base addresses, the interrupt line, the MSI address and data
and the AER masks (PRESUMED: PCI Express's own layout). -/
def cfgMask (o : Nat) : Nat :=
  if o = 0x10 then 0xFC000000 else if o = 0x14 then 0xFFFFFFFF else if o = 0x18 then 0xFFFFF000 else if o = 0x1C then 0xFFFFFFFF
  else if o = 0x3C then 0xFF else if o = 0x54 then 0xFFFFFFFC else if o = 0x58 then 0xFFFFFFFF else if o = 0x5C then 0xFFFF
  else if o = 0x108 then 0x17D010 else if o = 0x10C then 0x17D010 else if o = 0x114 then 0x31C1 else 0

/-- Set another configuration word. -/
def Fn.setCfg (f : Fn) (o v : Nat) : Fn :=
  let rest := f.cfg.filter (·.1 != o)
  { f with cfg := insertBy (fun a b : Nat × Nat => decide (a.1 ≤ b.1)) (o, v &&& cfgMask o) rest }

/-- The INTx message that a change of Interrupt Disable calls for (R303). -/
def State.intxChange (s : State) (p : Nat) (off : Bool) : State :=
  match s.fn? p with
  | none => s
  | some f =>
    let s1 := s.updFn p fun f => { f with intxDisable := off }
    if f.intxDisable == off || f.msixEn || f.msiEn || f.intStat == 0 || !f.canMaster then s1 else s1.send (.intx p !off)

/-- A write of a 4-byte word of the configuration space (R299, R300, R303, R304, R315, R316, R320, R321). -/
def writeCfg (s : State) (p o v : Nat) : Res :=
  match s.fn? p with
  | none => .next s
  | some f =>
    if o = 0x04 then
      let s1 := s.intxChange p (bitSet v 10)
      if bitSet v 2 == f.bme then .next s1 else if bitSet v 2 then execBusMasterEnableSet p s1 else execBusMasterEnableClear p s1
    else if o = 0x44 then
      let s1 := s.updFn p fun f => { f with pmeEn := bitSet v 8, pmeStatus := f.pmeStatus && !bitSet v 15 }
      if bits v 0 2 = 0 then execD0Return p s1 else if bits v 0 2 = 3 then execD3hotEntry p s1 else .next s1
    else if o = 0x50 then
      .next ((s.updFn p fun f => { f with msiEn := bitSet v 16, msiGranted := 2 ^ min (bits v 20 3) 5 }).sendMsiPending p)
    else if o = 0x60 then .next ((s.updFn p fun f => { f with msiMask := bits v 0 32 }).sendMsiPending p)
    else if o = 0x78 then
      let s1 := s.updFn p fun f =>
        { f with relaxed := bitSet v 4, maxPayload := sizeOfCode (bits v 5 3), maxRead := sizeOfCode (bits v 12 3) }
      if bitSet v 15 then execFlr p s1 else .next s1
    else if o = 0x98 then .next (s.updFn p fun f => { f with tags := if bitSet v 12 then 1 else 0 })
    else if o = 0xB0 then
      let s1 := s.updFn p fun f => { f with msixEn := bitSet v 31, msixMask := bitSet v 30 }
      .next ((List.range 64).foldl (fun s k => s.sendPending p k) s1)
    else if o = 0x104 then .next (s.updFn p fun f => { f with aerUnc := f.aerUnc - (f.aerUnc &&& v) })
    else if o = 0x110 then .next (s.updFn p fun f => { f with aerCor := f.aerCor - (f.aerCor &&& v) })
    else if cfgMask o = 0 then .next s
    else .next (s.updFn p fun f => f.setCfg o v)

/-- A write that carries poison: an advisory non-fatal error (R301). In the load window its bytes arrive poisoned (R115); no
register takes it. -/
def State.poisonedWrite (s : State) (p o v : Nat) : State :=
  s.updFn p fun f =>
    let g := { f with aerCor := putBit f.aerCor 13 true }
    if 0x80000 ≤ o ∧ o < 0x100000 ∧ !f.loadBusy then g.writeLoad (o - 0x80000) v true else g

/-- REGISTER_WRITE (R10): one aligned word, 8 bytes through a BAR and 4 bytes of the configuration space. A function that is
not ready, or not in D0 for a BAR, or whose link is down takes no write. -/
def execRegisterWrite (port offset value : Nat) (poison : Bool) (s : State) : Res :=
  match s.fn? port with
  | none => .next s
  | some f =>
    if !s.running || s.pkg.epdDone || !f.ready || f.resetting || f.link != 2 then .next s
    else if poison && (decide (cfgStart ≤ offset) || f.dstate == 0) then
      .next (s.poisonedWrite port (offset / 8 * 8) (value % 2 ^ 64))
    else if cfgStart ≤ offset then writeCfg s port ((offset - cfgStart) / 4 * 4) (value % 2 ^ 32)
    else if f.dstate != 0 then .next s
    else if bar2Start ≤ offset then .next (s.writeTable port ((offset - bar2Start) / 8 * 8) (value % 2 ^ 64))
    else writeBar0 s port (offset / 8 * 8) (value % 2 ^ 64)

end Sys2Proof.Machine
end

