-- ==== Sys2Proof/Machine/Tap.lean ====
section
/-! DEFINITION. The test access port (R438-R445, R451, R452): the chain, each die's instruction, what its data register
captures, and Corridor loopback. Boundary, scan and self-test contents are not in the manual: a message says that the
register is reached. -/

namespace Sys2Proof.Machine

/-- The dies that are present, as a mask. -/
def State.presentMask (s : State) : Nat := wingMask ((s.dies.filter (·.present)).map (·.code))

/-- Is a die in the scan chain: present, and included by CHAIN_SEL (R438)? -/
def State.inChain (s : State) (die : Nat) : Bool :=
  s.pkg.mainPower && bitSet (s.presentMask &&& s.id.chainNext) die

/-- Does the die-test boot mode hold (R439, R443)? -/
def State.dieTest (s : State) : Bool := s.pkg.phase == 5 && s.pkg.bootMode == 2

/-- Is an instruction available at a die (R439)? LOOPBACK always selects its register, which R445 governs. -/
def State.tapHas (s : State) (die code : Nat) : Bool :=
  if code = 1 ∨ code = 2 ∨ code = 0x10 ∨ code = 0x20 ∨ code = 0xFF then true
  else if code = 3 ∨ code = 4 ∨ code = 5 then s.dieTest
  else if code = 0x11 then 4 ≤ die
  else if code = 0x12 then die == 0
  else if code = 0x21 ∨ code = 0x22 ∨ code = 0x23 then s.dieTest && s.id.debugState == 2
  else if code = 0x30 ∨ code = 0x31 then die == s.pkg.primary
  else false

/-- The instruction a die holds: IDCODE after Test-Logic-Reset (R439). -/
def State.tapIr (s : State) (die : Nat) : Nat := ((s.id.ir.find? (·.1 == die)).map (·.2)).getD 1

/-- Shift an instruction into a die: TRST_N is high, the chain is the one CHAIN_SEL set, and an instruction that is not
available selects BYPASS, whose bit captures 0 (R439). -/
def State.tap (s : State) (die code : Nat) (f : State → State) : State :=
  if !s.inChain die then s
  else
    let c := if s.tapHas die code then code else 0xFF
    let s1 := s.updId fun i =>
      { i with tapReset := false, chain := i.chainNext, ir := (i.ir.filter (·.1 != die)) ++ [(die, c)] }
    if c = 0xFF then s1.send (.tdo die 1 0) else f s1

/-- TAP_RESET (R438): every die holds IDCODE, and every present die is in the chain. -/
def execTapReset (s : State) : Res :=
  .next (s.updId fun i => { i with tapReset := true, ir := [], chain := s.presentMask, chainNext := s.presentMask })

/-- The identification code of a die (R440). -/
def State.idWord (s : State) (die : Nat) : Nat :=
  let part := if die < 4 then (if s.pkg.mark = 1 then 0xB211 else 0xB212) else 0xB240
  1 + Config.jedecId.toNat * 2 + part * 2 ^ 12 + Config.stepping.toNat % 16 * 2 ^ 28

/-- IDCODE (R440). -/
def execIdcode (die : Nat) (s : State) : Res := .next (s.tap die 1 fun s => s.send (.tdo die 32 (s.idWord die)))

/-- SAMPLE/PRELOAD, EXTEST, CLAMP and HIGHZ (R439, R442). -/
def execSamplePreload (die : Nat) (s : State) : Res := .next (s.tap die 2 fun s => s.send (.scan die 2))
def execExtest (die : Nat) (s : State) : Res := .next (s.tap die 3 fun s => s.send (.scan die 3))
def execClamp (die : Nat) (s : State) : Res := .next (s.tap die 4 fun s => s.send (.scan die 4))
def execHighz (die : Nat) (s : State) : Res := .next (s.tap die 5 fun s => s.send (.scan die 5))

/-- The 64 bits of DIESTAT (R441). -/
def State.dieStat (s : State) (die : Nat) : Nat :=
  match s.die? die with
  | none => 0
  | some d =>
    d.code + s.pkg.phase * 2 ^ 4 + bit1 (s.pkg.bootFailed && die == s.pkg.primary) * 2 ^ 7 + bit1 (d.isoState == 1) * 2 ^ 8 +
    bit1 (s.id.debugState == 2) * 2 ^ 9 + s.id.failures % 4 * 2 ^ 10 + twosComp 2 d.temp * 2 ^ 16 + d.vdd % 65536 * 2 ^ 32

/-- DIESTAT (R441). -/
def execDiestat (die : Nat) (s : State) : Res := .next (s.tap die 0x10 fun s => s.send (.tdo die 64 (s.dieStat die)))

/-- The freeze record of a channel, zeros when there is none (R265, R451). -/
def State.recordOf (s : State) (w sel : Nat) : Bytes :=
  match s.chan? w sel with
  | some c => c.record.getD (zeros 4096)
  | none => zeros 4096

/-- FRZREAD (R451): the selected channel's record is captured whole and shifts out byte 0 first. -/
def execFrzread (die sel : Nat) (s : State) : Res :=
  .next (s.tap die 0x11 fun s => s.send (.tdo die 32768 (leNat (s.recordOf (die - 4) sel))))

/-- CHAIN_SEL (R438): the dies in the chain from the next Run-Test/Idle, Lobby 0 always among them. -/
def execChainSel (included : Nat) (s : State) : Res :=
  .next (s.tap 0 0x12 fun s =>
    (s.send (.tdo 0 8 s.id.chain)).updId fun i => { i with chainNext := (included &&& s.presentMask) ||| 1 })

/-- Is either end of a port's link an isolated Wing? -/
def State.endIsolated (s : State) (p : CPort) : Bool :=
  (p.die :: ((s.pkg.asm.peer p.die p.idx).map (·.1)).toList).any fun d =>
    4 ≤ d && (match s.die? d with | some x => x.isoState == 1 | none => false)

/-- May a port run loopback (R445): in die test mode, or when it carries no bound stream, its link down or one end an isolated Wing? -/
def State.loopFree (s : State) (p : CPort) : Bool := s.dieTest || (p.st != 2 && p.st != 3) || s.endIsolated p

/-- A port's LOOPBACK register as a write leaves it: the fields a tester writes, with done, errors and lanes clear (R444). -/
def loopWord (v : Nat) : Nat := bits v 0 7 + bits v 8 32 * 2 ^ 8

/-- LOOPBACK (R444, R445): the captured register shifts out, and the one shifted in acts at Update-DR. A port set to a
loopback takes no part in traffic from then on. -/
def execLoopback (die value : Nat) (s : State) : Res :=
  .next (s.tap die 0x20 fun s =>
    match s.cport? die (bits value 0 2) with
    | none => s.send (.tdo die 96 0)
    | some p =>
      let s1 := s.send (.tdo die 96 p.loopback)
      if !s.loopFree p then s1
      else
        let mode := bits value 2 2
        let runs := bitSet value 6 && (mode == 1 || mode == 2) && bits value 4 2 != 3 && bits value 8 32 != 0
        s1.updCport die (bits value 0 2) fun p =>
          { p with loopback := loopWord value, inLoopback := runs, st := if mode = 0 then p.st else 4,
                   bound := if mode = 0 then p.bound else 0 })

/-- LOOPBACK_DONE (R444): the run's errors and lanes are captured. A far-end run without an echo at the partner counts every
flit after the settling time. -/
def execLoopbackDone (die cport errors lanes : Nat) (s : State) : Res :=
  .next (match s.cport? die cport with
    | none => s
    | some p =>
      if !p.inLoopback then s
      else
        let echo : Bool := match s.pkg.asm.peer die cport with
          | some q => (match s.cport? q.1 q.2 with | some x => bits x.loopback 2 2 == 3 | none => false)
          | none => false
        let n := if bits p.loopback 2 2 = 2 ∧ !echo then bits p.loopback 8 32 - 64 else errors
        s.updCport die cport fun p =>
          { p with inLoopback := false,
                   loopback := loopWord p.loopback + 2 ^ 7 + n % 2 ^ 32 * 2 ^ 40 + lanes % 2 ^ 16 * 2 ^ 72 })

/-- INTSCAN, MBIST and GAL1500 (R439): in die test mode, unlocked. -/
def execIntscan (die : Nat) (s : State) : Res := .next (s.tap die 0x21 fun s => s.send (.scan die 0x21))
def execMbist (die : Nat) (s : State) : Res := .next (s.tap die 0x22 fun s => s.send (.scan die 0x22))
def execGal1500 (die _site : Nat) (s : State) : Res := .next (s.tap die 0x23 fun s => s.send (.scan die 0x23))

/-- The codes of R439's instructions. -/
def tapCodes : List Nat := [1, 2, 3, 4, 5, 0x10, 0x11, 0x12, 0x20, 0x21, 0x22, 0x23, 0x30, 0x31]

/-- BYPASS (R439): its own code, every code of no instruction, and one that is not available at the die. -/
def execBypass (die code : Nat) (s : State) : Res :=
  .next (if tapCodes.contains code && s.tapHas die code then s else s.tap die 0xFF fun s => s)

/-- DBG_CHAL (R452): by the TAP of the primary Lobby, or by a READ of OD 0x8020:01. -/
def execDbgChal (via : DbgVia) (s : State) : Res :=
  .next (match via with
    | .tap =>
      s.tap s.pkg.primary 0x30 fun s =>
        let s1 := s.makeNonce
        s1.send (.tdo s.pkg.primary 512 (leNat (s1.challengeBytes (s1.id.nonce.getD 0))))
    | .dict q => s.dictRead q 0x8020 1 0 64)

/-- DBG_RESP (R453): by the TAP of the primary Lobby, or by a WRITE of OD 0x8020:02. -/
def execDbgResp (via : DbgVia) (response : Bytes) (s : State) : Res :=
  .next (match via with
    | .tap => s.tap s.pkg.primary 0x31 fun s => s.debugResponse (slice response 0 96)
    | .dict q => s.dictWrite q 0x8020 2 0 response)

end Sys2Proof.Machine
end

