-- ==== Sys2Proof/Machine/Dispatch.lean ====
section
/-! DEFINITION. One arm per command: its meaning. -/

namespace Sys2Proof.Machine

/-- The effect of a command on everything but the queue. -/
def exec (i : Instr) (s : State) : Host.Outcome State Fault Refusal :=
  match i with
  | .cxlMemRead port hpa => Sys2Proof.Machine.execCxlMemRead port hpa s
  | .cxlMemWrite port hpa data be poison => Sys2Proof.Machine.execCxlMemWrite port hpa data be poison s
  | .memSpecRd port hpa => Sys2Proof.Machine.execMemSpecRd port hpa s
  | .memInv port hpa => Sys2Proof.Machine.execMemInv port hpa s
  | .coalesceWindowEnd kind object => Sys2Proof.Machine.execCoalesceWindowEnd kind object s
  | .channelReadComplete id => Sys2Proof.Machine.execChannelReadComplete id s
  | .actBlockExpanded coll wing blk => Sys2Proof.Machine.execActBlockExpanded coll wing blk s
  | .lineLeavesCache coll wing line => Sys2Proof.Machine.execLineLeavesCache coll wing line s
  | .depotWriteThroughComplete id => Sys2Proof.Machine.execDepotWriteThroughComplete id s
  | .deferredRunFree wing tier site slot => Sys2Proof.Machine.execDeferredRunFree wing tier site slot s
  | .compressedViewRead port hpa => Sys2Proof.Machine.execCompressedViewRead port hpa s
  | .fork coll src => Sys2Proof.Machine.execFork coll src s
  | .forkInstant coll src wing => Sys2Proof.Machine.execForkInstant coll src wing s
  | .truncate coll src => Sys2Proof.Machine.execTruncate coll src s
  | .releaseSequence coll src => Sys2Proof.Machine.execReleaseSequence coll src s
  | .releaseBlockRange coll src => Sys2Proof.Machine.execReleaseBlockRange coll src s
  | .create coll src => Sys2Proof.Machine.execCreate coll src s
  | .fence coll src => Sys2Proof.Machine.execFence coll src s
  | .fenceComplete coll src => Sys2Proof.Machine.execFenceComplete coll src s
  | .pin coll src => Sys2Proof.Machine.execPin coll src s
  | .unpin coll src => Sys2Proof.Machine.execUnpin coll src s
  | .pinMoveDone coll src => Sys2Proof.Machine.execPinMoveDone coll src s
  | .undefinedCommandOpcode coll src => Sys2Proof.Machine.execUndefinedCommandOpcode coll src s
  | .ingestRecord carrier => Sys2Proof.Machine.execIngestRecord carrier s
  | .heatPeriodEnd => Sys2Proof.Machine.execHeatPeriodEnd s
  | .jobLaunch coll src => Sys2Proof.Machine.execJobLaunch coll src s
  | .jobAdmission coll src => Sys2Proof.Machine.execJobAdmission coll src s
  | .tileClearDone job => Sys2Proof.Machine.execTileClearDone job s
  | .jobStreamRead job operand offset => Sys2Proof.Machine.execJobStreamRead job operand offset s
  | .jobStreamWrite job operand offset => Sys2Proof.Machine.execJobStreamWrite job operand offset s
  | .jobCompletion job => Sys2Proof.Machine.execJobCompletion job s
  | .jobFault job => Sys2Proof.Machine.execJobFault job s
  | .jobTimeout job => Sys2Proof.Machine.execJobTimeout job s
  | .jobAbort req job => Sys2Proof.Machine.execJobAbort req job s
  | .verifyRequest req coll => Sys2Proof.Machine.execVerifyRequest req coll s
  | .customerTrigger req value => Sys2Proof.Machine.execCustomerTrigger req value s
  | .roleRestart req docent => Sys2Proof.Machine.execRoleRestart req docent s
  | .triggerDispatch die => Sys2Proof.Machine.execTriggerDispatch die s
  | .nop docent ctx => Sys2Proof.Machine.execNop docent ctx s
  | .add docent ctx => Sys2Proof.Machine.execAdd docent ctx s
  | .sub docent ctx => Sys2Proof.Machine.execSub docent ctx s
  | .andR docent ctx => Sys2Proof.Machine.execAndR docent ctx s
  | .orR docent ctx => Sys2Proof.Machine.execOrR docent ctx s
  | .xor docent ctx => Sys2Proof.Machine.execXor docent ctx s
  | .shl docent ctx => Sys2Proof.Machine.execShl docent ctx s
  | .shr docent ctx => Sys2Proof.Machine.execShr docent ctx s
  | .sra docent ctx => Sys2Proof.Machine.execSra docent ctx s
  | .mul docent ctx => Sys2Proof.Machine.execMul docent ctx s
  | .minu docent ctx => Sys2Proof.Machine.execMinu docent ctx s
  | .maxu docent ctx => Sys2Proof.Machine.execMaxu docent ctx s
  | .addi docent ctx => Sys2Proof.Machine.execAddi docent ctx s
  | .andi docent ctx => Sys2Proof.Machine.execAndi docent ctx s
  | .ori docent ctx => Sys2Proof.Machine.execOri docent ctx s
  | .xori docent ctx => Sys2Proof.Machine.execXori docent ctx s
  | .shli docent ctx => Sys2Proof.Machine.execShli docent ctx s
  | .shri docent ctx => Sys2Proof.Machine.execShri docent ctx s
  | .srai docent ctx => Sys2Proof.Machine.execSrai docent ctx s
  | .movk docent ctx => Sys2Proof.Machine.execMovk docent ctx s
  | .movz docent ctx => Sys2Proof.Machine.execMovz docent ctx s
  | .beq docent ctx => Sys2Proof.Machine.execBeq docent ctx s
  | .bne docent ctx => Sys2Proof.Machine.execBne docent ctx s
  | .bltu docent ctx => Sys2Proof.Machine.execBltu docent ctx s
  | .bgeu docent ctx => Sys2Proof.Machine.execBgeu docent ctx s
  | .jmp docent ctx => Sys2Proof.Machine.execJmp docent ctx s
  | .param docent ctx => Sys2Proof.Machine.execParam docent ctx s
  | .tsc docent ctx => Sys2Proof.Machine.execTsc docent ctx s
  | .wait docent ctx => Sys2Proof.Machine.execWait docent ctx s
  | .waitExpiry docent ctx => Sys2Proof.Machine.execWaitExpiry docent ctx s
  | .evt docent ctx => Sys2Proof.Machine.execEvt docent ctx s
  | .halt docent ctx => Sys2Proof.Machine.execHalt docent ctx s
  | .rdreg docent ctx => Sys2Proof.Machine.execRdreg docent ctx s
  | .wrreg docent ctx => Sys2Proof.Machine.execWrreg docent ctx s
  | .ldb docent ctx => Sys2Proof.Machine.execLdb docent ctx s
  | .stb docent ctx => Sys2Proof.Machine.execStb docent ctx s
  | .lread docent ctx => Sys2Proof.Machine.execLread docent ctx s
  | .lwrite docent ctx => Sys2Proof.Machine.execLwrite docent ctx s
  | .lfill docent ctx => Sys2Proof.Machine.execLfill docent ctx s
  | .lscrub docent ctx => Sys2Proof.Machine.execLscrub docent ctx s
  | .ltest docent ctx => Sys2Proof.Machine.execLtest docent ctx s
  | .docentChannelOpDone docent ctx => Sys2Proof.Machine.execDocentChannelOpDone docent ctx s
  | .catrd docent ctx => Sys2Proof.Machine.execCatrd docent ctx s
  | .catflip docent ctx => Sys2Proof.Machine.execCatflip docent ctx s
  | .salloc docent ctx => Sys2Proof.Machine.execSalloc docent ctx s
  | .sfree docent ctx => Sys2Proof.Machine.execSfree docent ctx s
  | .runcopy docent ctx => Sys2Proof.Machine.execRuncopy docent ctx s
  | .copyComplete docent ctx handle => Sys2Proof.Machine.execCopyComplete docent ctx handle s
  | .cwait docent ctx => Sys2Proof.Machine.execCwait docent ctx s
  | .bverify docent ctx => Sys2Proof.Machine.execBverify docent ctx s
  | .watchdog docent ctx => Sys2Proof.Machine.execWatchdog docent ctx s
  | .correctedRateWindowEnd wing sel => Sys2Proof.Machine.execCorrectedRateWindowEnd wing sel s
  | .writeBackCollection req coll => Sys2Proof.Machine.execWriteBackCollection req coll s
  | .readRaw wing => Sys2Proof.Machine.execReadRaw wing s
  | .writeData wing => Sys2Proof.Machine.execWriteData wing s
  | .writeCheck wing => Sys2Proof.Machine.execWriteCheck wing s
  | .writeBoth wing => Sys2Proof.Machine.execWriteBoth wing s
  | .compute wing => Sys2Proof.Machine.execCompute wing s
  | .depotRefreshDue wing sel dimm cs => Sys2Proof.Machine.execDepotRefreshDue wing sel dimm cs s
  | .galleryRefreshDue wing sel bank => Sys2Proof.Machine.execGalleryRefreshDue wing sel bank s
  | .thermalSensorPoll temps => Sys2Proof.Machine.execThermalSensorPoll temps s
  | .rankPowerDown wing sel rank => Sys2Proof.Machine.execRankPowerDown wing sel rank s
  | .caParityAlert wing sel recurrences => Sys2Proof.Machine.execCaParityAlert wing sel recurrences s
  | .writeCrcAlert wing sel recurrences => Sys2Proof.Machine.execWriteCrcAlert wing sel recurrences s
  | .galleryParityError wing sel => Sys2Proof.Machine.execGalleryParityError wing sel s
  | .freezeOrder req => Sys2Proof.Machine.execFreezeOrder req s
  | .reenterOrder req => Sys2Proof.Machine.execReenterOrder req s
  | .evacuateOrder req => Sys2Proof.Machine.execEvacuateOrder req s
  | .channelFlip wing sel => Sys2Proof.Machine.execChannelFlip wing sel s
  | .evacuationComplete wing sel => Sys2Proof.Machine.execEvacuationComplete wing sel s
  | .dataFlit die cport flit => Sys2Proof.Machine.execDataFlit die cport flit s
  | .linkFlit die cport flit => Sys2Proof.Machine.execLinkFlit die cport flit s
  | .hello die cport peer => Sys2Proof.Machine.execHello die cport peer s
  | .flitCrcFailure die cport flit => Sys2Proof.Machine.execFlitCrcFailure die cport flit s
  | .ackTimer die cport => Sys2Proof.Machine.execAckTimer die cport s
  | .nakHoldoffExpiry die cport => Sys2Proof.Machine.execNakHoldoffExpiry die cport s
  | .replayTimer die cport => Sys2Proof.Machine.execReplayTimer die cport s
  | .retrainDone die cport ok => Sys2Proof.Machine.execRetrainDone die cport ok s
  | .receiverLockLoss die cport => Sys2Proof.Machine.execReceiverLockLoss die cport s
  | .lockLossTimeout die cport => Sys2Proof.Machine.execLockLossTimeout die cport s
  | .loanFillRequest borrower coll line => Sys2Proof.Machine.execLoanFillRequest borrower coll line s
  | .loanFillReply borrower coll line => Sys2Proof.Machine.execLoanFillReply borrower coll line s
  | .loanRecall borrower coll line => Sys2Proof.Machine.execLoanRecall borrower coll line s
  | .recallAck borrower coll line => Sys2Proof.Machine.execRecallAck borrower coll line s
  | .lobby0Heartbeat => Sys2Proof.Machine.execLobby0Heartbeat s
  | .heartbeatTimeout die => Sys2Proof.Machine.execHeartbeatTimeout die s
  | .timeSyncSend => Sys2Proof.Machine.execTimeSyncSend s
  | .timeSyncReceive die stamp delay => Sys2Proof.Machine.execTimeSyncReceive die stamp delay s
  | .timeSyncTimeout die => Sys2Proof.Machine.execTimeSyncTimeout die s
  | .telemetryMessage die msg => Sys2Proof.Machine.execTelemetryMessage die msg s
  | .identify port => Sys2Proof.Machine.execIdentify port s
  | .backgroundOperationStatus port => Sys2Proof.Machine.execBackgroundOperationStatus port s
  | .getSupportedLogs port => Sys2Proof.Machine.execGetSupportedLogs port s
  | .getLog port commandEffects => Sys2Proof.Machine.execGetLog port commandEffects s
  | .identifyMemoryDevice port => Sys2Proof.Machine.execIdentifyMemoryDevice port s
  | .getHealthInfo port => Sys2Proof.Machine.execGetHealthInfo port s
  | .getEventRecords port log => Sys2Proof.Machine.execGetEventRecords port log s
  | .clearEventRecords port log handles => Sys2Proof.Machine.execClearEventRecords port log handles s
  | .getEventInterruptPolicy port => Sys2Proof.Machine.execGetEventInterruptPolicy port s
  | .setEventInterruptPolicy port settings => Sys2Proof.Machine.execSetEventInterruptPolicy port settings s
  | .getDynamicCapacityConfiguration port => Sys2Proof.Machine.execGetDynamicCapacityConfiguration port s
  | .getDynamicCapacityExtentList port => Sys2Proof.Machine.execGetDynamicCapacityExtentList port s
  | .addDynamicCapacityResponse port extents => Sys2Proof.Machine.execAddDynamicCapacityResponse port extents s
  | .releaseDynamicCapacity port extents => Sys2Proof.Machine.execReleaseDynamicCapacity port extents s
  | .releaseTimeout port coll view => Sys2Proof.Machine.execReleaseTimeout port coll view s
  | .getScanMediaCapabilities port => Sys2Proof.Machine.execGetScanMediaCapabilities port s
  | .scanMedia port start length => Sys2Proof.Machine.execScanMedia port start length s
  | .scanMediaComplete => Sys2Proof.Machine.execScanMediaComplete s
  | .getScanMediaResults port => Sys2Proof.Machine.execGetScanMediaResults port s
  | .getTimestamp port => Sys2Proof.Machine.execGetTimestamp port s
  | .unsupportedMailboxCommand port opcode => Sys2Proof.Machine.execUnsupportedMailboxCommand port opcode s
  | .hdmDecoderCommit port decoder base size ways => Sys2Proof.Machine.execHdmDecoderCommit port decoder base size ways s
  | .busMasterEnableClear port => Sys2Proof.Machine.execBusMasterEnableClear port s
  | .busMasterEnableSet port => Sys2Proof.Machine.execBusMasterEnableSet port s
  | .flr port => Sys2Proof.Machine.execFlr port s
  | .flrReady port => Sys2Proof.Machine.execFlrReady port s
  | .hotReset port => Sys2Proof.Machine.execHotReset port s
  | .perstNAssert port => Sys2Proof.Machine.execPerstNAssert port s
  | .perstNDeassert port => Sys2Proof.Machine.execPerstNDeassert port s
  | .portLinkUp port rate width flit256 cxl => Sys2Proof.Machine.execPortLinkUp port rate width flit256 cxl s
  | .d3hotEntry port => Sys2Proof.Machine.execD3hotEntry port s
  | .d0Return port => Sys2Proof.Machine.execD0Return port s
  | .idleSelfRefresh => Sys2Proof.Machine.execIdleSelfRefresh s
  | .pmeTurnOff port => Sys2Proof.Machine.execPmeTurnOff port s
  | .d3coldFlushComplete => Sys2Proof.Machine.execD3coldFlushComplete s
  | .prepareD3cold req => Sys2Proof.Machine.execPrepareD3cold req s
  | .endD3coldPreparation req => Sys2Proof.Machine.execEndD3coldPreparation req s
  | .wakeFrame mac etherType udpPort => Sys2Proof.Machine.execWakeFrame mac etherType udpPort s
  | .msixUnmask port vector => Sys2Proof.Machine.execMsixUnmask port vector s
  | .moderationExpiry port q => Sys2Proof.Machine.execModerationExpiry port q s
  | .intStatClear port value => Sys2Proof.Machine.execIntStatClear port value s
  | .fnEqHeadWrite port q value => Sys2Proof.Machine.execFnEqHeadWrite port q value s
  | .fnEqCtlWrite port q base value => Sys2Proof.Machine.execFnEqCtlWrite port q base value s
  | .fnEqFilterWrite port q value => Sys2Proof.Machine.execFnEqFilterWrite port q value s
  | .moverDoorbell port engine value => Sys2Proof.Machine.execMoverDoorbell port engine value s
  | .moverRestart port engine value => Sys2Proof.Machine.execMoverRestart port engine value s
  | .descriptorNop port engine => Sys2Proof.Machine.execDescriptorNop port engine s
  | .toDevice port engine => Sys2Proof.Machine.execToDevice port engine s
  | .toHost port engine => Sys2Proof.Machine.execToHost port engine s
  | .ingest port engine => Sys2Proof.Machine.execIngest port engine s
  | .undefinedDescriptorOpcode port engine => Sys2Proof.Machine.execUndefinedDescriptorOpcode port engine s
  | .readCompletion port tag cpl => Sys2Proof.Machine.execReadCompletion port tag cpl s
  | .completionTimeout port tag => Sys2Proof.Machine.execCompletionTimeout port tag s
  | .loadGo port value => Sys2Proof.Machine.execLoadGo port value s
  | .read req idx sub offset length => Sys2Proof.Machine.execRead req idx sub offset length s
  | .write req idx sub offset data => Sys2Proof.Machine.execWrite req idx sub offset data s
  | .readStaged req idx sub offset length => Sys2Proof.Machine.execReadStaged req idx sub offset length s
  | .writeStaged req idx sub offset data => Sys2Proof.Machine.execWriteStaged req idx sub offset data s
  | .describe req idx sub => Sys2Proof.Machine.execDescribe req idx sub s
  | .nextEntry req idx sub => Sys2Proof.Machine.execNextEntry req idx sub s
  | .badOp req op => Sys2Proof.Machine.execBadOp req op s
  | .dapFrameDrop why => Sys2Proof.Machine.execDapFrameDrop why s
  | .neighborSolicitation source target => Sys2Proof.Machine.execNeighborSolicitation source target s
  | .icmpv6Echo source payload => Sys2Proof.Machine.execIcmpv6Echo source payload s
  | .getVersion via message => Sys2Proof.Machine.execGetVersion via message s
  | .getCapabilities via message => Sys2Proof.Machine.execGetCapabilities via message s
  | .negotiateAlgorithms via message => Sys2Proof.Machine.execNegotiateAlgorithms via message s
  | .getDigests via message => Sys2Proof.Machine.execGetDigests via message s
  | .getCertificate via offset length => Sys2Proof.Machine.execGetCertificate via offset length s
  | .challenge via message => Sys2Proof.Machine.execChallenge via message s
  | .getMeasurements via index nonce => Sys2Proof.Machine.execGetMeasurements via index nonce s
  | .keyExchange via message => Sys2Proof.Machine.execKeyExchange via message s
  | .finish via message => Sys2Proof.Machine.execFinish via message s
  | .endSession session => Sys2Proof.Machine.execEndSession session s
  | .heartbeat session => Sys2Proof.Machine.execHeartbeat session s
  | .sessionIdleTimeout session => Sys2Proof.Machine.execSessionIdleTimeout session s
  | .fieldLinkLoss => Sys2Proof.Machine.execFieldLinkLoss s
  | .keyTake req => Sys2Proof.Machine.execKeyTake req s
  | .keyRelease req => Sys2Proof.Machine.execKeyRelease req s
  | .leaseExpiry => Sys2Proof.Machine.execLeaseExpiry s
  | .beginFromActive req => Sys2Proof.Machine.execBeginFromActive req s
  | .beginFromPrevious req => Sys2Proof.Machine.execBeginFromPrevious req s
  | .validate req => Sys2Proof.Machine.execValidate req s
  | .validationDone => Sys2Proof.Machine.execValidationDone s
  | .discard req => Sys2Proof.Machine.execDiscard req s
  | .confirm req => Sys2Proof.Machine.execConfirm req s
  | .commit req instant => Sys2Proof.Machine.execCommit req instant s
  | .commitHashQuery answers => Sys2Proof.Machine.execCommitHashQuery answers s
  | .commitDecision => Sys2Proof.Machine.execCommitDecision s
  | .commitInstant => Sys2Proof.Machine.execCommitInstant s
  | .quiesceComplete => Sys2Proof.Machine.execQuiesceComplete s
  | .quiescedSwap => Sys2Proof.Machine.execQuiescedSwap s
  | .confirmDeadline => Sys2Proof.Machine.execConfirmDeadline s
  | .recordHoldExpiry => Sys2Proof.Machine.execRecordHoldExpiry s
  | .sessionQueueRead req => Sys2Proof.Machine.execSessionQueueRead req s
  | .counterWrite req value => Sys2Proof.Machine.execCounterWrite req value s
  | .telemetryRound lobby => Sys2Proof.Machine.execTelemetryRound lobby s
  | .pmbusPoll rails => Sys2Proof.Machine.execPmbusPoll rails s
  | .pmbAlert rail status => Sys2Proof.Machine.execPmbAlert rail status s
  | .telemetryLost die => Sys2Proof.Machine.execTelemetryLost die s
  | .telemetryIsolationTimeout wing => Sys2Proof.Machine.execTelemetryIsolationTimeout wing s
  | .stewardWatchdog => Sys2Proof.Machine.execStewardWatchdog s
  | .stewardRestartDone => Sys2Proof.Machine.execStewardRestartDone s
  | .paceComparatorAlert ring pace => Sys2Proof.Machine.execPaceComparatorAlert ring pace s
  | .thermtrip die => Sys2Proof.Machine.execThermtrip die s
  | .pllLockLoss die domain => Sys2Proof.Machine.execPllLockLoss die domain s
  | .pllRelock die domain => Sys2Proof.Machine.execPllRelock die domain s
  | .pllRelockTimeout die domain => Sys2Proof.Machine.execPllRelockTimeout die domain s
  | .refclkLoss => Sys2Proof.Machine.execRefclkLoss s
  | .refclkReturn => Sys2Proof.Machine.execRefclkReturn s
  | .refclkAbsenceTimeout => Sys2Proof.Machine.execRefclkAbsenceTimeout s
  | .epdEmergency => Sys2Proof.Machine.execEpdEmergency s
  | .epdFault channel => Sys2Proof.Machine.execEpdFault channel s
  | .epdDiscrepancy => Sys2Proof.Machine.execEpdDiscrepancy s
  | .vddAonLoss => Sys2Proof.Machine.execVddAonLoss s
  | .pkgResetAssert => Sys2Proof.Machine.execPkgResetAssert s
  | .pkgResetDeassert nodeId bootMode => Sys2Proof.Machine.execPkgResetDeassert nodeId bootMode s
  | .wingRelease => Sys2Proof.Machine.execWingRelease s
  | .flashErase req => Sys2Proof.Machine.execFlashErase req s
  | .flashProgram req => Sys2Proof.Machine.execFlashProgram req s
  | .flashOpDone ok => Sys2Proof.Machine.execFlashOpDone ok s
  | .raiseMinSvn req => Sys2Proof.Machine.execRaiseMinSvn req s
  | .provisionControlRoot req key => Sys2Proof.Machine.execProvisionControlRoot req key s
  | .provisionKey req key => Sys2Proof.Machine.execProvisionKey req key s
  | .tapReset => Sys2Proof.Machine.execTapReset s
  | .idcode die => Sys2Proof.Machine.execIdcode die s
  | .samplePreload die => Sys2Proof.Machine.execSamplePreload die s
  | .extest die => Sys2Proof.Machine.execExtest die s
  | .clamp die => Sys2Proof.Machine.execClamp die s
  | .highz die => Sys2Proof.Machine.execHighz die s
  | .diestat die => Sys2Proof.Machine.execDiestat die s
  | .frzread die sel => Sys2Proof.Machine.execFrzread die sel s
  | .chainSel included => Sys2Proof.Machine.execChainSel included s
  | .loopback die value => Sys2Proof.Machine.execLoopback die value s
  | .loopbackDone die cport errors lanes => Sys2Proof.Machine.execLoopbackDone die cport errors lanes s
  | .intscan die => Sys2Proof.Machine.execIntscan die s
  | .mbist die => Sys2Proof.Machine.execMbist die s
  | .gal1500 die site => Sys2Proof.Machine.execGal1500 die site s
  | .bypass die code => Sys2Proof.Machine.execBypass die code s
  | .dbgChal via => Sys2Proof.Machine.execDbgChal via s
  | .dbgResp via response => Sys2Proof.Machine.execDbgResp via response s
  | .debugSignatureChecked => Sys2Proof.Machine.execDebugSignatureChecked s
  | .keyEraseAckTimeout wing => Sys2Proof.Machine.execKeyEraseAckTimeout wing s
  | .wingIsolate req wing => Sys2Proof.Machine.execWingIsolate req wing s
  | .wingReturn req wing => Sys2Proof.Machine.execWingReturn req wing s
  | .registerWrite port offset value poison => Sys2Proof.Machine.execRegisterWrite port offset value poison s
  | .epdDone => Sys2Proof.Machine.execEpdDone s
  | .depotFrequencyChangeDone wing => Sys2Proof.Machine.execDepotFrequencyChangeDone wing s
  | .functionReady port => Sys2Proof.Machine.execFunctionReady port s
  | .firmwareSlotVerified slot => Sys2Proof.Machine.execFirmwareSlotVerified slot s
  | .fieldLinkUp => Sys2Proof.Machine.execFieldLinkUp s
  | .epdSample channel => Sys2Proof.Machine.execEpdSample channel s
  | .mainPowerRemoval => Sys2Proof.Machine.execMainPowerRemoval s
  | .mainPowerReturn => Sys2Proof.Machine.execMainPowerReturn s

end Sys2Proof.Machine
end

