-- ==== Sys2Proof/Safety.lean ====
section
/-! DEFINITION. What a sound state of the block is, for claims: memory in its canonical form. -/

namespace Sys2Proof.Machine

/-- The invariant that every step keeps: the DRAM of every channel is in its one canonical form. -/
def State.sound (s : State) : Bool := Memory.wf s.mem.dram

end Sys2Proof.Machine
end

