-- ==== Sys2Proof/WellFormed.lean ====
section
/-! DEFINITION. Which commands are well-formed: every operand in the range the manual's numbering gives it (R16, R57,
R189, R197, R271, R354). The meanings are total; on an ill-formed command nothing is claimed. -/

namespace Sys2Proof

/-- A link port (R16). -/
def portOk (p : Nat) : Bool := p < 16

/-- A Wing (R16). -/
def wingOk (w : Nat) : Bool := w < 4

/-- A die code (R354): Lobbies 0 and 1, Wings 4 to 7. -/
def dieOk (d : Nat) : Bool := d < 2 || (4 ≤ d && d < 8)

/-- A channel selector (R197). -/
def selOk (s : Nat) : Bool := s < 4 || (0x10 ≤ s && s < 0x30)

/-- A docent id (R189): index 0-3 on a Lobby, 0-7 on a Wing. -/
def docentOk (d : Nat) : Bool := dieOk (d / 8) && (4 ≤ d / 8 || d % 8 < 4)

/-- A collection (R38). -/
def collOk (c : Nat) : Bool := c < 4096

/-- A Corridor port (R271). -/
def cportOk (c : Nat) : Bool := c < 3

/-- A number below 16: an engine of a Lobby, an event queue, a rail code, a node id. -/
def nibble (n : Nat) : Bool := n < 16

/-- A number below 8: an HDM decoder. -/
def octal (n : Nat) : Bool := n < 8

/-- A two-bit strap. -/
def quad (n : Nat) : Bool := n < 4

/-- A dictionary index and subindex (R325). -/
def u16 (n : Nat) : Bool := n < 0x10000
def u8 (n : Nat) : Bool := n < 0x100

/-- A firmware slot (R418): 0 A, 1 B. -/
def slotOk (n : Nat) : Bool := n < 2

/-- A command line is one of 1,024 (R57). -/
def srcOk : CmdSrc → Bool
  | .line n => n < 1024
  | .seqEntry _ => true
  | .jobEntry _ => true

/-- A requester's port. -/
def reqOk : Requester → Bool
  | .window p | .windowRsvd p => portOk p
  | .dap _ _ | .dapRsvd _ _ => true

/-- The port of an SPDM message. -/
def spdmOk : SpdmVia → Bool
  | .doe p => portOk p
  | .dap => true
  | .session _ => true

/-- A debug requester. -/
def dbgOk : DbgVia → Bool
  | .tap => true
  | .dict r => reqOk r

/-- An ingest carrier (R307, R314). -/
def carrierOk : Carrier → Bool
  | .engine l e => l < 2 && nibble e
  | .loadWindow p => portOk p

/-- A flit is 128 bytes (R274). -/
def flitOk (f : Bytes) : Bool := f.length == 128

/-- A line is 64 bytes, with one byte enable each (R16). -/
def lineData (d : Bytes) : Bool := d.length == 64
def beOk (m : Nat) : Bool := m < 2 ^ 64

/-- An uncompressed P-384 public key is 97 bytes (R433). -/
def keyOk (k : Bytes) : Bool := k.length == 97

/-- An SPDM nonce is 32 bytes. -/
def nonceOk (n : Bytes) : Bool := n.length == 32

/-- Answers name dies; temperatures name channels; readings name rails. -/
def answersOk (l : List (Nat × HashAnswer)) : Bool := l.all fun a => dieOk a.1
def tempsOk (l : List (Nat × Nat × Int)) : Bool := l.all fun t => wingOk t.1 && selOk t.2.1
def railsOk (l : List RailReading) : Bool := l.all fun r => nibble r.rail

/-- Is a command well-formed? -/
def wellFormed (i : Instr) : Bool :=
  match i with
  | .cxlMemRead port _ => portOk port
  | .cxlMemWrite port _ data be _ => portOk port && lineData data && beOk be
  | .memSpecRd port _ => portOk port
  | .memInv port _ => portOk port
  | .coalesceWindowEnd _ _ => true
  | .channelReadComplete _ => true
  | .actBlockExpanded coll wing _ => collOk coll && wingOk wing
  | .lineLeavesCache coll wing _ => collOk coll && wingOk wing
  | .depotWriteThroughComplete _ => true
  | .deferredRunFree wing _ _ _ => wingOk wing
  | .compressedViewRead port _ => portOk port
  | .fork coll src => collOk coll && srcOk src
  | .forkInstant coll src wing => collOk coll && srcOk src && wingOk wing
  | .truncate coll src => collOk coll && srcOk src
  | .releaseSequence coll src => collOk coll && srcOk src
  | .releaseBlockRange coll src => collOk coll && srcOk src
  | .create coll src => collOk coll && srcOk src
  | .fence coll src => collOk coll && srcOk src
  | .fenceComplete coll src => collOk coll && srcOk src
  | .pin coll src => collOk coll && srcOk src
  | .unpin coll src => collOk coll && srcOk src
  | .pinMoveDone coll src => collOk coll && srcOk src
  | .undefinedCommandOpcode coll src => collOk coll && srcOk src
  | .ingestRecord carrier => carrierOk carrier
  | .heatPeriodEnd => true
  | .jobLaunch coll src => collOk coll && srcOk src
  | .jobAdmission coll src => collOk coll && srcOk src
  | .tileClearDone _ => true
  | .jobStreamRead _ _ _ => true
  | .jobStreamWrite _ _ _ => true
  | .jobCompletion _ => true
  | .jobFault _ => true
  | .jobTimeout _ => true
  | .jobAbort req _ => reqOk req
  | .verifyRequest req _ => reqOk req
  | .customerTrigger req _ => reqOk req
  | .roleRestart req docent => reqOk req && docentOk docent
  | .triggerDispatch die => dieOk die
  | .nop docent _ => docentOk docent
  | .add docent _ => docentOk docent
  | .sub docent _ => docentOk docent
  | .andR docent _ => docentOk docent
  | .orR docent _ => docentOk docent
  | .xor docent _ => docentOk docent
  | .shl docent _ => docentOk docent
  | .shr docent _ => docentOk docent
  | .sra docent _ => docentOk docent
  | .mul docent _ => docentOk docent
  | .minu docent _ => docentOk docent
  | .maxu docent _ => docentOk docent
  | .addi docent _ => docentOk docent
  | .andi docent _ => docentOk docent
  | .ori docent _ => docentOk docent
  | .xori docent _ => docentOk docent
  | .shli docent _ => docentOk docent
  | .shri docent _ => docentOk docent
  | .srai docent _ => docentOk docent
  | .movk docent _ => docentOk docent
  | .movz docent _ => docentOk docent
  | .beq docent _ => docentOk docent
  | .bne docent _ => docentOk docent
  | .bltu docent _ => docentOk docent
  | .bgeu docent _ => docentOk docent
  | .jmp docent _ => docentOk docent
  | .param docent _ => docentOk docent
  | .tsc docent _ => docentOk docent
  | .wait docent _ => docentOk docent
  | .waitExpiry docent _ => docentOk docent
  | .evt docent _ => docentOk docent
  | .halt docent _ => docentOk docent
  | .rdreg docent _ => docentOk docent
  | .wrreg docent _ => docentOk docent
  | .ldb docent _ => docentOk docent
  | .stb docent _ => docentOk docent
  | .lread docent _ => docentOk docent
  | .lwrite docent _ => docentOk docent
  | .lfill docent _ => docentOk docent
  | .lscrub docent _ => docentOk docent
  | .ltest docent _ => docentOk docent
  | .docentChannelOpDone docent _ => docentOk docent
  | .catrd docent _ => docentOk docent
  | .catflip docent _ => docentOk docent
  | .salloc docent _ => docentOk docent
  | .sfree docent _ => docentOk docent
  | .runcopy docent _ => docentOk docent
  | .copyComplete docent _ _ => docentOk docent
  | .cwait docent _ => docentOk docent
  | .bverify docent _ => docentOk docent
  | .watchdog docent _ => docentOk docent
  | .correctedRateWindowEnd wing sel => wingOk wing && selOk sel
  | .writeBackCollection req _ => reqOk req
  | .readRaw wing => wingOk wing
  | .writeData wing => wingOk wing
  | .writeCheck wing => wingOk wing
  | .writeBoth wing => wingOk wing
  | .compute wing => wingOk wing
  | .depotRefreshDue wing sel dimm cs => wingOk wing && selOk sel && decide (dimm < 2) && decide (cs < 2)
  | .galleryRefreshDue wing sel _ => wingOk wing && selOk sel
  | .thermalSensorPoll temps => tempsOk temps
  | .rankPowerDown wing sel _ => wingOk wing && selOk sel
  | .caParityAlert wing sel _ => wingOk wing && selOk sel
  | .writeCrcAlert wing sel _ => wingOk wing && selOk sel
  | .galleryParityError wing sel => wingOk wing && selOk sel
  | .freezeOrder req => reqOk req
  | .reenterOrder req => reqOk req
  | .evacuateOrder req => reqOk req
  | .channelFlip wing sel => wingOk wing && selOk sel
  | .evacuationComplete wing sel => wingOk wing && selOk sel
  | .dataFlit die cport flit => dieOk die && cportOk cport && flitOk flit
  | .linkFlit die cport flit => dieOk die && cportOk cport && flitOk flit
  | .hello die cport _ => dieOk die && cportOk cport
  | .flitCrcFailure die cport flit => dieOk die && cportOk cport && flitOk flit
  | .ackTimer die cport => dieOk die && cportOk cport
  | .nakHoldoffExpiry die cport => dieOk die && cportOk cport
  | .replayTimer die cport => dieOk die && cportOk cport
  | .retrainDone die cport _ => dieOk die && cportOk cport
  | .receiverLockLoss die cport => dieOk die && cportOk cport
  | .lockLossTimeout die cport => dieOk die && cportOk cport
  | .loanFillRequest borrower coll _ => wingOk borrower && collOk coll
  | .loanFillReply borrower coll _ => wingOk borrower && collOk coll
  | .loanRecall borrower coll _ => wingOk borrower && collOk coll
  | .recallAck borrower coll _ => wingOk borrower && collOk coll
  | .lobby0Heartbeat => true
  | .heartbeatTimeout die => dieOk die
  | .timeSyncSend => true
  | .timeSyncReceive die _ _ => dieOk die
  | .timeSyncTimeout die => dieOk die
  | .telemetryMessage die _ => dieOk die
  | .identify port => portOk port
  | .backgroundOperationStatus port => portOk port
  | .getSupportedLogs port => portOk port
  | .getLog port _ => portOk port
  | .identifyMemoryDevice port => portOk port
  | .getHealthInfo port => portOk port
  | .getEventRecords port _ => portOk port
  | .clearEventRecords port _ _ => portOk port
  | .getEventInterruptPolicy port => portOk port
  | .setEventInterruptPolicy port _ => portOk port
  | .getDynamicCapacityConfiguration port => portOk port
  | .getDynamicCapacityExtentList port => portOk port
  | .addDynamicCapacityResponse port _ => portOk port
  | .releaseDynamicCapacity port _ => portOk port
  | .releaseTimeout port coll _ => portOk port && collOk coll
  | .getScanMediaCapabilities port => portOk port
  | .scanMedia port _ _ => portOk port
  | .scanMediaComplete => true
  | .getScanMediaResults port => portOk port
  | .getTimestamp port => portOk port
  | .unsupportedMailboxCommand port _ => portOk port
  | .hdmDecoderCommit port decoder _ _ _ => portOk port && octal decoder
  | .busMasterEnableClear port => portOk port
  | .busMasterEnableSet port => portOk port
  | .flr port => portOk port
  | .flrReady port => portOk port
  | .hotReset port => portOk port
  | .perstNAssert port => portOk port
  | .perstNDeassert port => portOk port
  | .portLinkUp port _ _ _ _ => portOk port
  | .d3hotEntry port => portOk port
  | .d0Return port => portOk port
  | .idleSelfRefresh => true
  | .pmeTurnOff port => portOk port
  | .d3coldFlushComplete => true
  | .prepareD3cold req => reqOk req
  | .endD3coldPreparation req => reqOk req
  | .wakeFrame _ _ _ => true
  | .msixUnmask port _ => portOk port
  | .moderationExpiry port q => portOk port && nibble q
  | .intStatClear port _ => portOk port
  | .fnEqHeadWrite port q _ => portOk port && nibble q
  | .fnEqCtlWrite port q _ _ => portOk port && nibble q
  | .fnEqFilterWrite port q _ => portOk port && nibble q
  | .moverDoorbell port engine _ => portOk port && nibble engine
  | .moverRestart port engine _ => portOk port && nibble engine
  | .descriptorNop port engine => portOk port && nibble engine
  | .toDevice port engine => portOk port && nibble engine
  | .toHost port engine => portOk port && nibble engine
  | .ingest port engine => portOk port && nibble engine
  | .undefinedDescriptorOpcode port engine => portOk port && nibble engine
  | .readCompletion port _ _ => portOk port
  | .completionTimeout port _ => portOk port
  | .loadGo port _ => portOk port
  | .read req idx sub _ _ => reqOk req && u16 idx && u8 sub
  | .write req idx sub _ _ => reqOk req && u16 idx && u8 sub
  | .readStaged req idx sub _ _ => reqOk req && u16 idx && u8 sub
  | .writeStaged req idx sub _ _ => reqOk req && u16 idx && u8 sub
  | .describe req idx sub => reqOk req && u16 idx && u8 sub
  | .nextEntry req idx sub => reqOk req && u16 idx && u8 sub
  | .badOp req _ => reqOk req
  | .dapFrameDrop _ => true
  | .neighborSolicitation _ _ => true
  | .icmpv6Echo _ _ => true
  | .getVersion via _ => spdmOk via
  | .getCapabilities via _ => spdmOk via
  | .negotiateAlgorithms via _ => spdmOk via
  | .getDigests via _ => spdmOk via
  | .getCertificate via _ _ => spdmOk via
  | .challenge via _ => spdmOk via
  | .getMeasurements via _ nonce => spdmOk via && nonceOk nonce
  | .keyExchange via _ => spdmOk via
  | .finish via _ => spdmOk via
  | .endSession _ => true
  | .heartbeat _ => true
  | .sessionIdleTimeout _ => true
  | .fieldLinkLoss => true
  | .keyTake req => reqOk req
  | .keyRelease req => reqOk req
  | .leaseExpiry => true
  | .beginFromActive req => reqOk req
  | .beginFromPrevious req => reqOk req
  | .validate req => reqOk req
  | .validationDone => true
  | .discard req => reqOk req
  | .confirm req => reqOk req
  | .commit req _ => reqOk req
  | .commitHashQuery answers => answersOk answers
  | .commitDecision => true
  | .commitInstant => true
  | .quiesceComplete => true
  | .quiescedSwap => true
  | .confirmDeadline => true
  | .recordHoldExpiry => true
  | .sessionQueueRead req => reqOk req
  | .counterWrite req _ => reqOk req
  | .telemetryRound lobby => decide (lobby < 2)
  | .pmbusPoll rails => railsOk rails
  | .pmbAlert rail _ => nibble rail
  | .telemetryLost die => dieOk die
  | .telemetryIsolationTimeout wing => wingOk wing
  | .stewardWatchdog => true
  | .stewardRestartDone => true
  | .paceComparatorAlert ring _ => wingOk ring.wing && decide (ring.idx < 8)
  | .thermtrip die => dieOk die
  | .pllLockLoss die _ => dieOk die
  | .pllRelock die _ => dieOk die
  | .pllRelockTimeout die _ => dieOk die
  | .refclkLoss => true
  | .refclkReturn => true
  | .refclkAbsenceTimeout => true
  | .epdEmergency => true
  | .epdFault _ => true
  | .epdDiscrepancy => true
  | .vddAonLoss => true
  | .pkgResetAssert => true
  | .pkgResetDeassert nodeId bootMode => nibble nodeId && quad bootMode
  | .wingRelease => true
  | .flashErase req => reqOk req
  | .flashProgram req => reqOk req
  | .flashOpDone _ => true
  | .raiseMinSvn req => reqOk req
  | .provisionControlRoot req key => reqOk req && keyOk key
  | .provisionKey req key => reqOk req && keyOk key
  | .tapReset => true
  | .idcode die => dieOk die
  | .samplePreload die => dieOk die
  | .extest die => dieOk die
  | .clamp die => dieOk die
  | .highz die => dieOk die
  | .diestat die => dieOk die
  | .frzread die sel => dieOk die && selOk sel
  | .chainSel _ => true
  | .loopback die _ => dieOk die
  | .loopbackDone die cport _ _ => dieOk die && cportOk cport
  | .intscan die => dieOk die
  | .mbist die => dieOk die
  | .gal1500 die _ => dieOk die
  | .bypass die _ => dieOk die
  | .dbgChal via => dbgOk via
  | .dbgResp via _ => dbgOk via
  | .debugSignatureChecked => true
  | .keyEraseAckTimeout wing => wingOk wing
  | .wingIsolate req wing => reqOk req && wingOk wing
  | .wingReturn req wing => reqOk req && wingOk wing
  | .registerWrite port _ _ _ => portOk port
  | .epdDone => true
  | .depotFrequencyChangeDone wing => wingOk wing
  | .functionReady port => portOk port
  | .firmwareSlotVerified slot => slotOk slot
  | .fieldLinkUp => true
  | .epdSample _ => true
  | .mainPowerRemoval => true
  | .mainPowerReturn => true

end Sys2Proof
end

