-- ==== Sys2Proof/Certificates/Slice0/Obligations.lean ====
section
/-! DEFINITION. The statements for the provers. Each `def Obligations.<Name> : Prop` says what its name says; the definitions
before them are the words the statements use. A frame is written as an equation: `t = { s with x := t.x }` says that
everything of the state but `x` is as it was. -/

namespace Sys2Proof.Claims

open Sys2Proof Sys2Proof.Machine

/-- All that a docent instruction of the arithmetic, branch or buffer kind changes: the one context, which becomes `z`, and
the die's counter of instructions run. Everything else, every other docent, every channel and every byte of memory among it,
is as it was. -/
def docChanged (d : Nat) (c : Ctx) (z : CtxState) (s t : State) : Prop :=
  t = { s with doc := t.doc, ev := (s.bump 0x4110 6 d 1).ev } ∧ t.doc.triggers = s.doc.triggers ∧
  t.docent? d = (s.docent? d).map (·.setCtx c z) ∧ ∀ e, e ≠ d → t.docent? e = s.docent? e

/-- The instruction word a context is at. -/
def wordOf (y : CtxState) : Nat := progWord y.image y.pc

/-- The context's word is not its program's last. -/
abbrev notLast (y : CtxState) : Prop := y.pc + 1 < progCount y.image

/-- A context that has gone on to its next word: `y` with registers `r`. -/
def wentOn (y : CtxState) (r : List Word64) : CtxState :=
  { y with regs := r, pc := y.pc + 1, sinceWait := y.sinceWait + 1 }

/-- Byte `a` of the DRAM of the package's channels. -/
def byteAt (s : State) (a : Nat) : Byte := memRead s.mem.dram a

/-- No write waits in a channel's write queue. -/
abbrev drained (s : State) (w sel : Nat) : Prop := s.writeQueue w sel = []

/-- Nothing waits in a channel's queues: no write, and no read. -/
abbrev idle (s : State) (w sel : Nat) : Prop :=
  drained s w sel ∧ s.paused w sel = false ∧ ∀ r ∈ s.mem.reads, ¬(r.wing = w ∧ r.sel = sel)

/-- Every word of a context's line buffer stands under the check bits its bytes were stored with, unpoisoned. -/
abbrev bufSound (y : CtxState) : Prop := ∀ b ∈ y.buf, b.2 = Sram.store false b.2.data ∧ b.2.data.length = 8

/-- Every byte of DRAM reads in `t` as in `s`, but for the lines `[a, a + 64 n)` of a channel. -/
def memKept (s t : State) (w sel a n : Nat) : Prop := ∀ x, inLines w sel a n x = false → byteAt t x = byteAt s x

/-- Only what raising records changes differs: messages sent, held records and counters, the functions' queues and the
sessions' record queues. -/
def onlyNoted (s t : State) : Prop :=
  t = { s with out := t.out, ev := t.ev, fn := t.fn, ed := { s.ed with sessions := t.ed.sessions } }

/-- The docent instructions that combine two registers (R197): opcode, command, operation. -/
def aluTable : List (Nat × (Nat → Ctx → Instr) × (Word64 → Word64 → Word64)) := [
  (0x01, .add, fun a b => a + b), (0x02, .sub, fun a b => a - b), (0x03, .andR, fun a b => a &&& b),
  (0x04, .orR, fun a b => a ||| b), (0x05, .xor, fun a b => a ^^^ b),
  (0x06, .shl, fun a b => a <<< (b.toNat % 64)), (0x07, .shr, fun a b => a >>> (b.toNat % 64)),
  (0x08, .sra, fun a b => a.sshiftRight (b.toNat % 64)), (0x09, .mul, fun a b => a * b),
  (0x0A, .minu, fun a b => if b.toNat < a.toNat then b else a),
  (0x0B, .maxu, fun a b => if a.toNat < b.toNat then b else a)]

/-- The docent instructions that combine a register and the immediate (R197). -/
def immediateTable : List (Nat × (Nat → Ctx → Instr) × (Word64 → Word64 → Word64)) := [
  (0x10, .addi, fun a b => a + b), (0x11, .andi, fun a b => a &&& b), (0x12, .ori, fun a b => a ||| b),
  (0x13, .xori, fun a b => a ^^^ b), (0x14, .shli, fun a b => a <<< (b.toNat % 64)),
  (0x15, .shri, fun a b => a >>> (b.toNat % 64)), (0x16, .srai, fun a b => a.sshiftRight (b.toNat % 64))]

/-- The docent branches (R197): opcode, command, when taken. -/
def branchTable : List (Nat × (Nat → Ctx → Instr) × (Word64 → Word64 → Bool)) := [
  (0x20, .beq, fun a b => a == b), (0x21, .bne, fun a b => a != b),
  (0x22, .bltu, fun a b => decide (a.toNat < b.toNat)), (0x23, .bgeu, fun a b => decide (b.toNat ≤ a.toNat)),
  (0x24, .jmp, fun _ _ => true)]

end Sys2Proof.Claims

open Sys2Proof Sys2Proof.Machine Sys2Proof.Claims

/-! The queue and the step. -/

/-- A step takes the command at the front of the queue and answers what that command's meaning answers on the state with the
queue's rest. -/
def Obligations.StepRunsFront : Prop :=
  ∀ (c : Instr) (rest : List Instr) (s : State), s.pending = c :: rest → step s = exec c { s with pending := rest }

/-- On an empty queue a step is a tick of the master TSC (the model's choice, log 2): it completes, the TSC of a package that runs
counts one on, modulo 2^64, and memory, the editions, the channels, the functions, the docents and the queue are as they were. -/
def Obligations.EmptyQueueTicks : Prop :=
  ∀ s : State, s.pending = [] → ∃ t, step s = .next t ∧
    t.tsc = (if s.running then (s.tsc + 1) % 2 ^ 64 else s.tsc) ∧ t.mem = s.mem ∧ t.ed = s.ed ∧
    t.chans = s.chans ∧ t.pending = [] ∧ t.fn = s.fn ∧ t.doc = s.doc

/-! Docents. -/

/-- The three-register instructions (R197): gd becomes ga op gb modulo 2^64, and the context goes on to its next word. Only
that context and the die's count of instructions change. -/
def Sys2Proof.Claims.DocentAlu : Prop :=
  ∀ k ∈ aluTable,
  ∀ (s : State) (d : Nat) (c : Ctx) (y : CtxState), s.docReady d c k.1 = some y → notLast y →
    ∃ t, exec (k.2.1 d c) s = .next t ∧
      docChanged d c (wentOn y (y.regs.set (wD (wordOf y))
        (k.2.2 (y.get (wA (wordOf y))) (y.get (wB (wordOf y)))))) s t

/-- The immediate instructions (R197): gd becomes ga op the sign-extended 18-bit immediate. -/
def Sys2Proof.Claims.DocentImmediate : Prop :=
  ∀ k ∈ immediateTable,
  ∀ (s : State) (d : Nat) (c : Ctx) (y : CtxState), s.docReady d c k.1 = some y → notLast y →
    ∃ t, exec (k.2.1 d c) s = .next t ∧
      docChanged d c (wentOn y (y.regs.set (wD (wordOf y))
        (k.2.2 (y.get (wA (wordOf y))) ((BitVec.ofNat 18 (wordOf y)).signExtend 64)))) s t

/-- MOVZ, MOVK, PARAM, TSC and NOP (R197): MOVZ loads the shifted immediate, MOVK replaces one 16-bit field, PARAM reads a
parameter and TSC the die's TSC; NOP changes no register. -/
def Sys2Proof.Claims.DocentMoves : Prop :=
  ∀ (s : State) (d : Nat) (c : Ctx) (y : CtxState), notLast y →
    (s.docReady d c 0x19 = some y → ∃ t, exec (.movz d c) s = .next t ∧
      docChanged d c (wentOn y (y.regs.set (wD (wordOf y))
        (BitVec.ofNat 64 (wImm16 (wordOf y) * 2 ^ (16 * wK (wordOf y)))))) s t) ∧
    (s.docReady d c 0x18 = some y → ∃ t v, exec (.movk d c) s = .next t ∧
      docChanged d c (wentOn y (y.regs.set (wD (wordOf y)) v)) s t ∧
      ∀ i, i < 64 → v.getLsbD i =
        if i / 16 = wK (wordOf y) then (wordOf y).testBit (i % 16) else (y.get (wD (wordOf y))).getLsbD i) ∧
    (s.docReady d c 0x28 = some y → ∃ t, exec (.param d c) s = .next t ∧
      docChanged d c (wentOn y (y.regs.set (wD (wordOf y)) (y.params.getD (wImm (wordOf y)).toNat 0))) s t) ∧
    (s.docReady d c 0x29 = some y → ∃ t, exec (.tsc d c) s = .next t ∧
      docChanged d c (wentOn y (y.regs.set (wD (wordOf y)) (BitVec.ofNat 64 (s.dieTsc (docDie d))))) s t) ∧
    (s.docReady d c 0x00 = some y → ∃ t, exec (.nop d c) s = .next t ∧ docChanged d c (wentOn y y.regs) s t)

/-- The branches (R197): BEQ, BNE, BLTU and BGEU compare two registers and pass to the target or to the next word; JMP
always passes to its target. -/
def Sys2Proof.Claims.DocentBranches : Prop :=
  ∀ k ∈ branchTable,
  ∀ (s : State) (d : Nat) (c : Ctx) (y : CtxState), s.docReady d c k.1 = some y → notLast y →
    ∃ t, exec (k.2.1 d c) s = .next t ∧
      docChanged d c { y with sinceWait := y.sinceWait + 1,
                              pc := if k.2.2 (y.get (wBranchA (wordOf y))) (y.get (wBranchB (wordOf y)))
                                    then wTarget (wordOf y) else y.pc + 1 } s t

/-- The arithmetic, move and branch instructions of a docent, and what they change. -/
def Obligations.DocentArithmetic : Prop :=
  DocentAlu ∧ DocentImmediate ∧ DocentMoves ∧ DocentBranches

/-- The last word of a program that is no branch taken and no HALT runs off (R200): the program ends with fault cause 7, and
a role that faults stays stopped. -/
def Sys2Proof.Claims.DocentRunsOff : Prop :=
  ∀ (s : State) (d : Nat) (y : CtxState) (x : Docent), s.docReady d .a 0x00 = some y → y.pc + 1 = progCount y.image →
    s.docent? d = some x → x.roleDue = false →
    ∃ t, exec (.nop d .a) s = .next t ∧
      t.docent? d = some { x with a := { CtxState.idle with suspended := x.a.suspended }, fault := 7,
                                  roleFaulted := x.roleFaulted || y.isRole } ∧
      onlyNoted { s with doc := t.doc } t

/-- WAIT, its expiry, HALT and the watchdog (R197, R200): WAIT for a later instant holds the context, and for one that is past
passes on; the expiry lets a context go on when the TSC of its die has reached its instant; HALT with status 0 ends a handler's
program of context P; the watchdog ends a program with fault cause 1. -/
def Sys2Proof.Claims.DocentWaits : Prop :=
  ∀ (s : State) (d : Nat) (c : Ctx) (y : CtxState) (x : Docent),
    (s.docReady d c 0x2A = some y → s.dieTsc (docDie d) < (y.ea (wordOf y)).toNat →
      ∃ t, exec (.wait d c) s = .next t ∧
        docChanged d c { y with waitUntil := some (y.ea (wordOf y)).toNat, sinceWait := 0 } s t) ∧
    (s.docReady d c 0x2A = some y → (y.ea (wordOf y)).toNat ≤ s.dieTsc (docDie d) → notLast y →
      ∃ t, exec (.wait d c) s = .next t ∧ docChanged d c { y with pc := y.pc + 1, sinceWait := 0 } s t) ∧
    (∀ n, s.docent? d = some x → x.ctx c = y → y.waitUntil = some n → n ≤ s.dieTsc (docDie d) → y.suspended = false →
      y.native = none → notLast y →
      ∃ t, exec (.waitExpiry d c) s = .next t ∧ t = { s with doc := t.doc } ∧
        t.docent? d = some (x.setCtx c { y with waitUntil := none, pc := y.pc + 1 })) ∧
    (s.docReady d .p 0x2C = some y → s.docent? d = some x → wImm16 (wordOf y) = 0 → y.trig ≠ 3 →
      ∃ t, exec (.halt d .p) s = .next t ∧ t = { s with doc := t.doc, ev := (s.bump 0x4110 6 d 1).ev } ∧
        t.docent? d = some { x with p := .idle, a := { x.a with suspended := false } }) ∧
    (s.docent? d = some x → x.ctx c = y → y.running = true → 1048576 ≤ y.sinceWait → x.roleDue = false →
      ∃ t z, exec (.watchdog d c) s = .next t ∧ t.docent? d = some z ∧ z.fault = 1 ∧ (z.ctx c).running = false ∧
        onlyNoted { s with doc := t.doc } t)

/-- EVT (R197): a docent notice of type 0x32 that carries the docent, imm[15:0] and ga is raised to the receivers of device
records, and the context goes on with its registers as they were. -/
def Sys2Proof.Claims.DocentNotice : Prop :=
  ∀ (s : State) (d : Nat) (c : Ctx) (y : CtxState) (x : Docent), s.docReady d c 0x2B = some y → notLast y → s.docent? d = some x →
    ∃ t, exec (.evt d c) s = .next t ∧
      t.docent? d = some (x.setCtx c (wentOn y y.regs)) ∧ onlyNoted { s with doc := t.doc } t ∧
      (s.receivers .d 0xFFFF ≠ [] → s.tsc ≤ s.dieTsc (docSrc d / 512) + 2000 →
        ∃ h ∈ t.ev.heldRecs, h.body.type = 0x32 ∧ h.body.source = docSrc d ∧ h.dest = s.receivers .d 0xFFFF ∧
          h.body.payload = pack [(1, d), (2, wImm16 (wordOf y)), (8, (y.get (wA (wordOf y))).toNat)])

/-- RDREG, WRREG, LDB and STB (R197) at ga + imm, a multiple of 8 inside the die's block or the line buffer: RDREG reads the die's
register; WRREG of a program with capability REG_WRITE writes it; LDB reads a word of the buffer that stands under sound check bits;
STB stores one, and leaves every other word. -/
def Sys2Proof.Claims.DocentRegistersAndBuffer : Prop :=
  ∀ (s : State) (d : Nat) (c : Ctx) (y : CtxState) (x : Docent), notLast y → (y.ea (wordOf y)).toNat % 8 = 0 →
    s.docent? d = some x →
    (s.docReady d c 0x2D = some y → (y.ea (wordOf y)).toNat < blockBytes (docDie d) →
      ∃ t, exec (.rdreg d c) s = .next t ∧ docChanged d c
        (wentOn y (y.regs.set (wD (wordOf y)) (BitVec.ofNat 64 (s.readDieReg (docDie d) (y.ea (wordOf y)).toNat)))) s t) ∧
    (s.docReady d c 0x2E = some y → (y.ea (wordOf y)).toNat < blockBytes (docDie d) → bitSet (fieldAt y.image 6 2) 1 = true →
      ∃ t, exec (.wrreg d c) s = .next t ∧
        t.docent? d = some (x.setCtx c (wentOn y y.regs)) ∧
        t.chans = (s.writeDieReg (docDie d) (y.ea (wordOf y)).toNat (y.get (wD (wordOf y))).toNat true).chans ∧
        t = { s with doc := t.doc, ev := t.ev, chans := t.chans }) ∧
    (s.docReady d c 0x30 = some y → (y.ea (wordOf y)).toNat ≤ 4088 → bufSound y →
      ∃ t, exec (.ldb d c) s = .next t ∧ t = { s with doc := t.doc, ev := t.ev } ∧
        ∃ z, t.docent? d = some (x.setCtx c z) ∧ z.pc = y.pc + 1 ∧
          z.regs = y.regs.set (wD (wordOf y)) (y.word ((y.ea (wordOf y)).toNat / 8)) ∧ ∀ i, z.word i = y.word i) ∧
    (s.docReady d c 0x31 = some y → (y.ea (wordOf y)).toNat ≤ 4088 →
      ∃ t z, exec (.stb d c) s = .next t ∧ docChanged d c z s t ∧ z.regs = y.regs ∧ z.pc = y.pc + 1 ∧
        z.word ((y.ea (wordOf y)).toNat / 8) = y.get (wD (wordOf y)) ∧
        ∀ i, i ≠ (y.ea (wordOf y)).toNat / 8 → z.word i = y.word i)

/-- The channel instructions (R197): LREAD, LWRITE, LFILL, LSCRUB and LTEST on `n` lines of a channel that is neither frozen nor
absent, with the Wing's Depot at rest, act and hold the context until DOCENT_CHANNEL_OP_DONE, with gd and the pc as they were.
LREAD changes no stored byte of a channel whose write queue is empty; LWRITE stores the buffer's lines with fresh check bits, and on
a channel with nothing queued leaves every other byte; LFILL writes zero lines, from the first, some of them before it ends (how many
is free); LSCRUB and LTEST, the latter in board-qualify mode, end with their counts. -/
def Sys2Proof.Claims.DocentChannels : Prop :=
  ∀ (s : State) (d : Nat) (c : Ctx) (y : CtxState) (w sel a : Nat), s.depotBytes ≤ 2 ^ 40 → s.changing (docDie d - 4) = false →
    (s.docReady d c 0x34 = some y → s.chanArgs d (y.get (wA (wordOf y))) (y.get (wB (wordOf y))).toNat 64 = .ok (w, sel, a, false) →
      ∃ t z o, exec (.lread d c) s = .next t ∧ (t.docent? d).map (·.ctx c) = some z ∧ z.op = some o ∧
        o.dest = wD (wordOf y) ∧ o.fill = none ∧ z.pc = y.pc ∧ z.regs = y.regs ∧ (drained s w sel → t.mem.dram = s.mem.dram)) ∧
    (s.docReady d c 0x35 = some y → s.chanArgs d (y.get (wA (wordOf y))) (y.get (wB (wordOf y))).toNat 64 = .ok (w, sel, a, false) →
      bufSound y →
      ∃ t z, exec (.lwrite d c) s = .next t ∧ (t.docent? d).map (·.ctx c) = some z ∧
        z.op = some ⟨wD (wordOf y), 0, none⟩ ∧ z.pc = y.pc ∧ z.regs = y.regs ∧
        (∀ i, i < (y.get (wB (wordOf y))).toNat →
          t.rawLine w sel (a + 64 * i) = freshLine (isDepot sel) (y.bufBytes (8 * i) 8) false) ∧
        (idle s w sel → memKept s t w sel a (y.get (wB (wordOf y))).toNat)) ∧
    (s.docReady d c 0x36 = some y → s.chanArgs d (y.get (wA (wordOf y))) (y.get (wB (wordOf y))).toNat (2 ^ 34) = .ok (w, sel, a, false) →
      ∃ t z m, exec (.lfill d c) s = .next t ∧ (t.docent? d).map (·.ctx c) = some z ∧ m ≤ (y.get (wB (wordOf y))).toNat ∧
        z.op = some ⟨wD (wordOf y), 0, some (w, sel, a + 64 * m, (y.get (wB (wordOf y))).toNat - m)⟩ ∧ z.pc = y.pc ∧
        z.regs = y.regs ∧ (drained s w sel → (∀ x, inLines w sel a m x = true → byteAt t x = 0) ∧ memKept s t w sel a m)) ∧
    (s.docReady d c 0x37 = some y → s.chanArgs d (y.get (wA (wordOf y))) (y.get (wB (wordOf y))).toNat 64 = .ok (w, sel, a, false) →
      ∃ t z o, exec (.lscrub d c) s = .next t ∧ (t.docent? d).map (·.ctx c) = some z ∧ z.op = some o ∧
        o.dest = wD (wordOf y) ∧ o.fill = none ∧ z.pc = y.pc ∧ z.regs = y.regs) ∧
    (s.docReady d c 0x3F = some y → s.pkg.bootMode = 3 →
      s.chanArgs d (y.get (wA (wordOf y))) (y.get (wB (wordOf y))).toNat 64 = .ok (w, sel, a, false) →
      ∃ t z o, exec (.ltest d c) s = .next t ∧ (t.docent? d).map (·.ctx c) = some z ∧ z.op = some o ∧
        o.dest = wD (wordOf y) ∧ o.fill = none ∧ o.status.toNat ≤ (y.get (wB (wordOf y))).toNat ∧ z.regs = y.regs) ∧
    (∀ x o, s.docent? d = some x → x.ctx c = y → y.op = some o → y.suspended = false → y.native = none → notLast y →
      (o.fill = none → ∃ t, exec (.docentChannelOpDone d c) s = .next t ∧ t = { s with doc := t.doc } ∧
        t.docent? d = some (x.setCtx c { y with op := none, regs := y.regs.set o.dest o.status, pc := y.pc + 1 })) ∧
      (∀ m ch, o.fill = some (w, sel, a, m) → s.chan? w sel = some ch → ch.st ≠ 3 →
        ∃ t, exec (.docentChannelOpDone d c) s = .next t ∧
          t.docent? d = some (x.setCtx c { y with op := none, regs := y.regs.set o.dest o.status, pc := y.pc + 1 }) ∧
          (drained s w sel → (∀ x, inLines w sel a m x = true → byteAt t x = 0) ∧ memKept s t w sel a m)))

/-- A docent's registers, its line buffer and its channels. -/
def Obligations.DocentStateAccess : Prop :=
  DocentRegistersAndBuffer ∧ DocentChannels

/-- The catalogue instructions (R197) on a Wing: CATRD puts the entry's 16 bytes into words 0 and 1; CATFLIP, over a sound buffer and
with the channels of both forms open, replaces an entry that equals words 0 and 1 by words 2 and 3 with status 0, and refuses another
with status 1; SALLOC of 1 to 9 Depot slots gives them to the docent; SFREE takes a run it holds back; BVERIFY answers with its result
code. -/
def Sys2Proof.Claims.DocentCatalogue : Prop :=
  ∀ (s : State) (d : Nat) (c : Ctx) (y : CtxState) (e : CatEntry), 32 ≤ d → d < 64 → s.changing (docDie d - 4) = false →
    e = s.entry (catArg (y.get (wA (wordOf y)))).1 (docDie d - 4) (catArg (y.get (wA (wordOf y)))).2 →
    (s.docReady d c 0x38 = some y →
      s.entryExists (docDie d - 4) (catArg (y.get (wA (wordOf y)))).1 (catArg (y.get (wA (wordOf y)))).2 = true →
      ∃ t z, exec (.catrd d c) s = .next t ∧ docChanged d c z s t ∧ z.op = some ⟨wD (wordOf y), 0, none⟩ ∧ z.regs = y.regs ∧
        z.pc = y.pc ∧ z.bufBytes 0 2 = e.bytes) ∧
    (s.docReady d c 0x39 = some y → bufSound y →
      s.entryExists (docDie d - 4) (catArg (y.get (wA (wordOf y)))).1 (catArg (y.get (wA (wordOf y)))).2 = true →
      (∀ r ∈ e.runs ++ (e.ofBytes (y.bufBytes 2 2)).runs, s.runClosed r = false) →
      ∃ t z, exec (.catflip d c) s = .next t ∧ (t.docent? d).map (·.ctx c) = some z ∧ t.mem.dram = s.mem.dram ∧ z.regs = y.regs ∧
        if e.bytes = y.bufBytes 0 2
        then z.op = some ⟨wD (wordOf y), 0, none⟩ ∧
          t.entry e.coll e.wing e.blk = e.ofBytes (y.bufBytes 2 2)
        else z.op = some ⟨wD (wordOf y), 1, none⟩ ∧ t.mem = s.mem) ∧
    (∀ r, s.docReady d c 0x3A = some y → 1 ≤ (y.get (wB (wordOf y))).toNat → (y.get (wB (wordOf y))).toNat ≤ 9 →
      bits (y.get (wA (wordOf y))).toNat 12 2 = 2 →
      s.allocShare (bits (y.get (wA (wordOf y))).toNat 0 12) (docDie d - 4) false 0 (y.get (wB (wordOf y))).toNat = some r →
      ∃ t z, exec (.salloc d c) s = .next t ∧ (t.docent? d).map (·.ctx c) = some z ∧
        z.op = some ⟨wD (wordOf y), BitVec.ofNat 64 r.slot, none⟩ ∧ z.regs = y.regs ∧
        t.mem = { s.mem with allocs := s.mem.allocs ++ [(bits (y.get (wA (wordOf y))).toNat 0 12, r)] }) ∧
    (∀ r, s.docReady d c 0x3B = some y → 1 ≤ (y.get (wB (wordOf y))).toNat → (y.get (wB (wordOf y))).toNat ≤ 9 →
      s.freedRun (docDie d - 4) (y.get (wA (wordOf y))).toNat (y.get (wB (wordOf y))).toNat = some r →
      ∃ t z, exec (.sfree d c) s = .next t ∧ (t.docent? d).map (·.ctx c) = some z ∧ z.op = some ⟨16, 0, none⟩ ∧ z.regs = y.regs ∧
        t.mem = { s.mem with allocs := t.mem.allocs, deferred := t.mem.deferred } ∧ (∀ a ∈ t.mem.allocs, a.2 ≠ r) ∧
        (r ∈ t.mem.deferred ↔ s.runNeeded r = true)) ∧
    (s.docReady d c 0x3E = some y →
      ∃ t z o, exec (.bverify d c) s = .next t ∧ (t.docent? d).map (·.ctx c) = some z ∧ z.op = some o ∧
        o.dest = wD (wordOf y) ∧ o.fill = none ∧ z.regs = y.regs ∧ o.status.toNat ≤ 5 ∧
        (e.primary.any s.runClosed = true → o.status = 5 ∧ t.mem = s.mem) ∧
        (e.primary.any s.runClosed = false → e.stored = false → o.status = 4 ∧ t.mem = s.mem))

/-- RUNCOPY of 1 to 9 slots between runs that its Wing holds starts a copy under a handle, COPY_COMPLETE marks it finished, and CWAIT
hands a finished copy's handle and status to gd, or holds the context until one finishes (R197). -/
def Sys2Proof.Claims.DocentCopies : Prop :=
  ∀ (s : State) (d : Nat) (c : Ctx) (y : CtxState) (x : Docent) (k : Copy),
    (∀ p q, 32 ≤ d → d < 64 → s.changing (docDie d - 4) = false → s.docReady d c 0x3C = some y → bufSound y →
      (y.get (wA (wordOf y))).toNat % 8 = 0 →
      (y.get (wA (wordOf y))).toNat ≤ 4072 → y.copies.length < 32 →
      1 ≤ (y.word ((y.get (wA (wordOf y))).toNat / 8 + 2)).toNat → (y.word ((y.get (wA (wordOf y))).toNat / 8 + 2)).toNat ≤ 9 →
      s.sourceRun (docDie d - 4) (y.word ((y.get (wA (wordOf y))).toNat / 8)).toNat
        (y.word ((y.get (wA (wordOf y))).toNat / 8 + 2)).toNat = some p →
      s.destRun (docDie d - 4) (y.word ((y.get (wA (wordOf y))).toNat / 8 + 1)).toNat
        (y.word ((y.get (wA (wordOf y))).toNat / 8 + 2)).toNat = some q →
      ∃ t z, exec (.runcopy d c) s = .next t ∧ (t.docent? d).map (·.ctx c) = some z ∧
        z.copies.length = y.copies.length + 1 ∧ z.nextHandle = (y.nextHandle + 1) % 256 ∧
        z.op = some ⟨wD (wordOf y), BitVec.ofNat 64 y.nextHandle, none⟩ ∧ z.regs = y.regs) ∧
    (s.docent? d = some x → x.ctx c = y → y.copyWait = none →
      y.copies.find? (fun j => j.handle == k.handle) = some k →
      ∃ t z, exec (.copyComplete d c k.handle) s = .next t ∧ t = { s with doc := t.doc } ∧ (t.docent? d).map (·.ctx c) = some z ∧
        z.regs = y.regs ∧ ∀ j ∈ z.copies, j.handle = k.handle → j.done = true) ∧
    (s.docReady d c 0x3D = some y → y.copies.find? (·.done) = some k → notLast y →
      ∃ t z, exec (.cwait d c) s = .next t ∧ docChanged d c z s t ∧ z.pc = y.pc + 1 ∧
        z.regs = y.regs.set (wD (wordOf y)) (BitVec.ofNat 64 (k.handle + 256 * k.status)) ∧
        z.copies = y.copies.filter fun j => j.handle != k.handle) ∧
    (s.docReady d c 0x3D = some y → y.copies.find? (·.done) = none →
      ∃ t, exec (.cwait d c) s = .next t ∧ docChanged d c { y with copyWait := some (wD (wordOf y)), sinceWait := 0 } s t)

/-- A docent's catalogue, slot and copy instructions. -/
def Obligations.DocentStorage : Prop :=
  DocentCatalogue ∧ DocentCopies

/-- A waiting trigger that some docent of the die can take is dispatched (R193): it leaves the queue and its handler starts
with the code in g0 and the argument in g1, its context at word 0. Shown for a customer trigger, which starts no re-entry and no
move. -/
def Sys2Proof.Claims.TriggerStartsHandler : Prop :=
  ∀ (s : State) (die : Nat) (g : Trigger) (x : Docent), s.dieRuns die = true →
    s.doc.triggers.find? (fun t => t.die == die && (s.takerOf t).isSome) = some g → s.takerOf g = some x → g.code = 0x10 →
    s.act.hasProgram (s.act.handler 5) = true →
    ∃ t z, exec (.triggerDispatch die) s = .next t ∧ t = { s with doc := t.doc } ∧
      t.doc.triggers = s.doc.triggers.erase g ∧ (t.docent? x.id).map (·.ctx g.ctx) = some z ∧ z.running = true ∧
      z.prog = s.act.handler 5 ∧ z.pc = 0 ∧ z.get 0 = BitVec.ofNat 64 0x10 ∧ z.get 1 = BitVec.ofNat 64 g.arg

/-- How a docent's program starts, waits, raises notices and ends. -/
def Obligations.DocentProgramsWaitAndEnd : Prop :=
  DocentRunsOff ∧ DocentWaits ∧ DocentNotice ∧ TriggerStartsHandler


/-! The memory path (R26-R35, R46, R84, R91-R93, R294). -/

/-- A request of a link port that is taken at once: the block accepts work, the port's link is up, no quiesce holds its
collection, and no cache tag waits for its Wing's isolation. -/
abbrev Sys2Proof.Claims.taken (s : State) (p hpa : Nat) : Prop :=
  s.accepting = true ∧ s.linkUp p = true ∧ (s.target p hpa).coll?.any s.quiet = false ∧ s.dies.any (·.tagFault) = false

/-- Nothing of the storage differs but the token buckets and the coalescing windows of notices. -/
def Sys2Proof.Claims.storageKept (s t : State) : Prop :=
  t.mem = { s.mem with buckets := t.mem.buckets, windows := t.mem.windows }

/-- No write waits in any channel's write queue. -/
abbrev Sys2Proof.Claims.allDrained (s : State) : Prop := ∀ x ∈ s.chans, x.wq = []

/-- No write of a block waits in a write queue of its Wing. -/
abbrev Sys2Proof.Claims.blockDrained (s : State) (c w blk : Nat) : Prop :=
  ∀ x ∈ s.chans, x.wing = w → ∀ q ∈ x.wq, ¬(q.coll = c ∧ q.blk = some blk)

/-- Inside a decoded region and outside every mapped extent (R46) a read returns a poisoned line, and nothing of the storage, the
docents or the jobs changes. A write is discarded and completes; its notice 0x11 is coalesced per port: with no window open it opens
one at the TSC of the port's die, and with one open it is counted there. -/
def Obligations.UnmappedAccess : Prop :=
  ∀ (s : State) (p hpa be : Nat) (data : Bytes) (poison : Bool), taken s p hpa → s.target p hpa = .unmapped →
    (∃ t, exec (.cxlMemRead p hpa) s = .next t ∧
      t = { s.wakeChannels with out := s.out ++ [.memData p (zeros 64) true (s.devLoad p)], ev := t.ev }) ∧
    (∃ t, exec (.cxlMemWrite p hpa data be poison) s = .next t ∧
      t.mem = { s.mem with windows := t.mem.windows } ∧ t.chans = s.wakeChannels.chans ∧ t.doc = s.doc ∧ t.wb = s.wb ∧
      t.out.getLast? = some (.memCmp p (s.devLoad p)) ∧
      (∀ x, s.mem.windows.find? (fun w => w.kind == 0x11 && w.obj == p) = some x → s.dieTsc (p / 8) < x.start + 1000000 →
        ∃ y ∈ t.mem.windows, y.kind = 0x11 ∧ y.obj = p ∧ y.count = x.count + 1 ∧ y.start = x.start) ∧
      (s.mem.windows.find? (fun w => w.kind == 0x11 && w.obj == p) = none →
        ∃ y ∈ t.mem.windows, y.kind = 0x11 ∧ y.obj = p ∧ y.count = 0 ∧ y.start = s.dieTsc (p / 8)))

/-- In a window that holds no live sequence, and in padding (R145), of a Wing in service a read returns 64 zero bytes and a write is
discarded with its notice 0x10; both are answered, and no line, entry, sequence or queue of the storage changes. -/
def Obligations.WindowsWithoutSequence : Prop :=
  ∀ (s : State) (p hpa c off be : Nat) (data : Bytes) (poison : Bool), taken s p hpa → s.target p hpa = .data c off →
    s.noData c (off / 64 * 64) = true → s.wingUp (s.place c (off / 64 * 64)).wing = true →
    (∃ t, exec (.cxlMemRead p hpa) s = .next t ∧ storageKept s t ∧ t.chans = s.wakeChannels.chans ∧
      t.out.getLast? = some (.memData p (zeros 64) false (s.devLoad p))) ∧
    (∃ t, exec (.cxlMemWrite p hpa data be poison) s = .next t ∧ storageKept s t ∧ t.chans = s.wakeChannels.chans ∧
      t.out.getLast? = some (.memCmp p (s.devLoad p)) ∧ ∃ y ∈ t.mem.windows, y.kind = 0x10 ∧ y.obj = c)

/-- A line that neither its cache partition nor the merge buffer holds reads by its block's entry (R26, R56, R264): zeros from a ZERO
block; poison from a lost or header-damaged one and from a channel that does not serve; otherwise the read joins the requests of its
channel, under the next request number and with the entry it has read. No entry changes, and while nothing is queued no stored byte. -/
def Sys2Proof.Claims.ReadByEntry : Prop :=
  ∀ (s : State) (p hpa c off w line : Nat) (e : CatEntry), taken s p hpa → s.target p hpa = .data c off →
    s.noData c (off / 64 * 64) = false → (s.place c (off / 64 * 64)).wing = w → s.wingUp w = true →
    64 * (s.place c (off / 64 * 64)).blk + (s.place c (off / 64 * 64)).line = line →
    s.cached? c w line = none → s.merge? c w line = none → s.entry c w (s.place c (off / 64 * 64)).blk = e →
    ∃ t, exec (.cxlMemRead p hpa) s = .next t ∧ t.mem.cat = s.mem.cat ∧ (allDrained s → t.mem.dram = s.mem.dram) ∧
      (e.tier = .none → storageKept s t ∧ t.out.getLast? = some (.memData p (zeros 64) false (s.devLoad p))) ∧
      (e.tier = .lost → storageKept s t ∧ t.out.getLast? = some (.memData p (zeros 64) true (s.devLoad p))) ∧
      (e.stored = true → e.hdrDamage = true ∨ s.serves w (s.entrySel e) = false →
        storageKept s t ∧ t.out.getLast? = some (.memData p (zeros 64) true (s.devLoad p))) ∧
      (e.stored = true → e.hdrDamage = false → s.serves w (s.entrySel e) = true →
        ∃ r ∈ t.mem.reads, r.id = s.fresh ∧ r.coll = c ∧ r.wing = w ∧ r.line = line ∧ r.view = none ∧ r.entry = e ∧
          r.sel = s.entrySel e ∧ r.waiter = .port p)

/-- CHANNEL_READ_COMPLETE on a read that its channel has issued, of a link port whose link is up, with the channel not paused: the
read waits no more, and one data response is sent for it; it is the fetched line with the bytes merged into it, or a poisoned line. -/
def Sys2Proof.Claims.ReadsReturn : Prop :=
  ∀ (s : State) (r : PendRead) (p : Nat), s.mem.reads.find? (fun x => x.id == r.id && x.stage == .issued) = some r →
    r.waiter = .port p → s.linkUp p = true → s.paused r.wing r.sel = false →
    ∃ t data poison, exec (.channelReadComplete r.id) s = .next t ∧ (∀ x ∈ t.mem.reads, x.id ≠ r.id) ∧
      t.out.getLast? = some (.memData p data poison (t.devLoad p)) ∧ (poison = true → data = zeros 64) ∧
      (poison = false → r.got = none → r.view = none → data = mergeMask r.mergedMask (s.fetchRead r).data r.merged)

/-- The line that a write makes of a cached line or an empty place, as its partition then holds it: placed last, with both copies of
its tag. -/
def Sys2Proof.Claims.placed (s : State) (l : CacheLine) : CacheLine :=
  { l with used := s.tsc, tagA := Sram.store false l.tag, tagB := Sram.store false l.tag }

/-- Writes of the expanded view on a Wing in service (R31, R32), to a block that is not lost in an overfull collection, when the line
is not lent and the collection is not durable: on a cached line of a RAW collection or an expanded ACT block the bytes land in that
line; a RAW line that is not cached takes a place when the partition has one; to an ACT block that is not expanded the bytes wait in
the write-merge buffer; to a PACKED collection or an exhibit they are discarded with the notice 0x10. Each completes at once, and no
stored byte and no entry changes. -/
def Obligations.WriteByKind : Prop :=
  ∀ (s : State) (p hpa c off w line be : Nat) (data : Bytes) (poison : Bool), taken s p hpa → s.target p hpa = .data c off →
    s.noData c (off / 64 * 64) = false → (s.place c (off / 64 * 64)).wing = w → s.wingUp w = true →
    64 * (s.place c (off / 64 * 64)).blk + (s.place c (off / 64 * 64)).line = line → s.mem.loanDir = [] →
    s.act.durable c = false → s.pw.flushing = false →
    ¬((s.entry c w (s.place c (off / 64 * 64)).blk).tier = .lost ∧ s.overfull c = true) →
    (∀ l, s.act.kind c = 1 ∨ (s.act.kind c = 2 ∧ l.expanded = true) → s.act.exhibit c = false → s.cached? c w line = some l →
      l.tagA = Sram.store false l.tag → l.tagB = Sram.store false l.tag →
      ∃ t, exec (.cxlMemWrite p hpa data be poison) s = .next t ∧ t.mem.dram = s.mem.dram ∧ t.mem.cat = s.mem.cat ∧
        t.cached? c w line = some (placed s (l.write data be poison (be == fullMask))) ∧ t.mem.wmb = s.mem.wmb ∧
        t.out.getLast? = some (.memCmp p (s.devLoad p))) ∧
    (s.act.kind c = 1 → s.act.exhibit c = false → s.cached? c w line = none →
      s.stuck (s.entry c w (s.place c (off / 64 * 64)).blk) = false → s.partUsed c w + 1 ≤ s.partLines c →
      ∃ t, exec (.cxlMemWrite p hpa data be poison) s = .next t ∧ t.mem.dram = s.mem.dram ∧ t.mem.cat = s.mem.cat ∧
        t.cached? c w line = some (placed s ((CacheLine.empty c w line).write data be poison (be == fullMask))) ∧
        t.mem.wmb = s.mem.wmb ∧ t.out.getLast? = some (.memCmp p (s.devLoad p))) ∧
    (s.act.kind c = 2 → s.act.exhibit c = false → s.cached? c w line = none →
      s.stuck (s.entry c w (s.place c (off / 64 * 64)).blk) = false → s.merge? c w line = none → poison = false →
      s.partUsed c w + 1 ≤ s.partLines c →
      ∃ t m, exec (.cxlMemWrite p hpa data be poison) s = .next t ∧ t.mem.dram = s.mem.dram ∧ t.mem.cat = s.mem.cat ∧
        t.mem.cache = s.mem.cache ∧ t.merge? c w line = some m ∧ m.mask = be ∧
        (∀ i, i < 64 → bitSet be i = true → m.data.getD i 0 = data.getD i 0) ∧
        t.out.getLast? = some (.memCmp p (s.devLoad p))) ∧
    (s.act.kind c = 3 ∨ s.act.exhibit c = true →
      ∃ t, exec (.cxlMemWrite p hpa data be poison) s = .next t ∧ storageKept s t ∧
        (∃ y ∈ t.mem.windows, y.kind = 0x10 ∧ y.obj = c) ∧ t.out.getLast? = some (.memCmp p (s.devLoad p)))

/-- A line of a RAW collection that is neither held nor queued leaves the cache (R33, R34). A clean one of a block with nothing queued
is dropped, and nothing else changes. The last of 64 lines held whole and zero takes the whole block with it: the block is ZERO and no
line of it is left. A whole dirty line, its bytes under their check bits, of a block stored on the Depot, neither shared, damaged nor
in flight, with no flip armed, is written in place: its stored line becomes the encrypted line under fresh check bits, and with
nothing else at its channel the line is gone from the cache. -/
def Sys2Proof.Claims.LinesLeave : Prop :=
  ∀ (s : State) (l : CacheLine) (e : CatEntry), s.cached? l.coll l.wing l.line = some l → l.canLeave = true → s.act.kind l.coll = 1 →
    s.entry l.coll l.wing (l.line / 64) = e → s.stuck e = false →
    (l.dirty = false → s.leavesZero l.coll l.wing (l.line / 64) = false → blockDrained s l.coll l.wing (l.line / 64) →
      exec (.lineLeavesCache l.coll l.wing l.line) s =
        .next { s with mem := { s.mem with cache := s.mem.cache.filter fun x => !x.isFor l.coll l.wing l.line } }) ∧
    (s.leavesZero l.coll l.wing (l.line / 64) = true →
      ∃ t, exec (.lineLeavesCache l.coll l.wing l.line) s = .next t ∧ (t.entry l.coll l.wing (l.line / 64)).tier = .none ∧
        t.blockLines l.coll l.wing (l.line / 64) = []) ∧
    (∀ x sel a, l.dirty = true → s.leavesZero l.coll l.wing (l.line / 64) = false → e.tier = .depot → e.copySlot = none →
      e.hdrDamage = false → s.shared e = false → s.moving e = false → l.valid = fullMask → l.poison = false →
      l.data.length = 64 → l.check = sramStore false l.data → s.locate e.tier e.site e.slot (l.line % 64 + 1) = (sel, a) →
      s.chan? l.wing sel = some x → bitSet x.flip.ctl 0 = false → s.depotBytes ≤ 2 ^ 40 → 0 < s.depotBytes →
      ∃ t, exec (.lineLeavesCache l.coll l.wing l.line) s = .next t ∧
        t.rawLine l.wing sel a = freshLine (isDepot sel) (s.crypt false l.coll l.wing e.origin (l.line % 64 + 1) l.data) false ∧
        (idle s l.wing sel → blockDrained s l.coll l.wing (l.line / 64) → t.cached? l.coll l.wing l.line = none))

/-- ACT_BLOCK_EXPANDED (R31, R32): with room for 64 lines in the partition, the block's channels serving and its Wing's Depot not
changing frequency, the block's held writes merge into its lines: none is held any longer, each one's line is cached, and while
nothing is queued no stored byte changes. With no write held the command has no effect. -/
def Sys2Proof.Claims.HeldWritesMerge : Prop :=
  ∀ (s : State) (c w blk : Nat),
    (s.blockMerges c w blk ≠ [] → s.stuck (s.entry c w blk) = false → s.changing w = false → s.partUsed c w + 64 ≤ s.partLines c →
      ∃ t, exec (.actBlockExpanded c w blk) s = .next t ∧ (allDrained s → t.mem.dram = s.mem.dram) ∧
        t.mem.wmb = s.mem.wmb.filter (fun x => !(x.coll == c && x.wing == w && x.line / 64 == blk)) ∧
        ∀ m ∈ s.blockMerges c w blk, (t.cached? c w m.line).isSome = true) ∧
    (s.blockMerges c w blk = [] → exec (.actBlockExpanded c w blk) s = .next s)

/-- The other commands of the memory path. MemSpecRd has no effect, and MemInv is completed with Cmp and has no other effect (R294).
A coalescing window that has ended closes, and where it counted nothing only the window changes (R35). A durable write whose block
has nothing left to write back, the only one that waits, completes when its Depot copy is held (R32). A freed run that no request
reads becomes reusable (R84). -/
def Sys2Proof.Claims.MemorySmall : Prop :=
  ∀ (s : State) (p hpa : Nat),
    exec (.memSpecRd p hpa) s = .next s ∧
    (s.accepting = true → s.linkUp p = true →
      exec (.memInv p hpa) s = .next { s with out := s.out ++ [.memCmp p (s.devLoad p)] }) ∧
    (∀ x, s.mem.windows.find? (fun w => w.kind == x.kind && w.obj == x.obj) = some x → s.windowOver x = true →
      ∃ t, exec (.coalesceWindowEnd x.kind x.obj) s = .next t ∧
        t.mem = { s.mem with windows := s.mem.windows.filter fun w => !(w.kind == x.kind && w.obj == x.obj) } ∧
        onlyNoted { s with mem := t.mem } t ∧ (x.count = 0 → t = { s with mem := t.mem })) ∧
    (∀ x q, s.mem.writes = [x] → x.depot = true → x.waiter = .port q → s.linkUp q = true → s.mem.loanDir = [] →
      s.blockMerges x.coll x.wing (x.line / 64) = [] →
      (∀ l ∈ s.blockLines x.coll x.wing (x.line / 64), l.dirty = false ∧ l.queued = false) →
      ∃ t, exec (.depotWriteThroughComplete x.id) s = .next t ∧
        t = { s with mem := { s.mem with writes := [] }, out := s.out ++ [.memCmp q (t.devLoad q)] }) ∧
    (∀ w tier site slot, (∀ x ∈ s.mem.reads, ∀ r ∈ x.entry.runs,
        ¬(r.wing = w ∧ r.tier = (if tier = 1 then .gallery else .depot) ∧ r.site = site ∧ r.slot = slot)) →
      ∃ t, exec (.deferredRunFree w tier site slot) s = .next t ∧
        t = { s with mem := { s.mem with deferred := t.mem.deferred } } ∧
        ∀ r, r ∈ t.mem.deferred ↔ r ∈ s.mem.deferred ∧
          ¬(r.wing = w ∧ r.tier = (if tier = 1 then .gallery else .depot) ∧ r.site = site ∧ r.slot = slot))

/-- Lines leaving the cache, held writes merging, and the small commands of the memory path. -/
def Obligations.LinesAndCells : Prop :=
  LinesLeave ∧ HeldWritesMerge ∧ MemorySmall

/-- COMPRESSED_VIEW_READ of a block on a Wing in service with nothing cached or held to write back (R91, R92): of a ZERO block the
header line is synthesized and the payload lines read 0; a lost block reads poisoned; a stored block's header line, and its payload
lines before its end, wait at its channel when that serves and the header is not damaged. -/
def Sys2Proof.Claims.CompressedViewByEntry : Prop :=
  ∀ (s : State) (p hpa c off blk w : Nat) (e : CatEntry), taken s p hpa → s.target p hpa = .view c off →
    (if off < viewH (s.act.size c) then off / 64 else (off - viewH (s.act.size c)) / 4096) = blk →
    s.act.size c % 4096 = 0 → blk * 4096 < s.act.size c → (s.place c (blk * 4096)).wing = w → s.wingUp w = true →
    (∀ l ∈ s.blockLines c w blk, l.dirty = false ∧ l.queued = false) → s.blockMerges c w blk = [] → s.entry c w blk = e →
    (e.tier = .none → ∃ t, exec (.compressedViewRead p hpa) s = .next t ∧ storageKept s t ∧
      t.out.getLast? = some (.memData p (if off < viewH (s.act.size c) then zeroHeader (s.act.fmt c) else zeros 64) false
        (s.devLoad p))) ∧
    (e.tier = .lost → ∃ t, exec (.compressedViewRead p hpa) s = .next t ∧ storageKept s t ∧
      t.out.getLast? = some (.memData p (zeros 64) true (s.devLoad p))) ∧
    (e.stored = true → e.hdrDamage = false → s.serves w (s.entrySel e) = true →
      off < viewH (s.act.size c) ∨ (off - viewH (s.act.size c)) % 4096 / 64 * 64 < s.viewLen e →
      ∃ t r, exec (.compressedViewRead p hpa) s = .next t ∧ t.mem.cat = s.mem.cat ∧ r ∈ t.mem.reads ∧ r.id = s.fresh ∧
        r.coll = c ∧ r.wing = w ∧ r.view.isSome = true ∧ r.entry = e ∧ r.waiter = .port p)

/-- Reads of a link: by the catalogue entry of the block, their completion, and reads of the compressed view. -/
def Obligations.LinkReads : Prop :=
  ReadByEntry ∧ ReadsReturn ∧ CompressedViewByEntry

/-! Commands of a command area and of the sequence request entry (R57-R62, R136, R137, R147-R156). -/

namespace Sys2Proof.Claims

/-- A command that may run: due at its place, with its opcode, and past the checks every command makes first (R61). -/
abbrev runs (s : State) (x : Cmd) (op : Nat) : Prop := s.due x.coll x.src op = some x ∧ s.firstCheck x = none

/-- In `t` command `x` has ended with a status, a detail and a result, and every other command stands as in `s`. -/
def ended (s t : State) (x : Cmd) (status detail result : Nat) : Prop :=
  t.cmd? x.coll x.src = some { x with status := status, detail := detail, result := result % 2 ^ 32 } ∧
  ∀ c src, ¬(c = x.coll ∧ src = x.src) → t.cmd? c src = s.cmd? c src

/-- Every block of a range of a collection's data window that is stored or held is ZERO in `t`, with no line left. -/
def rangeZero (s t : State) (c lo hi : Nat) : Prop :=
  ∀ k ∈ s.blocksIn c lo hi, (t.entry c k.1 k.2).tier = .none ∧ t.blockLines c k.1 k.2 = []

end Sys2Proof.Claims

/-- A due command whose place does not accept its opcode ends BAD_OPCODE (R59, R61), and has had no effect but its ending. -/
def Sys2Proof.Claims.UnknownOpcodeEnds : Prop :=
  ∀ (s : State) (x : Cmd), s.due x.coll x.src x.op = some x → x.opOk = false →
    ∃ t, exec (.undefinedCommandOpcode x.coll x.src) s = .next t ∧ ended s t x 0x8001 0 0 ∧
      t.mem = { s.mem with cmds := t.mem.cmds } ∧ onlyNoted { s with mem := t.mem } t

/-- CREATE (R147): the lowest run of free windows becomes live root sequences with 0 tokens held, every block of the windows is ZERO,
and the result is the first one's number; where a limit of R144 refuses it, it ends LIMIT and nothing is created. -/
def Obligations.CreateMakesRoots : Prop :=
  ∀ (s : State) (x : Cmd) (q : Pool), runs s x 0x10 → fieldAt x.bytes 8 1 < 8 → s.pool x.coll (fieldAt x.bytes 8 1) = some q →
    1 ≤ fieldAt x.bytes 12 2 → fieldAt x.bytes 12 2 ≤ 1024 →
    (∀ w, s.takeWindows x.coll (fieldAt x.bytes 8 1) q (fieldAt x.bytes 12 2) = .ok w →
      ∃ t, exec (.create x.coll x.src) s = .next t ∧ ended s t x 2 0 (fieldAt x.bytes 8 1 * 65536 + w) ∧
        t.mem.dram = s.mem.dram ∧ rangeZero s t x.coll (q.window w) (q.window (w + fieldAt x.bytes 12 2)) ∧
        t.mem.seqs = s.mem.seqs ++ (List.range (fieldAt x.bytes 12 2)).map fun i =>
          ⟨x.coll, fieldAt x.bytes 8 1 * 65536 + w + i, 0, none, 0⟩) ∧
    (∀ n, s.takeWindows x.coll (fieldAt x.bytes 8 1) q (fieldAt x.bytes 12 2) = .error n →
      ∃ t, exec (.create x.coll x.src) s = .next t ∧ ended s t x 0x8004 n 0 ∧ t.mem.seqs = s.mem.seqs ∧ t.mem.cat = s.mem.cat)

/-- FORK (R152-R156). A FORK past its checks reserves its windows and is forwarded to every Wing of the set. At the last Wing's turn,
that Wing in service, with a fork token at a block boundary and every block of the parent's prefix that is homed there on serving
channels with nothing to write back, the children exist, one deeper than their parent and with the fork token as their tokens held,
and the command is DONE with the first child's number; no stored byte changes. -/
def Obligations.ForkMakesChildren : Prop :=
  ∀ (s : State) (x : Cmd),
    (∀ q p pw par w, runs s x 1 → s.seqPlace x.coll (fieldAt x.bytes 8 4) = some (q, p, pw) →
      1 ≤ fieldAt x.bytes 12 2 → fieldAt x.bytes 12 2 ≤ 1024 → fieldAt x.bytes 14 4 ≤ q.cap →
      s.seq? x.coll (fieldAt x.bytes 8 4) = some par → par.depth < 16 →
      s.takeWindows x.coll p q (fieldAt x.bytes 12 2) = .ok w →
      ∃ t f, exec (.fork x.coll x.src) s = .next t ∧ t.mem.forks = s.mem.forks ++ [f] ∧ f.first = p * 65536 + w ∧
        f.count = fieldAt x.bytes 12 2 ∧ f.parent = fieldAt x.bytes 8 4 ∧ f.token = fieldAt x.bytes 14 4 ∧
        f.wingsLeft = s.wingsOf x.coll ∧ t.mem.seqs = s.mem.seqs ∧ t.mem.cat = s.mem.cat ∧ t.mem.dram = s.mem.dram ∧
        t.cmd? x.coll x.src = some { x with forwarded := true }) ∧
    (∀ f w q p pw r cw par, s.underWay x.coll x.src 1 = some x →
      s.mem.forks.find? (fun f => f.coll == x.coll && f.src == x.src && f.wingsLeft.contains w) = some f →
      f.wingsLeft = [w] → s.seqPlace f.coll f.parent = some (q, p, pw) → s.seqPlace f.coll f.first = some (r, p, cw) →
      s.seq? f.coll f.parent = some par → f.first / 65536 = p → s.wingUp w = true → f.token * q.rec_ % 4096 = 0 →
      (∀ b k, b < f.token * q.rec_ / 4096 → s.windowBlock f.coll q pw b = (w, k) → s.stuck (s.entry f.coll w k) = false ∧
        s.blockMerges f.coll w k = [] ∧ ∀ l ∈ s.blockLines f.coll w k, l.dirty = false ∧ l.queued = false) →
      ∃ t, exec (.forkInstant x.coll x.src w) s = .next t ∧ ended s t x 2 0 f.first ∧ (∀ g ∈ t.mem.forks, g ≠ f) ∧
        t.mem.dram = s.mem.dram ∧
        t.mem.seqs = s.mem.seqs ++ (List.range f.count).map fun i =>
          ⟨f.coll, p * 65536 + (cw + i), par.depth + 1, some f.parent, f.token⟩)

/-- TRUNCATE (R150): to more tokens than the pool's capacity it ends BAD_OPERAND; to no fewer than are held nothing changes
and the result is the tokens held; to fewer, at a block boundary, the blocks at or beyond the cut are dropped, the tokens held
become the new count and the result is that count. -/
def Obligations.TruncateCutsTokens : Prop :=
  ∀ (s : State) (x : Cmd) (q : Pool) (p w : Nat) (sq : Seq), runs s x 2 →
    s.seqPlace x.coll (fieldAt x.bytes 8 4) = some (q, p, w) → s.seq? x.coll (fieldAt x.bytes 8 4) = some sq →
    (q.cap < fieldAt x.bytes 12 4 → ∃ t, exec (.truncate x.coll x.src) s = .next t ∧ ended s t x 0x8002 0 0 ∧
      t.mem.seqs = s.mem.seqs) ∧
    (fieldAt x.bytes 12 4 ≤ q.cap → sq.held ≤ fieldAt x.bytes 12 4 →
      ∃ t, exec (.truncate x.coll x.src) s = .next t ∧ ended s t x 2 0 sq.held ∧ t.mem.seqs = s.mem.seqs ∧
        t.mem.cat = s.mem.cat ∧ t.mem.dram = s.mem.dram) ∧
    (fieldAt x.bytes 12 4 ≤ q.cap → fieldAt x.bytes 12 4 < sq.held → fieldAt x.bytes 12 4 * q.rec_ % 4096 = 0 →
      ∃ t y, exec (.truncate x.coll x.src) s = .next t ∧ ended s t x 2 0 (fieldAt x.bytes 12 4) ∧
        t.seq? x.coll (fieldAt x.bytes 8 4) = some y ∧ y.held = fieldAt x.bytes 12 4 ∧ t.mem.dram = s.mem.dram ∧
        rangeZero s t x.coll (q.window w + fieldAt x.bytes 12 4 * q.rec_) (q.window w + q.stride))

/-- RELEASE (R59, R148). Of a sequence: its window is free and every block of it is ZERO. Of a block range: every block of
the range is ZERO; a range that reaches past L ends BAD_OPERAND and releases nothing. No stored byte is written. -/
def Obligations.ReleaseFrees : Prop :=
  ∀ (s : State) (x : Cmd), runs s x 3 →
    (∀ q p w sq, fieldAt x.bytes 8 1 = 0 → fieldAt x.bytes 16 8 = 0 → fieldAt x.bytes 24 8 = 0 →
      s.seqPlace x.coll (fieldAt x.bytes 12 4) = some (q, p, w) → s.seq? x.coll (fieldAt x.bytes 12 4) = some sq →
      ∃ t n, exec (.releaseSequence x.coll x.src) s = .next t ∧ ended s t x 2 0 n ∧
        t.seq? x.coll (fieldAt x.bytes 12 4) = none ∧ t.mem.dram = s.mem.dram ∧
        rangeZero s t x.coll (q.window w) (q.window (w + 1))) ∧
    (fieldAt x.bytes 8 1 = 1 → fieldAt x.bytes 12 4 = 0 →
      (fieldAt x.bytes 16 8 + fieldAt x.bytes 24 8) * 4096 ≤ s.act.size x.coll →
      ∃ t n, exec (.releaseBlockRange x.coll x.src) s = .next t ∧ ended s t x 2 0 n ∧ t.mem.dram = s.mem.dram ∧
        t.mem.seqs = s.mem.seqs ∧
        rangeZero s t x.coll (4096 * fieldAt x.bytes 16 8) (4096 * (fieldAt x.bytes 16 8 + fieldAt x.bytes 24 8))) ∧
    (fieldAt x.bytes 8 1 = 1 → s.act.size x.coll < (fieldAt x.bytes 16 8 + fieldAt x.bytes 24 8) * 4096 →
      ∃ t, exec (.releaseBlockRange x.coll x.src) s = .next t ∧ ended s t x 0x8002 0 0 ∧ t.mem.cat = s.mem.cat)

/-- FENCE (R60): it waits once accepted, and ends DONE with result 0 when every earlier command of the area has reached a
final status and no durable write of the collection still waits for its Depot copy; until then it does not end. -/
def Sys2Proof.Claims.FenceWaits : Prop :=
  ∀ (s : State) (x : Cmd),
    (runs s x 4 → ∃ t, exec (.fence x.coll x.src) s = .next t ∧ t.cmd? x.coll x.src = some { x with forwarded := true } ∧
      t = { s with mem := { s.mem with cmds := t.mem.cmds } }) ∧
    (s.underWay x.coll x.src 4 = some x →
      (∀ y ∈ s.mem.cmds, y.coll = x.coll → isLine y.src = true → y.order < x.order → y.status ≠ 1) →
      (s.act.durable x.coll = false ∨ ∀ y ∈ s.mem.writes, y.coll = x.coll → y.depot = false) →
      ∃ t, exec (.fenceComplete x.coll x.src) s = .next t ∧ ended s t x 2 0 0 ∧ t.mem = { s.mem with cmds := t.mem.cmds }) ∧
    (∀ y ∈ s.mem.cmds, y.coll = x.coll → isLine y.src = true → y.order < x.order → y.status = 1 →
      s.underWay x.coll x.src 4 = some x → exec (.fenceComplete x.coll x.src) s = .next s) ∧
    (∀ y ∈ s.mem.writes, y.coll = x.coll → y.depot = true → s.act.durable x.coll = true →
      s.underWay x.coll x.src 4 = some x → exec (.fenceComplete x.coll x.src) s = .next s)

/-- A command its place does not know, and FENCE. -/
def Obligations.CommandsWaitAndEnd : Prop :=
  UnknownOpcodeEnds ∧ FenceWaits

/-- PIN and UNPIN (R136, R137). A PIN over lots that no edition pin holds in the other tier is DONE with the number of lots, or waits
for its moves, or, to the Gallery, ends QUOTA with the Wing whose share its pins would pass; a PIN to the Depot puts its command pin on
every lot that no edition pin reaches. A waiting PIN is DONE once every affected Wing lot resides in its tier. UNPIN removes the
command pins of its tier and counts the lots. None of them moves a stored byte or an entry. -/
def Sys2Proof.Claims.PinsHold : Prop :=
  ∀ (s : State) (x : Cmd) (lots : List (Nat × Nat)) (gal : Bool),
    lots = ((List.range (fieldAt x.bytes 16 8)).flatMap fun i => s.lotsOf x.coll (fieldAt x.bytes 8 8 + i)).eraseDups →
    fieldAt x.bytes 16 8 ≠ 0 → fieldAt x.bytes 8 8 + fieldAt x.bytes 16 8 ≤ s.act.size x.coll / 65536 →
    fieldAt x.bytes 24 1 = bit1 (!gal) →
    (runs s x 5 → lots.any (fun k => s.act.pinAt x.coll (s.collLots x.coll k.1 k.2) == some (!gal)) = false →
      ∃ t, exec (.pin x.coll x.src) s = .next t ∧ t.mem.dram = s.mem.dram ∧ t.mem.cat = s.mem.cat ∧
        (ended s t x 2 0 (fieldAt x.bytes 16 8) ∨ (∃ u, t.cmd? x.coll x.src = some { x with forwarded := true, undo := u }) ∨
          (gal = true ∧ t.mem.lots = s.mem.lots ∧ ∃ w ∈ s.wingsOf x.coll, ended s t x 0x8005 w 0)) ∧
        (gal = false → ∀ k ∈ lots, s.act.pinAt x.coll (s.collLots x.coll k.1 k.2) = none →
          (t.lot x.coll k.1 k.2).pin = some false)) ∧
    (s.underWay x.coll x.src 5 = some x → lots.all (fun k => s.resides x.coll k.1 k.2 gal) = true →
      ∃ t, exec (.pinMoveDone x.coll x.src) s = .next t ∧ ended s t x 2 0 (fieldAt x.bytes 16 8) ∧ t.mem.lots = s.mem.lots ∧
        t.mem.dram = s.mem.dram ∧ t.mem.cat = s.mem.cat) ∧
    (runs s x 6 →
      ∃ t, exec (.unpin x.coll x.src) s = .next t ∧
        ended s t x 2 0 ((List.range (fieldAt x.bytes 16 8)).filter fun i =>
          (s.lotsOf x.coll (fieldAt x.bytes 8 8 + i)).any fun k => (s.lot x.coll k.1 k.2).pin == some gal).length ∧
        (∀ k ∈ lots, (t.lot x.coll k.1 k.2).pin ≠ some gal) ∧ t.mem.dram = s.mem.dram ∧ t.mem.cat = s.mem.cat)

/-! Ingest and heat periods (R115-R118, R127, R128). -/

/-- The record at the front of a carrier's stream that is not its transfer's last (R115-R118). One that passes every check counts as
accepted, and with the zero flag makes its block ZERO with no line left; one that fails a check counts as refused, and no entry, line
or stored byte changes. Either way the stream passes on by the record's length. -/
def Obligations.IngestRecords : Prop :=
  ∀ (s : State) (k : Carrier) (x : IngestStream) (n : Nat), s.accepting = true → s.stream? k = some x →
    x.front = .record n → 0 < n → x.whole = false ∨ n < x.bytes.length →
    (s.checkRecord k x.coll (slice x.bytes 0 n) = (s, none) →
      ∃ t y, exec (.ingestRecord k) s = .next t ∧ t.stream? k = some y ∧ y.accepted = x.accepted + 1 ∧ y.refused = x.refused ∧
        y.bytes = x.bytes.drop n) ∧
    (∀ blk w, fieldAt (slice x.bytes 0 n) 3 1 = 1 → s.checkRecord k x.coll (slice x.bytes 0 n) = (s, none) →
      fieldAt (slice x.bytes 0 n) 8 8 = blk → (s.place x.coll (4096 * blk)).wing = w →
      ∃ t, exec (.ingestRecord k) s = .next t ∧ (t.entry x.coll w blk).tier = .none ∧ t.blockLines x.coll w blk = [] ∧
        t.mem.dram = s.mem.dram) ∧
    (∀ why, s.checkRecord k x.coll (slice x.bytes 0 n) = (s, some why) →
      ∃ t y, exec (.ingestRecord k) s = .next t ∧ t.mem.cat = s.mem.cat ∧ t.mem.dram = s.mem.dram ∧
        t.mem.cache = s.mem.cache ∧ t.stream? k = some y ∧ y.refused = x.refused + 1 ∧ y.accepted = x.accepted ∧
        y.bytes = x.bytes.drop n)

/-- HEAT_PERIOD_END, a period OD 0x2110:01 or more after the last one: the heat of every lot of every Wing in service is halved, the
lots' tiers and pins stay, and no stored byte, entry or line changes (R127); before that time the command has no effect. -/
def Sys2Proof.Claims.HeatHalves : Prop :=
  ∀ s : State, s.accepting = true →
    (s.mem.periodAt + s.heatPeriod * 1000000 ≤ s.tsc →
      ∃ t, exec .heatPeriodEnd s = .next t ∧ t.mem.dram = s.mem.dram ∧ t.mem.cat = s.mem.cat ∧ t.mem.cache = s.mem.cache ∧
        t.mem.periodAt = s.tsc ∧ t.mem.lots = s.mem.lots.map fun l =>
          if l.wing ∈ s.pkg.asm.wings ∧ s.wingUp l.wing = true then { l with heat := l.heat / 2 } else l) ∧
    (s.tsc < s.mem.periodAt + s.heatPeriod * 1000000 → exec .heatPeriodEnd s = .next s)

/-- The Curator's pins and heat periods. -/
def Obligations.PinsAndHeat : Prop :=
  PinsHold ∧ HeatHalves

/-! The Workbench (R164-R188). -/

/-- A launch at its command Wing (R168): with the Wing in the set and in service and the parameter block in range it is
forwarded when its layout exists and ends NOT_FOUND when it does not; otherwise it ends BAD_OPERAND. -/
def Sys2Proof.Claims.LaunchChecks : Prop :=
  ∀ (s : State) (x : Cmd), runs s x 7 →
    ∃ t, exec (.jobLaunch x.coll x.src) s = .next t ∧ t.mem = { s.mem with cmds := t.mem.cmds } ∧ t.wb = s.wb ∧
      if fieldAt x.bytes 12 1 ∈ s.wingsOf x.coll ∧ s.wingUp (fieldAt x.bytes 12 1) = true ∧
          fieldAt x.bytes 16 8 % 64 = 0 ∧ fieldAt x.bytes 16 8 + 128 ≤ s.act.size x.coll then
        (if s.layoutImage (fieldAt x.bytes 8 4) = [] then ended s t x 0x8007 0 0
          else t.cmd? x.coll x.src = some { x with forwarded := true })
      else ended s t x 0x8002 0 0

/-- Admission at the chosen Wing, in service (R172-R174). A launch whose first two parameter lines carry poison ends REFUSED with
detail 0x0A and starts nothing. One whose parameter block lies in the collection, is read without poison and passes the checks of its
form, of its operands and of the Wing's resources ends DONE with its job's number, and the job holds its rectangle of tiles. -/
def Sys2Proof.Claims.JobAdmission : Prop :=
  ∀ (s u : State) (x : Cmd) (w : Nat) (h b : Bytes), s.underWay x.coll x.src 7 = some x → fieldAt x.bytes 12 1 = w →
    s.layoutImage (fieldAt x.bytes 8 4) = h → h ≠ [] → s.wingUp w = true →
    (s.linesNow x.coll (fieldAt x.bytes 16 8) 2 = (u, b, true) →
      ∃ t, exec (.jobAdmission x.coll x.src) s = .next t ∧ t.wb = u.wb ∧
        t.cmd? x.coll x.src = some { x with status := 0x8006, detail := 0x0A, result := 0 }) ∧
    (∀ v rest all ts, s.linesNow x.coll (fieldAt x.bytes 16 8) 2 = (u, b, false) →
      fieldAt x.bytes 16 8 + paramExtent b ≤ s.act.size x.coll →
      u.linesNow x.coll (fieldAt x.bytes 16 8 + 128) (ceilDiv (paramExtent b) 64 - 2) = (v, rest, false) → all = b ++ rest →
      paramsOk h all = true →
      v.operandsOk h x.coll (paramOperands all) (slice all (128 + 64 * ceilDiv (fieldAt all 3 1) 2) (fieldAt all 4 2)) = true →
      v.placeJob h x.coll w = .ok ts →
      ∃ t j, exec (.jobAdmission x.coll x.src) s = .next t ∧ j ∈ t.wb.jobs ∧ j.coll = x.coll ∧ j.wing = w ∧ j.tiles = ts ∧
        j.num / 16 % 4 = w % 4 ∧ (∀ y ∈ v.wb.jobs, ∃ z ∈ t.wb.jobs, z.num = y.num) ∧
        t.cmd? x.coll x.src = some { x with status := 2, detail := 0, result := j.num % 2 ^ 32 })

/-- A job's tiles have been cleared (R176): the job starts at the present TSC, and its tiles are its collection's. -/
def Sys2Proof.Claims.JobStarts : Prop :=
  ∀ (s : State) (j : Job), s.job? j.num = some j → j.clearing = true →
    ∃ t, exec (.tileClearDone j.num) s = .next t ∧ t = { s.wakeChannels with wb := t.wb } ∧
      t.job? j.num = some { j with clearing := false, started := s.tsc } ∧
      ∀ x ∈ t.wb.tiles, x.wing = j.wing → x.idx ∈ j.tiles → x.last = some j.coll

/-- A Workbench job from its launch to its start. -/
def Obligations.JobsStart : Prop :=
  LaunchChecks ∧ JobAdmission ∧ JobStarts

/-- A running job's streams (R164, R180). A read of a line it may read and has not read, of a layout other than DELTA-MATERIALIZE,
whose block's Wing is in service, not borrowed, cached or held in the merge buffer: of a ZERO block the job has the line of zeros at
once; of a stored block that is not damaged and whose channel serves, the read joins that channel's requests. A write of an output line
whose inputs the job has read, under sound check bits, marks that line written; the lines it has read stay. -/
def Sys2Proof.Claims.JobStreams : Prop :=
  ∀ (s : State) (j : Job) (o off c w : Nat) (e : CatEntry), s.started? j.num = some j →
    (s.readable j o off = some c → (∀ r ∈ s.mem.reads, r.waiter ≠ .job j.num o off) → j.line? o off = none → off % 64 = 0 →
      libOf j.header ≠ some .delta → (s.place c off).wing = w → s.borrows j c w = false → s.noData c off = false →
      s.wingUp w = true → s.cached? c w (64 * (s.place c off).blk + (s.place c off).line) = none →
      s.merge? c w (64 * (s.place c off).blk + (s.place c off).line) = none → s.entry c w (s.place c off).blk = e →
      (e.tier = .none →
        ∃ t, exec (.jobStreamRead j.num o off) s = .next t ∧ t = { s with wb := t.wb } ∧
          t.job? j.num = some { j with lines := j.lines ++ [⟨o, off, zeros 64, sramStore false (zeros 64), false⟩] }) ∧
      (e.stored = true → e.crcFailed = false → e.hdrDamage = false → e.segDamage = 0 → s.serves w (s.entrySel e) = true →
        ∃ t r, exec (.jobStreamRead j.num o off) s = .next t ∧ t.mem.cat = s.mem.cat ∧ r ∈ t.mem.reads ∧ r.id = s.fresh ∧
          r.coll = c ∧ r.wing = w ∧ r.entry = e ∧ r.cls = 3 ∧ r.waiter = .job j.num o off)) ∧
    (∀ l, (o, off) ∈ s.outLines j → (o, off) ∉ j.written → s.outLine j o off = some l → l.mask ≠ 0 →
      (∀ x ∈ j.lines, (sramReadLine x.data x.check).1 ≠ .uncorrectable) →
      (libOf j.header = some .gather → ∀ k ∈ (s.outLines j).takeWhile (· != (o, off)), k ∈ j.written) →
      ∃ t y, exec (.jobStreamWrite j.num o off) s = .next t ∧ t.job? j.num = some y ∧ y.written = j.written ++ [(o, off)] ∧
        y.lines = j.lines)

/-- The ends of a running job (R177, R178, R187). While no job is stopped, a job completes when every output is written and complete,
with status POISON_CONSUMED where a line it read was poison; a KV-GATHER fault ends its job once the tokens before it are written and
complete; a time limit that has elapsed ends the job when no write of it still waits, and otherwise stops it until then. A job that
has ended runs no longer, its tiles are free, and its final status stands. With no time limit JOB_TIMEOUT has no effect. -/
def Sys2Proof.Claims.JobEnds : Prop :=
  ∀ (s : State) (j : Job), s.started? j.num = some j →
    ((∀ y ∈ s.wb.jobs, y.ending = none) → s.jobFinished j = true → s.jobBusy j.num = false →
      ∃ t, exec (.jobCompletion j.num) s = .next t ∧ t.job? j.num = none ∧
        (∃ y ∈ t.wb.ended, y.num = j.num ∧ y.status = if j.lines.any (·.read.2) then 3 else 2) ∧
        ∀ x ∈ t.wb.tiles, x.wing = j.wing → x.job ≠ some j.num) ∧
    (libOf j.header = some .gather → (s.gatherFault j).isSome = true → (s.outLines j).all j.written.contains = true →
      s.jobBusy j.num = false →
      ∃ t, exec (.jobFault j.num) s = .next t ∧ t.job? j.num = none ∧
        (∃ y ∈ t.wb.ended, y.num = j.num ∧ y.status = 0x800D) ∧ ∀ x ∈ t.wb.tiles, x.wing = j.wing → x.job ≠ some j.num) ∧
    (j.timeLimit ≠ 0 → j.started + j.timeLimit * 1000000 ≤ s.tsc → s.jobBusy j.num = false →
      ∃ t, exec (.jobTimeout j.num) s = .next t ∧ t.job? j.num = none ∧
        (∃ y ∈ t.wb.ended, y.num = j.num ∧ y.status = 0x800C) ∧ ∀ x ∈ t.wb.tiles, x.wing = j.wing → x.job ≠ some j.num) ∧
    (j.timeLimit ≠ 0 → j.started + j.timeLimit * 1000000 ≤ s.tsc → s.jobBusy j.num = true →
      ∃ t, exec (.jobTimeout j.num) s = .next t ∧ t = { s with wb := t.wb } ∧
        t.job? j.num = some { j with ending := some (0x800C, 0) }) ∧
    (j.timeLimit = 0 → exec (.jobTimeout j.num) s = .next s)

/-- A Workbench job's streams and its ends. -/
def Obligations.JobsRunAndEnd : Prop :=
  JobStreams ∧ JobEnds

/-! Channels and storage protection (R224, R238, R239, R243, R254-R268). -/

namespace Sys2Proof.Claims

/-- The channel of a Wing froze with a trigger (R263, R264): state 3, its freeze counted, in self-refresh, its flip disarmed, its
write queue empty, and no read waits on it any longer; no stored byte changed. -/
def froze (s t : State) (w sel trigger : Nat) (c : Chan) : Prop :=
  ∃ z, t.chan? w sel = some z ∧ z.st = 3 ∧ z.trigger = trigger ∧ z.freezes = (c.freezes + 1) % 65536 ∧ z.selfRefresh = true ∧
    bitSet z.flip.ctl 0 = false ∧ z.wq = [] ∧ t.mem.dram = s.mem.dram ∧ ∀ r ∈ t.mem.reads, ¬(r.wing = w ∧ r.sel = sel)

end Sys2Proof.Claims

/-- A channel's window of corrected lines ends once in each second of the TSC (R224): the count starts anew, and the channel stands over
its watermark exactly when the count passed it. Where that is as before, nothing else changes; within a second whose window has ended
the command has no effect. -/
def Sys2Proof.Claims.CorrectedWindowEnds : Prop :=
  ∀ (s : State) (w sel : Nat) (c : Chan) (high : Bool), s.chan? w sel = some c →
    high = decide (s.act.nat 0x2802 1 (chanObj w sel) 1000 < c.winCorrected) →
    (c.winEnd < s.tsc / 1000000000 →
      ∃ t, exec (.correctedRateWindowEnd w sel) s = .next t ∧
        t.chan? w sel = some { c with winCorrected := 0, overRate := high, winEnd := s.tsc / 1000000000 } ∧
        onlyNoted { s with chans := t.chans } t ∧ (high = c.overRate → t = { s with chans := t.chans })) ∧
    (s.tsc / 1000000000 ≤ c.winEnd → exec (.correctedRateWindowEnd w sel) s = .next s)

/-- The split-write commands on a channel line of an open window (R238, R239): READ_RAW loads the stored bytes and changes no
byte of memory; WRITE_DATA stores the window's data under fresh check bits, WRITE_CHECK the window's check bytes beside the
stored data, WRITE_BOTH both as given; a line is then read back as stored, and with nothing else at the channel no other line changes.
COMPUTE touches no memory. -/
def Sys2Proof.Claims.SplitWrite : Prop :=
  ∀ (s : State) (w sel a : Nat) (x : Split), s.splitOpen w = true → s.split.find? (·.wing == w) = some x →
    s.splitDest x = .chan sel a → a % 64 = 0 → a < 2 ^ 40 → x.data.length = 64 →
    (∃ t y, exec (.readRaw w) s = .next t ∧ t = { s with split := t.split } ∧ t.split.find? (·.wing == w) = some y ∧
      y.data = (s.rawLine w sel a).1 ∧ y.result = (lineDecode (isDepot sel) (s.rawLine w sel a).1 (s.rawLine w sel a).2).1.code) ∧
    (∃ t, exec (.writeData w) s = .next t ∧ t.rawLine w sel a = (x.data, lineCheck (isDepot sel) x.data) ∧ t.mem.cat = s.mem.cat ∧
      (idle s w sel → memKept s t w sel a 1)) ∧
    ((s.rawLine w sel a).1.length = 64 → ∃ t, exec (.writeCheck w) s = .next t ∧
      t.rawLine w sel a = ((s.rawLine w sel a).1, slice x.check 0 (checkLen (isDepot sel))) ∧ t.mem.cat = s.mem.cat ∧
      (idle s w sel → memKept s t w sel a 1)) ∧
    (∃ t, exec (.writeBoth w) s = .next t ∧ t.rawLine w sel a = (x.data, slice x.check 0 (checkLen (isDepot sel))) ∧
      t.mem.cat = s.mem.cat ∧ (idle s w sel → memKept s t w sel a 1)) ∧
    (∃ t y, exec (.compute w) s = .next t ∧ t = { s with split := t.split } ∧ t.split.find? (·.wing == w) = some y ∧
      y.data = x.data ∧ y.check = padTo 16 (lineCheck (isDepot sel) x.data) ∧ y.result = 0)

/-- The same on a line of the Wing's SRAM (R239), each a change of the window alone: READ_RAW loads the line, WRITE_DATA and WRITE_BOTH
store the window's data, WRITE_CHECK leaves the line's data, and COMPUTE computes the check fields of the window's data. -/
def Sys2Proof.Claims.SplitWriteSram : Prop :=
  ∀ (s : State) (w a : Nat) (x : Split), s.splitOpen w = true → s.split.find? (·.wing == w) = some x → s.splitDest x = .sram a →
    (∃ t y, exec (.readRaw w) s = .next t ∧ t = { s with split := t.split } ∧ t.split.find? (·.wing == w) = some y ∧
      y.data = (x.line a).1 ∧ y.scheck = (x.line a).2) ∧
    (∃ t y, exec (.writeData w) s = .next t ∧ t = { s with split := t.split } ∧ t.split.find? (·.wing == w) = some y ∧
      (y.line a).1 = x.data ∧ y.result = 0) ∧
    (∃ t y, exec (.writeCheck w) s = .next t ∧ t = { s with split := t.split } ∧ t.split.find? (·.wing == w) = some y ∧
      (y.line a).1 = (x.line a).1 ∧ y.result = 0) ∧
    (∃ t y, exec (.writeBoth w) s = .next t ∧ t = { s with split := t.split } ∧ t.split.find? (·.wing == w) = some y ∧
      (y.line a).1 = x.data ∧ y.result = 0) ∧
    (∃ t y, exec (.compute w) s = .next t ∧ t = { s with split := t.split } ∧ t.split.find? (·.wing == w) = some y ∧
      y.data = x.data ∧ y.scheck = (sramStore false x.data).map byteOf ∧ y.result = 0)

/-- A destination that a split-write command does not reach gives its result and no access (R239); with no diagnostic edition ACTIVE,
or without the Host port's key, a split-write command changes nothing. -/
def Sys2Proof.Claims.SplitWriteShut : Prop :=
  ∀ (s : State) (w : Nat),
    (s.splitOpen w = false →
      exec (.readRaw w) s = .next s ∧ exec (.writeData w) s = .next s ∧ exec (.writeCheck w) s = .next s ∧
      exec (.writeBoth w) s = .next s ∧ exec (.compute w) s = .next s) ∧
    (∀ x r, s.splitOpen w = true → s.split.find? (·.wing == w) = some x → s.splitDest x = .refused r →
      exec (.readRaw w) s = .next (s.splitResult w r) ∧ exec (.writeData w) s = .next (s.splitResult w r) ∧
      exec (.writeCheck w) s = .next (s.splitResult w r) ∧ exec (.writeBoth w) s = .next (s.splitResult w r) ∧
      (r = 5 → exec (.compute w) s = .next (s.splitResult w 5)))

/-- The split-write window, open and shut. -/
def Obligations.SplitWriteWindow : Prop :=
  SplitWrite ∧ SplitWriteSram ∧ SplitWriteShut

/-- Refreshes (R254, R255, R257) of a channel that refreshes. A Depot refresh of a rank for which reads of class 0 or 1 wait is
postponed while fewer than 4 are, and otherwise issues; one for which none wait issues, takes a pending band change with it and leaves
none postponed at the rank. A Gallery refresh is never postponed and takes a pending band change with it. -/
def Sys2Proof.Claims.Refreshes : Prop :=
  ∀ (s : State) (w sel dimm cs rank : Nat) (c : Chan), s.chan? w sel = some c → c.refreshes = true → rank = 2 * dimm + cs →
    (isDepot sel = true → dimm < s.pkg.dimms → cs < 2 → s.changing w = false → s.urgentReads w sel rank = true → c.owed rank < 4 →
      ∃ t z, exec (.depotRefreshDue w sel dimm cs) s = .next t ∧ t.chan? w sel = some z ∧ z.owed rank = c.owed rank + 1 ∧
        z.band = c.band ∧ t = { s with chans := t.chans, ev := t.ev }) ∧
    (isDepot sel = true → dimm < s.pkg.dimms → cs < 2 → s.changing w = false → s.urgentReads w sel rank = true → 4 ≤ c.owed rank →
      ∃ t z, exec (.depotRefreshDue w sel dimm cs) s = .next t ∧ t.chan? w sel = some z ∧ z.owed rank ≤ c.owed rank ∧
        t = { s with chans := t.chans }) ∧
    (isDepot sel = true → dimm < s.pkg.dimms → cs < 2 → s.changing w = false → s.urgentReads w sel rank = false →
      ∃ t z, exec (.depotRefreshDue w sel dimm cs) s = .next t ∧ t.chan? w sel = some z ∧ z.pendingBand = none ∧
        z.band = c.pendingBand.getD c.band ∧ z.owed rank = 0 ∧ t = { s with chans := t.chans }) ∧
    (∀ bank, isDepot sel = false → bank < 64 →
      ∃ t z, exec (.galleryRefreshDue w sel bank) s = .next t ∧ t.chan? w sel = some z ∧ z.pendingBand = none ∧
        z.band = c.pendingBand.getD c.band ∧ t = { s with chans := t.chans })

/-- A temperature poll (R257) moves a channel's band up at a boundary it reaches, by way of the next refresh; a reading that
leaves the band as it is leaves no change pending. Channels with no reading are as they were. -/
def Sys2Proof.Claims.ThermalPoll : Prop :=
  ∀ (s : State) (w sel : Nat) (temp : Int) (c : Chan), s.pw.stewardUp = true → s.chan? w sel = some c → isDepot sel = true →
    ∃ t, exec (.thermalSensorPoll [(w, sel, temp)]) s = .next t ∧ t = { s with chans := t.chans } ∧
      t.chan? w sel = some { c with temp := temp, pendingBand := if newBand c.band temp = c.band then none else some (newBand c.band temp) } ∧
      (85 ≤ temp → c.band ≤ 3 → newBand c.band temp = 3) ∧
      ∀ v l, (v ≠ w ∨ l ≠ sel) → t.chan? v l = s.chan? v l

/-- A Depot rank in service with no request queued, idle for the timer OD 0x2810:02 and its Wing not changing frequency, enters
power-down (R262). -/
def Sys2Proof.Claims.RankPowersDown : Prop :=
  ∀ (s : State) (w sel rank : Nat) (c : Chan), s.chan? w sel = some c → isDepot sel = true → c.st = 2 →
    (∀ r ∈ s.mem.reads, r.wing = w → r.sel = sel → s.rankOf (s.readAddr r) ≠ rank) → (∀ q ∈ c.wq, s.rankOf q.addr ≠ rank) →
    rank < 2 * s.pkg.dimms → rank ∉ c.poweredDown → s.changing w = false →
    ((c.idleFrom.find? (·.1 == rank)).map (·.2)).getD 0 + s.act.nat 0x2810 2 0 1000 ≤ s.tsc →
    ∃ t, exec (.rankPowerDown w sel rank) s = .next t ∧ t = { s with chans := t.chans } ∧
      t.chan? w sel = some { c.noteRank (s.dieTsc (wingDie w)) rank 3 with poweredDown := c.poweredDown ++ [rank] }

/-- The upkeep of a channel: corrected-line windows, refreshes, temperature bands, power-down. -/
def Obligations.ChannelUpkeep : Prop :=
  CorrectedWindowEnds ∧ Refreshes ∧ ThermalPoll ∧ RankPowersDown

/-- Alerts (R263, R264) on a channel that refreshes, of a Wing in service, whose reserve its partner holds too: a CA parity or write CRC
alert that does not recur on three retries counts its retries and changes nothing else; one that does freezes its channel, with
trigger 1 or 2; a Gallery command parity error freezes at once, with trigger 3. -/
def Sys2Proof.Claims.AlertsFreeze : Prop :=
  ∀ (s : State) (w sel n : Nat) (c : Chan), s.chan? w sel = some c → s.wingUp w = true → c.refreshes = true →
    s.reserveHeld w sel = true →
    (isDepot sel = true → n < 3 →
      exec (.caParityAlert w sel n) s = .next (s.bump 0x2804 1 (chanObj w sel) (n + 1)) ∧
      exec (.writeCrcAlert w sel n) s = .next (s.bump 0x2804 2 (chanObj w sel) (n + 1))) ∧
    (isDepot sel = true → 3 ≤ n →
      (∃ t, exec (.caParityAlert w sel n) s = .next t ∧ froze s t w sel 1 c) ∧
      (∃ t, exec (.writeCrcAlert w sel n) s = .next t ∧ froze s t w sel 2 c)) ∧
    (isDepot sel = false → ∃ t, exec (.galleryParityError w sel) s = .next t ∧ froze s t w sel 3 c)

/-- A frozen channel does not freeze again, and a retired or absent one does not freeze; none of them flips or ends an evacuation
(R263, R267, R268). -/
def Sys2Proof.Claims.FrozenStaysAsItIs : Prop :=
  ∀ (s : State) (w sel : Nat) (c : Chan), s.chan? w sel = some c → c.st = 0 ∨ c.st = 3 ∨ c.st = 6 →
    exec (.galleryParityError w sel) s = .next s ∧ exec (.channelFlip w sel) s = .next s ∧
    exec (.evacuationComplete w sel) s = .next s

/-- Freezing, and what does not freeze. -/
def Obligations.ChannelsFreeze : Prop :=
  AlertsFreeze ∧ FrozenStaysAsItIs

/-- The flip of a re-entering channel (R267) increments its epoch and puts it in service; the end of an evacuation (R268) of a
channel that no block names retires it. Of a Wing in service, with no line held, no fork held up there, and the Wing's Depot not
changing frequency. -/
def Sys2Proof.Claims.ReentryAndRetirement : Prop :=
  ∀ (s : State) (w sel : Nat) (c : Chan), s.chan? w sel = some c → s.wingUp w = true → s.accepting = true →
    s.changing w = false → (∀ l ∈ s.mem.cache, l.held = false) → (∀ f ∈ s.mem.forks, w ∉ f.waits) →
    (c.st = 4 → ∃ t z, exec (.channelFlip w sel) s = .next t ∧ t.chan? w sel = some z ∧ z.st = 2 ∧
      z.epoch = (c.epoch + 1) % 65536 ∧ z.trigger = 0 ∧ z.record = none ∧ z.selfRefresh = false) ∧
    (c.st = 5 → s.blocksOnChan w sel = [] →
      ∃ t z, exec (.evacuationComplete w sel) s = .next t ∧ t.chan? w sel = some z ∧ z.st = 6 ∧ z.trigger = 0 ∧ z.record = none ∧
        t.mem.dram = s.mem.dram)

/-- The Depot frequency change under way ends (R261): each Depot channel of its Wing but a frozen, retired or absent one runs at the new
set, the change is over, every channel stays in its state, and no entry changes; with nothing queued no stored byte does. -/
def Sys2Proof.Claims.FrequencyChangeEnds : Prop :=
  ∀ (s : State) (w f : Nat), s.pw.freqChange.head? = some (w, f) →
    ∃ t, exec (.depotFrequencyChangeDone w) s = .next t ∧ (∀ x ∈ t.pw.freqChange, x.1 ≠ w) ∧
      (allDrained s → t.mem.dram = s.mem.dram) ∧ t.mem.cat = s.mem.cat ∧
      (∀ c ∈ t.chans, c.wing = w → isDepot c.sel = true → c.st ≠ 0 → c.st ≠ 3 → c.st ≠ 6 → c.fset = f) ∧
      t.chans.map (fun c => (c.wing, c.sel, c.st)) = s.chans.map (fun c => (c.wing, c.sel, c.st))

/-- Re-entry, retirement and a frequency change's end. -/
def Obligations.ChannelsReturn : Prop :=
  ReentryAndRetirement ∧ FrequencyChangeEnds

/-! The Corridor and time (R274-R291, R351-R353). -/

namespace Sys2Proof.Claims

/-- The Corridor port of a die that is up. -/
abbrev portUp (s : State) (die i : Nat) (p : CPort) : Prop := s.cport? die i = some p ∧ p.st = 2

/-- The distance of a DATA flit's seq ahead of the one a port expects, modulo 4096 (R277). -/
abbrev ahead (p : CPort) (f : Bytes) : Nat := (flitSeq f + 4096 - p.expect) % 4096

/-- Every flit a port holds for replay stands under sound check bits. -/
abbrev replaySound (p : CPort) : Prop := ∀ b ∈ p.replay, b = Sram.store false b.data

end Sys2Proof.Claims

/-- A sound DATA flit at a port that is up (R21, R277, R278). The expected one, before the 16th since the last acknowledgement, is
delivered to its stream and the next is expected; on a stream that ends at the die and is not stream 1 nothing else changes; on one
that the die forwards, the next port, up with nothing waiting and a credit for the stream, sends its payload on under its own sequence
number. A duplicate is delivered nowhere; one ahead of a gap draws a nak, and within the withholding time nothing. -/
def Sys2Proof.Claims.DataFlits : Prop :=
  ∀ (s : State) (die i : Nat) (p : CPort) (f : Bytes), portUp s die i p → flitSound f = true → flitType f = 0 →
    (ahead p f = 0 → p.sinceAck < 15 → (∀ n, s.forwardTo die i (flitStream f) = some n → n.1 ≠ i) →
      ∃ t q, exec (.dataFlit die i f) s = .next t ∧ t.mem = s.mem ∧
        t.cport? die i = some q ∧ q.expect = (p.expect + 1) % 4096 ∧
        q.delivered = p.delivered ++ [(flitStream f, Sram.store false (slice f 4 120))] ∧
        q.sinceAck = p.sinceAck + 1 ∧ q.nakUntil = none ∧
        (s.forwardTo die i (flitStream f) = none → flitStream f ≠ 1 → t = { s with cor := t.cor }) ∧
        ∀ j k r, s.forwardTo die i (flitStream f) = some (j, k) → portUp s die j r → r.sendq = [] → r.unacked < 1024 →
          r.credits.getD k 0 ≠ 0 → .flit die j (mkFlit k 0 r.nextSeq (flitFirst f) (slice f 4 120)) ∈ t.out) ∧
    (3072 ≤ ahead p f → ∃ t q, exec (.dataFlit die i f) s = .next t ∧ t.cport? die i = some q ∧ q.expect = p.expect ∧
      q.replay = p.replay ∧ (∀ x ∈ q.delivered, x ∈ p.delivered) ∧ t.mem = s.mem) ∧
    (∀ n, 0 < ahead p f → ahead p f < 1024 → p.nakUntil = some n → s.tsc < n →
      ∃ t q, exec (.dataFlit die i f) s = .next t ∧ t.out = s.out ∧ t.cport? die i = some q ∧ q.expect = p.expect ∧
        q.delivered = p.delivered) ∧
    (0 < ahead p f → ahead p f < 1024 → p.nakUntil = none →
      ∃ t q, exec (.dataFlit die i f) s = .next t ∧ t.out.length = s.out.length + 1 ∧ t.cport? die i = some q ∧
        q.expect = p.expect ∧ q.nakUntil = some (s.tsc + 1500))

/-- A flit whose crc fails, or of another length, is discarded whole and counted, and changes nothing else (R274, R292). -/
def Sys2Proof.Claims.BadFlitDiscarded : Prop :=
  ∀ (s : State) (die i : Nat) (p : CPort) (f : Bytes), portUp s die i p → f.length ≠ 128 ∨ fieldAt f 124 4 ≠ crc32c (slice f 0 124) →
    exec (.flitCrcFailure die i f) s = .next (s.bump 0x2201 1 (cportObj die i) 1)

/-- A LINK flit that acknowledges `a`, in the window of unacknowledged flits, and carries no nak, at a port where nothing waits to be
sent (R275, R278): the flits up to `a` leave the replay buffer, and every stream has the credits it returns. -/
def Sys2Proof.Claims.LinkFlitAcknowledges : Prop :=
  ∀ (s : State) (die i : Nat) (p : CPort) (f : Bytes), portUp s die i p → flitSound f = true → flitType f = 1 → p.sendq = [] →
    fieldAt f 4 1 % 4 = 1 → (bits (fieldAt f 5 2) 0 12 + 4096 - p.oldest) % 4096 < p.replay.length →
    ∃ t q, exec (.linkFlit die i f) s = .next t ∧ t = { s with cor := t.cor, out := t.out } ∧ t.cport? die i = some q ∧
      q.oldest = (bits (fieldAt f 5 2) 0 12 + 1) % 4096 ∧
      q.replay = p.replay.drop ((bits (fieldAt f 5 2) 0 12 + 4096 - p.oldest) % 4096 + 1) ∧
      (∀ k, k < p.credits.length → q.credits.getD k 0 = p.credits.getD k 0 + fieldAt f (12 + k) 1)

/-- Flits of a Corridor link. -/
def Obligations.CorridorFlits : Prop :=
  DataFlits ∧ BadFlitDiscarded ∧ LinkFlitAcknowledges

/-- The timers of a link (R277, R278, R280): the acknowledgement timer sends one LINK flit; the nak withholding ends; the
replay timer resends every unacknowledged flit, oldest first, and drops none. -/
def Sys2Proof.Claims.LinkTimers : Prop :=
  ∀ (s : State) (die i n : Nat) (p : CPort), portUp s die i p →
    (p.ackFrom = some n → n + 200 ≤ s.tsc → ∃ t q g, exec (.ackTimer die i) s = .next t ∧ t = { s with out := t.out, cor := t.cor } ∧
      t.out = s.out ++ [.flit die i g] ∧ t.cport? die i = some q ∧ q.ackFrom = none ∧ q.sinceAck = 0 ∧ q.expect = p.expect) ∧
    (p.nakUntil = some n → n ≤ s.tsc → ∃ t, exec (.nakHoldoffExpiry die i) s = .next t ∧ t = { s with cor := t.cor } ∧
      t.cport? die i = some { p with nakUntil := none }) ∧
    (p.replay ≠ [] → replaySound p → p.timerFrom + 1500 ≤ s.tsc → p.stalled < 7 →
      ∃ t, exec (.replayTimer die i) s = .next t ∧ t.out = s.out ++ p.replay.map (fun g => Msg.flit die i g.data) ∧
        t.cport? die i = some { p with timerFrom := s.tsc, stalled := p.stalled + 1 } ∧ t.mem = s.mem)

/-- Retraining (R280, R281): loss of receiver lock retrains a port that is up and is timed on one that retrains; a retrain that fails
fewer than three times in a row tries again; the third failure, and lock lost for 50 us, put the link down; a success puts the port
back up, and with nothing waiting to be sent it loses no flit it holds for replay. -/
def Sys2Proof.Claims.LinkRetrains : Prop :=
  ∀ (s : State) (die i : Nat) (p : CPort), s.cport? die i = some p →
    (p.st = 2 →
      ∃ t q, exec (.receiverLockLoss die i) s = .next t ∧ t.cport? die i = some q ∧ q.st = 3 ∧ q.lostAt = some (p.lostAt.getD s.tsc) ∧
      q.replay = p.replay ∧ q.expect = p.expect ∧ q.sendq = p.sendq ∧ t.mem = s.mem) ∧
    (p.st = 3 → exec (.receiverLockLoss die i) s =
      .next (s.updCport die i fun q => { q with lostAt := some (p.lostAt.getD s.tsc) })) ∧
    (p.st = 3 → s.pllHolds die i = false → p.retrainFails < 2 → exec (.retrainDone die i false) s =
      .next (s.updCport die i fun q => { q with retrainFails := p.retrainFails + 1 })) ∧
    (p.st = 3 → s.pllHolds die i = false → 2 ≤ p.retrainFails →
      ∃ t q, exec (.retrainDone die i false) s = .next t ∧ t.cport? die i = some q ∧ q.st = 4 ∧ q.bound = 0) ∧
    (p.st = 3 → s.pllHolds die i = false → s.pkg.asm.peer die i ≠ some (die, i) → p.sendq = [] → replaySound p →
      ∃ t q, exec (.retrainDone die i true) s = .next t ∧ t.cport? die i = some q ∧ q.st = 2 ∧
      q.retrainFails = 0 ∧ q.lostAt = none ∧ q.replay = p.replay ∧ t.mem = s.mem) ∧
    (∀ n, p.st = 3 → p.lostAt = some n → n + 50000 ≤ s.tsc →
      ∃ t q, exec (.lockLossTimeout die i) s = .next t ∧ t.cport? die i = some q ∧ q.st = 4 ∧ q.bound = 0)

/-- HELLO at a link under bring-up, no Wing of which is returning (R240, R283): one that fits brings both ends up with the lower
version, fresh sequence spaces and a wrapping key; one that does not is retried with a HELLO of the port's own, and the third failure
puts the link down. -/
def Sys2Proof.Claims.HelloBringsUp : Prop :=
  ∀ (s : State) (die i : Nat) (p : CPort) (h : HelloMsg), s.cport? die i = some p → p.st = 1 →
    (s.helloOk die i h = true → (∀ w ∈ s.wingEnds die i, (s.die? (wingDie w)).any (·.isoState == 2) = false) →
      ∃ t q, exec (.hello die i h) s = .next t ∧ t.cport? die i = some q ∧ q.st = 2 ∧ q.version = min (s.ownVersion die) h.version ∧
        q.expect = 0 ∧ q.nextSeq = 0 ∧ q.replay = [] ∧ q.wrap.isSome = true ∧ t.mem = s.mem) ∧
    (s.helloOk die i h = false → p.helloTries < 2 →
      exec (.hello die i h) s = .next ((s.updCport die i fun q => { q with helloTries := q.helloTries + 1 }).sendHello die i)) ∧
    (s.helloOk die i h = false → 2 ≤ p.helloTries → (∀ w ∈ s.wingEnds die i, (s.die? (wingDie w)).any (·.isoState == 2) = false) →
      ∃ t q, exec (.hello die i h) s = .next t ∧ t.cport? die i = some q ∧ q.st = 4)

/-- A Corridor link's timers, retraining and bring-up. -/
def Obligations.CorridorLinks : Prop :=
  LinkTimers ∧ LinkRetrains ∧ HelloBringsUp

/-- Loans (R285, R286), each message the next of its stream: a fill request, with room in the home Wing's directory, records its
borrower there; a reply places the line in the borrower's share under fresh check bits; a recall drops the borrower's copy and
acknowledges; an acknowledgement takes the borrower off the line's directory entry. With nothing queued no stored byte changes. -/
def Obligations.LoansAreRecalled : Prop :=
  ∀ (s : State) (b c line : Nat) (m : LoanMsg),
    (s.loanMsg? 1 b c line = some m → (s.dirOf (s.loanHome c)).length < 262144 →
      ∃ t d, exec (.loanFillRequest b c line) s = .next t ∧ d ∈ t.mem.loanDir ∧ d.coll = c ∧ d.line = line ∧ b ∈ d.borrowers ∧
        (allDrained s → t.mem.dram = s.mem.dram)) ∧
    (s.loanMsg? 2 b c line = some m → 0 < s.act.loanShare c →
      ∃ t, exec (.loanFillReply b c line) s = .next t ∧ t = { s with mem := { s.mem with loans := t.mem.loans, loanMsgs := t.mem.loanMsgs } } ∧
        ⟨b, c, line, m.data, sramStore m.poison m.data, m.poison, s.tsc⟩ ∈ t.mem.loans ∧ t.mem.loanMsgs = s.mem.loanMsgs.erase m) ∧
    (s.loanMsg? 3 b c line = some m →
      ∃ t, exec (.loanRecall b c line) s = .next t ∧ (∀ l ∈ t.mem.loans, ¬(l.borrower = b ∧ l.coll = c ∧ l.line = line)) ∧
        t.mem.loanMsgs = s.mem.loanMsgs.erase m ++ [{ m with kind := 4, data := [], poison := false }] ∧ t.mem.dram = s.mem.dram) ∧
    (s.loanMsg? 4 b c line = some m → (∀ j ∈ s.wb.jobs, j.ending = none) →
      ∃ t, exec (.recallAck b c line) s = .next t ∧ (∀ d ∈ t.mem.loanDir, d.coll = c → d.line = line → b ∉ d.borrowers) ∧
        t.mem.loanMsgs = s.mem.loanMsgs.erase m ∧ t.mem.dram = s.mem.dram)

/-- Heartbeats (R288, R291): each reaches every present, reachable die, whose last one it then is; a die in service that has had none
for 1 ms takes the master as lost, and the emergency sequence starts; before that the timeout has no effect. -/
def Sys2Proof.Claims.Heartbeats : Prop :=
  ∀ (s : State) (d : Die), s.running = true → s.pkg.masterLost = false → s.die? d.code = some d → d.present = true →
    d.code ≠ s.pkg.primary →
    (d.reachable = true → ∃ t e, exec .lobby0Heartbeat s = .next t ∧ t.die? d.code = some e ∧ e.lastBeat = s.tsc ∧
      t.mem = s.mem ∧ Msg.heartbeat d.code ∈ t.out) ∧
    (d.code < 4 ∨ d.inService = true → d.lastBeat + 1000000 ≤ s.tsc → s.pw.emergency = false →
      ∃ t, exec (.heartbeatTimeout d.code) s = .next t ∧ t.pkg.masterLost = true ∧ t.pw.emergency = true ∧ t.mem.dram = s.mem.dram) ∧
    (s.tsc < d.lastBeat + 1000000 → exec (.heartbeatTimeout d.code) s = .next s)

/-- Time-sync (R290, R352, R353): the master sends its TSC on every Lobby's links that are up; a certain die at most 8 ns off takes its
slew and nothing else changes; one more than 64 ns behind steps onto the master's time; and none for 1 ms makes a die time-uncertain. -/
def Sys2Proof.Claims.TimeSync : Prop :=
  ∀ (s : State) (d : Die) (stamp delay : Nat), s.running = true → s.die? d.code = some d → d.present = true → d.code ≠ s.pkg.primary →
    (s.pkg.masterLost = false → ∃ t, exec .timeSyncSend s = .next t ∧ t.tsc = s.tsc ∧ t.mem = s.mem ∧
      ∀ l i p q, l ∈ s.pkg.asm.lobbies → i ∈ s.pkg.asm.cports l → i ≠ 2 → s.cport? l i = some p → p.st = 2 →
        s.pkg.asm.peer l i = some q → Msg.timeSync q.1 s.tsc ∈ t.out) ∧
    (d.uncertain = false → d.skewHigh = false → -8 ≤ timeDiff (s.dieTsc d.code) (stamp + delay) →
      timeDiff (s.dieTsc d.code) (stamp + delay) ≤ 8 →
      ∃ t, exec (.timeSyncReceive d.code stamp delay) s = .next t ∧ t = { s with dies := t.dies } ∧
        t.die? d.code = some { d with latestE := timeDiff (s.dieTsc d.code) (stamp + delay), lastSync := s.tsc,
                                      slew := timeDiff (s.dieTsc d.code) (stamp + delay) }) ∧
    (timeDiff (s.dieTsc d.code) (stamp + delay) < -64 →
      ∃ t e, exec (.timeSyncReceive d.code stamp delay) s = .next t ∧ t.die? d.code = some e ∧ e.slew = 0 ∧
        e.offset = d.offset - timeDiff (s.dieTsc d.code) (stamp + delay) ∧ t.mem = s.mem) ∧
    (d.uncertain = false → d.lastSync + 1000000 ≤ s.tsc →
      ∃ t e, exec (.timeSyncTimeout d.code) s = .next t ∧ t.die? d.code = some e ∧ e.uncertain = true ∧ e.offset = d.offset ∧
        t.mem = s.mem ∧ t.chans = s.chans)

/-- Heartbeats and time-sync. -/
def Obligations.HeartbeatsAndTime : Prop :=
  Heartbeats ∧ TimeSync

/-! The mailbox of a function (R42-R45, R295-R298). -/

namespace Sys2Proof.Claims

/-- `t` is `s` with a mailbox command of a port ended: its return code and payload, and the signal of bit 16 of FN_INT_STAT. -/
def mailed (s t : State) (p code : Nat) (payload : Bytes) : Prop := t = (s.send (.mailbox p code payload)).signal p 16 0

end Sys2Proof.Claims

/-- The queries of the mailbox (R295, R298) answer, and change nothing but the message and its signal; a Scan Media that runs or has
ended is reported by its opcode. -/
def Sys2Proof.Claims.MailboxQueries : Prop :=
  ∀ (s : State) (p opcode : Nat), s.mailOpen p = true →
    (∃ t, exec (.identify p) s = .next t ∧ mailed s t p 0 (leBytes 2 Config.vendorId.toNat ++
      leBytes 2 (if s.pkg.mark = 1 then 0x6A11 else 0x6A12) ++ zeros 4 ++ leBytes 8 Config.serial.toNat)) ∧
    (∃ t, exec (.identifyMemoryDevice p) s = .next t ∧ mailed s t p 0 (zeros 24)) ∧
    (∃ t b, exec (.getSupportedLogs p) s = .next t ∧ mailed s t p 0 b ∧ fieldAt b 0 2 = 1) ∧
    (∃ t, exec (.getLog p true) s = .next t ∧ mailed s t p 0 Config.effectsLog) ∧
    (∃ t, exec (.getLog p false) s = .next t ∧ mailed s t p 3 []) ∧
    (∃ t b, exec (.getHealthInfo p) s = .next t ∧ mailed s t p 0 b ∧
      (b.getD 0 0 = 1 ↔ ∃ d ∈ s.dies, d.present = true ∧ 4 ≤ d.code ∧ d.inService = false)) ∧
    (∃ t, exec (.getScanMediaResults p) s = .next t ∧ mailed s t p 0 (leBytes 2 0)) ∧
    (∃ t, exec (.getScanMediaCapabilities p) s = .next t ∧
      mailed s t p 0 (leBytes 8 0 ++ leBytes 8 (s.act.regionBase p 8) ++ leBytes 4 3600000)) ∧
    (∃ t, exec (.getTimestamp p) s = .next t ∧ mailed s t p 0 (leBytes 8 (s.dieTsc (p / 8)))) ∧
    (∃ t, exec (.unsupportedMailboxCommand p opcode) s = .next t ∧ mailed s t p 3 []) ∧
    (∀ f, s.fn? p = some f →
      (f.background = 0 → ∃ t, exec (.backgroundOperationStatus p) s = .next t ∧ mailed s t p 0 (zeros 8)) ∧
      (f.background ≠ 0 → ∃ t b, exec (.backgroundOperationStatus p) s = .next t ∧ .mailbox p 0 b ∈ t.out ∧
        fieldAt b 0 2 = 0x4304 ∧ t.mem = s.mem))

/-- The event logs (R296, R297): logs 0 to 3 are empty; log 4 returns every event of the port; clearing events of the port takes
them out, and nothing enters but events that waited; the interrupt policy reads as it was last set. -/
def Sys2Proof.Claims.EventLogs : Prop :=
  ∀ (s : State) (p log : Nat) (f : Fn), s.mailOpen p = true → s.fn? p = some f →
    (log < 4 → ∃ t, exec (.getEventRecords p log) s = .next t ∧ mailed s t p 0 (leBytes 2 0)) ∧
    (∃ t b, exec (.getEventRecords p 4) s = .next t ∧ mailed s t p 0 b ∧
      b = leBytes 2 (s.mem.dcLog.filter (·.port == p)).length ++ (s.mem.dcLog.filter (·.port == p)).flatMap s.dcBytes) ∧
    (∀ hs, hs.all (fun h => s.mem.dcLog.any fun v => v.port == p && v.handle == h) = true →
      ∃ t, exec (.clearEventRecords p 4 hs) s = .next t ∧ t.mem.dram = s.mem.dram ∧
        ∀ v ∈ t.mem.dcLog, v ∈ s.mem.dcWait ∨ (v ∈ s.mem.dcLog ∧ ¬(v.port = p ∧ v.handle ∈ hs))) ∧
    (∃ t, exec (.getEventInterruptPolicy p) s = .next t ∧ mailed s t p 0 (f.policy.map byteOf)) ∧
    (∀ l : List Nat, l.length = 5 → l.all (· < 256) = true →
      ∃ t g, exec (.setEventInterruptPolicy p l) s = .next t ∧ t.fn? p = some g ∧ g.policy = l ∧ t.mem = s.mem)

/-- The queries and the event logs of the mailbox. -/
def Obligations.MailboxAnswers : Prop :=
  MailboxQueries ∧ EventLogs

/-- Dynamic Capacity (R42, R44, R45): the configuration lists 8 regions and the extent list the mapped extents; the host's response
maps the offer it names; its release of a withdrawn extent removes it, and of one still offered unmaps it; at the release timeout the
device removes the extent itself. -/
def Sys2Proof.Claims.DynamicCapacity : Prop :=
  ∀ (s : State) (p : Nat) (x : Extent), x.port = p → x ∈ s.mem.extents →
    (s.mailOpen p = true → ∃ t b, exec (.getDynamicCapacityConfiguration p) s = .next t ∧ mailed s t p 0 b ∧ b.getD 0 0 = 8 ∧
      b.length = 1 + 8 * 24) ∧
    (s.mailOpen p = true → ∃ t b, exec (.getDynamicCapacityExtentList p) s = .next t ∧ mailed s t p 0 b ∧
      b.take 4 = leBytes 4 (s.mem.extents.filter fun y => y.port == p && y.mapped).length) ∧
    (s.mailOpen p = true → s.namedExtents p [(s.extentDpa x, x.length)] (·.st == .offered) = some [x] →
      ∃ t, exec (.addDynamicCapacityResponse p [(s.extentDpa x, x.length)]) s = .next t ∧ t.mem.dram = s.mem.dram ∧
        ∀ y ∈ t.mem.extents, y.handle = x.handle → y.st = .accepted ∧ y.mapped = true) ∧
    (s.mailOpen p = true → s.namedExtents p [(s.extentDpa x, x.length)] (·.mapped) = some [x] →
      ∃ t, exec (.releaseDynamicCapacity p [(s.extentDpa x, x.length)]) s = .next t ∧ t.mem.dram = s.mem.dram ∧
        (x.st ≠ .accepted → ∀ y ∈ t.mem.extents, y.handle ≠ x.handle) ∧
        (x.st = .accepted → (∃ y ∈ t.mem.extents, y.handle = x.handle) ∧
          ∀ y ∈ t.mem.extents, y.handle = x.handle → y.st ≠ .accepted)) ∧
    (s.running = true → s.mem.extents.find? (fun y => y.same p x.coll x.view && y.st == .releasing) = some x →
      x.deadline ≤ s.tsc → ∃ t, exec (.releaseTimeout p x.coll x.view) s = .next t ∧ t.mem.dram = s.mem.dram ∧
        ∀ y ∈ t.mem.extents, y.handle ≠ x.handle)

/-- Scan Media (R298) is unsupported on a port that is not control-capable, an invalid input over less than the whole range, busy
while one runs, and otherwise starts in the background with every walk at line 0; its completion ends it. -/
def Sys2Proof.Claims.ScanMedia : Prop :=
  ∀ (s : State) (p start len : Nat), s.mailOpen p = true →
    (p ≠ s.act.controlPort → ∃ t, exec (.scanMedia p start len) s = .next t ∧ mailed s t p 3 []) ∧
    (p = s.act.controlPort → (start ≠ 0 ∨ len ≠ s.act.regionBase p 8) →
      ∃ t, exec (.scanMedia p start len) s = .next t ∧ mailed s t p 2 []) ∧
    (p = s.act.controlPort → s.fn.any (·.scanning) = true →
      ∃ t, exec (.scanMedia p 0 (s.act.regionBase p 8)) s = .next t ∧ mailed s t p 6 []) ∧
    (p = s.act.controlPort → s.fn.any (·.scanning) = false →
      ∃ t f, exec (.scanMedia p 0 (s.act.regionBase p 8)) s = .next t ∧ t.fn? p = some f ∧ f.scanning = true ∧
        f.background = 1 ∧ (∀ c ∈ t.chans, c.walk = 0) ∧ t.mem = s.mem) ∧
    (∃ t, exec .scanMediaComplete s = .next t ∧ t = { s with fn := t.fn } ∧ ∀ f ∈ t.fn, f.scanning = false)

/-- A decoder committed at 1-way interleave decodes its range; at any other setting it reports a commit error and decodes
nothing (R42). -/
def Sys2Proof.Claims.DecoderCommit : Prop :=
  ∀ (s : State) (p r base size ways : Nat) (f : Fn), s.running = true → s.fn? p = some f → f.ready = true → f.resetting = false →
    r < 8 →
    ∃ t g, exec (.hdmDecoderCommit p r base size ways) s = .next t ∧ t.fn? p = some g ∧ t.mem = s.mem ∧
      t.out = s.out ++ [.hdm p r (ways == 1)] ∧
      (∀ d ∈ g.decoders, d.r = r → d.base = base ∧ d.size = size ∧ d.committed = (ways == 1) ∧ d.error = (ways != 1)) ∧
      g.decoders.filter (·.r != r) = f.decoders.filter (·.r != r)

/-- Dynamic capacity, Scan Media and the HDM decoders (R42-R45, R294-R298). -/
def Obligations.DynamicCapacityAndDecoders : Prop :=
  DynamicCapacity ∧ ScanMedia ∧ DecoderCommit

/-! The function of a link port: the Mover, the load window, interrupts, event queues, resets and power states. -/

namespace Sys2Proof.Claims

/-- A Mover engine of a port, with the function it belongs to. -/
abbrev engineIs (s : State) (p i : Nat) (f : Fn) (g : Engine) : Prop := s.fn? p = some f ∧ s.engine? p i = some g ∧ f.port = p ∧ g.e = i

/-- The descriptor of an opcode that an engine has fetched, not begun, and may act on. -/
abbrev fetchedDesc (s : State) (p i : Nat) (op : Nat) (d : Bytes) : Prop :=
  s.fetched p i (fun o => o == op) = some d ∧ descOp d = op

/-- Only the function of port `p` and the messages sent differ. -/
def onlyFn (s t : State) (p : Nat) : Prop :=
  t = { s with fn := t.fn, out := t.out } ∧ ∀ q, q ≠ p → t.fn? q = s.fn? q

/-- In `t` a status is written to bytes 63:48 of the descriptor at entry `n` of an engine's ring. -/
def statusAt (t : State) (p : Nat) (g : Engine) (n status : Nat) : Prop :=
  ∃ b, .hostWrite p (g.base + 64 * n + 48) b false false ∈ t.out ∧ fieldAt b 0 2 = status

end Sys2Proof.Claims

/-- Ring registers (R308): a write of FN_MOV_TAIL sets it, and an idle engine with a descriptor to fetch issues one read of
its ring; the restart bit moves a stopped engine to the descriptor after the one it stopped at, and enables it or not as the value
written says. -/
def Sys2Proof.Claims.MoverRing : Prop :=
  ∀ (s : State) (p i v : Nat) (f : Fn) (g : Engine), engineIs s p i f g →
    (∃ t h, exec (.moverDoorbell p i v) s = .next t ∧ onlyFn s t p ∧ t.engine? p i = some h ∧ h.tail = v % 2 ^ 64 ∧
      h.base = g.base ∧ h.size = g.size ∧ h.head = g.head) ∧
    (g.enable = true → g.st = 1 → g.fetching = false → g.head ≠ v % 2 ^ 64 % 2 ^ g.size → f.canMaster = true →
      f.hostReads.length < f.tagLimit →
      ∃ t h n, exec (.moverDoorbell p i v) s = .next t ∧ t.engine? p i = some h ∧ h.fetching = true ∧ h.st = 2 ∧
        t.out = s.out ++ [.hostRead p n (g.base + 64 * g.head) 64 false]) ∧
    (bitSet v 9 = true → (g.st = 3 ∨ g.st = 4) →
      ∃ t h, exec (.moverRestart p i v) s = .next t ∧ onlyFn s t p ∧ t.engine? p i = some h ∧
        h.head = (g.stopIdx + 1) % 2 ^ h.size ∧ h.enable = bitSet v 8 ∧ (g.enable = true → h.size = g.size) ∧
        (bitSet v 8 = false → h.st = 1))

/-- Descriptors (R309, R310, R312): a NOP ends DONE, or BAD_FIELD when a reserved field is set, and an opcode not listed ends
BAD_OPCODE, each with its status written to bytes 63:48 of the descriptor. A TO_DEVICE whose checks pass issues its reads, the first at
its host address, as many as there are tags; one whose check fails ends with that check's status and moves nothing. A TO_HOST of one
line that holds no data writes 64 zero bytes to the host. An INGEST opens its stream. -/
def Sys2Proof.Claims.MoverDescriptors : Prop :=
  ∀ (s : State) (p i : Nat) (f : Fn) (g : Engine) (d : Bytes), engineIs s p i f g →
    (fetchedDesc s p i 0 d →
      ∃ t h, exec (.descriptorNop p i) s = .next t ∧ t.engine? p i = some h ∧ h.head = (g.head + 1) % 2 ^ g.size ∧
        statusAt t p g g.head (if descSound d then 2 else 0x8002) ∧ t.mem = s.mem) ∧
    (fetchedDesc s p i (descOp d) d → 3 < descOp d →
      ∃ t h, exec (.undefinedDescriptorOpcode p i) s = .next t ∧ t.engine? p i = some h ∧ h.head = (g.head + 1) % 2 ^ g.size ∧
        statusAt t p g g.head 0x8001 ∧ t.mem = s.mem) ∧
    (fetchedDesc s p i 1 d → s.copyCheck p d = none → f.tagLimit ≤ f.hostReads.length →
      ∃ t h, exec (.toDevice p i) s = .next t ∧ onlyFn s t p ∧ t.engine? p i = some h ∧ h.begun = true ∧ h.issued = g.issued) ∧
    (fetchedDesc s p i 1 d → s.copyCheck p d = none → g.issued = 0 → f.hostReads.length < f.tagLimit → 0 < f.maxRead →
      ∃ t n len, exec (.toDevice p i) s = .next t ∧ t.mem = s.mem ∧
        .hostRead p n (descHost d) len (bitSet (descFlags d) 0 && f.relaxed) ∈ t.out ∧ len ≤ f.maxRead ∧ 0 < len) ∧
    (∀ st, fetchedDesc s p i 1 d → s.copyCheck p d = some st →
      ∃ t h, exec (.toDevice p i) s = .next t ∧ t.mem = s.mem ∧ statusAt t p g g.head st ∧
        t.engine? p i = some h ∧ h.head = (g.head + 1) % 2 ^ g.size) ∧
    (∀ st, fetchedDesc s p i 2 d → s.copyCheck p d = some st →
      ∃ t h, exec (.toHost p i) s = .next t ∧ t.mem = s.mem ∧ statusAt t p g g.head st ∧
        t.engine? p i = some h ∧ h.head = (g.head + 1) % 2 ^ g.size) ∧
    (fetchedDesc s p i 2 d → s.copyCheck p d = none → descLen d = 64 → s.noData (descColl d) (descOff d) = true →
      s.wingUp (s.place (descColl d) (descOff d)).wing = true →
      ∃ t, exec (.toHost p i) s = .next t ∧ t.mem.dram = s.mem.dram ∧
        .hostWrite p (descHost d) (zeros 64) false (bitSet (descFlags d) 0 && f.relaxed) ∈ t.out) ∧
    (fetchedDesc s p i 3 d → descSound d = true → descHost d % 16 = 0 → descLen d % 16 = 0 → descLen d ≠ 0 → descOff d = 0 →
      s.live (descColl d) = true → s.accepted p (descColl d) = true →
      ∃ t x, exec (.ingest p i) s = .next t ∧ t.stream? (.engine (p / 8) i) = some x ∧ x.coll = descColl d ∧ x.bytes = [] ∧
        t.mem.dram = s.mem.dram ∧ t.mem.cat = s.mem.cat)

/-- Completions of Mover reads (R310, R311): one for no waiting read changes nothing; the bytes of a descriptor fetch hand the
descriptor to its engine; a timeout and an error stop the engine with their status, and nothing more is written. -/
def Sys2Proof.Claims.MoverCompletions : Prop :=
  ∀ (s : State) (p i tag : Nat) (f : Fn) (g : Engine) (r : HostRead) (bs : Bytes) (c : Completion), engineIs s p i f g →
    (f.hostReads.find? (·.tag == tag) = none →
      exec (.readCompletion p tag c) s = .next s ∧ exec (.completionTimeout p tag) s = .next s) ∧
    (f.hostReads.find? (·.tag == tag) = some r → r.engine = i → r.fetch = true → r.length = 64 → r.got.length = 64 →
      bs.length = 64 → g.st = 2 → g.fetching = true →
      ∃ t h, exec (.readCompletion p tag (.data 0 bs false)) s = .next t ∧ t.mem = s.mem ∧ t.chans = s.chans ∧
        t.engine? p i = some h ∧ h.fetching = false ∧ h.desc = some bs ∧ h.head = g.head) ∧
    (f.hostReads.find? (·.tag == tag) = some r → r.engine = i → s.stream? (.engine (p / 8) i) = none → g.st = 2 →
      (∃ t h, exec (.completionTimeout p tag) s = .next t ∧ t.engine? p i = some h ∧ h.st = 3 ∧ h.stopIdx = g.head ∧
        statusAt t p g g.head 0x800E ∧ t.mem.dram = s.mem.dram) ∧
      (∃ t h, exec (.readCompletion p tag .error) s = .next t ∧ t.engine? p i = some h ∧ h.st = 3 ∧ h.stopIdx = g.head ∧
        statusAt t p g g.head 0x800F ∧ t.mem.dram = s.mem.dram))

/-- A Mover engine's ring, descriptors and completions (R308-R313). -/
def Obligations.MoverRuns : Prop :=
  MoverRing ∧ MoverDescriptors ∧ MoverCompletions

/-- The load window (R314): go on an idle window starts the parse of its bytes, those poisoned among them, for the collection it
names; while busy it has no effect; a length that is no multiple of 16 starts nothing. -/
def Obligations.LoadWindow : Prop :=
  ∀ (s : State) (p v : Nat) (f : Fn), s.fn? p = some f → f.port = p → bitSet v 63 = true →
    (f.loadBusy = false → f.resetting = false → s.accepting = true → loadLength v % 16 = 0 → 0 < loadLength v → loadLength v ≤ 524288 →
      ∃ t h x, exec (.loadGo p v) s = .next t ∧ t.fn? p = some h ∧ h.loadBusy = true ∧ h.loadColl = bits v 0 12 ∧
        t.stream? (.loadWindow p) = some x ∧ x.coll = bits v 0 12 ∧ x.bytes = f.loadImage (loadLength v) ∧ x.bad = f.loadBad ∧
        t.mem = { s.mem with ingest := t.mem.ingest }) ∧
    (f.loadBusy = false → loadLength v % 16 ≠ 0 →
      ∃ t h, exec (.loadGo p v) s = .next t ∧ onlyFn s t p ∧ t.fn? p = some h ∧ h.loadBusy = false) ∧
    (f.loadBusy = true → exec (.loadGo p v) s = .next s)

/-- FN_INT_STAT (R302, R303): writing 1s clears those bits and no others, and under INTx the last one cleared deasserts INTA.
Unmasking a vector whose pending bit is set sends one message and clears the bit; unmasking the function unmasks no entry of its
table (R304). A deferred signal of a queue is raised once its moderation time has passed (R306). -/
def Sys2Proof.Claims.Interrupts : Prop :=
  ∀ (s : State) (p v : Nat) (f : Fn), s.fn? p = some f → f.port = p →
    (∃ t h, exec (.intStatClear p v) s = .next t ∧ onlyFn s t p ∧ t.fn? p = some h ∧ h.intStat = f.intStat - (f.intStat &&& v) ∧
      { h with intStat := f.intStat } = f ∧
      (f.usesIntx = true → f.intStat ≠ 0 → f.intStat &&& v = f.intStat → t.out = s.out ++ [.intx p false])) ∧
    (v < 64 → f.msixEn = true → f.msixMask = false → bitSet f.pba v = true → f.canMaster = true →
      ∃ t h, exec (.msixUnmask p (some v)) s = .next t ∧ onlyFn s t p ∧ t.out = s.out ++ [.message p v true] ∧
        t.fn? p = some h ∧ h.pba = putBit f.pba v false ∧ h.vectorMasked v = false) ∧
    (∃ t h, exec (.msixUnmask p none) s = .next t ∧ onlyFn s t p ∧ t.fn? p = some h ∧ h.msixMask = false ∧ h.table = f.table) ∧
    (∀ q eq, q < 16 → f.queues[q]? = some eq → eq.deferred = true →
      (∀ t0, eq.lastMsg = some t0 → t0 + eq.moderation * 1000 ≤ s.tsc) →
      ∃ t h, exec (.moderationExpiry p q) s = .next t ∧ onlyFn s t p ∧ t.fn? p = some h ∧ bitSet h.intStat q = true ∧
        (h.queues.getD q .reset).deferred = false)

/-- Event queue registers (R305, R360, R361, R363): the filter takes its 17 bits; the head is what software wrote, and where the queue
can then be written and has lost records one LOST_RECORDS record is written at its tail; FN_EQ_CTL takes enable, vector and
moderation, and its size field only while disabled and within 4 to 16, a changed size emptying the queue; FN_EQ_BASE is 4 KiB-aligned
and unchanged while enabled. -/
def Sys2Proof.Claims.EventQueueRegisters : Prop :=
  ∀ (s : State) (p q v : Nat) (f : Fn) (eq : EventQueue), s.fn? p = some f → f.port = p → q < 16 → f.queues[q]? = some eq →
    (∃ t h, exec (.fnEqFilterWrite p q v) s = .next t ∧ onlyFn s t p ∧ t.fn? p = some h ∧
      h.queues[q]? = some { eq with filter := v % 2 ^ 17 }) ∧
    (eq.lost = 0 → ∃ t h, exec (.fnEqHeadWrite p q v) s = .next t ∧ onlyFn s t p ∧ t.fn? p = some h ∧
      h.queues[q]? = some { eq with head := v % 2 ^ 64 }) ∧
    (eq.lost ≠ 0 → f.canWrite { eq with head := v % 2 ^ 64 } = true →
      ∃ t h e, exec (.fnEqHeadWrite p q v) s = .next t ∧ onlyFn s t p ∧ t.fn? p = some h ∧ h.queues[q]? = some e ∧
        e.head = v % 2 ^ 64 ∧ e.lost = 0 ∧ e.tail = (eq.tail + 1) % 2 ^ eq.size ∧
        .hostWrite p (eq.base + 32 * eq.tail) (lostRecord (portSrc p) (s.dieTsc (p / 8)) eq.lost).bytes false false ∈ t.out) ∧
    (eq.lost = 0 → ∃ t h e, exec (.fnEqCtlWrite p q false v) s = .next t ∧ onlyFn s t p ∧ t.fn? p = some h ∧ h.queues[q]? = some e ∧
      e.enable = bitSet v 8 ∧ e.vector = bits v 16 6 ∧ e.moderation = bits v 24 8 ∧ e.base = eq.base ∧
      (eq.enable = true ∨ bits v 0 5 < 4 ∨ 16 < bits v 0 5 → e.size = eq.size ∧ e.head = eq.head ∧ e.tail = eq.tail) ∧
      (eq.enable = false → 4 ≤ bits v 0 5 → bits v 0 5 ≤ 16 → bits v 0 5 ≠ eq.size →
        e.size = bits v 0 5 ∧ e.head = 0 ∧ e.tail = 0)) ∧
    (∃ t h e, exec (.fnEqCtlWrite p q true v) s = .next t ∧ onlyFn s t p ∧ t.fn? p = some h ∧ h.queues[q]? = some e ∧
      e.size = eq.size ∧ e.base % 4096 = (if eq.enable then eq.base % 4096 else 0) ∧
      e.base = if eq.enable then eq.base else bits v 12 52 * 4096)

/-- Interrupt status and the event queues' registers (R302-R306, R360-R363). -/
def Obligations.InterruptsAndQueues : Prop :=
  Interrupts ∧ EventQueueRegisters

/-- Resets and Bus Master Enable (R315-R318): clearing Bus Master Enable stops every running engine as ABORTED, and setting it writes
that status to each such descriptor; FLR resets the FN_ registers, engines, queues and window of the port and keeps its decoders and
link, and it is ready again afterwards; a hot reset and PERST_N also uncommit its decoders and take its link down; no memory content
changes in any of them. -/
def Sys2Proof.Claims.FunctionResets : Prop :=
  ∀ (s : State) (p : Nat) (f : Fn), s.fn? p = some f → f.port = p →
    (∃ t h, exec (.busMasterEnableClear p) s = .next t ∧ onlyFn s t p ∧ t.fn? p = some h ∧ h.bme = false ∧
      h.engines = f.engines.map (fun g => if g.st = 2 then { g with st := 4, stopIdx := g.head, aborted := true } else g)) ∧
    (f.bme = true → exec (.busMasterEnableSet p) s = .next s) ∧
    (f.bme = false → ∃ t h, exec (.busMasterEnableSet p) s = .next t ∧ t.fn? p = some h ∧ h.bme = true ∧ t.mem.dram = s.mem.dram ∧
      ∀ g ∈ f.engines, g.aborted = true → statusAt t p g g.stopIdx 0x800A) ∧
    (f.ready = true → ∃ t h, exec (.flr p) s = .next t ∧ t.fn? p = some h ∧ h.resetting = true ∧ h.bme = false ∧
      h.queues = List.replicate 16 .reset ∧ h.engines = (List.range 16).map .reset ∧ h.decoders = f.decoders ∧
      h.link = f.link ∧ t.mem.dram = s.mem.dram ∧ t.mem.extents = s.mem.extents ∧ t.mem.cat = s.mem.cat) ∧
    (∃ t h, exec (.flrReady p) s = .next t ∧ onlyFn s t p ∧ t.fn? p = some h ∧ h = { f with resetting := false }) ∧
    (f.link = 2 → ∃ t h, exec (.hotReset p) s = .next t ∧ t.fn? p = some h ∧ h.link = 1 ∧ h.ready = false ∧
      (∀ d ∈ h.decoders, d.committed = false) ∧ t.mem.dram = s.mem.dram ∧ t.mem.cat = s.mem.cat ∧
      ∀ x ∈ t.mem.extents, x.port = p → x.st ≠ .accepted) ∧
    (∃ t h, exec (.perstNAssert p) s = .next t ∧ t.fn? p = some h ∧ h.link = 0 ∧ h.perst = true ∧ h.pmeStatus = false ∧
      (∀ d ∈ h.decoders, d.committed = false) ∧ t.mem.dram = s.mem.dram ∧ t.mem.cat = s.mem.cat) ∧
    (f.perst = true → s.running = true → s.portInService p = true →
      ∃ t h, exec (.perstNDeassert p) s = .next t ∧ onlyFn s t p ∧ t.fn? p = some h ∧ h.perst = false ∧ h.link = 1)

/-- Link and power states (R293, R318, R320-R322): a training link comes up at a mode it supports; the function is ready after
that; D3hot is entered and left; with every function asleep and nothing waiting for 1 ms every channel in service enters self-refresh;
with PME_Turn_Off on every port whose link is up the flush begins, and its end acknowledges each of them. -/
def Sys2Proof.Claims.FunctionPower : Prop :=
  ∀ (s : State) (p rate width : Nat) (f : Fn), s.fn? p = some f → f.port = p →
    (∀ fl cx, f.link = 1 → f.perst = false → s.accepting = true → s.portInService p = true → s.linkMode rate width fl = true →
      ∃ t h, exec (.portLinkUp p rate width fl cx) s = .next t ∧ t.fn? p = some h ∧ h.link = 2 ∧ h.rate = rate ∧ h.width = width ∧
        h.flit256 = fl ∧ h.cxl = cx ∧ t.mem.dram = s.mem.dram ∧ t.mem.cat = s.mem.cat ∧
        (s.mem.extents = [] → onlyFn s t p ∧ h = { f with link := 2, rate := rate, width := width, flit256 := fl, cxl := cx })) ∧
    (s.running = true → s.pkg.fwRunning = true → f.perst = false → f.link ≠ 0 →
      ∃ t, exec (.functionReady p) s = .next t ∧ onlyFn s t p ∧ t.fn? p = some { f with ready := true }) ∧
    (f.ready = true → f.resetting = false →
      ∃ t, exec (.d3hotEntry p) s = .next t ∧ onlyFn s t p ∧ t.fn? p = some { f with dstate := 3 }) ∧
    (f.dstate ≠ 0 → ∃ t h, exec (.d0Return p) s = .next t ∧ t.fn? p = some h ∧ h.dstate = 0 ∧ t.mem = s.mem) ∧
    (s.accepting = true → s.fn.all (·.asleep) = true → s.mem.reads = [] → s.mem.writes = [] → s.wb.jobs = [] →
      s.pw.busyAt + 1000000 ≤ s.tsc →
      ∃ t, exec .idleSelfRefresh s = .next t ∧ t.mem = s.mem ∧
        t.chans = s.chans.map fun c => if c.st = 2 then { c with st := 8, selfRefresh := true } else c) ∧
    (s.accepting = true → f.link = 2 →
      ∃ t h, exec (.pmeTurnOff p) s = .next t ∧ t.fn? p = some h ∧ h.turnOff = true ∧ t.mem = s.mem ∧
        ((∀ g ∈ s.fn, g.port ≠ p → g.link = 2 → g.turnOff = true) → t.pw.flushing = true)) ∧
    (s.accepting = true → s.pw.flushing = true → s.allOff = true → s.mem.writes = [] → s.mem.cache = [] → s.mem.wmb = [] →
      (∀ e ∈ s.mem.cat, e.tier = .gallery → s.act.durable e.coll = true) → f.link = 2 →
      ∃ t, exec .d3coldFlushComplete s = .next t ∧ Msg.pmeToAck p ∈ t.out ∧ t.mem = s.mem ∧
        ∀ c ∈ t.chans, isDepot c.sel = true → c.st ≠ 2)

/-- A function's resets and power states (R315-R322). -/
def Obligations.FunctionResetsAndPower : Prop :=
  FunctionResets ∧ FunctionPower

/-! The dictionary, the key and editions (R327-R348). -/

namespace Sys2Proof.Claims

/-- The dictionary window of port `p` serves operation `op` on index `idx` now (R330, R344, R428), and no lease has run out
unseen (R339). -/
abbrev servedAt (s : State) (p op idx : Nat) : Prop :=
  s.windowHeld (.window p) = false ∧ s.windowOpen p = true ∧ s.opServed op idx = true ∧
  (s.ed.holder = .free ∨ s.tsc < s.ed.lease)

/-- The Host port's window serves a write of index `idx`, and the Host port holds the key. -/
abbrev keyedAt (s : State) (idx : Nat) : Prop := servedAt s s.act.controlPort 2 idx ∧ s.ed.holder = .host

/-- The Host port's window. -/
abbrev hostPort (s : State) : Requester := .window s.act.controlPort

/-- The last message of `t` answers a requester with a code and data. -/
def answered (t : State) (q : Requester) (code : Nat) (data : Bytes) : Prop := t.out.getLast? = some (.reply q code data)

/-- All that a dictionary operation without an effect of its own changes: the window's registers, the reply, and for a write of
the key's holder the lease. -/
def onlyWindow (s t : State) : Prop :=
  t = { s with out := t.out, fn := t.fn, fresh := t.fresh, ed := { s.ed with lease := t.ed.lease } }

/-- The staged edition is gone, unless it is committing. -/
def unstagedUnlessCommitting (s t : State) : Prop :=
  if s.ed.stagedState = 5 then t.ed.staged = s.ed.staged ∧ t.ed.stagedState = 5
  else t.ed.staged = none ∧ (s.ed.staged ≠ none → t.ed.stagedState = 0)

/-- The object a requester's cursor selects for the channels. -/
abbrev chanCursor (s : State) : Nat := (s.cursors (hostPort s)).chan

/-- A trigger waits on a die (R193). -/
def waits (t : State) (die code arg : Nat) : Prop :=
  ∃ g ∈ t.doc.triggers, g.die = die ∧ g.code = code ∧ g.arg = arg

end Sys2Proof.Claims

/-- Operations of a port's window (R325, R327-R330). An entry the dictionary does not list is NO_ENTRY, an operation that is
none of the six is BAD_OP, a request with a rsvd field not 0 is MALFORMED, and each has no effect; a read that is not served is BUSY
with a hint of 10 ms or more; subindex 0 reads the highest subindex; the TSC entry reads the primary Lobby's TSC; a collection cursor
takes the value written to it; DESCRIBE names the entry's type, access and scope; NEXT names the next entry. -/
def Sys2Proof.Claims.WindowOperations : Prop :=
  ∀ (s : State) (p idx sub off len : Nat) (d : Bytes),
    s.windowHeld (.window p) = false → s.windowOpen p = true → (s.ed.holder = .free ∨ s.tsc < s.ed.lease) →
    (sub ≠ 0 → odRow idx sub = none →
      (s.opServed 1 idx = true → ∃ t, exec (.read (.window p) idx sub off len) s = .next t ∧ answered t (.window p) 1 [] ∧ onlyWindow s t) ∧
      (s.opServed 2 idx = true → ∃ t, exec (.write (.window p) idx sub off d) s = .next t ∧ answered t (.window p) 1 [] ∧ onlyWindow s t) ∧
      (s.opServed 3 idx = true → ∃ t, exec (.readStaged (.window p) idx sub off len) s = .next t ∧ answered t (.window p) 1 [] ∧ onlyWindow s t) ∧
      (s.opServed 4 idx = true → ∃ t, exec (.writeStaged (.window p) idx sub off d) s = .next t ∧ answered t (.window p) 1 [] ∧ onlyWindow s t) ∧
      (s.opServed 5 idx = true → ∃ t, exec (.describe (.window p) idx sub) s = .next t ∧ answered t (.window p) 1 [] ∧ onlyWindow s t)) ∧
    (∀ op, op = 0 ∨ (6 < op ∧ op ≠ 0x40 ∧ op ≠ 0x41) → s.opServed op 0 = true →
      ∃ t, exec (.badOp (.window p) op) s = .next t ∧ answered t (.window p) 9 [] ∧ onlyWindow s t) ∧
    (s.opServed 1 idx = true → ∃ t, exec (.read (.windowRsvd p) idx sub off len) s = .next t ∧ answered t (.windowRsvd p) 0xD [] ∧
      onlyWindow s t) ∧
    (s.opServed 2 idx = true → ∃ t, exec (.write (.windowRsvd p) idx sub off d) s = .next t ∧ answered t (.windowRsvd p) 0xD [] ∧
      onlyWindow s t) ∧
    (s.opServed 1 idx = false → ∃ t h, exec (.read (.window p) idx sub off len) s = .next t ∧ 10 ≤ h ∧
      answered t (.window p) 7 (leBytes 4 h) ∧ onlyWindow s t) ∧
    (s.opServed 1 0x1000 = true → ∃ t, exec (.read (.window p) 0x1000 0 0 1) s = .next t ∧ answered t (.window p) 0 [3] ∧ onlyWindow s t) ∧
    (s.opServed 1 0x5000 = true → ∃ t, exec (.read (.window p) 0x5000 1 0 8) s = .next t ∧
      answered t (.window p) 0 (leBytes 8 (s.dieTsc s.pkg.primary)) ∧ onlyWindow s t) ∧
    (∀ c, s.opServed 2 0x3000 = true → c < 4096 →
      ∃ t, exec (.write (.window p) 0x3000 1 0 (leBytes 2 c)) s = .next t ∧ answered t (.window p) 0 [] ∧
        (t.cursors (.window p)).coll = c ∧ t.mem = s.mem ∧ t.act = s.act) ∧
    (s.opServed 5 0x3001 = true → ∃ t v, exec (.describe (.window p) 0x3001 3) s = .next t ∧ answered t (.window p) 0 v ∧
      v.take 4 = [4, 4, 2, 0] ∧ v.length = 48 ∧ onlyWindow s t) ∧
    (s.opServed 6 0x1000 = true → ∃ t, exec (.nextEntry (.window p) 0x1000 3) s = .next t ∧
      answered t (.window p) 0 [0x10, 0x10, 0] ∧ onlyWindow s t)

/-- Staged reads and writes (R328, R342) of a numeric RWE entry of the package or of a collection, by the Host port: READ_STAGED
gives the staged value, WRITE_STAGED sets it and opens the edition again, and without the key it is NO_KEY and without effect.
The ACTIVE edition is as it was. -/
def Sys2Proof.Claims.StagedAccess : Prop :=
  ∀ (s : State) (r : OdRow) (e : Edition) (idx sub o : Nat) (d : Bytes), sub ≠ 0 → odRow idx sub = some r → r.acc = 4 → r.ty ≤ 8 →
    (s.cursors (hostPort s)).object r.scope = o → s.ed.staged = some e →
    (servedAt s s.act.controlPort 3 idx →
      ∃ t, exec (.readStaged (hostPort s) idx sub 0 r.len) s = .next t ∧ answered t (hostPort s) 0 (s.editionValue e r sub o) ∧ onlyWindow s t) ∧
    (servedAt s s.act.controlPort 4 idx → s.ed.holder = .host → d.length = r.len → odLo r ≤ leNat (dropRsvd idx d) →
      leNat (dropRsvd idx d) ≤ s.odHi r → s.objectOk r.scope o = true →
      (s.putValue e r sub o (dropRsvd idx d)).domainBytes ≤ s.act.domainBytes + 0x4000000 →
      s.ed.stagedState = 1 ∨ s.ed.stagedState = 3 ∨ s.ed.stagedState = 4 →
      ∃ t, exec (.writeStaged (hostPort s) idx sub 0 d) s = .next t ∧ answered t (hostPort s) 0 [] ∧
        t.ed.staged = some (s.putValue e r sub o (dropRsvd idx d)) ∧ t.ed.stagedState = 1 ∧ t.act = s.act ∧ t.mem = s.mem) ∧
    (servedAt s s.act.controlPort 4 idx → s.ed.holder ≠ .host →
      ∃ t, exec (.writeStaged (hostPort s) idx sub 0 d) s = .next t ∧ answered t (hostPort s) 3 [] ∧ onlyWindow s t)

/-- Operations of a dictionary window, staged access among them (R327-R330, R342). -/
def Obligations.DictionaryOperations : Prop :=
  WindowOperations ∧ StagedAccess

/-- The privilege of the key (R11, R329, R338): without it a write of an RWK entry by the Host port is NO_KEY and has no effect,
whatever its value; and any write but a cursor from a port that is not control-capable is refused and has no effect. -/
def Obligations.WritesNeedTheKey : Prop :=
  ∀ (s : State) (idx sub off : Nat) (d : Bytes) (r : OdRow), sub ≠ 0 → odRow idx sub = some r → cursorScope idx sub = none →
    (r.acc = 5 → r.vis ≤ 1 → s.unavailable r ((s.cursors (hostPort s)).object r.scope) = false →
      servedAt s s.act.controlPort 2 idx → s.ed.holder ≠ .host →
      ∃ t, exec (.write (hostPort s) idx sub off d) s = .next t ∧ answered t (hostPort s) 3 [] ∧ onlyWindow s t) ∧
    (∀ p, p ≠ s.act.controlPort → servedAt s p 2 idx →
      ∃ t c, exec (.write (.window p) idx sub off d) s = .next t ∧ answered t (.window p) c [] ∧ c ∈ [1, 2, 14] ∧ onlyWindow s t)

/-- The key (R338-R340). Writing 1 takes it when it is free and starts the lease of 2 s, renews it for its holder, and is HELD
for anyone else; writing 0 by its holder and the lease's end break it, and on a break the STAGED edition is discarded, in any state
short of committing; anyone else's 0 is HELD too. -/
def Obligations.KeyIsTakenAndBroken : Prop :=
  ∀ s : State,
    (servedAt s s.act.controlPort 2 0x1020 →
      (s.ed.holder = .free ∨ s.ed.holder = .host → ∃ t, exec (.keyTake (hostPort s)) s = .next t ∧ answered t (hostPort s) 0 [] ∧
        t.ed = { s.ed with holder := .host, lease := s.tsc + 2000000000 } ∧ t.mem = s.mem) ∧
      (∀ i, s.ed.holder = .session i → ∃ t, exec (.keyTake (hostPort s)) s = .next t ∧ answered t (hostPort s) 10 [] ∧ onlyWindow s t) ∧
      (∀ i, s.ed.holder = .session i → ∃ t, exec (.keyRelease (hostPort s)) s = .next t ∧ answered t (hostPort s) 10 [] ∧ onlyWindow s t) ∧
      (s.ed.holder = .host → ∃ t, exec (.keyRelease (hostPort s)) s = .next t ∧ answered t (hostPort s) 0 [] ∧
        t.ed.holder = .free ∧ unstagedUnlessCommitting s t ∧ t.act = s.act ∧ t.mem = s.mem) ∧
      (s.ed.holder = .free → ∃ t, exec (.keyRelease (hostPort s)) s = .next t ∧ answered t (hostPort s) 0 [] ∧ onlyWindow s t)) ∧
    (s.running = true → s.ed.holder ≠ .free → s.ed.lease ≤ s.tsc →
      ∃ t, exec .leaseExpiry s = .next t ∧ t.ed.holder = .free ∧ unstagedUnlessCommitting s t ∧ t.act = s.act ∧ t.mem = s.mem) ∧
    (s.tsc < s.ed.lease → exec .leaseExpiry s = .next s)

/-- The edition commands (R342, R343, R348), under the key: what each leaves staged and in which state, and STATE where it is
not allowed; validation ends valid or invalid as the checks of R343 say. -/
def Obligations.EditionCommands : Prop :=
  ∀ s : State,
    (keyedAt s 0x7001 →
      (s.ed.stagedState = 0 → s.ed.confirmed = true → ∃ t, exec (.beginFromActive (hostPort s)) s = .next t ∧
        answered t (hostPort s) 0 [] ∧ t.ed.staged = some { s.activeEdition with num := s.topNumber + 1 } ∧
        t.ed.stagedState = 1 ∧ t.act = s.act ∧ t.mem = s.mem) ∧
      (∀ e, s.ed.stagedState = 0 → s.ed.confirmed = true → s.ed.previous = some e →
        ∃ t, exec (.beginFromPrevious (hostPort s)) s = .next t ∧ answered t (hostPort s) 0 [] ∧
        t.ed.staged = some { e with num := s.topNumber + 1 } ∧ t.ed.stagedState = 1 ∧ t.act = s.act ∧ t.mem = s.mem) ∧
      (s.ed.stagedState ≠ 0 →
        (∃ t, exec (.beginFromActive (hostPort s)) s = .next t ∧ answered t (hostPort s) 6 [] ∧ onlyWindow s t) ∧
        (∃ t, exec (.beginFromPrevious (hostPort s)) s = .next t ∧ answered t (hostPort s) 6 [] ∧ onlyWindow s t)) ∧
      (s.ed.stagedState = 1 ∨ s.ed.stagedState = 3 ∨ s.ed.stagedState = 4 → ∃ t, exec (.validate (hostPort s)) s = .next t ∧
        answered t (hostPort s) 0 [] ∧ t.ed.stagedState = 2 ∧ t.ed.staged = s.ed.staged ∧ t.act = s.act ∧ t.mem = s.mem) ∧
      (1 ≤ s.ed.stagedState → s.ed.stagedState ≤ 4 → ∃ t, exec (.discard (hostPort s)) s = .next t ∧ answered t (hostPort s) 0 [] ∧
        t.ed.stagedState = 0 ∧ t.ed.staged = none ∧ t.act = s.act ∧ t.mem = s.mem) ∧
      (s.ed.confirmed = false → s.tsc < s.ed.deadline → ∃ t, exec (.confirm (hostPort s)) s = .next t ∧ answered t (hostPort s) 0 [] ∧
        t.ed.confirmed = true ∧ t.act = s.act ∧ t.mem = s.mem) ∧
      (s.ed.confirmed = true → ∃ t, exec (.confirm (hostPort s)) s = .next t ∧ answered t (hostPort s) 6 [] ∧ onlyWindow s t)) ∧
    (∀ x, s.running = true → s.ed.staged = some x → s.ed.stagedState = 2 →
      ∃ t, exec .validationDone s = .next t ∧ t.ed.staged = some x ∧ t.act = s.act ∧ t.mem = s.mem ∧
        t.ed.stagedState = if (s.validateEdition x).isNone then 3 else 4)

/-- COMMIT (R345, R347) of a valid STAGED edition: on /LM2 it takes an instant 5 ms to 60 s ahead; instant 0 means 5 ms ahead, on both
devices; any other instant is RANGE, and without a valid edition the command is STATE. -/
def Sys2Proof.Claims.CommitCommand : Prop :=
  ∀ (s : State) (n : Nat), keyedAt s 0x7002 → n < 2 ^ 64 →
    (s.ed.stagedState = 3 → s.ed.confirmed = true → s.ed.phase = 0 →
      n = 0 ∨ (s.pkg.mark ≠ 1 ∧ s.tsc + 5000000 ≤ n ∧ n ≤ s.tsc + 60000000000) →
      ∃ t, exec (.commit (hostPort s) n) s = .next t ∧ answered t (hostPort s) 0 [] ∧
        t.ed.stagedState = 5 ∧ t.ed.phase = 1 ∧ t.ed.instant = (if n = 0 then s.tsc + 5000000 else n) ∧ t.ed.staged = s.ed.staged ∧
        t.act = s.act ∧ t.mem = s.mem) ∧
    (n ≠ 0 → s.pkg.mark = 1 ∨ n < s.tsc + 5000000 ∨ s.tsc + 60000000000 < n →
      ∃ t, exec (.commit (hostPort s) n) s = .next t ∧ answered t (hostPort s) 4 [] ∧ onlyWindow s t) ∧
    (n = 0 → s.ed.stagedState ≠ 3 ∨ s.ed.confirmed = false →
      ∃ t, exec (.commit (hostPort s) n) s = .next t ∧ answered t (hostPort s) 6 [] ∧ onlyWindow s t)

/-- The question and the decision (R289, R345): where every die agrees the decision is go; a die that is not prepared fails the commit
at once, and any other disagreement at the decision, STAGED returning to valid with the failure held. -/
def Sys2Proof.Claims.CommitAgreement : Prop :=
  ∀ (s : State) (x : Edition) (answers : List (Nat × HashAnswer)), s.running = true → s.ed.staged = some x →
    (s.ed.phase = 1 → s.ed.instant ≤ s.tsc + 2000000 →
      (s.verdict (leNat (s.editionHash x)) answers = none → exec (.commitHashQuery answers) s =
        .next { s with ed := { s.ed with phase := 2, decision := 1, decisionDie := 0 } }) ∧
      (∀ n d, s.verdict (leNat (s.editionHash x)) answers = some (n, d) →
        (n ≠ 1 → exec (.commitHashQuery answers) s =
          .next { s with ed := { s.ed with phase := 2, decision := n + 1, decisionDie := d } }) ∧
        (n = 1 → s.ed.stagedState = 5 → ∃ t, exec (.commitHashQuery answers) s = .next t ∧ t.ed.stagedState = 3 ∧ t.ed.phase = 0 ∧
          t.ed.lastCommit = 2 ∧ t.ed.failure = 1 ∧ t.act = s.act ∧ t.ed.staged = some x ∧ t.mem = s.mem))) ∧
    (s.ed.phase = 2 → s.ed.instant ≤ s.tsc + 1000000 →
      (s.ed.decision = 1 → exec .commitDecision s = .next { s with ed := { s.ed with phase := 3 } }) ∧
      (s.ed.decision ≠ 1 → s.ed.stagedState = 5 → ∃ t, exec .commitDecision s = .next t ∧
        t.ed.stagedState = 3 ∧ t.ed.phase = 0 ∧ t.ed.lastCommit = 2 ∧ t.ed.failure = s.ed.decision - 1 ∧ t.act = s.act ∧
        t.ed.staged = some x ∧ t.mem = s.mem))

/-- At its instant (R289, R344, R346, R347) the new edition is in force, on /LM2 but for its slow objects and on /LM1 whole; the old
one is PREVIOUS and the new one awaits confirmation. A link that retrains across the instant fails the commit. -/
def Sys2Proof.Claims.CommitTakesForce : Prop :=
  ∀ (s : State) (x : Edition), s.ed.staged = some x → s.atInstant = true →
    (s.retraining = none →
      (s.pkg.mark ≠ 1 → ∃ t, exec .commitInstant s = .next t ∧ t.act = mixEdition s.act x ∧ t.ed.previous = some s.act ∧
        t.ed.confirmed = false ∧ t.ed.lastCommit = 1 ∧ t.ed.staged = none ∧ t.ed.stagedState = 0 ∧ t.ed.quiescing = isSlow s.act x) ∧
      (s.pkg.mark = 1 → s.act.colls.any s.inFlight = false → s.ed.heldReqs = [] → ∃ t, exec .quiescedSwap s = .next t ∧ t.act = x ∧
        t.ed.previous = some s.act ∧ t.ed.confirmed = false ∧ t.ed.staged = none)) ∧
    (∀ d, s.retraining = some d → s.ed.stagedState = 5 →
      (s.pkg.mark ≠ 1 → ∃ t, exec .commitInstant s = .next t ∧ t.act = s.act ∧ t.ed.staged = some x ∧ t.ed.stagedState = 3 ∧
        t.ed.failure = 4) ∧
      (s.pkg.mark = 1 → s.act.colls.any s.inFlight = false → s.ed.heldReqs = [] → ∃ t, exec .quiescedSwap s = .next t ∧
        t.act = s.act ∧ t.ed.staged = some x ∧ t.ed.stagedState = 3 ∧ t.ed.failure = 4))

/-- When its quiesce ends the edition is in force whole, also one that a revert brings back (R344, R348); an unconfirmed edition gives way
to PREVIOUS at the deadline, on /LM1 by way of a quiesce. -/
def Sys2Proof.Claims.QuiesceAndRevert : Prop :=
  ∀ (s : State) (x : Edition), s.running = true →
    (s.ed.incoming = some x → s.ed.quiescing = true → s.drained x = true → s.ed.heldReqs = [] →
      ∃ t, exec .quiesceComplete s = .next t ∧ t.act = x ∧ t.ed.quiescing = false ∧ t.ed.quiesced = [] ∧ t.ed.incoming = none) ∧
    (s.ed.previous = some x → s.ed.confirmed = false → s.ed.quiescing = false → s.ed.deadline ≤ s.tsc →
      (s.pkg.mark ≠ 1 → ∃ t, exec .confirmDeadline s = .next t ∧ t.act = mixEdition s.act x ∧ t.ed.previous = none ∧
        t.ed.confirmed = true ∧ t.ed.lastCommit = 3) ∧
      (s.pkg.mark = 1 → exec .confirmDeadline s = .next { s with
        ed := { s.ed with quiescing := true, incoming := some x, reverting := true, quiesced := s.act.colls } }))

/-- A commit from its command to its end, and a revert. -/
def Obligations.CommitsAndReverts : Prop :=
  CommitCommand ∧ CommitAgreement ∧ CommitTakesForce ∧ QuiesceAndRevert

/-- Entries of the control ports whose write starts or ends something (R168, R179, R192, R193, R200, R243, R322, R367), by the Host
port. A job is aborted at once, or, while writes it made wait, is marked to end; a trigger waits on its die, or is refused when its
queue is full; a faulted role starts again, or waits for the handler that holds its context; the clean lines of a collection leave the
cache; a preparation for D3cold starts and ends; a selected counter takes the value. -/
def Obligations.ControlEntries : Prop :=
  ∀ (s : State) (n : Nat),
    (servedAt s s.act.controlPort 2 0x4014 → n < 2 ^ 32 →
      (∀ j, s.job? n = some j → s.jobBusy n = false → ∃ t, exec (.jobAbort (hostPort s) n) s = .next t ∧
        answered t (hostPort s) 0 [] ∧ t.job? n = none ∧ ∃ y ∈ t.wb.ended, y.num = n ∧ y.status = 0x800A) ∧
      (∀ j, s.job? n = some j → s.jobBusy n = true → ∃ t, exec (.jobAbort (hostPort s) n) s = .next t ∧
        answered t (hostPort s) 0 [] ∧ t.job? n = some { j with ending := some (0x800A, 1) } ∧ t.mem = s.mem) ∧
      (s.job? n = none → ∃ t, exec (.jobAbort (hostPort s) n) s = .next t ∧ answered t (hostPort s) 6 [] ∧ onlyWindow s t)) ∧
    (servedAt s s.act.controlPort 2 0x4121 → n < 4096 → s.live n = true →
      (∀ w ∈ s.pkg.asm.wings, s.merges (wingDie w) 3 n = true ∨ s.waitingOn (wingDie w) 3 < 16) →
      ∃ t, exec (.verifyRequest (hostPort s) n) s = .next t ∧ answered t (hostPort s) 0 [] ∧ t.mem = s.mem ∧
        ∀ w ∈ s.pkg.asm.wings, s.wingUp w = true → w ∈ s.wingsOf n → waits t (wingDie w) 3 n) ∧
    (servedAt s s.act.controlPort 2 0x4112 → n < 2 ^ 64 → (s.docent? (n % 256)).isSome = true → s.dieRuns (docDie (n % 256)) = true →
      s.boundTo (n % 256) 0x10 = true →
      (s.merges (docDie (n % 256)) 0x10 (n / 256) = true ∨ s.waitingOn (docDie (n % 256)) 0x10 < 16 →
        ∃ t, exec (.customerTrigger (hostPort s) n) s = .next t ∧ answered t (hostPort s) 0 [] ∧ t.mem = s.mem ∧
          waits t (docDie (n % 256)) 0x10 (n / 256)) ∧
      (s.merges (docDie (n % 256)) 0x10 (n / 256) = false → 16 ≤ s.waitingOn (docDie (n % 256)) 0x10 →
        ∃ t, exec (.customerTrigger (hostPort s) n) s = .next t ∧ answered t (hostPort s) 11 [] ∧ onlyWindow s t)) ∧
    (∀ x, servedAt s s.act.controlPort 2 0x4111 → n < 64 → s.docent? n = some x → s.dieRuns (docDie n) = true →
      (x.roleFaulted = false → ∃ t, exec (.roleRestart (hostPort s) n) s = .next t ∧ answered t (hostPort s) 6 [] ∧ onlyWindow s t) ∧
      (x.roleFaulted = true → s.act.hasProgram (s.roleIn s.act n) = true →
        ∃ t y, exec (.roleRestart (hostPort s) n) s = .next t ∧ answered t (hostPort s) 0 [] ∧ t.docent? n = some y ∧ t.mem = s.mem ∧
          y.roleFaulted = false ∧
          (x.a.running = false ∨ x.a.isRole = true → y.a.running = true ∧ y.a.isRole = true ∧ y.a.pc = 0) ∧
          (x.a.running = true → x.a.isRole = false → y.a = x.a ∧ y.roleDue = true))) ∧
    (keyedAt s 0x8010 → n < 4096 →
      (s.live n = true → (∀ m ∈ s.mem.wmb, m.coll ≠ n) → (∀ l ∈ s.mem.cache, l.coll = n → l.dirty = false ∧ l.queued = false) →
        ∃ t, exec (.writeBackCollection (hostPort s) n) s = .next t ∧ answered t (hostPort s) 0 [] ∧ t.mem.dram = s.mem.dram ∧
          t.mem.cat = s.mem.cat ∧ ∀ l ∈ t.mem.cache, l.coll = n → ¬(l.wing ∈ s.wingsOf n ∧ s.wingUp l.wing = true)) ∧
      (s.live n = false → ∃ t, exec (.writeBackCollection (hostPort s) n) s = .next t ∧ answered t (hostPort s) 4 [] ∧ onlyWindow s t)) ∧
    (keyedAt s 0x1102 →
      (∃ t, exec (.prepareD3cold (hostPort s)) s = .next t ∧ answered t (hostPort s) 0 [] ∧ t.pw.prepared = true ∧ t.mem = s.mem ∧
        t.act = s.act) ∧
      (∃ t, exec (.endD3coldPreparation (hostPort s)) s = .next t ∧ answered t (hostPort s) 0 [] ∧ t.pw.prepared = false ∧
        t.pw.preparing = false ∧ t.mem = s.mem ∧ t.act = s.act)) ∧
    (∀ r sub obj, servedAt s s.act.controlPort 2 0x5002 → n < 2 ^ 64 → s.selected = some (r, sub, obj) →
      ∃ t, exec (.counterWrite (hostPort s) n) s = .next t ∧ answered t (hostPort s) 0 [] ∧ t.counter r.idx sub obj = n ∧ t.mem = s.mem)

/-- Orders to the selected channel and to a Wing under the key (R263, R266, R268, R446-R448): a freeze freezes it with trigger 4;
a re-entry or an evacuation of a frozen channel starts with a trigger; an order that does not fit the channel's state is STATE. A
Wing isolated by hand leaves service with cause 1; one that is isolated and not lost with the bridge starts to return,
and an order to isolate it again changes nothing (the model's reading, log 21). -/
def Obligations.ChannelAndWingOrders : Prop :=
  ∀ (s : State),
    (∀ c w sel, keyedAt s 0x2803 → w = chanCursor s / 256 → sel = chanCursor s % 256 → s.chan? w sel = some c →
      s.dieGone (wingDie w) = false →
      (c.st ≠ 0 → c.st ≠ 3 → c.st ≠ 6 → s.wingUp w = true → s.reserveHeld w sel = true →
        ∃ t, exec (.freezeOrder (hostPort s)) s = .next t ∧ answered t (hostPort s) 0 [] ∧ froze s t w sel 4 c) ∧
      (c.st = 3 ∨ c.st = 6 → ∃ t, exec (.reenterOrder (hostPort s)) s = .next t ∧ answered t (hostPort s) 0 [] ∧
        waits t (wingDie w) 2 sel ∧ t.mem = s.mem ∧ t.chans = s.chans) ∧
      (c.st = 3 → ∃ t, exec (.evacuateOrder (hostPort s)) s = .next t ∧ answered t (hostPort s) 0 [] ∧
        waits t (wingDie w) 2 (sel + 256) ∧ t.mem = s.mem ∧ t.chans = s.chans) ∧
      (c.st ≠ 3 → ∃ t, exec (.evacuateOrder (hostPort s)) s = .next t ∧ answered t (hostPort s) 6 [] ∧ onlyWindow s t) ∧
      (c.st ≠ 3 → c.st ≠ 6 → ∃ t, exec (.reenterOrder (hostPort s)) s = .next t ∧ answered t (hostPort s) 6 [] ∧ onlyWindow s t) ∧
      (c.st = 0 ∨ c.st = 3 ∨ c.st = 6 →
        ∃ t, exec (.freezeOrder (hostPort s)) s = .next t ∧ answered t (hostPort s) 6 [] ∧ onlyWindow s t)) ∧
    (∀ w d, keyedAt s 0x8002 → w < 4 → s.die? (wingDie w) = some d → d.present = true →
      (d.isoState ≠ 1 → d.isoState ≠ 3 → (∀ j ∈ s.wb.jobs, j.wing ≠ w) → (∀ x ∈ s.chans, x.wing = w → x.wq = []) →
        ∃ t e, exec (.wingIsolate (hostPort s) w) s = .next t ∧ answered t (hostPort s) 0 [] ∧
          t.die? (wingDie w) = some e ∧ e.isoState = 1 ∧ e.isoCause = 1 ∧ e.inService = false ∧ t.mem.dram = s.mem.dram ∧
          ∀ r ∈ t.mem.reads, r.wing ≠ w) ∧
      (d.isoState = 1 → (d.isoCause ≠ 4 ∨ s.pkg.bridgeDown = false) →
        (∃ t e, exec (.wingReturn (hostPort s) w) s = .next t ∧ answered t (hostPort s) 0 [] ∧ t.die? (wingDie w) = some e ∧
          e.isoState = 2 ∧ t.mem.dram = s.mem.dram ∧ (∀ l ∈ t.mem.cache, l.wing ≠ w)) ∧
        (∃ t, exec (.wingIsolate (hostPort s) w) s = .next t ∧ answered t (hostPort s) 0 [] ∧ onlyWindow s t)) ∧
      (d.isoState ≠ 1 → ∃ t, exec (.wingReturn (hostPort s) w) s = .next t ∧ answered t (hostPort s) 6 [] ∧ onlyWindow s t))

/-! The Field port, sessions, records and identity (R333-R337, R355-R364, R433-R436, R452, R453). -/

namespace Sys2Proof.Claims

/-- An SPDM request is answered over a way: the last message is that way's answer. -/
def spdmAnswered (t : State) (via : SpdmVia) (ok : Bool) (body : Bytes) : Prop := t.out.getLast? = some (.spdm via ok body)

/-- The SPDM requests the standard answers from the device's identity alone (R434), with the request's code. -/
def plainRequests : List (Nat × (SpdmVia → Bytes → Instr)) :=
  [(0x84, .getVersion), (0xE1, .getCapabilities), (0xE3, .negotiateAlgorithms), (0x81, .getDigests), (0x83, .challenge)]

/-- Nothing but messages, and the sequence number of a session's own frame, differs. -/
def onlyAnswered (s t : State) : Prop := t = { s with out := t.out, ed := { s.ed with sessions := t.ed.sessions } }

/-- A session is open and the Field port serves it. -/
abbrev openSession (s : State) (x : Session) : Prop := s.fieldOpen = true ∧ x.opened = true ∧ s.session? x.id = some x

end Sys2Proof.Claims

/-- SPDM over DOE, over DAP and in a session (R428, R434, R435). The requests answered from identity change nothing but the answer;
measurements are those of R435, each alone or all together, and an index there is none of is an error; a key exchange or its finish by
another way than frames of DAP is an error; over DAP before the ROM has handed over a frame is BUSY with a hint of 100 ms. -/
def Obligations.SpdmRequests : Prop :=
  ∀ (s : State) (via : SpdmVia) (m : Bytes), s.spdmOpen via = true →
    (s.tooEarly via = false →
      (∀ k ∈ plainRequests, ∃ t b, exec (k.2 via m) s = .next t ∧ spdmAnswered t via true b ∧ onlyAnswered s t) ∧
      (∀ off n, ∃ t b, exec (.getCertificate via off n) s = .next t ∧ spdmAnswered t via true b ∧ onlyAnswered s t) ∧
      (∀ i, 1 ≤ i → i ≤ 8 → ∃ t sig, exec (.getMeasurements via i m) s = .next t ∧
        spdmAnswered t via true (s.measurement i ++ sig) ∧ onlyAnswered s t) ∧
      (∃ t sig, exec (.getMeasurements via 0xFF m) s = .next t ∧ onlyAnswered s t ∧
        spdmAnswered t via true (((List.range 8).flatMap fun i => s.measurement (i + 1)) ++ sig)) ∧
      (∀ i, i ≠ 0xFF → i = 0 ∨ 8 < i →
        ∃ t, exec (.getMeasurements via i m) s = .next t ∧ spdmAnswered t via false [] ∧ onlyAnswered s t) ∧
      (via ≠ .dap →
        (∃ t, exec (.keyExchange via m) s = .next t ∧ spdmAnswered t via false [] ∧ onlyAnswered s t) ∧
        (∃ t, exec (.finish via m) s = .next t ∧ spdmAnswered t via false [] ∧ onlyAnswered s t))) ∧
    (via = .dap → s.pkg.fwRunning = false → ∃ t, exec (.getVersion via m) s = .next t ∧
      spdmAnswered t via false [100, 0, 0, 0] ∧ onlyAnswered s t)

/-- DAP sessions from handshake to end (R333-R336, R349). A key exchange that verifies under a provisioned root makes a session that is
not open, and none when 8 are; FINISH opens the one its transcript closes; HEARTBEAT is answered; the end of a session, by its own
request, by its idle time or with the field link, removes it, and breaks the key it holds. -/
def Obligations.SessionsStartAndEnd : Prop :=
  ∀ (s : State) (m : Bytes),
    (s.fieldOpen = true → s.pkg.fwRunning = true →
      (8 ≤ s.ed.sessions.length → ∃ t, exec (.keyExchange .dap m) s = .next t ∧ spdmAnswered t .dap false [3] ∧ t.ed = s.ed) ∧
      (s.ed.sessions.length < 8 → s.id.controlRoot = none →
        ∃ t, exec (.keyExchange .dap m) s = .next t ∧ spdmAnswered t .dap false [] ∧ t.ed = s.ed) ∧
      (∀ k, s.ed.sessions.length < 8 → s.id.controlRoot = some k → Config.spdmVerifies 0 (k ++ m) = true →
        (∀ i ∈ s.sessionIds, i ≠ 1 + Config.freeNat s.fresh % (2 ^ 32 - 1)) →
        ∃ t b x, exec (.keyExchange .dap m) s = .next t ∧ spdmAnswered t .dap true b ∧ t.mem = s.mem ∧
          t.ed = { s.ed with sessions := s.ed.sessions ++ [x] } ∧ x.opened = false ∧ x.last = 0 ∧ x.id ∉ s.sessionIds ∧ x.id ≠ 0) ∧
      (∀ k, s.ed.sessions.length < 8 → s.id.controlRoot = some k → Config.spdmVerifies 0 (k ++ m) = false →
        ∃ t, exec (.keyExchange .dap m) s = .next t ∧ spdmAnswered t .dap false [] ∧ t.ed = s.ed ∧ t.mem = s.mem) ∧
      (∀ x, s.ed.sessions.find? (fun x => !x.opened && Config.spdmVerifies x.id m) = some x →
        ∃ t b, exec (.finish .dap m) s = .next t ∧ spdmAnswered t .dap true b ∧ t.ed.sessions =
          s.ed.sessions.map fun y => if y.id = x.id then { y with opened := true, idleFrom := s.tsc } else y) ∧
      (s.ed.sessions.find? (fun x => !x.opened && Config.spdmVerifies x.id m) = none →
        ∃ t, exec (.finish .dap m) s = .next t ∧ spdmAnswered t .dap false [] ∧ onlyAnswered s t)) ∧
    (∀ x, openSession s x →
      (∃ t b y, exec (.heartbeat x.id) s = .next t ∧ spdmAnswered t (.session x.id) true b ∧ t.session? x.id = some y ∧
        y = { x with last := x.last + 1, reply := y.reply, idleFrom := s.tsc } ∧ onlyAnswered s t) ∧
      (∃ t b, exec (.endSession x.id) s = .next t ∧ .spdm (.session x.id) true b ∈ t.out ∧ t.session? x.id = none ∧ (∀ c ∈ t.ed.cursors, c.owner ≠ 0x10000 + x.id) ∧
        t.ed.holder ≠ .session x.id ∧ t.act = s.act ∧ t.mem = s.mem) ∧
      (s.running = true → x.idleFrom + s.act.nat 0x1031 1 0 60 * 1000000000 ≤ s.tsc →
        ∃ t, exec (.sessionIdleTimeout x.id) s = .next t ∧ t.session? x.id = none ∧ t.ed.holder ≠ .session x.id ∧ t.act = s.act) ∧
      (s.tsc < x.idleFrom + s.act.nat 0x1031 1 0 60 * 1000000000 → exec (.sessionIdleTimeout x.id) s = .next s)) ∧
    (∃ t, exec .fieldLinkLoss s = .next t ∧ t.ed.sessions = [] ∧ t.pkg.fieldLink = false ∧ t.act = s.act ∧ t.mem = s.mem ∧
      (∀ i ∈ s.sessionIds, t.ed.holder ≠ .session i)) ∧
    (s.running = true → s.pkg.primary = 0 → exec .fieldLinkUp s = .next { s with pkg := { s.pkg with fieldLink := true } })

/-- Frames of the Field port outside a session (R333, R336): a dropped frame is counted and changes nothing else; an echo request
is answered; a solicitation for the device's own address is answered to its source, or to every node where it is an address probe, and
any other is not. -/
def Sys2Proof.Claims.FieldFrames : Prop :=
  ∀ (s : State) (why : DropCause) (source target : Nat) (payload : Bytes), s.fieldOpen = true →
    exec (.dapFrameDrop why) s = .next (s.bump 0x1031 2 0 1) ∧
    exec (.icmpv6Echo source payload) s = .next { s with out := s.out ++ [.echoReply source payload] } ∧
    (source ≠ 0 → exec (.neighborSolicitation source linkLocal) s =
      .next { s with out := s.out ++ [.neighborAdvertisement source linkLocal] }) ∧
    exec (.neighborSolicitation 0 linkLocal) s =
      .next { s with out := s.out ++ [.neighborAdvertisement (0xFF02 * 2 ^ 112 + 1) linkLocal] } ∧
    (target ≠ linkLocal → exec (.neighborSolicitation source target) s = .next s)

/-- Requests of a session by their sequence number (R336, R337): the next one is executed and its reply stored; the last one again
is answered with the stored reply and executes nothing; any other is SEQUENCE. A whole read of the session's record queue takes
its 32 oldest records off it, and a LOST_RECORDS record with the count of those lost enters behind the rest. -/
def Sys2Proof.Claims.SequenceNumbers : Prop :=
  ∀ (s : State) (x : Session) (idx sub off len : Nat), openSession s x → (s.ed.holder = .free ∨ s.tsc < s.ed.lease) →
    (∀ r, x.reply = some r → ∃ t, exec (.read (.dap x.id x.last) idx sub off len) s = .next t ∧
      answered t (.dap x.id x.last) r.1 r.2 ∧ t.mem = s.mem ∧ t.act = s.act ∧
      t.session? x.id = some { x with idleFrom := s.tsc }) ∧
    (∀ n, n ≠ x.last → n ≠ x.last + 1 → ∃ t, exec (.read (.dap x.id n) idx sub off len) s = .next t ∧
      answered t (.dap x.id n) 8 [] ∧ t.session? x.id = some { x with idleFrom := s.tsc } ∧ t.mem = s.mem ∧ t.act = s.act) ∧
    (s.opServed 1 0x6011 = true → x.last + 1 ≠ 2 ^ 32 - 1 →
      ∃ t y b, exec (.sessionQueueRead (.dap x.id (x.last + 1))) s = .next t ∧ answered t (.dap x.id (x.last + 1)) 0 b ∧
        b.length = 1024 ∧ t.session? x.id = some y ∧ y.lost = 0 ∧
        y.queue = x.queue.drop 32 ++ (if x.lost = 0 then [] else [s.sessionLost x.lost]) ∧ y.last = x.last + 1 ∧ y.reply = some (0, b) ∧
        t.mem = s.mem ∧ t.act = s.act)

/-- The Field port outside and inside a session (R333-R337, R364). -/
def Obligations.FieldPort : Prop :=
  FieldFrames ∧ SequenceNumbers

/-- A held record due is written to each of its receivers, or counted lost there, and is held no more (R355, R359, R362, R364); one
not due stays held. -/
def Obligations.HeldRecordsAreDelivered : Prop :=
  ∀ (s : State) (h : HeldRec) (rest : List HeldRec), s.ev.heldRecs = h :: rest →
    (h.body.tsc + 2000 ≤ s.tsc → h.dest.Nodup → ∃ t, exec .recordHoldExpiry s = .next t ∧ t.ev.heldRecs = rest ∧ t.mem = s.mem ∧
      t.act = s.act ∧
      (∀ i x, Recv.session i ∈ h.dest → s.session? i = some x → x.opened = true →
        ∃ y, t.session? i = some y ∧
          (x.queue.length < 64 → y.queue = x.queue ++ [h.body] ∧ y.lost = x.lost) ∧
          (64 ≤ x.queue.length → y.queue = x.queue ∧ y.lost = min (x.lost + 1) 0xFFFFFFFF)) ∧
      (∀ p q f eq, Recv.hostQueue p q ∈ h.dest → s.fn? p = some f → f.queues[q]? = some eq →
        ∃ g e, t.fn? p = some g ∧ g.queues[q]? = some e ∧
          (f.canWrite eq = true → e.tail = (eq.tail + 1) % 2 ^ eq.size ∧ e.lost = eq.lost ∧
            .hostWrite p (eq.base + 32 * eq.tail) h.body.bytes false false ∈ t.out) ∧
          (f.canWrite eq = false → e.tail = eq.tail ∧ e.lost = min (eq.lost + 1) 0xFFFFFFFF))) ∧
    (s.tsc < h.body.tsc + 2000 → exec .recordHoldExpiry s = .next s)

/-- The flash and the fuses under the key (R433, R436). An erase or a program outside the running slot and the provisioning
record starts, and one that meets either is refused with result 1; an operation that succeeds leaves erased bytes 0xFF or
programmed bits cleared, and one that fails result 2; raising the minimum sets it to the running svn and never lowers it; provisioning
fuses the key's digest into the next bank, once. -/
def Obligations.FlashAndFuses : Prop :=
  ∀ s : State,
    (keyedAt s 0xA003 → s.id.flashOp = none → s.id.flashOff < 0x1000000 →
      (s.flashGuarded (s.id.flashOff / 65536 * 65536) 65536 = false →
        ∃ t, exec (.flashErase (hostPort s)) s = .next t ∧ answered t (hostPort s) 0 [] ∧ t.mem = s.mem ∧
          t.id = { s.id with flashOp := some (true, s.id.flashOff / 65536 * 65536, []) }) ∧
      (s.id.flashOff % 256 = 0 → s.flashGuarded s.id.flashOff 256 = false →
        ∃ t, exec (.flashProgram (hostPort s)) s = .next t ∧ answered t (hostPort s) 0 [] ∧ t.mem = s.mem ∧
          t.id = { s.id with flashOp := some (false, s.id.flashOff, slice s.id.flashData 0 256) }) ∧
      (s.flashGuarded (s.id.flashOff / 65536 * 65536) 65536 = true →
        ∃ t, exec (.flashErase (hostPort s)) s = .next t ∧ answered t (hostPort s) 0 [] ∧
          t.id = { s.id with flashResult := 1 }) ∧
      (s.id.flashOff % 256 = 0 → s.flashGuarded s.id.flashOff 256 = true →
        ∃ t, exec (.flashProgram (hostPort s)) s = .next t ∧ answered t (hostPort s) 0 [] ∧
          t.id = { s.id with flashResult := 1 })) ∧
    (∀ x, s.id.flashOp = some x → ∃ t, exec (.flashOpDone false) s = .next t ∧ t = { s with id := t.id, fresh := t.fresh } ∧
      t.id.flashOp = none ∧ t.id.flashResult = 2) ∧
    (∀ a, s.id.flashOp = some (true, a, []) → ∃ t, exec (.flashOpDone true) s = .next t ∧ t = { s with id := t.id } ∧
      t.id.flashOp = none ∧ t.id.flashResult = 0 ∧ (∀ i, i < 65536 → t.flashAt (a + i) = 0xFF) ∧
      ∀ b, b < a ∨ a + 65536 ≤ b → t.flashAt b = s.flashAt b) ∧
    (∀ a d, s.id.flashOp = some (false, a, d) → d.length = 256 → ∃ t, exec (.flashOpDone true) s = .next t ∧ t = { s with id := t.id } ∧
      t.id.flashOp = none ∧ (∀ i, i < 256 → t.flashAt (a + i) = d.getD i 0 &&& s.flashAt (a + i)) ∧
      ∀ b, b < a ∨ a + 256 ≤ b → t.flashAt b = s.flashAt b) ∧
    (keyedAt s 0xA001 → s.id.minSvn < s.id.svn → s.id.svnRaises < 64 → ∃ t, exec (.raiseMinSvn (hostPort s)) s = .next t ∧
      answered t (hostPort s) 0 [] ∧ t.id = { s.id with minSvn := s.id.svn, svnRaises := s.id.svnRaises + 1 }) ∧
    (keyedAt s 0xA001 → s.id.svn ≤ s.id.minSvn →
      ∃ t, exec (.raiseMinSvn (hostPort s)) s = .next t ∧ answered t (hostPort s) 0 [] ∧ onlyWindow s t) ∧
    (∀ key : Bytes, keyedAt s 0xA002 → key.length = 97 → s.id.controlRoot.all (·.length == 97) = true → s.id.provKey.all (·.length == 97) = true →
      (s.id.controlBanks.getLast? ≠ some (sha384 key) → s.id.controlBanks.length < 4 →
        ∃ t, exec (.provisionControlRoot (hostPort s) key) s = .next t ∧ answered t (hostPort s) 0 [] ∧
          t.id.controlBanks = s.id.controlBanks ++ [sha384 key] ∧ t.id.controlRoot = some key ∧ t.id.provBanks = s.id.provBanks) ∧
      (s.id.provBanks.getLast? ≠ some (sha384 key) → s.id.provBanks.length < 4 →
        ∃ t, exec (.provisionKey (hostPort s) key) s = .next t ∧ answered t (hostPort s) 0 [] ∧
          t.id.provBanks = s.id.provBanks ++ [sha384 key] ∧ t.id.provKey = some key ∧ t.id.controlBanks = s.id.controlBanks))

/-- Debug unlock (R452, R453). A response that verifies erases every key of every present Wing, breaks the key and unlocks; one
that does not is counted, ends its nonce and locks out at the third; a key store that does not answer leaves the package refusing
every response. A challenge, by the TAP or by the dictionary, is one nonce until a response ends it; a response outside held boot mode
is refused at once, and in it waits for its check. -/
def Obligations.DebugUnlock : Prop :=
  ∀ s : State,
    (s.id.debugState = 1 → s.debugPasses = true →
      (∃ t, exec .debugSignatureChecked s = .next t ∧ t.id.debugState = 2 ∧ t.id.nonce = none ∧ t.ed.holder = .free ∧
        t.mem.dram = s.mem.dram ∧ ∀ k ∈ t.mem.keys, ∀ d, s.die? (wingDie k.wing) = some d → d.present = false) ∧
      (∀ w d, s.die? (wingDie w) = some d → d.present = true →
        ∃ t, exec (.keyEraseAckTimeout w) s = .next t ∧ t.id.debugState = 3 ∧ t.id.nonce = none ∧ t.mem.dram = s.mem.dram)) ∧
    (s.id.debugState = 1 → s.debugPasses = false → exec .debugSignatureChecked s = .next { s with id := { s.id with
      failures := min 3 (s.id.failures + 1), debugState := if min 3 (s.id.failures + 1) = 3 then 3 else 0, nonce := none } }) ∧
    (∀ r, s.inChain s.pkg.primary = true →
      (∃ t n v, exec (.dbgChal .tap) s = .next t ∧ t.out.getLast? = some (.tdo s.pkg.primary 512 v) ∧ t.id.nonce = some n ∧
        (∀ k, s.id.nonce = some k → n = k) ∧ t.mem = s.mem) ∧
      (s.pkg.phase ≠ 5 → ∃ t, exec (.dbgResp .tap r) s = .next t ∧ t.id.failures = min 3 (s.id.failures + 1) ∧ t.id.nonce = none ∧
        t.mem = s.mem) ∧
      (s.pkg.phase = 5 → s.id.debugState = 0 → ∃ t, exec (.dbgResp .tap r) s = .next t ∧ t.id.debugState = 1 ∧
        t.id.response = slice r 0 96 ∧ t.mem = s.mem)) ∧
    (servedAt s s.act.controlPort 1 0x8020 →
      ∃ t n b, exec (.dbgChal (.dict (hostPort s))) s = .next t ∧ answered t (hostPort s) 0 b ∧ b.length = 64 ∧ t.id.nonce = some n ∧
        (∀ k, s.id.nonce = some k → n = k) ∧ t.mem = s.mem) ∧
    (∀ r : Bytes, r.length = 96 → keyedAt s 0x8020 → s.pkg.phase = 5 → s.id.debugState = 0 →
      ∃ t, exec (.dbgResp (.dict (hostPort s)) r) s = .next t ∧ answered t (hostPort s) 0 [] ∧ t.id.debugState = 1 ∧
        t.id.response = r ∧ t.mem = s.mem)

/-! Telemetry, the Steward, clocks and the emergency input (R288, R369-R395). -/

namespace Sys2Proof.Claims

/-- The emergency sequence has begun in `t` with a cause (R392): every running job has stopped, no move runs on, and what is
stored is as it was. -/
def emergencyBegun (s t : State) (cause : Nat) : Prop :=
  t.pw.emergency = true ∧ t.pw.emergencyCause = cause ∧ t.wb.jobs = [] ∧ t.mem.moves = [] ∧ t.mem.dram = s.mem.dram ∧
  t.mem.cat = s.mem.cat ∧ t.mem.cache = s.mem.cache ∧ t.ed.stagedState ≠ 5

/-- A commit under way has an edition staged. -/
abbrev stagedIsThere (s : State) : Prop := s.ed.stagedState = 5 → s.ed.staged ≠ none

/-- A Wing is out of service and isolated with a cause (R446). -/
def isolated (t : State) (w cause : Nat) : Prop :=
  ∃ e, t.die? (wingDie w) = some e ∧ e.inService = false ∧ e.isoState = 1 ∧ e.isoCause = cause

/-- A record of scope D of a type, source and payload, raised at `s`, is held in `t` for its receivers, when there are any and
it is not late (R355, R359). -/
def recordHeld (s t : State) (type source : Nat) (payload : Bytes) : Prop :=
  s.receivers .d 0xFFFF ≠ [] → s.tsc ≤ s.dieTsc (source / 512) + 2000 →
    ∃ h ∈ t.ev.heldRecs, h.body.type = type ∧ h.body.source = source ∧ h.body.coll = 0xFFFF ∧
      h.dest = s.receivers .d 0xFFFF ∧ h.body.payload = payload

end Sys2Proof.Claims

/-- A die's telemetry (R288, R289, R369, R373): the package holds what it reports, its loss is over, and a Wing in service whose
edition hash differs from the ACTIVE one's is isolated with cause 5. -/
def Sys2Proof.Claims.TelemetryIsHeld : Prop :=
  ∀ (s : State) (die : Nat) (m : Telemetry) (d : Die), s.running = true → s.pkg.fwRunning = true → s.die? die = some d →
    d.present = true →
    (die < 4 ∨ d.inService = false ∨ s.pkg.phase ≠ 4 ∨ m.hash = leNat (s.editionHash s.activeEdition) → ∃ t e, exec (.telemetryMessage die m) s = .next t ∧
      t = { s with dies := t.dies } ∧ t.die? die = some e ∧ e.temp = m.temp ∧ e.rings = m.rings ∧ e.power = m.power ∧
      e.hash = m.hash ∧ e.lastTelemetry = s.tsc ∧ e.telemetryLost = false ∧ e.vddHold = false ∧ e.inService = d.inService) ∧
    (∀ w, die = w + 4 → d.inService = true → d.isoState ≠ 1 → d.isoState ≠ 3 → s.pkg.phase = 4 → m.hash ≠ leNat (s.editionHash s.activeEdition) →
      ∃ t, exec (.telemetryMessage die m) s = .next t ∧ isolated t w 5)

/-- The Steward's round, its watchdog and its restart (R369, R370, R374, R377-R383): a round of the primary Lobby takes the package power into the mean of
the last ten, gives each Wing in service the voltage its pace asks for, which stays within 650 to 900 mV, and stores nothing; a Steward
that has made no round for 10 ms is restarted, every present Wing at 850 mV and the throttle at stage 16, with the guarantee suspended
until its first round. The package power is the sum over the rails, and the mean that of ten rounds: the model's reading (log 5). -/
def Obligations.StewardRounds : Prop :=
  ∀ (s : State),
    (s.stewardRuns = true → ∃ t, exec (.telemetryRound s.pkg.primary) s = .next t ∧ t.pw.samples = (s.packagePower :: s.pw.samples).take 10 ∧
      t.pw.power = t.pw.samples.foldl (· + ·) 0 / t.pw.samples.length ∧ t.pw.lastRound = s.tsc ∧
      t.mem.dram = s.mem.dram ∧ t.mem.cat = s.mem.cat ∧
      t.chans.map (fun c => (c.wing, c.sel, c.st, c.fset)) = s.chans.map (fun c => (c.wing, c.sel, c.st, c.fset)) ∧
      (∀ w d, w ∈ s.pkg.asm.wings → s.wingUp w = true → s.die? (wingDie w) = some d →
        ∃ e, t.die? (wingDie w) = some e ∧ e.vdd = nextVdd d.vddHold d.vdd d.pace s.paceR) ∧
      ((∀ d ∈ s.dies, 650 ≤ d.vdd ∧ d.vdd ≤ 900) → ∀ d ∈ t.dies, 650 ≤ d.vdd ∧ d.vdd ≤ 900)) ∧
    (∀ lobby, s.stewardRuns = false ∨ lobby ≠ s.pkg.primary → exec (.telemetryRound lobby) s = .next s) ∧
    (s.running = true → s.pw.stewardUp = true → s.pw.lastRound + 10000000 ≤ s.tsc →
      ∃ t, exec .stewardWatchdog s = .next t ∧ t.pw.stewardUp = false ∧ t.pw.stage = 16 ∧ bitSet t.pw.causes 2 = true ∧
        t.mem = s.mem ∧ ∀ w ∈ s.pkg.asm.wings, ∀ e, t.die? (wingDie w) = some e → e.present = true → e.vdd = 850) ∧
    (s.tsc < s.pw.lastRound + 10000000 → exec .stewardWatchdog s = .next s) ∧
    (s.running = true → s.pw.stewardUp = false → ∃ t, exec .stewardRestartDone s = .next t ∧ t.pw.stewardUp = true ∧
      t.pw.lastRound = s.tsc ∧ bitSet t.pw.causes 2 = false ∧ t.mem = s.mem)

/-- Rails, lost telemetry and the pace comparator (R371-R373, R378, R379). A Wing's rail that faults isolates that Wing with cause
6 and any other rail starts the emergency sequence, by alert or by poll; a regulator that answers with no fault has its
reading taken; telemetry lost for 1 ms puts a Wing at 900 mV and holds it there, and for 10 ms isolates it with cause 7; a comparator
alert of a ring raises a Wing's voltage by 25 mV up to 900, where it is not held. -/
def Sys2Proof.Claims.RailsAndTelemetryLoss : Prop :=
  ∀ (s : State) (w : Nat) (d : Die), s.stewardRuns = true → w < 4 → s.die? (wingDie w) = some d → d.present = true →
    (∀ status, d.isoState ≠ 1 → d.isoState ≠ 3 →
      (∃ t, exec (.pmbAlert w status) s = .next t ∧ isolated t w 6) ∧
      (∀ v i, ∃ t, exec (.pmbusPoll [⟨w, true, v, i, status, true⟩]) s = .next t ∧ isolated t w 6)) ∧
    (∀ rail status, 4 ≤ rail → s.pw.emergency = false → stagedIsThere s →
      (∃ t, exec (.pmbAlert rail status) s = .next t ∧ emergencyBegun s t 4) ∧
      (∀ v i, ∃ t, exec (.pmbusPoll [⟨rail, false, v, i, status, false⟩]) s = .next t ∧ emergencyBegun s t 4)) ∧
    (∀ rail status v i, exec (.pmbusPoll [⟨rail, true, v, i, status, false⟩]) s = .next { s with
      pw := { s.pw with rails := s.pw.rails.filter (·.1 != rail) ++ [(rail, v * i, s.railEstimate rail)] } }) ∧
    (d.inService = true →
      (d.telemetryLost = false → d.lastTelemetry + 1000000 ≤ s.tsc → ∃ t e, exec (.telemetryLost (wingDie w)) s = .next t ∧
        t.die? (wingDie w) = some e ∧ e.telemetryLost = true ∧ e.vdd = 900 ∧ e.vddHold = true ∧ t.mem = s.mem ∧ t.chans = s.chans) ∧
      (s.tsc < d.lastTelemetry + 1000000 → exec (.telemetryLost (wingDie w)) s = .next s ∧
        exec (.telemetryIsolationTimeout w) s = .next s) ∧
      (d.lastTelemetry + 10000000 ≤ s.tsc → d.isoState ≠ 1 → d.isoState ≠ 3 → ∃ t, exec (.telemetryIsolationTimeout w) s = .next t ∧ isolated t w 7) ∧
      (∀ ring pace, pace < s.paceR → ring < d.rings.length → ∃ t e, exec (.paceComparatorAlert ⟨w, ring⟩ pace) s = .next t ∧
        t.die? (wingDie w) = some e ∧ e.rings = d.rings.set ring pace ∧ e.vdd = (if d.vddHold then d.vdd else min 900 (d.vdd + 25)) ∧
        t.mem = s.mem ∧ t.chans = s.chans) ∧
      (∀ ring pace, s.paceR ≤ pace → exec (.paceComparatorAlert ⟨w, ring⟩ pace) s = .next s))

/-- Telemetry, its loss, the rails and the pace comparator (R288, R289, R369-R379). -/
def Obligations.TelemetryAndRails : Prop :=
  TelemetryIsHeld ∧ RailsAndTelemetryLoss

/-- Heat and clocks (R282, R384, R385, R387, R388). A die at the trip point asserts THERMTRIP_N and starts the emergency sequence; a PLL
out of lock is held lost until it relocks; one that does not in 50 us has its domain's outcome: the emergency sequence, the Steward's
restart, the loss of the domain's link ports, or a Wing's isolation; REFCLK absent for 1 ms starts the emergency sequence, and its
return ends the absence. -/
def Obligations.HeatAndClocks : Prop :=
  ∀ (s : State) (die : Nat) (d : Die), s.running = true → s.pw.emergency = false → stagedIsThere s → s.die? die = some d → d.present = true →
    (∃ t, exec (.thermtrip die) s = .next t ∧ t.pkg.thermtrip = true ∧ emergencyBegun s t 3) ∧
    (∀ dom, dom ∈ pllDomains die → dom ≠ corridorDomain die → dom ≠ 1 → s.pllOut die dom = false →
      exec (.pllLockLoss die dom) s = .next { s with pw := { s.pw with pllLost := s.pw.pllLost ++ [⟨die, dom, s.tsc⟩] } }) ∧
    (∀ dom, s.pllOut die dom = true → exec (.pllLockLoss die dom) s = .next s) ∧
    (∀ dom, ∃ t, exec (.pllRelock die dom) s = .next t ∧ (dom < 9 → t = { s with pw := t.pw }) ∧ t.pllOut die dom = false ∧
      ∀ a b, (a ≠ die ∨ b ≠ dom) → t.pllOut a b = s.pllOut a b) ∧
    (∀ dom, (∀ l ∈ s.pw.pllLost, l.die = die → l.domain = dom → s.tsc < l.at_ + 50000) →
      exec (.pllRelockTimeout die dom) s = .next s) ∧
    (∀ dom l, l ∈ s.pw.pllLost → l.die = die → l.domain = dom → l.at_ + 50000 ≤ s.tsc → dom ≠ corridorDomain die →
      (dom = 1 → ∃ t, exec (.pllRelockTimeout die dom) s = .next t ∧ emergencyBegun s t 5 ∧ t.pllOut die dom = false) ∧
      (dom = 6 → die < 4 → ∃ t, exec (.pllRelockTimeout die dom) s = .next t ∧ t.pw.stewardUp = false ∧ t.pllOut die dom = false) ∧
      (dom = 2 ∨ dom = 3 ∨ dom = 4 → die < 4 → ∃ t, exec (.pllRelockTimeout die dom) s = .next t ∧ t.mem.dram = s.mem.dram ∧
        ∀ p ∈ domainPorts die dom, ∀ f, s.fn? p = some f → f.link = 2 → ∃ g, t.fn? p = some g ∧ g.link = 1) ∧
      (9 ≤ dom → 4 ≤ die → d.isoState ≠ 1 → d.isoState ≠ 3 → ∃ t, exec (.pllRelockTimeout die dom) s = .next t ∧ isolated t (die - 4) 8)) ∧
    (s.pw.refclk = true → exec .refclkLoss s = .next { s with pw := { s.pw with refclk := false, refclkLostAt := s.tsc } }) ∧
    (s.pw.refclk = false →
      (∃ t, exec .refclkReturn s = .next t ∧ t.pw.refclk = true ∧ t.mem = s.mem) ∧
      (s.pw.refclkLostAt + 1000000 ≤ s.tsc → ∃ t, exec .refclkAbsenceTimeout s = .next t ∧ emergencyBegun s t 5) ∧
      (s.tsc < s.pw.refclkLostAt + 1000000 → exec .refclkAbsenceTimeout s = .next s))

/-- The emergency input (R389-R394), sampled every 100 us: both channels asserted start the sequence, whatever the count; one alone
is counted whichever it is, and at the limit of 10 per ms of the holdup entry it starts the sequence with an EPD_FAULT record of the
channel; neither after a count raises an EPD_DISCREPANCY record of the channel and the count times 100 us, and clears the count;
neither with no count does nothing. When the sequence ends every link port is down, every Depot rank is in self-refresh and the
package serves reads alone. -/
def Obligations.EmergencyInput : Prop :=
  ∀ (s : State) (ch : Nat), stagedIsThere s →
    (s.sampling = true →
      (∃ t, exec .epdEmergency s = .next t ∧ emergencyBegun s t 1 ∧ t.pw.epdA = true ∧ t.pw.epdB = true) ∧
      (s.pw.epdCount + 1 < s.epdLimit → exec (.epdSample ch) s = .next { s with pw := { s.pw with
        epdA := ch == 0, epdB := ch != 0, epdCount := s.pw.epdCount + 1, epdLast := ch } }) ∧
      (s.epdLimit ≤ s.pw.epdCount + 1 → (∃ t, exec (.epdFault ch) s = .next t ∧ emergencyBegun s t 2 ∧
        recordHeld s t 0x86 s.primarySrc (leBytes 1 ch)) ∧
        exec (.epdSample ch) s = .next s) ∧
      (s.pw.epdCount ≠ 0 → ∃ t, exec .epdDiscrepancy s = .next t ∧ t.pw.epdCount = 0 ∧ t.pw.epdA = false ∧ t.pw.epdB = false ∧
        t.pw.emergency = false ∧ t.counter 0x2135 2 0 = (s.counter 0x2135 2 0 + 1) % 2 ^ 64 ∧ t.mem = s.mem ∧
        recordHeld s t 0x85 s.primarySrc (pack [(1, s.pw.epdLast), (4, 100 * s.pw.epdCount)])) ∧
      (s.pw.epdCount = 0 → exec .epdDiscrepancy s = .next s)) ∧
    (s.sampling = false → exec .epdEmergency s = .next s ∧ exec (.epdSample ch) s = .next s ∧ exec (.epdFault ch) s = .next s ∧
      exec .epdDiscrepancy s = .next s) ∧
    (s.running = true → s.pw.emergency = true → s.pkg.epdDone = false → ∃ t, exec .epdDone s = .next t ∧ t.pkg.epdDone = true ∧
      (∀ p f, t.fn? p = some f → f.link = 0) ∧ ∀ c ∈ t.chans, isDepot c.sel = true → c.st ≠ 0 → c.selfRefresh = true ∧ c.st ≠ 2)


/-! Power-up, resets and the state after reset (R321, R323, R415-R431, R467). -/

namespace Sys2Proof.Claims

/-- The firmware of a slot runs on the package (R427). -/
def bootedFrom (t : State) (slot : Nat) : Prop := t.pkg.fwRunning = true ∧ t.pkg.fwSlot = slot

end Sys2Proof.Claims

/-- What the state after reset holds where the manual gives a value (R325, R338, R352, R390, R415, R416, R431): PKG_RESET_N
asserted, the TSC at 0, no die in service and none isolated, every context idle, every link port with PERST_N asserted and its link
down, the key free, nothing staged, no collection and no command, the throttle at stage 0 and no emergency. Its assembly, its voltages and
temperatures are the model's (logs 3 and 5). -/
def Obligations.StateAfterReset : Prop :=
  State.reset.pkg.inReset = true ∧ State.reset.tsc = 0 ∧ State.reset.pending = [] ∧ State.reset.out = [] ∧
  (∀ d ∈ State.reset.dies, d.inService = false ∧ d.isoState = 0 ∧ d.offset = 0 ∧ d.uncertain = false) ∧
  (∀ x ∈ State.reset.doc.docents, x.p.running = false ∧ x.a.running = false) ∧
  (∀ f ∈ State.reset.fn, f.perst = true ∧ f.link = 0 ∧ f.ready = false ∧ f.bme = false ∧ f.intStat = 0) ∧
  State.reset.ed.holder = .free ∧ State.reset.ed.staged = none ∧ State.reset.act.colls = [] ∧ State.reset.mem.cmds = [] ∧
  State.reset.mem.colls = [] ∧ State.reset.pw.stage = 0 ∧ State.reset.pw.emergency = false ∧ State.reset.id.debugState = 0 ∧
  State.reset.sound = true

/-- Package reset (R416, R424, R431, R467). Asserting PKG_RESET_N, and the removal of main power, stop everything: no job, no read,
no session, no staged edition and no firmware runs on, and the stored bytes, the fuses and the flash are as they were. Loss of VDD_AON
loses every key. -/
def Sys2Proof.Claims.ResetsKeepStores : Prop :=
  ∀ s : State,
    (∃ t, exec .pkgResetAssert s = .next t ∧ t.pkg.inReset = true ∧ t.pkg.fwRunning = false ∧ t.wb.jobs = [] ∧ t.mem.reads = [] ∧
      t.mem.cache = [] ∧ t.ed.sessions = [] ∧ t.ed.staged = none ∧ t.ed.holder = .free ∧ t.tsc = 0 ∧ t.mem.dram = s.mem.dram ∧
      t.mem.cat = s.mem.cat ∧ t.mem.keys = s.mem.keys ∧ t.id.flash = s.id.flash ∧ t.id.minSvn = s.id.minSvn ∧
      t.id.controlBanks = s.id.controlBanks ∧ t.id.debugState = 0 ∧ t.pending = s.pending) ∧
    (s.pkg.mainPower = true → ∃ t, exec .mainPowerRemoval s = .next t ∧ t.pkg.mainPower = false ∧ t.pkg.inReset = true ∧
      t.wb.jobs = [] ∧ t.mem.dram = s.mem.dram ∧ t.mem.keys = s.mem.keys ∧ t.pkg.thermtrip = false) ∧
    (s.pkg.mainPower = false → exec .mainPowerRemoval s = .next s) ∧
    (s.running = false → ∃ t, exec .vddAonLoss s = .next t ∧ t.mem.keys = [] ∧ t.pkg.aon = false ∧ t.mem.dram = s.mem.dram ∧
      ∀ d ∈ t.dies, d.sealWord = none) ∧
    (s.running = true → s.pw.emergency = false → stagedIsThere s → ∃ t, exec .vddAonLoss s = .next t ∧ t.mem.keys = [] ∧
      t.pkg.aon = false ∧ emergencyBegun s t 4)

/-- WAKE_N (R323). In D3cold with VDD_AON up a frame addressed to the device asserts it, and the frame that is not, or comes elsewhere,
changes nothing; main power's return releases it; no other command asserts it and none releases it. -/
def Sys2Proof.Claims.WakeOnFrame : Prop :=
  ∀ s : State,
    (s.pkg.mainPower = false → s.pkg.aon = true → exec (.wakeFrame Config.macAddress.toNat 0x86DD 45223) s =
      .next { s with pkg := { s.pkg with wake := true } }) ∧
    (∀ mac ty port, s.pkg.mainPower = true ∨ s.pkg.aon = false ∨ mac ≠ Config.macAddress.toNat ∨ ty ≠ 0x86DD ∨ port ≠ 45223 →
      exec (.wakeFrame mac ty port) s = .next s) ∧
    exec .mainPowerReturn s = .next { s with pkg := { s.pkg with mainPower := true, wake := false } } ∧
    (∀ c t, exec c s = .next t → (∀ mac ty port, c ≠ .wakeFrame mac ty port) → t.pkg.wake = true → s.pkg.wake = true) ∧
    (∀ c t, exec c s = .next t → c ≠ .mainPowerReturn → s.pkg.wake = true → t.pkg.wake = true)

/-- Package reset, main power, VDD_AON and WAKE_N (R323, R416, R424, R431, R467). -/
def Obligations.PackageResets : Prop :=
  ResetsKeepStores ∧ WakeOnFrame

/-- Power-up (R415, R417, R419, R424, R427-R430). Deasserting PKG_RESET_N samples the straps and decides the start kind: cold when the
always-on domain lost power, held in recovery, retained in normal mode with every seal in place, otherwise unretained; a start that
retains nothing keeps no collection and no key. The firmware of the slot to boot runs, and a valid slot that is not the one to boot
changes nothing; with neither slot valid, or in recovery slot B invalid, the boot has failed. The Wings that can be released enter
service with the edition in force confirmed. -/
def Obligations.PowerUp : Prop :=
  ∀ (s : State) (node mode slot : Nat), mode < 4 → node < 16 →
    (s.pkg.mainPower = true → s.pkg.inReset = true →
      ∃ t, exec (.pkgResetDeassert node mode) s = .next t ∧ t.pkg.inReset = false ∧ t.pkg.nodeId = node ∧ t.pkg.bootMode = mode ∧
        t.pkg.start = (if s.pkg.aonKept = false then 1 else if mode = 1 then 4 else if mode = 0 ∧ s.sealed = true then 3 else 2) ∧
        t.mem.dram = s.mem.dram ∧
        (s.pkg.aonKept = false → t.mem.colls = [] ∧ t.mem.keys = [] ∧ t.mem.cmds = [] ∧ t.act.colls = []) ∧
        (∀ f, f ∈ t.fn → f.perst = true → ∃ g ∈ s.fn, f = g)) ∧
    (s.pkg.mainPower = false ∨ s.pkg.inReset = false → exec (.pkgResetDeassert node mode) s = .next s) ∧
    (s.running = true → s.pkg.fwRunning = false → s.pkg.bootFailed = false → s.pkg.phase = 0 → slot < 2 → s.pkg.bootMode < 4 →
      (s.boots slot = true → ∃ t, exec (.firmwareSlotVerified slot) s = .next t ∧ bootedFrom t slot ∧
        t.pkg.phase = (if s.pkg.bootMode = 0 then 3 else 5) ∧ t.id.svn = s.slotField slot 8 4 ∧
        (s.pkg.bootMode < 2 → t.mem = s.mem ∧ t.ed = s.ed)) ∧
      (s.slotValid slot = true → s.boots slot = false → exec (.firmwareSlotVerified slot) s = .next s) ∧
      (s.slotValid slot = false →
        ∃ t, exec (.firmwareSlotVerified slot) s = .next t ∧ t = { s with pkg := t.pkg } ∧ t.pkg.fwRunning = false ∧
          slot ∈ t.pkg.slotsTried ∧ (s.pkg.bootMode ≠ 1 → (1 - slot) ∈ s.pkg.slotsTried → t.pkg.bootFailed = true) ∧
          (s.pkg.bootMode ≠ 1 → s.pkg.slotsTried = [] → t.pkg.bootFailed = false) ∧
          (s.pkg.bootMode = 1 → slot = 1 → t.pkg.bootFailed = true))) ∧
    (s.pkg.phase ≠ 3 → exec .wingRelease s = .next s) ∧
    (s.accepting = true → s.pkg.phase = 3 → s.pkg.asm.wings.any s.comingUp = false → s.pkg.asm.wings.any s.releasable = true →
      ∃ t, exec .wingRelease s = .next t ∧ t.pkg.phase = 4 ∧ t.ed.confirmed = true ∧ t.ed.previous = none ∧
        (∀ w ∈ s.pkg.asm.wings, s.releasable w = true → t.wingUp w = true) ∧
        ∀ w ∈ s.pkg.asm.wings, s.releasable w = false → s.dies.all (fun d => d.code != wingDie w || !d.inService) = true →
          t.wingUp w = false)


/-! The test access port (R438-R445, R451). -/

namespace Sys2Proof.Claims

/-- The message a die's data register of `n` bits with value `v` makes. -/
def shifted (t : State) (die n v : Nat) : Prop := t.out.getLast? = some (.tdo die n v)

/-- All that shifting an instruction into a die changes by itself: the TAP's own state and the messages. -/
def onlyTap (s t : State) : Prop := t = { s with out := t.out, id := { s.id with tapReset := t.id.tapReset, chain := t.id.chain, ir := t.id.ir } }

/-- An instruction of a register whose content is not in the manual: the register is reached when it is available at the die,
and BYPASS is selected when it is not. -/
def scanned (s : State) (die code : Nat) (i : Instr) : Prop :=
  ∃ t, exec i s = .next t ∧ onlyTap s t ∧
    if s.tapHas die code = true then t.out = s.out ++ [.scan die code] ∧ t.tapIr die = code
    else t.out = s.out ++ [.tdo die 1 0] ∧ t.tapIr die = 0xFF

end Sys2Proof.Claims

/-- TAP instructions at a die in the chain (R438-R441, R451). Each selects its register: IDCODE 32 bits, DIESTAT 64 bits, FRZREAD the
channel's record, the scan registers when available; an instruction not available selects the one bit of BYPASS, which captures
0; a die out of the chain is untouched. TAP_RESET puts every present die in the chain with IDCODE. -/
def Sys2Proof.Claims.TapInstructions : Prop :=
  ∀ (s : State) (die : Nat),
    (exec .tapReset s = .next { s with id := { s.id with tapReset := true, ir := [], chain := s.presentMask, chainNext := s.presentMask } }) ∧
    (s.inChain die = true →
      (∃ t, exec (.idcode die) s = .next t ∧ shifted t die 32 (s.idWord die) ∧ onlyTap s t ∧ t.tapIr die = 1) ∧
      (∃ t, exec (.diestat die) s = .next t ∧ shifted t die 64 (s.dieStat die) ∧ onlyTap s t ∧ t.tapIr die = 0x10) ∧
      (4 ≤ die → ∀ sel, ∃ t, exec (.frzread die sel) s = .next t ∧ shifted t die 32768 (leNat (s.recordOf (die - 4) sel)) ∧ onlyTap s t) ∧
      (die < 4 → ∀ sel, ∃ t, exec (.frzread die sel) s = .next t ∧ shifted t die 1 0 ∧ onlyTap s t ∧ t.tapIr die = 0xFF) ∧
      (scanned s die 2 (.samplePreload die) ∧ scanned s die 3 (.extest die) ∧ scanned s die 4 (.clamp die) ∧
        scanned s die 5 (.highz die) ∧ scanned s die 0x21 (.intscan die) ∧ scanned s die 0x22 (.mbist die) ∧
        ∀ site, scanned s die 0x23 (.gal1500 die site)) ∧
      (∀ c, c ∉ tapCodes → ∃ t, exec (.bypass die c) s = .next t ∧ shifted t die 1 0 ∧ onlyTap s t ∧ t.tapIr die = 0xFF)) ∧
    (s.inChain 0 = true → ∀ m, ∃ t, exec (.chainSel m) s = .next t ∧ shifted t 0 8 s.id.chainNext ∧
      t.id.chainNext = (m &&& s.presentMask) ||| 1 ∧ t.mem = s.mem) ∧
    (s.inChain die = false → exec (.idcode die) s = .next s ∧ exec (.diestat die) s = .next s ∧ exec (.extest die) s = .next s ∧
      exec (.loopback die 0) s = .next s)

/-- The identity of a die (R440): bit 0 is 1, bits 11:1 the manufacturer identity, bits 27:12 the part number, 0xB212 for an LM2 Lobby,
0xB211 for an LM1 Lobby and 0xB240 for a Wing, and bits 31:28 the stepping; IDCODE shifts it out. -/
def Sys2Proof.Claims.IdentityWord : Prop :=
  ∀ (s : State) (die : Nat), s.inChain die = true → ∃ t v, exec (.idcode die) s = .next t ∧ shifted t die 32 v ∧ v < 2 ^ 32 ∧
    bits v 0 1 = 1 ∧ bits v 1 11 = Config.jedecId.toNat ∧
    bits v 12 16 = (if 4 ≤ die then 0xB240 else if s.pkg.mark = 1 then 0xB211 else 0xB212) ∧
    bits v 28 4 = Config.stepping.toNat % 16

/-- Corridor loopback (R444, R445). The LOOPBACK register shifts out as it was; the value shifted in takes hold on a port that may run
loopback, which then takes no part in traffic, and leaves any other port as it is; the end of a run captures its errors, lanes
and done, a far-end run without an echo at the partner counting every flit after the first 64 as an error. -/
def Sys2Proof.Claims.LoopbackRuns : Prop :=
  ∀ (s : State) (die v i : Nat) (p : CPort), s.inChain die = true → i = bits v 0 2 → s.cport? die i = some p → p.die = die → p.idx = i →
    (s.loopFree p = false → ∃ t, exec (.loopback die v) s = .next t ∧ shifted t die 96 p.loopback ∧ onlyTap s t) ∧
    (s.loopFree p = true → bits v 2 2 ≠ 0 → ∃ t q, exec (.loopback die v) s = .next t ∧ shifted t die 96 p.loopback ∧
      t.cport? die i = some q ∧ q.loopback = loopWord v ∧ q.st = 4 ∧ q.bound = 0 ∧ t.mem = s.mem ∧
      (q.inLoopback = true → bits v 6 1 = 1 ∧ (bits v 2 2 = 1 ∨ bits v 2 2 = 2) ∧ bits v 8 32 ≠ 0)) ∧
    (p.inLoopback = true → ∀ errors lanes n, errors < 2 ^ 32 → lanes < 2 ^ 16 →
      (bits p.loopback 2 2 ≠ 2 ∨ (∃ q x, s.pkg.asm.peer die i = some q ∧ s.cport? q.1 q.2 = some x ∧ bits x.loopback 2 2 = 3) → n = errors) →
      (bits p.loopback 2 2 = 2 → (∀ q x, s.pkg.asm.peer die i = some q → s.cport? q.1 q.2 = some x → bits x.loopback 2 2 ≠ 3) →
        n = bits p.loopback 8 32 - 64) →
      ∃ t, exec (.loopbackDone die i errors lanes) s = .next t ∧ t = { s with cor := t.cor } ∧
        t.cport? die i = some { p with
          inLoopback := false, loopback := loopWord p.loopback + 2 ^ 7 + n * 2 ^ 40 + lanes * 2 ^ 72 }) ∧
    (p.inLoopback = false → ∀ errors lanes, exec (.loopbackDone die i errors lanes) s = .next s)

/-- The test access port, a die's identity, and loopback (R438-R445, R451). -/
def Obligations.TestAccess : Prop :=
  TapInstructions ∧ IdentityWord ∧ LoopbackRuns


/-! Register writes (R10-R13, R299-R308, R330). -/

namespace Sys2Proof.Claims

/-- The function of a port takes writes: its link up, ready, out of reset and in D0. -/
abbrev takesWrites (s : State) (p : Nat) (f : Fn) : Prop :=
  s.fn? p = some f ∧ f.port = p ∧ s.running = true ∧ s.pkg.epdDone = false ∧ f.ready = true ∧ f.resetting = false ∧ f.link = 2 ∧
  f.dstate = 0

end Sys2Proof.Claims

/-- REGISTER_WRITE (R10-R13, R301, R302, R304, R308, R314, R330). A Mover base takes an aligned address while its engine is disabled and
keeps its value while enabled; the dictionary window's address takes its fields and drops rsvd bits; a vector of the MSI-X table takes
its address; the load window takes 8 bytes, and marks them when the write carries poison; a channel's register takes a write of the
control-capable port, its RWK fields only under the Host port's key; die blocks and diagnostic windows take nothing from a port that is
not control-capable; an AER status bit is cleared by writing 1; a write that carries poison is an advisory non-fatal error and changes
no register (the model's choice, log 32); a function that is not ready, or whose link is down, takes no write. -/
def Obligations.RegisterWrites : Prop :=
  ∀ (s : State) (p o v : Nat) (f : Fn),
    (takesWrites s p f → v < 2 ^ 64 →
      (∀ e x, e < 16 → o = 0x20000 + 0x100 * e → x ∈ f.engines → x.e = e →
        ∃ t g y, exec (.registerWrite p o v false) s = .next t ∧ t = { s with fn := t.fn } ∧ t.fn? p = some g ∧ y ∈ g.engines ∧
          y = (if x.enable then x else { x with base := bits v 12 52 * 4096 })) ∧
      (o = 0x100000 → s.windowBusy p = false → ∃ t, exec (.registerWrite p o v false) s = .next t ∧ t = { s with fn := t.fn } ∧
        t.fn? p = some { f with dict := { f.dict with addr := bits v 0 24 + bits v 32 32 * 2 ^ 32, rsvd := bits v 24 8 != 0 } }) ∧
      (o = 0x100000 → s.windowBusy p = true → exec (.registerWrite p o v false) s = .next s) ∧
      (0x200000 ≤ o → o < 0x4000000 → p ≠ s.act.controlPort → exec (.registerWrite p o v false) s = .next s) ∧
      (∀ w sel r c d, p = s.act.controlPort → w < 4 → sel < 4 → r < 0x1000 → r % 8 = 0 →
        o = 0x1000000 + 0x400000 * w + 0x80000 + 0x1000 * sel + r → s.die? (wingDie w) = some d → d.present = true →
        d.reachable = true → s.chan? w sel = some c →
        ∃ t, exec (.registerWrite p o v false) s = .next t ∧ t = { s with chans := t.chans } ∧
          t.chan? w sel = some (c.writeReg r v s.hostKey) ∧ (s.hostKey = false → r ≠ 0xF00 → t.chan? w sel = some c)) ∧
      (∀ i, i < 65536 → o = 0x80000 + 8 * i → f.loadBusy = false → ∃ t g, exec (.registerWrite p o v false) s = .next t ∧
        t = { s with fn := t.fn } ∧ t.fn? p = some g ∧ ∀ k, k < 8 → byteOf (v / 2 ^ (8 * k)) ≠ 0 →
          (8 * i + k, byteOf (v / 2 ^ (8 * k))) ∈ g.loadBytes) ∧
      (∀ k, k < 64 → o = 0x4000000 + 16 * k → ∃ t g e, exec (.registerWrite p o v false) s = .next t ∧ t = { s with fn := t.fn } ∧
        t.fn? p = some g ∧ e ∈ g.table ∧ e.1 = k ∧ e.2.1 = bits v 2 62 * 4) ∧
      (o = 0x4001104 → ∃ t, exec (.registerWrite p o v false) s = .next t ∧ t = { s with fn := t.fn } ∧
        t.fn? p = some { f with aerUnc := f.aerUnc - (f.aerUnc &&& v % 2 ^ 32) }) ∧
      (∀ i, i < 65536 → o = 0x80000 + 8 * i → f.loadBusy = false → ∃ t g, exec (.registerWrite p o v true) s = .next t ∧
        t = { s with fn := t.fn } ∧ t.fn? p = some g ∧ g.aerCor = putBit f.aerCor 13 true ∧ i ∈ g.loadPoison) ∧
      (o < 0x80000 ∨ 0x100000 ≤ o → ∃ t, exec (.registerWrite p o v true) s = .next t ∧ t = { s with fn := t.fn } ∧
        t.fn? p = some { f with aerCor := putBit f.aerCor 13 true })) ∧
    (s.fn? p = some f → f.ready = false ∨ f.link ≠ 2 ∨ f.resetting = true ∨ s.running = false →
      ∀ b, exec (.registerWrite p o v b) s = .next s)

/-! What every step keeps. -/

/-- Every step keeps memory in its canonical form: addresses strictly rising and no byte listed that an unlisted address reads as.
It holds of the state after reset (StateAfterReset), and it is what lets memory be compared and read by address. -/
def Obligations.EveryStepKeepsMemorySound : Prop :=
  ∀ s t : State, s.sound = true → step s = .next t → t.sound = true

/-- No command touches the queue (the model's queue is no register of the package): whatever is pending stays pending, in order. -/
def Sys2Proof.Claims.CommandsLeaveTheQueue : Prop :=
  ∀ (c : Instr) (s t : State), exec c s = .next t → t.pending = s.pending

/-- No command stops the block: every command answers a next state in every state (R329: an operation that fails has no effect). -/
def Obligations.EveryCommandAnswers : Prop :=
  ∀ (c : Instr) (s : State), ∃ t, exec c s = .next t

/-- The assembly is fixed (R1): no command changes which dies, Wings and ports the package has, nor its mark and its memory modules. -/
def Sys2Proof.Claims.AssemblyIsFixed : Prop :=
  ∀ (c : Instr) (s t : State), exec c s = .next t →
    t.pkg.asm = s.pkg.asm ∧ t.pkg.mark = s.pkg.mark ∧ t.pkg.dimms = s.pkg.dimms ∧ t.pkg.dimmCode = s.pkg.dimmCode

/-- What no command changes: the queue, and the assembly (R1). -/
def Obligations.QueueAndAssemblyKept : Prop :=
  CommandsLeaveTheQueue ∧ AssemblyIsFixed
end

