-- ==== Sys2Proof/Laws/Memory.lean ====
section
/-! SUPPORT. The laws of memory: reading after writing, and that every memory operation keeps the canonical form. -/

namespace Sys2Proof.Machine

theorem wfFrom_mono {lo lo' : Nat} {m : List Host.Cell} (h : wfFrom lo m = true) (hl : lo' ≤ lo) : wfFrom lo' m = true := by
  cases m with
  | nil => rfl
  | cons c t =>
    simp only [wfFrom, Bool.and_eq_true, decide_eq_true_eq] at h ⊢
    exact ⟨⟨by omega, h.1.2⟩, h.2⟩

theorem memRead_below {lo a : Nat} {m : List Host.Cell} (h : wfFrom lo m = true) (ha : a < lo) : memRead m a = 0 := by
  induction m generalizing lo with
  | nil => rfl
  | cons c t ih =>
    simp only [wfFrom, Bool.and_eq_true, decide_eq_true_eq] at h
    have : c.1 ≠ a := by omega
    simp only [memRead, this, if_false]
    exact ih h.2 (by omega)

theorem memWrite_wf {lo a : Nat} {v : Byte} {m : List Host.Cell} (h : wfFrom lo m = true) (ha : lo ≤ a) :
    wfFrom lo (memWrite m a v) = true := by
  induction m generalizing lo with
  | nil =>
    simp only [memWrite]
    split
    · rfl
    · rename_i hv
      simp only [wfFrom, Bool.and_eq_true, decide_eq_true_eq]
      exact ⟨⟨ha, by simpa using hv⟩, trivial⟩
  | cons c t ih =>
    simp only [wfFrom, Bool.and_eq_true, decide_eq_true_eq] at h
    simp only [memWrite]
    split
    · simp only [wfFrom, Bool.and_eq_true, decide_eq_true_eq]
      exact ⟨⟨h.1.1, h.1.2⟩, ih h.2 (by omega)⟩
    · split
      · split
        · exact wfFrom_mono h.2 (by omega)
        · rename_i e hv
          simp only [wfFrom, Bool.and_eq_true, decide_eq_true_eq]
          exact ⟨⟨by omega, by simpa using hv⟩, wfFrom_mono h.2 (by omega)⟩
      · split
        · simp only [wfFrom, Bool.and_eq_true, decide_eq_true_eq]
          exact h
        · rename_i hv
          simp only [wfFrom, Bool.and_eq_true, decide_eq_true_eq]
          exact ⟨⟨ha, by simpa using hv⟩, ⟨by omega, h.1.2⟩, h.2⟩

theorem memRead_memWrite {lo a x : Nat} {v : Byte} {m : List Host.Cell} (h : wfFrom lo m = true) :
    memRead (memWrite m a v) x = if x = a then v else memRead m x := by
  induction m generalizing lo with
  | nil =>
    by_cases hv : v = 0
    · simp [memWrite, hv, memRead]
    · simp only [memWrite, hv, if_false, memRead]
      by_cases e : a = x
      · simp [e]
      · simp [e, Ne.symm e]
  | cons c t ih =>
    simp only [wfFrom, Bool.and_eq_true, decide_eq_true_eq] at h
    have below : ∀ y, y ≤ c.1 → memRead t y = 0 := fun y hy => memRead_below h.2 (by omega)
    simp only [memWrite]
    split
    · rename_i hlt
      simp only [memRead, ih h.2]
      by_cases e : c.1 = x
      · have : x ≠ a := by omega
        simp [e, this]
      · simp [e]
    · split
      · rename_i hx
        split
        · rename_i hv
          by_cases e : x = a
          · simp [e, hv, below a (by omega)]
          · have : c.1 ≠ x := by omega
            simp [e, memRead, this]
        · simp only [memRead]
          by_cases e : x = a
          · simp [e]
          · have h1 : a ≠ x := Ne.symm e
            have h2 : c.1 ≠ x := by omega
            simp [e, h1, h2]
      · split
        · rename_i hv
          by_cases e : x = a
          · have : c.1 ≠ a := by omega
            simp [e, memRead, this, hv, below a (by omega)]
          · simp [e]
        · simp only [memRead]
          by_cases e : x = a
          · simp [e]
          · simp [e, Ne.symm e]

theorem memWriteN_wf {lo a : Nat} {bs : Bytes} {m : List Host.Cell} (h : wfFrom lo m = true) (ha : lo ≤ a) :
    wfFrom lo (memWriteN m a bs) = true := by
  induction bs generalizing m a with
  | nil => exact h
  | cons b bs ih => exact ih (memWrite_wf h ha) (by omega)

/-- A byte after a write of consecutive bytes: the one written inside the range, the old one outside. -/
theorem memRead_memWriteN {lo a x : Nat} {bs : Bytes} {m : List Host.Cell} (h : wfFrom lo m = true) (ha : lo ≤ a) :
    memRead (memWriteN m a bs) x = if a ≤ x ∧ x < a + bs.length then bs.getD (x - a) 0 else memRead m x := by
  induction bs generalizing m a with
  | nil =>
    have : ¬(a ≤ x ∧ x < a + ([] : Bytes).length) := by simp
    rw [if_neg this]; rfl
  | cons b bs ih =>
    have ih' := ih (a := a + 1) (memWrite_wf (v := b) h ha) (by omega)
    simp only [memWriteN, List.length_cons]
    rw [ih', memRead_memWrite h]
    by_cases e : x = a
    · have h1 : ¬(a + 1 ≤ x ∧ x < a + 1 + bs.length) := by omega
      have h2 : a ≤ x ∧ x < a + (bs.length + 1) := by omega
      rw [if_neg h1, if_pos e, if_pos h2]
      simp [e]
    · by_cases hin : a + 1 ≤ x ∧ x < a + 1 + bs.length
      · have h2 : a ≤ x ∧ x < a + (bs.length + 1) := by omega
        rw [if_pos hin, if_pos h2]
        have : x - a = (x - (a + 1)) + 1 := by omega
        simp [this]
      · have h2 : ¬(a ≤ x ∧ x < a + (bs.length + 1)) := by omega
        rw [if_neg hin, if_neg e, if_neg h2]

theorem wfFrom_filter {lo : Nat} {p : Host.Cell → Bool} {m : List Host.Cell} (h : wfFrom lo m = true) :
    wfFrom lo (m.filter p) = true := by
  induction m generalizing lo with
  | nil => rfl
  | cons c t ih =>
    simp only [wfFrom, Bool.and_eq_true, decide_eq_true_eq] at h
    simp only [List.filter]
    split
    · simp only [wfFrom, Bool.and_eq_true, decide_eq_true_eq]
      exact ⟨h.1, ih h.2⟩
    · exact wfFrom_mono (ih h.2) (by omega)

/-- A byte after cells have been dropped: zero where they were dropped, the old one elsewhere. -/
theorem memRead_filter {lo x : Nat} {q : Nat → Bool} {m : List Host.Cell} (h : wfFrom lo m = true) :
    memRead (m.filter fun c => !q c.1) x = if q x = true then 0 else memRead m x := by
  induction m generalizing lo with
  | nil => simp [memRead]
  | cons c t ih =>
    simp only [wfFrom, Bool.and_eq_true, decide_eq_true_eq] at h
    by_cases hq : q c.1 = true
    · have e : ((c :: t).filter fun c => !q c.1) = t.filter fun c => !q c.1 := by simp [hq]
      rw [e, ih h.2]
      by_cases hx : c.1 = x
      · rw [← hx]; simp [hq]
      · simp [memRead, hx]
    · have e : ((c :: t).filter fun c => !q c.1) = c :: t.filter fun c => !q c.1 := by simp [hq]
      rw [e]
      simp only [memRead]
      rw [ih h.2]
      by_cases hx : c.1 = x
      · rw [← hx]; simp [hq]
      · simp [hx]

/-- Canonical memories that read alike are equal. -/
theorem wf_ext {lo : Nat} {m n : List Host.Cell} (hm : wfFrom lo m = true) (hn : wfFrom lo n = true)
    (h : ∀ a, memRead m a = memRead n a) : m = n := by
  induction m generalizing lo n with
  | nil =>
    cases n with
    | nil => rfl
    | cons c t =>
      simp only [wfFrom, Bool.and_eq_true, decide_eq_true_eq, bne_iff_ne] at hn
      have := h c.1
      simp only [memRead, if_true] at this
      exact absurd this.symm hn.1.2
  | cons c t ih =>
    simp only [wfFrom, Bool.and_eq_true, decide_eq_true_eq, bne_iff_ne] at hm
    cases n with
    | nil =>
      have := h c.1
      simp only [memRead, if_true] at this
      exact absurd this hm.1.2
    | cons d u =>
      simp only [wfFrom, Bool.and_eq_true, decide_eq_true_eq, bne_iff_ne] at hn
      have key : c.1 = d.1 := by
        rcases Nat.lt_trichotomy c.1 d.1 with hlt | he | hgt
        · have h1 := h c.1
          have : d.1 ≠ c.1 := by omega
          simp only [memRead, if_true, this, if_false] at h1
          rw [memRead_below hn.2 (by omega)] at h1
          exact absurd h1 hm.1.2
        · exact he
        · have h1 := h d.1
          have : c.1 ≠ d.1 := by omega
          simp only [memRead, if_true, this, if_false] at h1
          rw [memRead_below hm.2 (by omega)] at h1
          exact absurd h1.symm hn.1.2
      have hb : c.2 = d.2 := by
        have h1 := h c.1
        simpa [memRead, key] using h1
      have ht : t = u := by
        refine ih hm.2 (by rw [key]; exact hn.2) fun a => ?_
        by_cases ha : c.1 = a
        · rw [memRead_below hm.2 (by omega), memRead_below hn.2 (by omega)]
        · have h1 := h a
          have hd : d.1 ≠ a := by omega
          simpa [memRead, ha, hd] using h1
      rw [Prod.ext_iff.mpr ⟨key, hb⟩, ht]

/-- Storing bytes and dropping a range of cells keep the canonical form. -/
theorem memWriteN_sound {a : Nat} {bs : Bytes} {m : List Host.Cell} (h : Memory.wf m = true) :
    Memory.wf (memWriteN m a bs) = true := memWriteN_wf h (Nat.zero_le _)

theorem filter_sound {p : Host.Cell → Bool} {m : List Host.Cell} (h : Memory.wf m = true) : Memory.wf (m.filter p) = true :=
  wfFrom_filter h

end Sys2Proof.Machine
end

