-- ==== Sys2Proof/Laws/Keeps.lean ====
section
/-! SUPPORT. What every operation keeps: the queue, the assembly, WAKE_N, and memory in canonical form. One lemma per operation. -/

namespace Sys2Proof.Machine

/-- `t` keeps what `s` has of the queue, the assembly and WAKE_N, and is sound if `s` is. -/
structure Keeps (s t : State) : Prop where
  pending : t.pending = s.pending
  asm : t.pkg.asm = s.pkg.asm
  mark : t.pkg.mark = s.pkg.mark
  dimms : t.pkg.dimms = s.pkg.dimms
  dimmCode : t.pkg.dimmCode = s.pkg.dimmCode
  wake : t.pkg.wake = s.pkg.wake
  sound : s.sound = true → t.sound = true

theorem Keeps.refl (s : State) : Keeps s s := ⟨rfl, rfl, rfl, rfl, rfl, rfl, id⟩

theorem Keeps.trans {a b c : State} (h : Keeps a b) (k : Keeps b c) : Keeps a c :=
  ⟨k.pending.trans h.pending, k.asm.trans h.asm, k.mark.trans h.mark, k.dimms.trans h.dimms, k.dimmCode.trans h.dimmCode,
   k.wake.trans h.wake, fun x => k.sound (h.sound x)⟩

/-- What `Keeps` asks of a state written out: its queue, its package facts and its memory. -/
structure KeepsMk (a : State) (pending : List Instr) (pkg : Pkg) (mem : MemState) : Prop where
  out : ∀ out fresh tsc dies ed chans split wb doc cor fn ev pw id,
    Keeps a ⟨pending, out, fresh, tsc, pkg, dies, ed, mem, chans, split, wb, doc, cor, fn, ev, pw, id⟩

theorem Keeps.mk_eq {a : State} {pending out fresh tsc pkg dies ed mem chans split wb doc cor fn ev pw id} :
    Keeps a ⟨pending, out, fresh, tsc, pkg, dies, ed, mem, chans, split, wb, doc, cor, fn, ev, pw, id⟩ = KeepsMk a pending pkg mem :=
  propext ⟨fun h => ⟨fun _ _ _ _ _ _ _ _ _ _ _ _ _ _ => ⟨h.1, h.2, h.3, h.4, h.5, h.6, h.7⟩⟩, fun h => h.out ..⟩

/-- A record update that leaves the queue, the package's fixed facts and the DRAM alone. -/
theorem KeepsMk.of {a s : State} {pkg : Pkg} {mem : MemState} (h : Keeps a s)
    (h1 : pkg.asm = s.pkg.asm) (h2 : pkg.mark = s.pkg.mark) (h3 : pkg.dimms = s.pkg.dimms)
    (h4 : pkg.dimmCode = s.pkg.dimmCode) (h6 : pkg.wake = s.pkg.wake) (h5 : mem.dram = s.mem.dram) :
    KeepsMk a s.pending pkg mem :=
  ⟨fun _ _ _ _ _ _ _ _ _ _ _ _ _ _ => h.trans ⟨rfl, h1, h2, h3, h4, h6, fun x => by simpa [State.sound, h5] using x⟩⟩

theorem Keeps.foldl {α : Type} {a s : State} {f : State → α → State} {l : List α} (h : Keeps a s)
    (hf : ∀ t x, Keeps a t → Keeps a (f t x)) : Keeps a (l.foldl f s) := by
  induction l generalizing s with
  | nil => exact h
  | cons x l ih => exact ih (hf s x h)

theorem Keeps.foldl_fst {α β : Type} {a : State} {f : State × β → α → State × β} {l : List α} {z : State × β}
    (h : Keeps a z.1) (hf : ∀ t x, Keeps a t.1 → Keeps a (f t x).1) : Keeps a (l.foldl f z).1 := by
  induction l generalizing z with
  | nil => exact h
  | cons x l ih => exact ih (hf z x h)

theorem Keeps.of_fst {β : Type} {a t : State} {p : State × β} {b : β} (h : Keeps a p.1) (e : p = (t, b)) : Keeps a t := by
  subst e; exact h

theorem Keeps.ite {p : Prop} [Decidable p] {a s t : State} (hs : Keeps a s) (ht : Keeps a t) : Keeps a (if p then s else t) := by
  split <;> assumption

theorem Keeps.ite_fst {p : Prop} [Decidable p] {β : Type} {a : State} {s t : State × β} (hs : Keeps a s.1) (ht : Keeps a t.1) :
    Keeps a (if p then s else t).1 := by
  split <;> assumption

theorem State.updMem_keeps {a s : State} {f : MemState → MemState} (h : Keeps a s) (hd : (f s.mem).dram = s.mem.dram) :
    Keeps a (s.updMem f) := (KeepsMk.of h rfl rfl rfl rfl rfl hd).out ..

theorem State.updPkg_keeps {a s : State} {f : Pkg → Pkg} (h : Keeps a s) (h1 : (f s.pkg).asm = s.pkg.asm)
    (h2 : (f s.pkg).mark = s.pkg.mark) (h3 : (f s.pkg).dimms = s.pkg.dimms) (h4 : (f s.pkg).dimmCode = s.pkg.dimmCode)
    (h6 : (f s.pkg).wake = s.pkg.wake) : Keeps a (s.updPkg f) := (KeepsMk.of h h1 h2 h3 h4 h6 rfl).out ..

theorem Keeps.ite_s {p : Prop} [Decidable p] {a : State} {s t : Fetch} (hs : Keeps a s.s) (ht : Keeps a t.s) :
    Keeps a (if p then s else t).s := by
  split <;> assumption

theorem Keeps.chans (s : State) (l : List Chan) : Keeps s { s with chans := l } := ⟨rfl, rfl, rfl, rfl, rfl, rfl, fun x => x⟩

theorem State.docAccess_keeps {α : Type} {a s : State} {f : State → State × α} (h : Keeps a s)
    (hf : ∀ t, Keeps a t → Keeps a (f t).1) : Keeps a (s.docAccess f).1 := by
  unfold State.docAccess
  dsimp only
  exact (hf _ (h.trans (.chans ..))).trans (.chans ..)

end Sys2Proof.Machine
end

