-- ==== Sys2Proof/Laws/KeepsStore.lean ====
section
/-! SUPPORT. What the operations over records, memory, the Catalogue, the Corridor ports, the budgets, blocks and the cache keep (`Keeps`): the queue, the assembly, and sound memory. -/

namespace Sys2Proof.Machine

theorem State.updDie_keeps {s0 s : State} {x1 x2} (h : Keeps s0 s) :
    Keeps s0 (State.updDie s x1 x2) := by
  unfold State.updDie; try dsimp only
  repeat' first | with_reducible assumption | with_reducible rfl | (intro _) | with_reducible apply Keeps.ite
                | with_reducible apply Keeps.ite_fst | with_reducible apply Keeps.foldl | with_reducible apply Keeps.foldl_fst
                | (simp only [Keeps.mk_eq]; with_reducible apply KeepsMk.of)

theorem State.updChan_keeps {s0 s : State} {x1 x2 x3} (h : Keeps s0 s) :
    Keeps s0 (State.updChan s x1 x2 x3) := by
  unfold State.updChan; try dsimp only
  repeat' first | with_reducible assumption | with_reducible rfl | (intro _) | with_reducible apply Keeps.ite
                | with_reducible apply Keeps.ite_fst | with_reducible apply Keeps.foldl | with_reducible apply Keeps.foldl_fst
                | (simp only [Keeps.mk_eq]; with_reducible apply KeepsMk.of)

theorem State.updFn_keeps {s0 s : State} {x1 x2} (h : Keeps s0 s) :
    Keeps s0 (State.updFn s x1 x2) := by
  unfold State.updFn; try dsimp only
  repeat' first | with_reducible assumption | with_reducible rfl | (intro _) | with_reducible apply Keeps.ite
                | with_reducible apply Keeps.ite_fst | with_reducible apply Keeps.foldl | with_reducible apply Keeps.foldl_fst
                | (simp only [Keeps.mk_eq]; with_reducible apply KeepsMk.of)

theorem State.send_keeps {s0 s : State} {x1} (h : Keeps s0 s) :
    Keeps s0 (State.send s x1) := by
  unfold State.send; try dsimp only
  repeat' first | with_reducible assumption | with_reducible rfl | (intro _) | with_reducible apply Keeps.ite
                | with_reducible apply Keeps.ite_fst | with_reducible apply Keeps.foldl | with_reducible apply Keeps.foldl_fst
                | (simp only [Keeps.mk_eq]; with_reducible apply KeepsMk.of)

theorem State.draw_keeps {s0 s : State} (h : Keeps s0 s) :
    Keeps s0 (State.draw s).2 := by
  unfold State.draw; try dsimp only
  repeat' first | with_reducible assumption | with_reducible rfl | (intro _) | with_reducible apply Keeps.ite
                | with_reducible apply Keeps.ite_fst | with_reducible apply Keeps.ite_snd | with_reducible apply Keeps.foldl
                | with_reducible apply Keeps.foldl_fst | (simp only [Keeps.mk_eq]; with_reducible apply KeepsMk.of)

theorem State.bump_keeps {s0 s : State} {x1 x2 x3 x4} (h : Keeps s0 s) :
    Keeps s0 (State.bump s x1 x2 x3 x4) := by
  unfold State.bump; try dsimp only
  repeat' first | with_reducible assumption | with_reducible rfl | (intro _) | with_reducible apply Keeps.ite
                | with_reducible apply Keeps.ite_fst | with_reducible apply Keeps.foldl | with_reducible apply Keeps.foldl_fst
                | (simp only [Keeps.mk_eq]; with_reducible apply KeepsMk.of)

theorem State.setCounter_keeps {s0 s : State} {x1 x2 x3 x4} (h : Keeps s0 s) :
    Keeps s0 (State.setCounter s x1 x2 x3 x4) := by
  unfold State.setCounter; try dsimp only
  repeat' first | with_reducible assumption | with_reducible rfl | (intro _) | with_reducible apply Keeps.ite
                | with_reducible apply Keeps.ite_fst | with_reducible apply Keeps.foldl | with_reducible apply Keeps.foldl_fst
                | (simp only [Keeps.mk_eq]; with_reducible apply KeepsMk.of)

theorem State.pme_keeps {s0 s : State} {x1} (h : Keeps s0 s) :
    Keeps s0 (State.pme s x1) := by
  unfold State.pme; try dsimp only
  repeat' first | with_reducible assumption | with_reducible rfl | (intro _) | with_reducible apply Keeps.ite
                | with_reducible apply Keeps.ite_fst | with_reducible apply State.send_keeps
                | with_reducible apply State.updFn_keeps | with_reducible apply Keeps.foldl
                | with_reducible apply Keeps.foldl_fst | (refine Keeps.of_fst ?_ (by with_reducible assumption)) | split

theorem State.signal_keeps {s0 s : State} {x1 x2 x3} (h : Keeps s0 s) :
    Keeps s0 (State.signal s x1 x2 x3) := by
  unfold State.signal; try dsimp only
  repeat' first | with_reducible assumption | with_reducible rfl | (intro _) | with_reducible apply Keeps.ite
                | with_reducible apply Keeps.ite_fst | with_reducible apply State.send_keeps
                | with_reducible apply State.updFn_keeps | with_reducible apply Keeps.foldl
                | with_reducible apply Keeps.foldl_fst | (refine Keeps.of_fst ?_ (by with_reducible assumption)) | split

theorem State.pushRecord_keeps {s0 s : State} {x1 x2 x3} (h : Keeps s0 s) :
    Keeps s0 (State.pushRecord s x1 x2 x3) := by
  unfold State.pushRecord; try dsimp only
  repeat' first | with_reducible assumption | with_reducible rfl | (intro _) | with_reducible apply Keeps.ite
                | with_reducible apply Keeps.ite_fst | with_reducible apply State.send_keeps
                | with_reducible apply State.updFn_keeps | with_reducible apply Keeps.foldl
                | with_reducible apply Keeps.foldl_fst | (refine Keeps.of_fst ?_ (by with_reducible assumption)) | split

theorem State.endBatch_keeps {s0 s : State} {x1 x2} (h : Keeps s0 s) :
    Keeps s0 (State.endBatch s x1 x2) := by
  unfold State.endBatch; try dsimp only
  repeat' first | with_reducible assumption | with_reducible rfl | (intro _) | with_reducible apply Keeps.ite
                | with_reducible apply Keeps.ite_fst | with_reducible apply State.signal_keeps
                | with_reducible apply State.send_keeps | with_reducible apply State.updFn_keeps
                | with_reducible apply Keeps.foldl | with_reducible apply Keeps.foldl_fst
                | (refine Keeps.of_fst ?_ (by with_reducible assumption)) | split

theorem State.recheck_keeps {s0 s : State} {x1 x2} (h : Keeps s0 s) :
    Keeps s0 (State.recheck s x1 x2) := by
  unfold State.recheck; try dsimp only
  repeat' first | with_reducible assumption | with_reducible rfl | (intro _) | with_reducible apply Keeps.ite
                | with_reducible apply Keeps.ite_fst | with_reducible apply State.endBatch_keeps
                | with_reducible apply State.pushRecord_keeps | with_reducible apply State.updFn_keeps
                | with_reducible apply Keeps.foldl | with_reducible apply Keeps.foldl_fst
                | (refine Keeps.of_fst ?_ (by with_reducible assumption)) | split

theorem State.writeTo_keeps {s0 s : State} {x1 x2} (h : Keeps s0 s) :
    Keeps s0 (State.writeTo s x1 x2) := by
  unfold State.writeTo; try dsimp only
  repeat' first | with_reducible assumption | with_reducible rfl | (intro _) | with_reducible apply Keeps.ite
                | with_reducible apply Keeps.ite_fst | with_reducible apply State.endBatch_keeps
                | with_reducible apply State.pushRecord_keeps | with_reducible apply State.pme_keeps
                | with_reducible apply State.updFn_keeps | with_reducible apply Keeps.foldl
                | with_reducible apply Keeps.foldl_fst | (simp only [Keeps.mk_eq]; with_reducible apply KeepsMk.of)
                | (refine Keeps.of_fst ?_ (by with_reducible assumption)) | split

theorem State.raiseAs_keeps {s0 s : State} {x1 x2 x3} (h : Keeps s0 s) :
    Keeps s0 (State.raiseAs s x1 x2 x3) := by
  unfold State.raiseAs; try dsimp only
  repeat' first | with_reducible assumption | with_reducible rfl | (intro _) | with_reducible apply Keeps.ite
                | with_reducible apply Keeps.ite_fst | with_reducible apply State.writeTo_keeps
                | with_reducible apply Keeps.foldl | with_reducible apply Keeps.foldl_fst
                | (simp only [Keeps.mk_eq]; with_reducible apply KeepsMk.of)
                | (refine Keeps.of_fst ?_ (by with_reducible assumption)) | split

theorem State.raiseRec_keeps {s0 s : State} {x1 x2} (h : Keeps s0 s) :
    Keeps s0 (State.raiseRec s x1 x2) := by
  unfold State.raiseRec; try dsimp only
  repeat' first | with_reducible assumption | with_reducible rfl | (intro _) | with_reducible apply Keeps.ite
                | with_reducible apply Keeps.ite_fst | with_reducible apply State.raiseAs_keeps

theorem State.event_keeps {s0 s : State} {x1 x2 x3 x4 x5} (h : Keeps s0 s) :
    Keeps s0 (State.event s x1 x2 x3 x4 x5) := by
  unfold State.event; try dsimp only
  repeat' first | with_reducible assumption | with_reducible rfl | (intro _) | with_reducible apply Keeps.ite
                | with_reducible apply Keeps.ite_fst | with_reducible apply State.raiseRec_keeps

theorem State.watermark_keeps {s0 s : State} {x1 x2 x3 x4 x5 x6} (h : Keeps s0 s) :
    Keeps s0 (State.watermark s x1 x2 x3 x4 x5 x6) := by
  unfold State.watermark; try dsimp only
  repeat' first | with_reducible assumption | with_reducible rfl | (intro _) | with_reducible apply Keeps.ite
                | with_reducible apply Keeps.ite_fst | with_reducible apply State.raiseRec_keeps

theorem State.closeWindow_keeps {s0 s : State} {x1 x2} (h : Keeps s0 s) :
    Keeps s0 (State.closeWindow s x1 x2) := by
  unfold State.closeWindow; try dsimp only
  repeat' first | with_reducible assumption | with_reducible rfl | (intro _) | with_reducible apply Keeps.ite
                | with_reducible apply Keeps.ite_fst | with_reducible apply State.raiseRec_keeps
                | with_reducible apply State.updMem_keeps | with_reducible apply Keeps.foldl
                | with_reducible apply Keeps.foldl_fst | (refine Keeps.of_fst ?_ (by with_reducible assumption)) | split

theorem State.coalesce_keeps {s0 s : State} {x1 x2 x3 x4 x5 x6} (h : Keeps s0 s) :
    Keeps s0 (State.coalesce s x1 x2 x3 x4 x5 x6) := by
  unfold State.coalesce; try dsimp only
  repeat' first | with_reducible assumption | with_reducible rfl | (intro _) | with_reducible apply Keeps.ite
                | with_reducible apply Keeps.ite_fst | with_reducible apply State.closeWindow_keeps
                | with_reducible apply State.raiseAs_keeps | with_reducible apply State.updMem_keeps
                | with_reducible apply Keeps.foldl | with_reducible apply Keeps.foldl_fst
                | (refine Keeps.of_fst ?_ (by with_reducible assumption)) | split

theorem State.coalesceC_keeps {s0 s : State} {x1 x2 x3 x4} (h : Keeps s0 s) :
    Keeps s0 (State.coalesceC s x1 x2 x3 x4) := by
  unfold State.coalesceC; try dsimp only
  repeat' first | with_reducible assumption | with_reducible rfl | (intro _) | with_reducible apply Keeps.ite
                | with_reducible apply Keeps.ite_fst | with_reducible apply State.coalesce_keeps

theorem State.noteAccess_keeps {s0 s : State} {x1 x2 x3 x4} (h : Keeps s0 s) :
    Keeps s0 (State.noteAccess s x1 x2 x3 x4) := by
  unfold State.noteAccess; try dsimp only
  repeat' first | with_reducible assumption | with_reducible rfl | (intro _) | with_reducible apply Keeps.ite
                | with_reducible apply Keeps.ite_fst | with_reducible apply State.updChan_keeps

theorem State.setRawLine_keeps {s0 s : State} {x1 x2 x3 x4 x5} (h : Keeps s0 s) : Keeps s0 (State.setRawLine s x1 x2 x3 x4 x5) := by
  unfold State.setRawLine
  apply State.noteAccess_keeps
  exact h.trans ⟨rfl, rfl, rfl, rfl, rfl, rfl, fun x => memWriteN_sound (memWriteN_sound x)⟩

theorem State.releaseQueued_keeps {s0 s : State} {x1 x2 x3} (h : Keeps s0 s) :
    Keeps s0 (State.releaseQueued s x1 x2 x3) := by
  unfold State.releaseQueued; try dsimp only
  repeat' first | with_reducible assumption | with_reducible rfl | (intro _) | with_reducible apply Keeps.ite
                | with_reducible apply Keeps.ite_fst | with_reducible apply State.updMem_keeps

theorem State.issueWrite_keeps {s0 s : State} {x1 x2 x3} (h : Keeps s0 s) :
    Keeps s0 (State.issueWrite s x1 x2 x3) := by
  unfold State.issueWrite; try dsimp only
  repeat' first | with_reducible assumption | with_reducible rfl | (intro _) | with_reducible apply Keeps.ite
                | with_reducible apply Keeps.ite_fst | with_reducible apply State.releaseQueued_keeps
                | with_reducible apply State.setRawLine_keeps | with_reducible apply State.updChan_keeps
                | with_reducible apply Keeps.foldl | with_reducible apply Keeps.foldl_fst
                | (refine Keeps.of_fst ?_ (by with_reducible assumption)) | split

theorem State.issueRead_keeps {s0 s : State} {x1 x2} (h : Keeps s0 s) :
    Keeps s0 (State.issueRead s x1 x2) := by
  unfold State.issueRead; try dsimp only
  repeat' first | with_reducible assumption | with_reducible rfl | (intro _) | with_reducible apply Keeps.ite
                | with_reducible apply Keeps.ite_fst | with_reducible apply State.noteAccess_keeps
                | with_reducible apply State.updMem_keeps

theorem State.startFreq_keeps {s0 s : State} (h : Keeps s0 s) :
    Keeps s0 (State.startFreq s) := by
  unfold State.startFreq; try dsimp only
  repeat' first | with_reducible assumption | with_reducible rfl | (intro _) | with_reducible apply Keeps.ite
                | with_reducible apply Keeps.ite_fst | with_reducible apply Keeps.foldl | with_reducible apply Keeps.foldl_fst
                | (simp only [Keeps.mk_eq]; with_reducible apply KeepsMk.of)

theorem State.endFreq_keeps {s0 s : State} {x1} (h : Keeps s0 s) :
    Keeps s0 (State.endFreq s x1) := by
  unfold State.endFreq; try dsimp only
  repeat' first | with_reducible assumption | with_reducible rfl | (intro _) | with_reducible apply Keeps.ite
                | with_reducible apply Keeps.ite_fst | with_reducible apply State.startFreq_keeps
                | with_reducible apply Keeps.foldl | with_reducible apply Keeps.foldl_fst
                | (simp only [Keeps.mk_eq]; with_reducible apply KeepsMk.of)

theorem State.issueReq_keeps {s0 s : State} {x1 x2 x3} (h : Keeps s0 s) :
    Keeps s0 (State.issueReq s x1 x2 x3) := by
  unfold State.issueReq; try dsimp only
  repeat' first | with_reducible assumption | with_reducible rfl | (intro _) | with_reducible apply Keeps.ite
                | with_reducible apply Keeps.ite_fst | with_reducible apply State.issueRead_keeps
                | with_reducible apply State.issueWrite_keeps | with_reducible apply Keeps.foldl
                | with_reducible apply Keeps.foldl_fst | (refine Keeps.of_fst ?_ (by with_reducible assumption)) | split

theorem State.pumpAux_keeps {s0 s : State} {x1 x2 x3} (h : Keeps s0 s) :
    Keeps s0 (State.pumpAux x1 x2 x3 s) := by
  induction x3 generalizing s with
  | zero => unfold State.pumpAux; exact h
  | succ _ ih =>
    unfold State.pumpAux; try dsimp only
    repeat' first | with_reducible apply ih | with_reducible assumption | with_reducible rfl | (intro _)
                  | with_reducible apply Keeps.ite | with_reducible apply Keeps.ite_fst
                  | with_reducible apply State.issueReq_keeps | with_reducible apply Keeps.foldl
                  | with_reducible apply Keeps.foldl_fst | (refine Keeps.of_fst ?_ (by with_reducible assumption)) | split

theorem State.wakeRank_keeps {s0 s : State} {x1 x2 x3} (h : Keeps s0 s) :
    Keeps s0 (State.wakeRank s x1 x2 x3) := by
  unfold State.wakeRank; try dsimp only
  repeat' first | with_reducible assumption | with_reducible rfl | (intro _) | with_reducible apply Keeps.ite
                | with_reducible apply Keeps.ite_fst | with_reducible apply State.updChan_keeps

theorem State.admitAux_keeps {s0 s : State} {x1 x2 x3} (h : Keeps s0 s) :
    Keeps s0 (State.admitAux x1 x2 x3 s) := by
  induction x3 generalizing s with
  | zero => unfold State.admitAux; exact h
  | succ _ ih =>
    unfold State.admitAux; try dsimp only
    repeat' first | with_reducible apply ih | with_reducible assumption | with_reducible rfl | (intro _)
                  | with_reducible apply Keeps.ite | with_reducible apply Keeps.ite_fst
                  | with_reducible apply State.updMem_keeps | with_reducible apply Keeps.foldl
                  | with_reducible apply Keeps.foldl_fst | (refine Keeps.of_fst ?_ (by with_reducible assumption)) | split

theorem State.pump_keeps {s0 s : State} {x1 x2} (h : Keeps s0 s) :
    Keeps s0 (State.pump s x1 x2) := by
  unfold State.pump; try dsimp only
  repeat' first | with_reducible assumption | with_reducible rfl | (intro _) | with_reducible apply Keeps.ite
                | with_reducible apply Keeps.ite_fst | with_reducible apply State.admitAux_keeps
                | with_reducible apply State.pumpAux_keeps

theorem State.issueWrites_keeps {s0 s : State} {x1 x2 x3} (h : Keeps s0 s) :
    Keeps s0 (State.issueWrites s x1 x2 x3) := by
  unfold State.issueWrites; try dsimp only
  repeat' first | with_reducible assumption | with_reducible rfl | (intro _) | with_reducible apply Keeps.ite
                | with_reducible apply Keeps.ite_fst | with_reducible apply State.issueWrite_keeps
                | with_reducible apply Keeps.foldl

theorem State.forceBank_keeps {s0 s : State} {x1 x2 x3} (h : Keeps s0 s) :
    Keeps s0 (State.forceBank s x1 x2 x3) := by
  unfold State.forceBank; try dsimp only
  repeat' first | with_reducible assumption | with_reducible rfl | (intro _) | with_reducible apply Keeps.ite
                | with_reducible apply Keeps.ite_fst | with_reducible apply State.issueWrites_keeps
                | with_reducible apply State.updMem_keeps | with_reducible apply Keeps.foldl
                | with_reducible apply Keeps.foldl_fst | (refine Keeps.of_fst ?_ (by with_reducible assumption)) | split

theorem State.forceBlock_keeps {s0 s : State} {x1 x2 x3} (h : Keeps s0 s) :
    Keeps s0 (State.forceBlock s x1 x2 x3) := by
  unfold State.forceBlock; try dsimp only
  repeat' first | with_reducible assumption | with_reducible rfl | (intro _) | with_reducible apply Keeps.ite
                | with_reducible apply Keeps.ite_fst | with_reducible apply State.issueWrites_keeps
                | with_reducible apply Keeps.foldl

theorem State.issueSince_keeps {s0 s : State} {x1 x2} (h : Keeps s0 s) :
    Keeps s0 (State.issueSince s x1 x2) := by
  unfold State.issueSince; try dsimp only
  repeat' first | with_reducible assumption | with_reducible rfl | (intro _) | with_reducible apply Keeps.ite
                | with_reducible apply Keeps.ite_fst | with_reducible apply State.issueWrites_keeps
                | with_reducible apply Keeps.foldl

theorem State.forceChan_keeps {s0 s : State} {x1 x2} (h : Keeps s0 s) :
    Keeps s0 (State.forceChan s x1 x2) := by
  unfold State.forceChan; try dsimp only
  repeat' first | with_reducible assumption | with_reducible rfl | (intro _) | with_reducible apply Keeps.ite
                | with_reducible apply Keeps.ite_fst | with_reducible apply State.issueWrites_keeps

theorem State.queueWrite_keeps {s0 s : State} {x1 x2 x3 x4 x5 x6 x7 x8} (h : Keeps s0 s) :
    Keeps s0 (State.queueWrite s x1 x2 x3 x4 x5 x6 x7 x8) := by
  unfold State.queueWrite; try dsimp only
  repeat' first | with_reducible assumption | with_reducible rfl | (intro _) | with_reducible apply Keeps.ite
                | with_reducible apply Keeps.ite_fst | with_reducible apply State.issueWrites_keeps
                | with_reducible apply State.wakeRank_keeps | with_reducible apply State.setRawLine_keeps
                | with_reducible apply State.updChan_keeps | with_reducible apply Keeps.foldl
                | with_reducible apply Keeps.foldl_fst | (simp only [Keeps.mk_eq]; with_reducible apply KeepsMk.of)

theorem State.storeQuiet_keeps {s0 s : State} {x1 x2 x3 x4 x5} (h : Keeps s0 s) :
    Keeps s0 (State.storeQuiet s x1 x2 x3 x4 x5) := by
  unfold State.storeQuiet; try dsimp only
  repeat' first | with_reducible assumption | with_reducible rfl | (intro _) | with_reducible apply Keeps.ite
                | with_reducible apply Keeps.ite_fst | with_reducible apply State.queueWrite_keeps

theorem State.storeLine_keeps {s0 s : State} {x1 x2 x3 x4 x5 x6 x7 x8 x9} (h : Keeps s0 s) :
    Keeps s0 (State.storeLine s x1 x2 x3 x4 x5 x6 x7 x8 x9) := by
  unfold State.storeLine; try dsimp only
  repeat' first | with_reducible assumption | with_reducible rfl | (intro _) | with_reducible apply Keeps.ite
                | with_reducible apply Keeps.ite_fst | with_reducible apply State.queueWrite_keeps
                | with_reducible apply State.updChan_keeps | with_reducible apply Keeps.foldl
                | with_reducible apply Keeps.foldl_fst | (refine Keeps.of_fst ?_ (by with_reducible assumption)) | split

theorem State.decodeAt_keeps {s0 s : State} {x1 x2 x3 x4} (h : Keeps s0 s) :
    Keeps s0 (State.decodeAt s x1 x2 x3 x4).1 := by
  unfold State.decodeAt; try dsimp only
  repeat' first | with_reducible assumption | with_reducible rfl | (intro _) | with_reducible apply Keeps.ite
                | with_reducible apply Keeps.ite_fst | with_reducible apply State.forceBank_keeps
                | with_reducible apply State.noteAccess_keeps | with_reducible apply State.coalesce_keeps
                | with_reducible apply State.bump_keeps | with_reducible apply State.updChan_keeps
                | with_reducible apply Keeps.foldl | with_reducible apply Keeps.foldl_fst
                | (refine Keeps.of_fst ?_ (by with_reducible assumption)) | split

theorem State.readLine_keeps {s0 s : State} {x1 x2 x3 x4} (h : Keeps s0 s) :
    Keeps s0 (State.readLine s x1 x2 x3 x4).1 := by
  unfold State.readLine; try dsimp only
  repeat' first | with_reducible assumption | with_reducible rfl | (intro _) | with_reducible apply Keeps.ite
                | with_reducible apply Keeps.ite_fst | with_reducible apply State.decodeAt_keeps

theorem State.readSram_keeps {s0 s : State} {x1 x2 x3 x4} (h : Keeps s0 s) :
    Keeps s0 (State.readSram s x1 x2 x3 x4).1 := by
  unfold State.readSram; try dsimp only
  repeat' first | with_reducible assumption | with_reducible rfl | (intro _) | with_reducible apply Keeps.ite
                | with_reducible apply Keeps.ite_fst | with_reducible apply State.event_keeps
                | with_reducible apply State.bump_keeps

theorem State.putEntry_keeps {s0 s : State} {x1} (h : Keeps s0 s) :
    Keeps s0 (State.putEntry s x1) := by
  unfold State.putEntry; try dsimp only
  repeat' first | with_reducible assumption | with_reducible rfl | (intro _) | with_reducible apply Keeps.ite
                | with_reducible apply Keeps.ite_fst | with_reducible apply State.updMem_keeps

theorem State.freeRuns_keeps {s0 s : State} {x1} (h : Keeps s0 s) :
    Keeps s0 (State.freeRuns s x1) := by
  unfold State.freeRuns; try dsimp only
  repeat' first | with_reducible assumption | with_reducible rfl | (intro _) | with_reducible apply Keeps.ite
                | with_reducible apply Keeps.ite_fst | with_reducible apply State.updMem_keeps

theorem State.updColl_keeps {s0 s : State} {x1 x2} (h : Keeps s0 s) :
    Keeps s0 (State.updColl s x1 x2) := by
  unfold State.updColl; try dsimp only
  repeat' first | with_reducible assumption | with_reducible rfl | (intro _) | with_reducible apply Keeps.ite
                | with_reducible apply Keeps.ite_fst | with_reducible apply State.updMem_keeps

theorem State.settle_keeps {s0 s : State} {x1} (h : Keeps s0 s) :
    Keeps s0 (State.settle s x1) := by
  unfold State.settle; try dsimp only
  repeat' first | with_reducible assumption | with_reducible rfl | (intro _) | with_reducible apply Keeps.ite
                | with_reducible apply Keeps.ite_fst | with_reducible apply State.updColl_keeps
                | with_reducible apply State.watermark_keeps | with_reducible apply Keeps.foldl
                | with_reducible apply Keeps.foldl_fst | (refine Keeps.of_fst ?_ (by with_reducible assumption)) | split

theorem State.enterOverfull_keeps {s0 s : State} {x1} (h : Keeps s0 s) :
    Keeps s0 (State.enterOverfull s x1) := by
  unfold State.enterOverfull; try dsimp only
  repeat' first | with_reducible assumption | with_reducible rfl | (intro _) | with_reducible apply Keeps.ite
                | with_reducible apply Keeps.ite_fst | with_reducible apply State.updColl_keeps
                | with_reducible apply State.watermark_keeps | with_reducible apply Keeps.foldl
                | with_reducible apply Keeps.foldl_fst | (refine Keeps.of_fst ?_ (by with_reducible assumption)) | split

theorem State.updLot_keeps {s0 s : State} {x1 x2 x3 x4} (h : Keeps s0 s) :
    Keeps s0 (State.updLot s x1 x2 x3 x4) := by
  unfold State.updLot; try dsimp only
  repeat' first | with_reducible assumption | with_reducible rfl | (intro _) | with_reducible apply Keeps.ite
                | with_reducible apply Keeps.ite_fst | with_reducible apply State.updMem_keeps

theorem State.heat_keeps {s0 s : State} {x1 x2} (h : Keeps s0 s) :
    Keeps s0 (State.heat s x1 x2) := by
  unfold State.heat; try dsimp only
  repeat' first | with_reducible assumption | with_reducible rfl | (intro _) | with_reducible apply Keeps.ite
                | with_reducible apply Keeps.ite_fst | with_reducible apply State.updLot_keeps

theorem State.updCport_keeps {s0 s : State} {x1 x2 x3} (h : Keeps s0 s) :
    Keeps s0 (State.updCport s x1 x2 x3) := by
  unfold State.updCport; try dsimp only
  repeat' first | with_reducible assumption | with_reducible rfl | (intro _) | with_reducible apply Keeps.ite
                | with_reducible apply Keeps.ite_fst | with_reducible apply Keeps.foldl | with_reducible apply Keeps.foldl_fst
                | (simp only [Keeps.mk_eq]; with_reducible apply KeepsMk.of)

theorem State.rebind_keeps {s0 s : State} (h : Keeps s0 s) :
    Keeps s0 (State.rebind s) := by
  unfold State.rebind; try dsimp only
  repeat' first | with_reducible assumption | with_reducible rfl | (intro _) | with_reducible apply Keeps.ite
                | with_reducible apply Keeps.ite_fst | with_reducible apply Keeps.foldl | with_reducible apply Keeps.foldl_fst
                | (simp only [Keeps.mk_eq]; with_reducible apply KeepsMk.of)

theorem State.sendFlit_keeps {s0 s : State} {x1 x2 x3} (h : Keeps s0 s) :
    Keeps s0 (State.sendFlit s x1 x2 x3) := by
  unfold State.sendFlit; try dsimp only
  repeat' first | with_reducible assumption | with_reducible rfl | (intro _) | with_reducible apply Keeps.ite
                | with_reducible apply Keeps.ite_fst | with_reducible apply State.send_keeps

theorem State.sendMsg_keeps {s0 s : State} {x1 x2 x3 x4} (h : Keeps s0 s) :
    Keeps s0 (State.sendMsg s x1 x2 x3 x4) := by
  unfold State.sendMsg; try dsimp only
  repeat' first | with_reducible assumption | with_reducible rfl | (intro _) | with_reducible apply Keeps.ite
                | with_reducible apply Keeps.ite_fst | with_reducible apply State.sendFlit_keeps
                | with_reducible apply State.updCport_keeps

theorem State.flushAux_keeps {s0 s : State} {x1 x2 x3} (h : Keeps s0 s) :
    Keeps s0 (State.flushAux x1 x2 x3 s) := by
  induction x3 generalizing s with
  | zero => unfold State.flushAux; exact h
  | succ _ ih =>
    unfold State.flushAux; try dsimp only
    repeat' first | with_reducible apply ih | with_reducible assumption | with_reducible rfl | (intro _)
                  | with_reducible apply Keeps.ite | with_reducible apply Keeps.ite_fst
                  | with_reducible apply State.sendMsg_keeps | with_reducible apply State.sendFlit_keeps
                  | with_reducible apply Keeps.foldl | with_reducible apply Keeps.foldl_fst
                  | (refine Keeps.of_fst ?_ (by with_reducible assumption)) | split

theorem State.flushPort_keeps {s0 s : State} {x1 x2} (h : Keeps s0 s) :
    Keeps s0 (State.flushPort s x1 x2) := by
  unfold State.flushPort; try dsimp only
  repeat' first | with_reducible assumption | with_reducible rfl | (intro _) | with_reducible apply Keeps.ite
                | with_reducible apply Keeps.ite_fst | with_reducible apply State.flushAux_keeps
                | with_reducible apply Keeps.foldl | with_reducible apply Keeps.foldl_fst
                | (refine Keeps.of_fst ?_ (by with_reducible assumption)) | split

theorem State.sendPart_keeps {s0 s : State} {x1 x2 x3 x4 x5} (h : Keeps s0 s) :
    Keeps s0 (State.sendPart s x1 x2 x3 x4 x5) := by
  unfold State.sendPart; try dsimp only
  repeat' first | with_reducible assumption | with_reducible rfl | (intro _) | with_reducible apply Keeps.ite
                | with_reducible apply Keeps.ite_fst | with_reducible apply State.flushPort_keeps
                | with_reducible apply State.updCport_keeps | with_reducible apply Keeps.foldl
                | with_reducible apply Keeps.foldl_fst | (refine Keeps.of_fst ?_ (by with_reducible assumption)) | split

theorem State.sendData_keeps {s0 s : State} {x1 x2 x3 x4} (h : Keeps s0 s) :
    Keeps s0 (State.sendData s x1 x2 x3 x4) := by
  unfold State.sendData; try dsimp only
  repeat' first | with_reducible assumption | with_reducible rfl | (intro _) | with_reducible apply Keeps.ite
                | with_reducible apply Keeps.ite_fst | with_reducible apply State.sendPart_keeps

theorem State.sendHello_keeps {s0 s : State} {x1 x2} (h : Keeps s0 s) :
    Keeps s0 (State.sendHello s x1 x2) := by
  unfold State.sendHello; try dsimp only
  repeat' first | with_reducible assumption | with_reducible rfl | (intro _) | with_reducible apply Keeps.ite
                | with_reducible apply Keeps.ite_fst | with_reducible apply State.sendFlit_keeps

theorem State.sendLink_keeps {s0 s : State} {x1 x2 x3} (h : Keeps s0 s) :
    Keeps s0 (State.sendLink s x1 x2 x3) := by
  unfold State.sendLink; try dsimp only
  repeat' first | with_reducible assumption | with_reducible rfl | (intro _) | with_reducible apply Keeps.ite
                | with_reducible apply Keeps.ite_fst | with_reducible apply State.sendFlit_keeps
                | with_reducible apply State.updCport_keeps | with_reducible apply Keeps.foldl
                | with_reducible apply Keeps.foldl_fst | (refine Keeps.of_fst ?_ (by with_reducible assumption)) | split

theorem State.replayFrom_keeps {s0 s : State} {x1 x2 x3} (h : Keeps s0 s) :
    Keeps s0 (State.replayFrom s x1 x2 x3) := by
  unfold State.replayFrom; try dsimp only
  repeat' first | with_reducible assumption | with_reducible rfl | (intro _) | with_reducible apply Keeps.ite
                | with_reducible apply Keeps.ite_fst | with_reducible apply State.sendFlit_keeps
                | with_reducible apply State.updCport_keeps | with_reducible apply State.readSram_keeps
                | with_reducible apply Keeps.foldl | with_reducible apply Keeps.foldl_fst
                | (refine Keeps.of_fst ?_ (by with_reducible assumption)) | split

theorem State.setLink_keeps {s0 s : State} {x1 x2 x3} (h : Keeps s0 s) :
    Keeps s0 (State.setLink s x1 x2 x3) := by
  unfold State.setLink; try dsimp only
  repeat' first | with_reducible assumption | with_reducible rfl | (intro _) | with_reducible apply Keeps.ite
                | with_reducible apply Keeps.ite_fst | with_reducible apply State.updCport_keeps
                | with_reducible apply Keeps.foldl | with_reducible apply Keeps.foldl_fst
                | (refine Keeps.of_fst ?_ (by with_reducible assumption)) | split

theorem State.retrain_keeps {s0 s : State} {x1 x2} (h : Keeps s0 s) :
    Keeps s0 (State.retrain s x1 x2) := by
  unfold State.retrain; try dsimp only
  repeat' first | with_reducible assumption | with_reducible rfl | (intro _) | with_reducible apply Keeps.ite
                | with_reducible apply Keeps.ite_fst | with_reducible apply State.setLink_keeps
                | with_reducible apply State.updCport_keeps | with_reducible apply State.event_keeps
                | with_reducible apply State.bump_keeps

theorem State.checkStall_keeps {s0 s : State} {x1 x2} (h : Keeps s0 s) :
    Keeps s0 (State.checkStall s x1 x2) := by
  unfold State.checkStall; try dsimp only
  repeat' first | with_reducible assumption | with_reducible rfl | (intro _) | with_reducible apply Keeps.ite
                | with_reducible apply Keeps.ite_fst | with_reducible apply State.retrain_keeps
                | with_reducible apply Keeps.foldl | with_reducible apply Keeps.foldl_fst
                | (refine Keeps.of_fst ?_ (by with_reducible assumption)) | split

theorem State.setTokens_keeps {s0 s : State} {x1 x2 x3 x4} (h : Keeps s0 s) :
    Keeps s0 (State.setTokens s x1 x2 x3 x4) := by
  unfold State.setTokens; try dsimp only
  repeat' first | with_reducible assumption | with_reducible rfl | (intro _) | with_reducible apply Keeps.ite
                | with_reducible apply Keeps.ite_fst | with_reducible apply State.updMem_keeps

theorem State.settleBuckets_keeps {s0 s : State} (h : Keeps s0 s) :
    Keeps s0 (State.settleBuckets s) := by
  unfold State.settleBuckets; try dsimp only
  repeat' first | with_reducible assumption | with_reducible rfl | (intro _) | with_reducible apply Keeps.ite
                | with_reducible apply Keeps.ite_fst | with_reducible apply State.updMem_keeps

theorem State.meter_keeps {s0 s : State} {x1 x2 x3 x4} (h : Keeps s0 s) :
    Keeps s0 (State.meter s x1 x2 x3 x4).1 := by
  unfold State.meter; try dsimp only
  repeat' first | with_reducible assumption | with_reducible rfl | (intro _) | with_reducible apply Keeps.ite
                | with_reducible apply Keeps.ite_fst | with_reducible apply State.setTokens_keeps
                | with_reducible apply State.coalesceC_keeps | with_reducible apply State.bump_keeps

theorem State.setFactor_keeps {s0 s : State} {x1 x2 x3 x4} (h : Keeps s0 s) :
    Keeps s0 (State.setFactor s x1 x2 x3 x4) := by
  unfold State.setFactor; try dsimp only
  repeat' first | with_reducible assumption | with_reducible rfl | (intro _) | with_reducible apply Keeps.ite
                | with_reducible apply Keeps.ite_fst | with_reducible apply State.watermark_keeps
                | with_reducible apply State.bump_keeps | with_reducible apply Keeps.foldl
                | with_reducible apply Keeps.foldl_fst | (simp only [Keeps.mk_eq]; with_reducible apply KeepsMk.of)

theorem State.rederive_keeps {s0 s : State} {x1} (h : Keeps s0 s) :
    Keeps s0 (State.rederive s x1) := by
  unfold State.rederive; try dsimp only
  repeat' first | with_reducible assumption | with_reducible rfl | (intro _) | with_reducible apply Keeps.ite
                | with_reducible apply Keeps.ite_fst | with_reducible apply State.setFactor_keeps
                | with_reducible apply State.settleBuckets_keeps | with_reducible apply Keeps.foldl

theorem State.rederiveAll_keeps {s0 s : State} (h : Keeps s0 s) :
    Keeps s0 (State.rederiveAll s) := by
  unfold State.rederiveAll; try dsimp only
  repeat' first | with_reducible assumption | with_reducible rfl | (intro _) | with_reducible apply Keeps.ite
                | with_reducible apply Keeps.ite_fst | with_reducible apply State.rederive_keeps
                | with_reducible apply Keeps.foldl

theorem State.recall_keeps {s0 s : State} {x1 x2} (h : Keeps s0 s) :
    Keeps s0 (State.recall s x1 x2) := by
  unfold State.recall; try dsimp only
  repeat' first | with_reducible assumption | with_reducible rfl | (intro _) | with_reducible apply Keeps.ite
                | with_reducible apply Keeps.ite_fst | with_reducible apply State.bump_keeps
                | with_reducible apply State.send_keeps | with_reducible apply State.updMem_keeps
                | with_reducible apply Keeps.foldl

theorem State.recallBlock_keeps {s0 s : State} {x1 x2} (h : Keeps s0 s) :
    Keeps s0 (State.recallBlock s x1 x2) := by
  unfold State.recallBlock; try dsimp only
  repeat' first | with_reducible assumption | with_reducible rfl | (intro _) | with_reducible apply Keeps.ite
                | with_reducible apply Keeps.ite_fst | with_reducible apply State.recall_keeps

theorem State.readRunLine_keeps {s0 s : State} {x1 x2} (h : Keeps s0 s) :
    Keeps s0 (State.readRunLine s x1 x2).1 := by
  unfold State.readRunLine; try dsimp only
  repeat' first | with_reducible assumption | with_reducible rfl | (intro _) | with_reducible apply Keeps.ite
                | with_reducible apply Keeps.ite_fst | with_reducible apply State.readLine_keeps

theorem State.readStored_keeps {s0 s : State} {x1 x2 x3} (h : Keeps s0 s) :
    Keeps s0 (State.readStored s x1 x2 x3).1 := by
  unfold State.readStored; try dsimp only
  repeat' first | with_reducible assumption | with_reducible rfl | (intro _) | with_reducible apply Keeps.ite
                | with_reducible apply Keeps.ite_fst | with_reducible apply State.readRunLine_keeps
                | with_reducible apply Keeps.foldl | with_reducible apply Keeps.foldl_fst

theorem State.readPayload_keeps {s0 s : State} {x1 x2 x3} (h : Keeps s0 s) :
    Keeps s0 (State.readPayload s x1 x2 x3).1 := by
  unfold State.readPayload; try dsimp only
  repeat' first | with_reducible assumption | with_reducible rfl | (intro _) | with_reducible apply Keeps.ite
                | with_reducible apply Keeps.ite_fst | with_reducible apply State.readStored_keeps

theorem State.flag_keeps {s0 s : State} {x1 x2} (h : Keeps s0 s) :
    Keeps s0 (State.flag s x1 x2) := by
  unfold State.flag; try dsimp only
  repeat' first | with_reducible assumption | with_reducible rfl | (intro _) | with_reducible apply Keeps.ite
                | with_reducible apply Keeps.ite_fst | with_reducible apply State.putEntry_keeps

theorem State.storedHeader_keeps {s0 s : State} {x1} (h : Keeps s0 s) :
    Keeps s0 (State.storedHeader s x1).1 := by
  unfold State.storedHeader; try dsimp only
  repeat' first | with_reducible assumption | with_reducible rfl | (intro _) | with_reducible apply Keeps.ite
                | with_reducible apply Keeps.ite_fst | with_reducible apply State.flag_keeps
                | with_reducible apply State.readRunLine_keeps

theorem State.readHeader_keeps {s0 s : State} {x1} (h : Keeps s0 s) :
    Keeps s0 (State.readHeader s x1).1 := by
  unfold State.readHeader; try dsimp only
  repeat' first | with_reducible assumption | with_reducible rfl | (intro _) | with_reducible apply Keeps.ite
                | with_reducible apply Keeps.ite_fst | with_reducible apply State.storedHeader_keeps
                | with_reducible apply Keeps.foldl | with_reducible apply Keeps.foldl_fst
                | (refine Keeps.of_fst ?_ (by with_reducible assumption)) | split

theorem Fetch.bad_keeps {s0 s : State} {x1 x2} (h : Keeps s0 s) :
    Keeps s0 (Fetch.bad s x1 x2).s := by
  unfold Fetch.bad; try dsimp only
  repeat' first | with_reducible assumption

theorem State.anchorSegment_keeps {s0 s : State} {x1 x2} (h : Keeps s0 s) :
    Keeps s0 (State.anchorSegment s x1 x2).s := by
  unfold State.anchorSegment; try dsimp only
  repeat' first | with_reducible assumption | with_reducible rfl | (intro _) | with_reducible apply Keeps.ite
                | with_reducible apply Keeps.ite_fst | with_reducible apply Keeps.ite_s | with_reducible apply Fetch.bad_keeps
                | with_reducible apply State.readHeader_keeps | with_reducible apply State.flag_keeps
                | with_reducible apply State.readPayload_keeps | with_reducible apply Keeps.foldl
                | with_reducible apply Keeps.foldl_fst | (refine Keeps.of_fst ?_ (by with_reducible assumption)) | split

theorem State.anchorNotice_keeps {s0 s : State} {x1 x2 x3 x4} (h : Keeps s0 s) :
    Keeps s0 (State.anchorNotice s x1 x2 x3 x4) := by
  unfold State.anchorNotice; try dsimp only
  repeat' first | with_reducible assumption | with_reducible rfl | (intro _) | with_reducible apply Keeps.ite
                | with_reducible apply Keeps.ite_fst | with_reducible apply State.coalesceC_keeps

theorem State.checkSegment_keeps {s0 s : State} {x1 x2 x3} (h : Keeps s0 s) :
    Keeps s0 (State.checkSegment s x1 x2 x3).1 := by
  unfold State.checkSegment; try dsimp only
  repeat' first | with_reducible assumption | with_reducible rfl | (intro _) | with_reducible apply Keeps.ite
                | with_reducible apply Keeps.ite_fst | with_reducible apply State.flag_keeps

theorem State.expandSeg_keeps {s0 s : State} {x1 x2 x3 x4} (h : Keeps s0 s) :
    Keeps s0 (State.expandSeg s x1 x2 x3 x4).1 := by
  unfold State.expandSeg; try dsimp only
  repeat' first | with_reducible assumption | with_reducible rfl | (intro _) | with_reducible apply Keeps.ite
                | with_reducible apply Keeps.ite_fst | with_reducible apply Keeps.ite_s
                | with_reducible apply State.anchorNotice_keeps | with_reducible apply State.anchorSegment_keeps
                | with_reducible apply State.flag_keeps | with_reducible apply Keeps.foldl
                | with_reducible apply Keeps.foldl_fst | (refine Keeps.of_fst ?_ (by with_reducible assumption)) | split

theorem State.readSegment_keeps {s0 s : State} {x1 x2 x3} (h : Keeps s0 s) :
    Keeps s0 (State.readSegment s x1 x2 x3).1 := by
  unfold State.readSegment; try dsimp only
  repeat' first | with_reducible assumption | with_reducible rfl | (intro _) | with_reducible apply Keeps.ite
                | with_reducible apply Keeps.ite_fst | with_reducible apply State.expandSeg_keeps
                | with_reducible apply State.checkSegment_keeps | with_reducible apply State.readStored_keeps

theorem State.segmentLine_keeps {s0 s : State} {x1 x2 x3 x4} (h : Keeps s0 s) :
    Keeps s0 (State.segmentLine s x1 x2 x3 x4).s := by
  unfold State.segmentLine; try dsimp only
  repeat' first | with_reducible assumption | with_reducible rfl | (intro _) | with_reducible apply Keeps.ite
                | with_reducible apply Keeps.ite_fst | with_reducible apply Keeps.ite_s
                | with_reducible apply State.readSegment_keeps

theorem State.readBlockLine_keeps {s0 s : State} {x1 x2} (h : Keeps s0 s) :
    Keeps s0 (State.readBlockLine s x1 x2).s := by
  unfold State.readBlockLine; try dsimp only
  repeat' first | with_reducible assumption | with_reducible rfl | (intro _) | with_reducible apply Keeps.ite
                | with_reducible apply Keeps.ite_fst | with_reducible apply Keeps.ite_s
                | with_reducible apply State.segmentLine_keeps | with_reducible apply Fetch.bad_keeps
                | with_reducible apply State.readHeader_keeps | with_reducible apply Keeps.foldl
                | with_reducible apply Keeps.foldl_fst | (refine Keeps.of_fst ?_ (by with_reducible assumption)) | split

theorem State.expandBlock_keeps {s0 s : State} {x1 x2 x3} (h : Keeps s0 s) :
    Keeps s0 (State.expandBlock s x1 x2 x3).1 := by
  unfold State.expandBlock; try dsimp only
  repeat' first | with_reducible assumption | with_reducible rfl | (intro _) | with_reducible apply Keeps.ite
                | with_reducible apply Keeps.ite_fst | with_reducible apply State.expandSeg_keeps
                | with_reducible apply State.checkSegment_keeps | with_reducible apply Keeps.foldl
                | with_reducible apply Keeps.foldl_fst

theorem State.checkModes_keeps {s0 s : State} {x1 x2} (h : Keeps s0 s) :
    Keeps s0 (State.checkModes s x1 x2) := by
  unfold State.checkModes; try dsimp only
  repeat' first | with_reducible assumption | with_reducible rfl | (intro _) | with_reducible apply Keeps.ite
                | with_reducible apply Keeps.ite_fst | with_reducible apply State.flag_keeps

theorem State.readBlock_keeps {s0 s : State} {x1} (h : Keeps s0 s) :
    Keeps s0 (State.readBlock s x1).1 := by
  unfold State.readBlock; try dsimp only
  repeat' first | with_reducible assumption | with_reducible rfl | (intro _) | with_reducible apply Keeps.ite
                | with_reducible apply Keeps.ite_fst | with_reducible apply State.checkModes_keeps
                | with_reducible apply State.expandBlock_keeps | with_reducible apply State.readHeader_keeps
                | with_reducible apply State.readStored_keeps | with_reducible apply Keeps.foldl
                | with_reducible apply Keeps.foldl_fst | (refine Keeps.of_fst ?_ (by with_reducible assumption)) | split

theorem State.fetchView_keeps {s0 s : State} {x1 x2 x3} (h : Keeps s0 s) :
    Keeps s0 (State.fetchView s x1 x2 x3).s := by
  unfold State.fetchView; try dsimp only
  repeat' first | with_reducible assumption | with_reducible rfl | (intro _) | with_reducible apply Keeps.ite
                | with_reducible apply Keeps.ite_fst | with_reducible apply Keeps.ite_s | with_reducible apply Fetch.bad_keeps
                | with_reducible apply State.storedHeader_keeps | with_reducible apply State.readRunLine_keeps
                | with_reducible apply Keeps.foldl | with_reducible apply Keeps.foldl_fst
                | (refine Keeps.of_fst ?_ (by with_reducible assumption)) | split

theorem State.fetchRead_keeps {s0 s : State} {x1} (h : Keeps s0 s) :
    Keeps s0 (State.fetchRead s x1).s := by
  unfold State.fetchRead; try dsimp only
  repeat' first | with_reducible assumption | with_reducible rfl | (intro _) | with_reducible apply Keeps.ite
                | with_reducible apply Keeps.ite_fst | with_reducible apply Keeps.ite_s
                | with_reducible apply State.fetchView_keeps | with_reducible apply State.readBlockLine_keeps
                | with_reducible apply State.heat_keeps | with_reducible apply Keeps.foldl
                | with_reducible apply Keeps.foldl_fst | (refine Keeps.of_fst ?_ (by with_reducible assumption)) | split

theorem State.captureReads_keeps {s0 s : State} {x1} (h : Keeps s0 s) :
    Keeps s0 (State.captureReads s x1) := by
  unfold State.captureReads; try dsimp only
  repeat' first | with_reducible assumption | with_reducible rfl | (intro _) | with_reducible apply Keeps.ite
                | with_reducible apply Keeps.ite_fst | with_reducible apply Keeps.ite_s
                | with_reducible apply State.fetchRead_keeps | with_reducible apply State.updMem_keeps
                | with_reducible apply Keeps.foldl

theorem State.storeRun_keeps {s0 s : State} {x1 x2 x3 x4 x5 x6 x7 x8 x9} (h : Keeps s0 s) :
    Keeps s0 (State.storeRun s x1 x2 x3 x4 x5 x6 x7 x8 x9) := by
  unfold State.storeRun; try dsimp only
  repeat' first | with_reducible assumption | with_reducible rfl | (intro _) | with_reducible apply Keeps.ite
                | with_reducible apply Keeps.ite_fst | with_reducible apply State.storeLine_keeps
                | with_reducible apply Keeps.foldl

theorem State.storeForm_keeps {s0 s : State} {x1 x2 x3 x4} (h : Keeps s0 s) :
    Keeps s0 (State.storeForm s x1 x2 x3 x4) := by
  unfold State.storeForm; try dsimp only
  repeat' first | with_reducible assumption | with_reducible rfl | (intro _) | with_reducible apply Keeps.ite
                | with_reducible apply Keeps.ite_fst | with_reducible apply State.storeRun_keeps
                | with_reducible apply Keeps.foldl | with_reducible apply Keeps.foldl_fst
                | (refine Keeps.of_fst ?_ (by with_reducible assumption)) | split

theorem State.forgetBlock_keeps {s0 s : State} {x1 x2 x3} (h : Keeps s0 s) :
    Keeps s0 (State.forgetBlock s x1 x2 x3) := by
  unfold State.forgetBlock; try dsimp only
  repeat' first | with_reducible assumption | with_reducible rfl | (intro _) | with_reducible apply Keeps.ite
                | with_reducible apply Keeps.ite_fst | with_reducible apply State.updMem_keeps

theorem State.loseBlock_keeps {s0 s : State} {x1 x2 x3 x4} (h : Keeps s0 s) :
    Keeps s0 (State.loseBlock s x1 x2 x3 x4) := by
  unfold State.loseBlock; try dsimp only
  repeat' first | with_reducible assumption | with_reducible rfl | (intro _) | with_reducible apply Keeps.ite
                | with_reducible apply Keeps.ite_fst | with_reducible apply State.forgetBlock_keeps
                | with_reducible apply State.recallBlock_keeps | with_reducible apply State.settle_keeps
                | with_reducible apply State.freeRuns_keeps | with_reducible apply State.putEntry_keeps
                | with_reducible apply State.coalesceC_keeps

theorem State.zeroBlock_keeps {s0 s : State} {x1 x2 x3} (h : Keeps s0 s) :
    Keeps s0 (State.zeroBlock s x1 x2 x3) := by
  unfold State.zeroBlock; try dsimp only
  repeat' first | with_reducible assumption | with_reducible rfl | (intro _) | with_reducible apply Keeps.ite
                | with_reducible apply Keeps.ite_fst | with_reducible apply State.recallBlock_keeps
                | with_reducible apply State.freeRuns_keeps | with_reducible apply State.putEntry_keeps

theorem State.storeBlock_keeps {s0 s : State} {x1 x2 x3 x4 x5 x6} (h : Keeps s0 s) :
    Keeps s0 (State.storeBlock s x1 x2 x3 x4 x5 x6) := by
  unfold State.storeBlock; try dsimp only
  repeat' first | with_reducible assumption | with_reducible rfl | (intro _) | with_reducible apply Keeps.ite
                | with_reducible apply Keeps.ite_fst | with_reducible apply State.loseBlock_keeps
                | with_reducible apply State.storeForm_keeps | with_reducible apply State.captureReads_keeps
                | with_reducible apply State.recallBlock_keeps | with_reducible apply State.heat_keeps
                | with_reducible apply State.updLot_keeps | with_reducible apply State.enterOverfull_keeps
                | with_reducible apply State.settle_keeps | with_reducible apply State.freeRuns_keeps
                | with_reducible apply State.putEntry_keeps | with_reducible apply State.issueSince_keeps
                | with_reducible apply State.coalesceC_keeps | with_reducible apply State.bump_keeps
                | with_reducible apply Keeps.foldl | with_reducible apply Keeps.foldl_fst
                | (simp only [Keeps.mk_eq]; with_reducible apply KeepsMk.of)
                | (refine Keeps.of_fst ?_ (by with_reducible assumption)) | split

theorem State.checkStructure_keeps {s0 s : State} {x1 x2 x3} (h : Keeps s0 s) :
    Keeps s0 (State.checkStructure s x1 x2 x3) := by
  unfold State.checkStructure; try dsimp only
  repeat' first | with_reducible assumption | with_reducible rfl | (intro _) | with_reducible apply Keeps.ite
                | with_reducible apply Keeps.ite_fst | with_reducible apply State.flag_keeps

theorem State.verifyRead_keeps {s0 s : State} {x1} (h : Keeps s0 s) :
    Keeps s0 (State.verifyRead s x1).1 := by
  unfold State.verifyRead; try dsimp only
  repeat' first | with_reducible assumption | with_reducible rfl | (intro _) | with_reducible apply Keeps.ite
                | with_reducible apply Keeps.ite_fst | with_reducible apply State.checkStructure_keeps
                | with_reducible apply State.storedHeader_keeps | with_reducible apply State.flag_keeps
                | with_reducible apply State.readStored_keeps | with_reducible apply State.coalesceC_keeps
                | with_reducible apply Keeps.foldl | with_reducible apply Keeps.foldl_fst
                | (refine Keeps.of_fst ?_ (by with_reducible assumption)) | split

theorem State.verifyBlock_keeps {s0 s : State} {x1} (h : Keeps s0 s) :
    Keeps s0 (State.verifyBlock s x1).1 := by
  unfold State.verifyBlock; try dsimp only
  repeat' first | with_reducible assumption | with_reducible rfl | (intro _) | with_reducible apply Keeps.ite
                | with_reducible apply Keeps.ite_fst | with_reducible apply State.verifyRead_keeps

theorem State.copyRun_keeps {s0 s : State} {x1 x2 x3} (h : Keeps s0 s) :
    Keeps s0 (State.copyRun s x1 x2 x3) := by
  unfold State.copyRun; try dsimp only
  repeat' first | with_reducible assumption | with_reducible rfl | (intro _) | with_reducible apply Keeps.ite
                | with_reducible apply Keeps.ite_fst | with_reducible apply State.readLine_keeps
                | with_reducible apply State.storeLine_keeps | with_reducible apply State.storeQuiet_keeps
                | with_reducible apply State.issueSince_keeps | with_reducible apply Keeps.foldl
                | with_reducible apply Keeps.foldl_fst | (refine Keeps.of_fst ?_ (by with_reducible assumption)) | split

theorem State.dropLines_keeps {s0 s : State} {x1} (h : Keeps s0 s) :
    Keeps s0 (State.dropLines s x1) := by
  unfold State.dropLines; try dsimp only
  repeat' first | with_reducible assumption | with_reducible rfl | (intro _) | with_reducible apply Keeps.ite
                | with_reducible apply Keeps.ite_fst | with_reducible apply State.updMem_keeps

theorem State.putLine_keeps {s0 s : State} {x1} (h : Keeps s0 s) :
    Keeps s0 (State.putLine s x1) := by
  unfold State.putLine; try dsimp only
  repeat' first | with_reducible assumption | with_reducible rfl | (intro _) | with_reducible apply Keeps.ite
                | with_reducible apply Keeps.ite_fst | with_reducible apply State.updMem_keeps

theorem State.lookup_keeps {s0 s : State} {x1 x2 x3} (h : Keeps s0 s) :
    Keeps s0 (State.lookup s x1 x2 x3).1 := by
  unfold State.lookup; try dsimp only
  repeat' first | with_reducible assumption | with_reducible rfl | (intro _) | with_reducible apply Keeps.ite
                | with_reducible apply Keeps.ite_fst | with_reducible apply State.bump_keeps
                | with_reducible apply State.updMem_keeps | with_reducible apply State.updDie_keeps
                | with_reducible apply Keeps.foldl | with_reducible apply Keeps.foldl_fst
                | (refine Keeps.of_fst ?_ (by with_reducible assumption)) | split

theorem State.cacheRead_keeps {s0 s : State} {x1 x2 x3} (h : Keeps s0 s) :
    Keeps s0 (State.cacheRead s x1 x2 x3).1 := by
  unfold State.cacheRead; try dsimp only
  repeat' first | with_reducible assumption | with_reducible rfl | (intro _) | with_reducible apply Keeps.ite
                | with_reducible apply Keeps.ite_fst | with_reducible apply State.lookup_keeps
                | with_reducible apply State.putLine_keeps | with_reducible apply State.dropLines_keeps
                | with_reducible apply State.event_keeps | with_reducible apply State.bump_keeps
                | with_reducible apply Keeps.foldl | with_reducible apply Keeps.foldl_fst
                | (refine Keeps.of_fst ?_ (by with_reducible assumption)) | split

theorem State.outgoing_keeps {s0 s : State} {x1} (h : Keeps s0 s) :
    Keeps s0 (State.outgoing s x1).1 := by
  unfold State.outgoing; try dsimp only
  repeat' first | with_reducible assumption | with_reducible rfl | (intro _) | with_reducible apply Keeps.ite
                | with_reducible apply Keeps.ite_fst | with_reducible apply State.readSram_keeps

theorem State.depart_keeps {s0 s : State} {x1 x2 x3 x4} (h : Keeps s0 s) :
    Keeps s0 (State.depart s x1 x2 x3 x4) := by
  unfold State.depart; try dsimp only
  repeat' first | with_reducible assumption | with_reducible rfl | (intro _) | with_reducible apply Keeps.ite
                | with_reducible apply Keeps.ite_fst | with_reducible apply State.dropLines_keeps
                | with_reducible apply State.updMem_keeps

theorem State.writeRawLine_keeps {s0 s : State} {x1 x2 x3 x4} (h : Keeps s0 s) :
    Keeps s0 (State.writeRawLine s x1 x2 x3 x4) := by
  unfold State.writeRawLine; try dsimp only
  repeat' first | with_reducible assumption | with_reducible rfl | (intro _) | with_reducible apply Keeps.ite
                | with_reducible apply Keeps.ite_fst | with_reducible apply State.captureReads_keeps
                | with_reducible apply State.recallBlock_keeps | with_reducible apply State.putEntry_keeps
                | with_reducible apply State.storeLine_keeps | with_reducible apply Keeps.foldl
                | with_reducible apply Keeps.foldl_fst | (refine Keeps.of_fst ?_ (by with_reducible assumption)) | split

theorem State.leaveRaw_keeps {s0 s : State} {x1} (h : Keeps s0 s) :
    Keeps s0 (State.leaveRaw s x1) := by
  unfold State.leaveRaw; try dsimp only
  repeat' first | with_reducible assumption | with_reducible rfl | (intro _) | with_reducible apply Keeps.ite
                | with_reducible apply Keeps.ite_fst | with_reducible apply State.writeRawLine_keeps
                | with_reducible apply State.depart_keeps | with_reducible apply State.outgoing_keeps
                | with_reducible apply State.putLine_keeps | with_reducible apply State.storeBlock_keeps
                | with_reducible apply State.zeroBlock_keeps | with_reducible apply State.loseBlock_keeps
                | with_reducible apply State.forgetBlock_keeps | with_reducible apply State.captureReads_keeps
                | with_reducible apply State.readBlock_keeps | with_reducible apply State.readPayload_keeps
                | with_reducible apply State.heat_keeps | with_reducible apply State.settle_keeps
                | with_reducible apply Keeps.foldl | with_reducible apply Keeps.foldl_fst
                | (refine Keeps.of_fst ?_ (by with_reducible assumption)) | split

theorem State.outgoingAll_keeps {s0 s : State} {x1} (h : Keeps s0 s) :
    Keeps s0 (State.outgoingAll s x1).1 := by
  unfold State.outgoingAll; try dsimp only
  repeat' first | with_reducible assumption | with_reducible rfl | (intro _) | with_reducible apply Keeps.ite
                | with_reducible apply Keeps.ite_fst | with_reducible apply State.outgoing_keeps
                | with_reducible apply Keeps.foldl | with_reducible apply Keeps.foldl_fst

theorem State.mergeIn_keeps {s0 s : State} {x1 x2} (h : Keeps s0 s) :
    Keeps s0 (State.mergeIn s x1 x2).1 := by
  unfold State.mergeIn; try dsimp only
  repeat' first | with_reducible assumption | with_reducible rfl | (intro _) | with_reducible apply Keeps.ite
                | with_reducible apply Keeps.ite_fst | with_reducible apply State.readSram_keeps

theorem State.mergedLines_keeps {s0 s : State} {x1 x2 x3} (h : Keeps s0 s) :
    Keeps s0 (State.mergedLines s x1 x2 x3).1 := by
  unfold State.mergedLines; try dsimp only
  repeat' first | with_reducible assumption | with_reducible rfl | (intro _) | with_reducible apply Keeps.ite
                | with_reducible apply Keeps.ite_fst | with_reducible apply State.mergeIn_keeps
                | with_reducible apply Keeps.foldl | with_reducible apply Keeps.foldl_fst

theorem State.leaveAct_keeps {s0 s : State} {x1 x2 x3} (h : Keeps s0 s) :
    Keeps s0 (State.leaveAct s x1 x2 x3) := by
  unfold State.leaveAct; try dsimp only
  repeat' first | with_reducible assumption | with_reducible rfl | (intro _) | with_reducible apply Keeps.ite
                | with_reducible apply Keeps.ite_fst | with_reducible apply State.mergedLines_keeps
                | with_reducible apply State.outgoingAll_keeps | with_reducible apply State.depart_keeps
                | with_reducible apply State.putLine_keeps | with_reducible apply State.storeBlock_keeps
                | with_reducible apply State.zeroBlock_keeps | with_reducible apply State.captureReads_keeps
                | with_reducible apply State.readBlock_keeps | with_reducible apply State.settle_keeps
                | with_reducible apply State.updMem_keeps | with_reducible apply Keeps.foldl
                | with_reducible apply Keeps.foldl_fst | (refine Keeps.of_fst ?_ (by with_reducible assumption)) | split

theorem State.leave_keeps {s0 s : State} {x1 x2 x3} (h : Keeps s0 s) :
    Keeps s0 (State.leave s x1 x2 x3) := by
  unfold State.leave; try dsimp only
  repeat' first | with_reducible assumption | with_reducible rfl | (intro _) | with_reducible apply Keeps.ite
                | with_reducible apply Keeps.ite_fst | with_reducible apply State.leaveAct_keeps
                | with_reducible apply State.leaveRaw_keeps | with_reducible apply Keeps.foldl
                | with_reducible apply Keeps.foldl_fst | (refine Keeps.of_fst ?_ (by with_reducible assumption)) | split

theorem State.evict_keeps {s0 s : State} {x1} (h : Keeps s0 s) :
    Keeps s0 (State.evict s x1) := by
  unfold State.evict; try dsimp only
  repeat' first | with_reducible assumption | with_reducible rfl | (intro _) | with_reducible apply Keeps.ite
                | with_reducible apply Keeps.ite_fst | with_reducible apply State.leave_keeps
                | with_reducible apply State.dropLines_keeps

theorem State.makeRoomAux_keeps {s0 s : State} {x1 x2 x3 x4} (h : Keeps s0 s) :
    Keeps s0 (State.makeRoomAux x1 x2 x3 x4 s).1 := by
  induction x4 generalizing s with
  | zero => unfold State.makeRoomAux; exact h
  | succ _ ih =>
    unfold State.makeRoomAux; try dsimp only
    repeat' first | with_reducible apply ih | with_reducible assumption | with_reducible rfl | (intro _)
                  | with_reducible apply Keeps.ite | with_reducible apply Keeps.ite_fst
                  | with_reducible apply State.evict_keeps | with_reducible apply State.leaveAct_keeps
                  | with_reducible apply State.forceBlock_keeps | with_reducible apply Keeps.foldl
                  | with_reducible apply Keeps.foldl_fst | (refine Keeps.of_fst ?_ (by with_reducible assumption)) | split

theorem State.makeRoom_keeps {s0 s : State} {x1 x2 x3} (h : Keeps s0 s) :
    Keeps s0 (State.makeRoom s x1 x2 x3).1 := by
  unfold State.makeRoom; try dsimp only
  repeat' first | with_reducible assumption | with_reducible rfl | (intro _) | with_reducible apply Keeps.ite
                | with_reducible apply Keeps.ite_fst | with_reducible apply State.makeRoomAux_keeps

theorem State.allocClean_keeps {s0 s : State} {x1 x2 x3 x4} (h : Keeps s0 s) :
    Keeps s0 (State.allocClean s x1 x2 x3 x4) := by
  unfold State.allocClean; try dsimp only
  repeat' first | with_reducible assumption | with_reducible rfl | (intro _) | with_reducible apply Keeps.ite
                | with_reducible apply Keeps.ite_fst | with_reducible apply State.makeRoom_keeps
                | with_reducible apply State.putLine_keeps | with_reducible apply Keeps.foldl
                | with_reducible apply Keeps.foldl_fst | (refine Keeps.of_fst ?_ (by with_reducible assumption)) | split

theorem State.allocHdr_keeps {s0 s : State} {x1} (h : Keeps s0 s) :
    Keeps s0 (State.allocHdr s x1) := by
  unfold State.allocHdr; try dsimp only
  repeat' first | with_reducible assumption | with_reducible rfl | (intro _) | with_reducible apply Keeps.ite
                | with_reducible apply Keeps.ite_fst | with_reducible apply State.makeRoom_keeps
                | with_reducible apply State.putLine_keeps | with_reducible apply Keeps.foldl
                | with_reducible apply Keeps.foldl_fst | (refine Keeps.of_fst ?_ (by with_reducible assumption)) | split

theorem State.writeBackBlock_keeps {s0 s : State} {x1 x2 x3} (h : Keeps s0 s) :
    Keeps s0 (State.writeBackBlock s x1 x2 x3) := by
  unfold State.writeBackBlock; try dsimp only
  repeat' first | with_reducible assumption | with_reducible rfl | (intro _) | with_reducible apply Keeps.ite
                | with_reducible apply Keeps.ite_fst | with_reducible apply State.leave_keeps
                | with_reducible apply State.leaveAct_keeps | with_reducible apply State.mergedLines_keeps
                | with_reducible apply State.putLine_keeps | with_reducible apply State.dropLines_keeps
                | with_reducible apply State.forceBlock_keeps | with_reducible apply Keeps.foldl

theorem State.writeBackAll_keeps {s0 s : State} {x1 x2} (h : Keeps s0 s) :
    Keeps s0 (State.writeBackAll s x1 x2) := by
  unfold State.writeBackAll; try dsimp only
  repeat' first | with_reducible assumption | with_reducible rfl | (intro _) | with_reducible apply Keeps.ite
                | with_reducible apply Keeps.ite_fst | with_reducible apply State.writeBackBlock_keeps
                | with_reducible apply Keeps.foldl

theorem State.expandInto_keeps {s0 s : State} {x1 x2 x3} (h : Keeps s0 s) :
    Keeps s0 (State.expandInto s x1 x2 x3) := by
  unfold State.expandInto; try dsimp only
  repeat' first | with_reducible assumption | with_reducible rfl | (intro _) | with_reducible apply Keeps.ite
                | with_reducible apply Keeps.ite_fst | with_reducible apply State.putLine_keeps
                | with_reducible apply State.dropLines_keeps | with_reducible apply State.readBlock_keeps
                | with_reducible apply State.heat_keeps | with_reducible apply Keeps.foldl

theorem State.updEngine_keeps {s0 s : State} {x1 x2 x3} (h : Keeps s0 s) :
    Keeps s0 (State.updEngine s x1 x2 x3) := by
  unfold State.updEngine; try dsimp only
  repeat' first | with_reducible assumption | with_reducible rfl | (intro _) | with_reducible apply Keeps.ite
                | with_reducible apply Keeps.ite_fst | with_reducible apply State.updFn_keeps

theorem State.hostReadReq_keeps {s0 s : State} {x1 x2 x3 x4 x5 x6 x7} (h : Keeps s0 s) :
    Keeps s0 (State.hostReadReq s x1 x2 x3 x4 x5 x6 x7) := by
  unfold State.hostReadReq; try dsimp only
  repeat' first | with_reducible assumption | with_reducible rfl | (intro _) | with_reducible apply Keeps.ite
                | with_reducible apply Keeps.ite_fst | with_reducible apply State.send_keeps
                | with_reducible apply State.updFn_keeps | with_reducible apply Keeps.foldl
                | with_reducible apply Keeps.foldl_fst | (refine Keeps.of_fst ?_ (by with_reducible assumption)) | split

theorem State.issueReadsAux_keeps {s0 s : State} {x1 x2 x3} (h : Keeps s0 s) :
    Keeps s0 (State.issueReadsAux x1 x2 x3 s) := by
  induction x3 generalizing s with
  | zero => unfold State.issueReadsAux; exact h
  | succ _ ih =>
    unfold State.issueReadsAux; try dsimp only
    repeat' first | with_reducible apply ih | with_reducible assumption | with_reducible rfl | (intro _)
                  | with_reducible apply Keeps.ite | with_reducible apply Keeps.ite_fst
                  | with_reducible apply State.hostReadReq_keeps | with_reducible apply State.updEngine_keeps
                  | with_reducible apply Keeps.foldl | with_reducible apply Keeps.foldl_fst
                  | (refine Keeps.of_fst ?_ (by with_reducible assumption)) | split

theorem State.issueReads_keeps {s0 s : State} {x1 x2} (h : Keeps s0 s) :
    Keeps s0 (State.issueReads s x1 x2) := by
  unfold State.issueReads; try dsimp only
  repeat' first | with_reducible assumption | with_reducible rfl | (intro _) | with_reducible apply Keeps.ite
                | with_reducible apply Keeps.ite_fst | with_reducible apply State.issueReadsAux_keeps

theorem State.fetchNext_keeps {s0 s : State} {x1 x2} (h : Keeps s0 s) :
    Keeps s0 (State.fetchNext s x1 x2) := by
  unfold State.fetchNext; try dsimp only
  repeat' first | with_reducible assumption | with_reducible rfl | (intro _) | with_reducible apply Keeps.ite
                | with_reducible apply Keeps.ite_fst | with_reducible apply State.hostReadReq_keeps
                | with_reducible apply State.updEngine_keeps | with_reducible apply Keeps.foldl
                | with_reducible apply Keeps.foldl_fst | (refine Keeps.of_fst ?_ (by with_reducible assumption)) | split

theorem State.finishDesc_keeps {s0 s : State} {x1 x2 x3 x4} (h : Keeps s0 s) :
    Keeps s0 (State.finishDesc s x1 x2 x3 x4) := by
  unfold State.finishDesc; try dsimp only
  repeat' first | with_reducible assumption | with_reducible rfl | (intro _) | with_reducible apply Keeps.ite
                | with_reducible apply Keeps.ite_fst | with_reducible apply State.fetchNext_keeps
                | with_reducible apply State.updEngine_keeps | with_reducible apply State.event_keeps
                | with_reducible apply State.send_keeps | with_reducible apply Keeps.foldl
                | with_reducible apply Keeps.foldl_fst | (refine Keeps.of_fst ?_ (by with_reducible assumption)) | split

theorem State.lineMoved_keeps {s0 s : State} {x1 x2 x3} (h : Keeps s0 s) :
    Keeps s0 (State.lineMoved s x1 x2 x3) := by
  unfold State.lineMoved; try dsimp only
  repeat' first | with_reducible assumption | with_reducible rfl | (intro _) | with_reducible apply Keeps.ite
                | with_reducible apply Keeps.ite_fst | with_reducible apply State.finishDesc_keeps
                | with_reducible apply State.updEngine_keeps | with_reducible apply State.bump_keeps
                | with_reducible apply Keeps.foldl | with_reducible apply Keeps.foldl_fst
                | (refine Keeps.of_fst ?_ (by with_reducible assumption)) | split

theorem State.append_keeps {s0 s : State} {x1 x2} (h : Keeps s0 s) :
    Keeps s0 (State.append s x1 x2) := by
  unfold State.append; try dsimp only
  repeat' first | with_reducible assumption | with_reducible rfl | (intro _) | with_reducible apply Keeps.ite
                | with_reducible apply Keeps.ite_fst | with_reducible apply State.updMem_keeps
                | with_reducible apply Keeps.foldl | with_reducible apply Keeps.foldl_fst
                | (refine Keeps.of_fst ?_ (by with_reducible assumption)) | split

theorem State.wakeChannels_keeps {s0 s : State} (h : Keeps s0 s) :
    Keeps s0 (State.wakeChannels s) := by
  unfold State.wakeChannels; try dsimp only
  repeat' first | with_reducible assumption | with_reducible rfl | (intro _) | with_reducible apply Keeps.ite
                | with_reducible apply Keeps.ite_fst | with_reducible apply Keeps.foldl | with_reducible apply Keeps.foldl_fst
                | (simp only [Keeps.mk_eq]; with_reducible apply KeepsMk.of)

theorem State.giveLine_keeps {s0 s : State} {x1 x2 x3 x4 x5} (h : Keeps s0 s) :
    Keeps s0 (State.giveLine s x1 x2 x3 x4 x5) := by
  unfold State.giveLine; try dsimp only
  repeat' first | with_reducible assumption | with_reducible rfl | (intro _) | with_reducible apply Keeps.ite
                | with_reducible apply Keeps.ite_fst | with_reducible apply Keeps.foldl | with_reducible apply Keeps.foldl_fst
                | (simp only [Keeps.mk_eq]; with_reducible apply KeepsMk.of)
                | (refine Keeps.of_fst ?_ (by with_reducible assumption)) | split

theorem State.answer_keeps {s0 s : State} {x1 x2 x3 x4 x5} (h : Keeps s0 s) :
    Keeps s0 (State.answer s x1 x2 x3 x4 x5) := by
  unfold State.answer; try dsimp only
  repeat' first | with_reducible assumption | with_reducible rfl | (intro _) | with_reducible apply Keeps.ite
                | with_reducible apply Keeps.ite_fst | with_reducible apply State.giveLine_keeps
                | with_reducible apply State.lineMoved_keeps | with_reducible apply State.bump_keeps
                | with_reducible apply State.send_keeps | with_reducible apply State.updMem_keeps
                | with_reducible apply Keeps.foldl | with_reducible apply Keeps.foldl_fst
                | (refine Keeps.of_fst ?_ (by with_reducible assumption)) | split

theorem State.completeWrite_keeps {s0 s : State} {x1} (h : Keeps s0 s) :
    Keeps s0 (State.completeWrite s x1) := by
  unfold State.completeWrite; try dsimp only
  repeat' first | with_reducible assumption | with_reducible rfl | (intro _) | with_reducible apply Keeps.ite
                | with_reducible apply Keeps.ite_fst | with_reducible apply State.lineMoved_keeps
                | with_reducible apply State.send_keeps | with_reducible apply Keeps.foldl
                | with_reducible apply Keeps.foldl_fst | (refine Keeps.of_fst ?_ (by with_reducible assumption)) | split

theorem State.meterFor_keeps {s0 s : State} {x1 x2 x3 x4} (h : Keeps s0 s) :
    Keeps s0 (State.meterFor s x1 x2 x3 x4).1 := by
  unfold State.meterFor; try dsimp only
  repeat' first | with_reducible assumption | with_reducible rfl | (intro _) | with_reducible apply Keeps.ite
                | with_reducible apply Keeps.ite_fst | with_reducible apply State.meter_keeps
                | with_reducible apply Keeps.foldl | with_reducible apply Keeps.foldl_fst
                | (refine Keeps.of_fst ?_ (by with_reducible assumption)) | split

theorem State.mergeRead_keeps {s0 s : State} {x1 x2 x3} (h : Keeps s0 s) :
    Keeps s0 (State.mergeRead s x1 x2 x3).1 := by
  unfold State.mergeRead; try dsimp only
  repeat' first | with_reducible assumption | with_reducible rfl | (intro _) | with_reducible apply Keeps.ite
                | with_reducible apply Keeps.ite_fst | with_reducible apply State.readSram_keeps
                | with_reducible apply State.updMem_keeps | with_reducible apply Keeps.foldl
                | with_reducible apply Keeps.foldl_fst | (refine Keeps.of_fst ?_ (by with_reducible assumption)) | split

theorem State.queueRead_keeps {s0 s : State} {x1} (h : Keeps s0 s) :
    Keeps s0 (State.queueRead s x1) := by
  unfold State.queueRead; try dsimp only
  repeat' first | with_reducible assumption | with_reducible rfl | (intro _) | with_reducible apply Keeps.ite
                | with_reducible apply Keeps.ite_fst | with_reducible apply State.pump_keeps
                | with_reducible apply State.wakeRank_keeps | with_reducible apply State.updMem_keeps
                | with_reducible apply Keeps.foldl | with_reducible apply Keeps.foldl_fst
                | (simp only [Keeps.mk_eq]; with_reducible apply KeepsMk.of)

theorem State.anchorLost_keeps {s0 s : State} {x1} (h : Keeps s0 s) :
    Keeps s0 (State.anchorLost s x1) := by
  unfold State.anchorLost; try dsimp only
  repeat' first | with_reducible assumption | with_reducible rfl | (intro _) | with_reducible apply Keeps.ite
                | with_reducible apply Keeps.ite_fst | with_reducible apply State.anchorNotice_keeps

theorem State.serveRead_keeps {s0 s : State} {x1 x2 x3} (h : Keeps s0 s) :
    Keeps s0 (State.serveRead s x1 x2 x3) := by
  unfold State.serveRead; try dsimp only
  repeat' first | with_reducible assumption | with_reducible rfl | (intro _) | with_reducible apply Keeps.ite
                | with_reducible apply Keeps.ite_fst | with_reducible apply State.anchorLost_keeps
                | with_reducible apply State.queueRead_keeps | with_reducible apply State.mergeRead_keeps
                | with_reducible apply State.meterFor_keeps | with_reducible apply State.answer_keeps
                | with_reducible apply State.cacheRead_keeps | with_reducible apply Keeps.foldl
                | with_reducible apply Keeps.foldl_fst | (refine Keeps.of_fst ?_ (by with_reducible assumption)) | split

theorem State.completeRead_keeps {s0 s : State} {x1} (h : Keeps s0 s) :
    Keeps s0 (State.completeRead s x1) := by
  unfold State.completeRead; try dsimp only
  repeat' first | with_reducible assumption | with_reducible rfl | (intro _) | with_reducible apply Keeps.ite
                | with_reducible apply Keeps.ite_fst | with_reducible apply Keeps.ite_s
                | with_reducible apply State.answer_keeps | with_reducible apply State.allocHdr_keeps
                | with_reducible apply State.allocClean_keeps | with_reducible apply State.fetchRead_keeps
                | with_reducible apply State.pump_keeps | with_reducible apply State.updMem_keeps
                | with_reducible apply Keeps.foldl | with_reducible apply Keeps.foldl_fst
                | (refine Keeps.of_fst ?_ (by with_reducible assumption)) | split

theorem State.discard_keeps {s0 s : State} {x1 x2 x3 x4 x5} (h : Keeps s0 s) :
    Keeps s0 (State.discard s x1 x2 x3 x4 x5) := by
  unfold State.discard; try dsimp only
  repeat' first | with_reducible assumption | with_reducible rfl | (intro _) | with_reducible apply Keeps.ite
                | with_reducible apply Keeps.ite_fst | with_reducible apply State.coalesceC_keeps

theorem State.landed_keeps {s0 s : State} {x1 x2 x3 x4} (h : Keeps s0 s) :
    Keeps s0 (State.landed s x1 x2 x3 x4) := by
  unfold State.landed; try dsimp only
  repeat' first | with_reducible assumption | with_reducible rfl | (intro _) | with_reducible apply Keeps.ite
                | with_reducible apply Keeps.ite_fst | with_reducible apply State.completeWrite_keeps
                | with_reducible apply State.recall_keeps | with_reducible apply State.updMem_keeps
                | with_reducible apply Keeps.foldl | with_reducible apply Keeps.foldl_fst
                | (simp only [Keeps.mk_eq]; with_reducible apply KeepsMk.of)

theorem State.mergeWrite_keeps {s0 s : State} {x1 x2 x3 x4 x5 x6} (h : Keeps s0 s) :
    Keeps s0 (State.mergeWrite s x1 x2 x3 x4 x5 x6) := by
  unfold State.mergeWrite; try dsimp only
  repeat' first | with_reducible assumption | with_reducible rfl | (intro _) | with_reducible apply Keeps.ite
                | with_reducible apply Keeps.ite_fst | with_reducible apply State.makeRoom_keeps
                | with_reducible apply State.leaveAct_keeps | with_reducible apply State.updMem_keeps

theorem State.placeWrite_keeps {s0 s : State} {x1} (h : Keeps s0 s) :
    Keeps s0 (State.placeWrite s x1) := by
  unfold State.placeWrite; try dsimp only
  repeat' first | with_reducible assumption | with_reducible rfl | (intro _) | with_reducible apply Keeps.ite
                | with_reducible apply Keeps.ite_fst | with_reducible apply State.makeRoom_keeps
                | with_reducible apply State.leave_keeps | with_reducible apply State.putLine_keeps
                | with_reducible apply Keeps.foldl | with_reducible apply Keeps.foldl_fst
                | (refine Keeps.of_fst ?_ (by with_reducible assumption)) | split

theorem State.serveWrite_keeps {s0 s : State} {x1 x2 x3 x4 x5 x6 x7} (h : Keeps s0 s) :
    Keeps s0 (State.serveWrite s x1 x2 x3 x4 x5 x6 x7) := by
  unfold State.serveWrite; try dsimp only
  repeat' first | with_reducible assumption | with_reducible rfl | (intro _) | with_reducible apply Keeps.ite
                | with_reducible apply Keeps.ite_fst | with_reducible apply State.placeWrite_keeps
                | with_reducible apply State.mergeWrite_keeps | with_reducible apply State.landed_keeps
                | with_reducible apply State.discard_keeps | with_reducible apply State.meterFor_keeps
                | with_reducible apply State.completeWrite_keeps | with_reducible apply State.append_keeps
                | with_reducible apply State.lookup_keeps | with_reducible apply State.putLine_keeps
                | with_reducible apply Keeps.foldl | with_reducible apply Keeps.foldl_fst
                | (refine Keeps.of_fst ?_ (by with_reducible assumption)) | split

theorem State.blockExpanded_keeps {s0 s : State} {x1 x2 x3} (h : Keeps s0 s) :
    Keeps s0 (State.blockExpanded s x1 x2 x3) := by
  unfold State.blockExpanded; try dsimp only
  repeat' first | with_reducible assumption | with_reducible rfl | (intro _) | with_reducible apply Keeps.ite
                | with_reducible apply Keeps.ite_fst | with_reducible apply State.expandInto_keeps
                | with_reducible apply State.makeRoom_keeps | with_reducible apply State.leaveAct_keeps
                | with_reducible apply State.mergeIn_keeps | with_reducible apply State.putLine_keeps
                | with_reducible apply State.updMem_keeps | with_reducible apply Keeps.foldl
                | with_reducible apply Keeps.foldl_fst | (refine Keeps.of_fst ?_ (by with_reducible assumption)) | split

theorem State.finishWrites_keeps {s0 s : State} (h : Keeps s0 s) :
    Keeps s0 (State.finishWrites s) := by
  unfold State.finishWrites; try dsimp only
  repeat' first | with_reducible assumption | with_reducible rfl | (intro _) | with_reducible apply Keeps.ite
                | with_reducible apply Keeps.ite_fst | with_reducible apply State.completeWrite_keeps
                | with_reducible apply State.updMem_keeps | with_reducible apply Keeps.foldl

theorem State.depotWritten_keeps {s0 s : State} {x1} (h : Keeps s0 s) :
    Keeps s0 (State.depotWritten s x1) := by
  unfold State.depotWritten; try dsimp only
  repeat' first | with_reducible assumption | with_reducible rfl | (intro _) | with_reducible apply Keeps.ite
                | with_reducible apply Keeps.ite_fst | with_reducible apply State.finishWrites_keeps
                | with_reducible apply State.writeBackBlock_keeps | with_reducible apply State.updMem_keeps
                | with_reducible apply Keeps.foldl | with_reducible apply Keeps.foldl_fst
                | (refine Keeps.of_fst ?_ (by with_reducible assumption)) | split

end Sys2Proof.Machine
end

