-- ==== Sys2Proof/Laws/KeepsCommands.lean ====
section
/-! SUPPORT. What the operations over command areas, the Curator, docents, the Workbench, isolation, sequences and channels keep (`Keeps`): the queue, the assembly, and sound memory. -/

namespace Sys2Proof.Machine

theorem State.putCmd_keeps {s0 s : State} {x1} (h : Keeps s0 s) :
    Keeps s0 (State.putCmd s x1) := by
  unfold State.putCmd; try dsimp only
  repeat' first | with_reducible assumption | with_reducible rfl | (intro _) | with_reducible apply Keeps.ite
                | with_reducible apply Keeps.ite_fst | with_reducible apply State.updMem_keeps

theorem State.acceptCmd_keeps {s0 s : State} {x1 x2 x3} (h : Keeps s0 s) :
    Keeps s0 (State.acceptCmd s x1 x2 x3) := by
  unfold State.acceptCmd; try dsimp only
  repeat' first | with_reducible assumption | with_reducible rfl | (intro _) | with_reducible apply Keeps.ite
                | with_reducible apply Keeps.ite_fst | with_reducible apply State.putCmd_keeps
                | with_reducible apply Keeps.foldl | with_reducible apply Keeps.foldl_fst
                | (simp only [Keeps.mk_eq]; with_reducible apply KeepsMk.of)

theorem State.writeLineCmd_keeps {s0 s : State} {x1 x2 x3 x4 x5} (h : Keeps s0 s) :
    Keeps s0 (State.writeLineCmd s x1 x2 x3 x4 x5) := by
  unfold State.writeLineCmd; try dsimp only
  repeat' first | with_reducible assumption | with_reducible rfl | (intro _) | with_reducible apply Keeps.ite
                | with_reducible apply Keeps.ite_fst | with_reducible apply State.acceptCmd_keeps
                | with_reducible apply State.putCmd_keeps | with_reducible apply State.event_keeps

theorem State.endCmd_keeps {s0 s : State} {x1 x2 x3 x4} (h : Keeps s0 s) :
    Keeps s0 (State.endCmd s x1 x2 x3 x4) := by
  unfold State.endCmd; try dsimp only
  repeat' first | with_reducible assumption | with_reducible rfl | (intro _) | with_reducible apply Keeps.ite
                | with_reducible apply Keeps.ite_fst | with_reducible apply State.putCmd_keeps
                | with_reducible apply State.event_keeps

theorem State.runCmd_keeps {s0 s : State} {x1 x2 x3 x4} (h : Keeps s0 s) (hf4 : ∀ y0 y1, Keeps s0 y1 → Keeps s0 (x4 y0 y1)) :
    Keeps s0 (State.runCmd s x1 x2 x3 x4) := by
  unfold State.runCmd; try dsimp only
  repeat' first | with_reducible assumption | with_reducible rfl | (intro _) | with_reducible apply Keeps.ite
                | with_reducible apply Keeps.ite_fst | with_reducible apply hf4 | with_reducible apply State.endCmd_keeps
                | with_reducible apply Keeps.foldl | with_reducible apply Keeps.foldl_fst
                | (refine Keeps.of_fst ?_ (by with_reducible assumption)) | split

theorem State.orHold_keeps {s0 s : State} {x1 x2 x3 x4} (h : Keeps s0 s) (hf4 : ∀ y0, Keeps s0 y0 → Keeps s0 (x4 y0)) :
    Keeps s0 (State.orHold s x1 x2 x3 x4) := by
  unfold State.orHold; try dsimp only
  repeat' first | with_reducible assumption | with_reducible rfl | (intro _) | with_reducible apply Keeps.ite
                | with_reducible apply Keeps.ite_fst | with_reducible apply hf4 | with_reducible apply Keeps.foldl
                | with_reducible apply Keeps.foldl_fst | (simp only [Keeps.mk_eq]; with_reducible apply KeepsMk.of)
                | (refine Keeps.of_fst ?_ (by with_reducible assumption)) | split

theorem State.queueTrigger_keeps {s0 s : State} {x1 x2 x3 x4} (h : Keeps s0 s) :
    Keeps s0 (State.queueTrigger s x1 x2 x3 x4) := by
  unfold State.queueTrigger; try dsimp only
  repeat' first | with_reducible assumption | with_reducible rfl | (intro _) | with_reducible apply Keeps.ite
                | with_reducible apply Keeps.ite_fst | with_reducible apply Keeps.foldl | with_reducible apply Keeps.foldl_fst
                | (simp only [Keeps.mk_eq]; with_reducible apply KeepsMk.of)

theorem State.queueMoves_keeps {s0 s : State} {x1 x2 x3} (h : Keeps s0 s) :
    Keeps s0 (State.queueMoves s x1 x2 x3) := by
  unfold State.queueMoves; try dsimp only
  repeat' first | with_reducible assumption | with_reducible rfl | (intro _) | with_reducible apply Keeps.ite
                | with_reducible apply Keeps.ite_fst | with_reducible apply State.queueTrigger_keeps
                | with_reducible apply State.updMem_keeps

theorem State.startMove_keeps {s0 s : State} {x1} (h : Keeps s0 s) :
    Keeps s0 (State.startMove s x1) := by
  unfold State.startMove; try dsimp only
  repeat' first | with_reducible assumption | with_reducible rfl | (intro _) | with_reducible apply Keeps.ite
                | with_reducible apply Keeps.ite_fst | with_reducible apply State.updLot_keeps
                | with_reducible apply State.bump_keeps | with_reducible apply State.updMem_keeps

theorem State.startSome_keeps {s0 s : State} {x1 x2} (h : Keeps s0 s) :
    Keeps s0 (State.startSome x1 x2 s) := by
  induction x2 generalizing s with
  | zero => unfold State.startSome; exact h
  | succ _ ih =>
    unfold State.startSome; try dsimp only
    repeat' first | with_reducible apply ih | with_reducible assumption | with_reducible rfl | (intro _)
                  | with_reducible apply Keeps.ite | with_reducible apply Keeps.ite_fst
                  | with_reducible apply State.startMove_keeps | with_reducible apply Keeps.foldl
                  | with_reducible apply Keeps.foldl_fst | (refine Keeps.of_fst ?_ (by with_reducible assumption)) | split

theorem State.startMoves_keeps {s0 s : State} {x1} (h : Keeps s0 s) :
    Keeps s0 (State.startMoves s x1) := by
  unfold State.startMoves; try dsimp only
  repeat' first | with_reducible assumption | with_reducible rfl | (intro _) | with_reducible apply Keeps.ite
                | with_reducible apply Keeps.ite_fst | with_reducible apply State.startSome_keeps
                | with_reducible apply State.updMem_keeps

theorem State.dropWaiting_keeps {s0 s : State} {x1} (h : Keeps s0 s) :
    Keeps s0 (State.dropWaiting s x1) := by
  unfold State.dropWaiting; try dsimp only
  repeat' first | with_reducible assumption | with_reducible rfl | (intro _) | with_reducible apply Keeps.ite
                | with_reducible apply Keeps.ite_fst | with_reducible apply State.updMem_keeps

theorem State.halveHeat_keeps {s0 s : State} {x1} (h : Keeps s0 s) :
    Keeps s0 (State.halveHeat s x1) := by
  unfold State.halveHeat; try dsimp only
  repeat' first | with_reducible assumption | with_reducible rfl | (intro _) | with_reducible apply Keeps.ite
                | with_reducible apply Keeps.ite_fst | with_reducible apply State.updMem_keeps

theorem State.notePrepared_keeps {s0 s : State} (h : Keeps s0 s) :
    Keeps s0 (State.notePrepared s) := by
  unfold State.notePrepared; try dsimp only
  repeat' first | with_reducible assumption | with_reducible rfl | (intro _) | with_reducible apply Keeps.ite
                | with_reducible apply Keeps.ite_fst | with_reducible apply State.event_keeps
                | with_reducible apply Keeps.foldl | with_reducible apply Keeps.foldl_fst
                | (simp only [Keeps.mk_eq]; with_reducible apply KeepsMk.of)

theorem State.periodOn_keeps {s0 s : State} {x1} (h : Keeps s0 s) :
    Keeps s0 (State.periodOn s x1) := by
  unfold State.periodOn; try dsimp only
  repeat' first | with_reducible assumption | with_reducible rfl | (intro _) | with_reducible apply Keeps.ite
                | with_reducible apply Keeps.ite_fst | with_reducible apply State.halveHeat_keeps
                | with_reducible apply State.dropWaiting_keeps | with_reducible apply State.queueMoves_keeps
                | with_reducible apply State.bump_keeps | with_reducible apply Keeps.foldl

theorem State.writeDieReg_keeps {s0 s : State} {x1 x2 x3 x4} (h : Keeps s0 s) :
    Keeps s0 (State.writeDieReg s x1 x2 x3 x4) := by
  unfold State.writeDieReg; try dsimp only
  repeat' first | with_reducible assumption | with_reducible rfl | (intro _) | with_reducible apply Keeps.ite
                | with_reducible apply Keeps.ite_fst | with_reducible apply State.updChan_keeps
                | with_reducible apply Keeps.foldl | with_reducible apply Keeps.foldl_fst
                | (refine Keeps.of_fst ?_ (by with_reducible assumption)) | split

theorem State.updDocent_keeps {s0 s : State} {x1 x2} (h : Keeps s0 s) :
    Keeps s0 (State.updDocent s x1 x2) := by
  unfold State.updDocent; try dsimp only
  repeat' first | with_reducible assumption | with_reducible rfl | (intro _) | with_reducible apply Keeps.ite
                | with_reducible apply Keeps.ite_fst | with_reducible apply Keeps.foldl | with_reducible apply Keeps.foldl_fst
                | (simp only [Keeps.mk_eq]; with_reducible apply KeepsMk.of)

theorem State.setCtx_keeps {s0 s : State} {x1 x2 x3} (h : Keeps s0 s) :
    Keeps s0 (State.setCtx s x1 x2 x3) := by
  unfold State.setCtx; try dsimp only
  repeat' first | with_reducible assumption | with_reducible rfl | (intro _) | with_reducible apply Keeps.ite
                | with_reducible apply Keeps.ite_fst | with_reducible apply State.updDocent_keeps

theorem State.readBuf_keeps {s0 s : State} {x1 x2 x3 x4} (h : Keeps s0 s) :
    Keeps s0 (State.readBuf s x1 x2 x3 x4).1 := by
  unfold State.readBuf; try dsimp only
  repeat' first | with_reducible assumption | with_reducible rfl | (intro _) | with_reducible apply Keeps.ite
                | with_reducible apply Keeps.ite_fst | with_reducible apply State.readSram_keeps
                | with_reducible apply Keeps.foldl | with_reducible apply Keeps.foldl_fst
                | (refine Keeps.of_fst ?_ (by with_reducible assumption)) | split

theorem State.startRole_keeps {s0 s : State} {x1} (h : Keeps s0 s) :
    Keeps s0 (State.startRole s x1) := by
  unfold State.startRole; try dsimp only
  repeat' first | with_reducible assumption | with_reducible rfl | (intro _) | with_reducible apply Keeps.ite
                | with_reducible apply Keeps.ite_fst | with_reducible apply State.updDocent_keeps

theorem State.endProgram_keeps {s0 s : State} {x1 x2} (h : Keeps s0 s) :
    Keeps s0 (State.endProgram s x1 x2) := by
  unfold State.endProgram; try dsimp only
  repeat' first | with_reducible assumption | with_reducible rfl | (intro _) | with_reducible apply Keeps.ite
                | with_reducible apply Keeps.ite_fst | with_reducible apply State.startRole_keeps
                | with_reducible apply State.updDocent_keeps | with_reducible apply Keeps.foldl
                | with_reducible apply Keeps.foldl_fst | (refine Keeps.of_fst ?_ (by with_reducible assumption)) | split

theorem State.docFault_keeps {s0 s : State} {x1 x2 x3} (h : Keeps s0 s) :
    Keeps s0 (State.docFault s x1 x2 x3) := by
  unfold State.docFault; try dsimp only
  repeat' first | with_reducible assumption | with_reducible rfl | (intro _) | with_reducible apply Keeps.ite
                | with_reducible apply Keeps.ite_fst | with_reducible apply State.endProgram_keeps
                | with_reducible apply State.updDocent_keeps | with_reducible apply State.event_keeps
                | with_reducible apply Keeps.foldl | with_reducible apply Keeps.foldl_fst
                | (refine Keeps.of_fst ?_ (by with_reducible assumption)) | split

theorem State.docNext_keeps {s0 s : State} {x1 x2 x3} (h : Keeps s0 s) :
    Keeps s0 (State.docNext s x1 x2 x3) := by
  unfold State.docNext; try dsimp only
  repeat' first | with_reducible assumption | with_reducible rfl | (intro _) | with_reducible apply Keeps.ite
                | with_reducible apply Keeps.ite_fst | with_reducible apply State.docFault_keeps
                | with_reducible apply State.setCtx_keeps

theorem State.docHalt_keeps {s0 s : State} {x1 x2 x3 x4} (h : Keeps s0 s) :
    Keeps s0 (State.docHalt s x1 x2 x3 x4) := by
  unfold State.docHalt; try dsimp only
  repeat' first | with_reducible assumption | with_reducible rfl | (intro _) | with_reducible apply Keeps.ite
                | with_reducible apply Keeps.ite_fst | with_reducible apply State.endProgram_keeps
                | with_reducible apply State.event_keeps

theorem State.dropHeaders_keeps {s0 s : State} {x1 x2 x3 x4} (h : Keeps s0 s) :
    Keeps s0 (State.dropHeaders s x1 x2 x3 x4) := by
  unfold State.dropHeaders; try dsimp only
  repeat' first | with_reducible assumption | with_reducible rfl | (intro _) | with_reducible apply Keeps.ite
                | with_reducible apply Keeps.ite_fst | with_reducible apply State.dropLines_keeps

theorem State.fillLines_keeps {s0 s : State} {x1 x2 x3 x4} (h : Keeps s0 s) : Keeps s0 (State.fillLines s x1 x2 x3 x4) :=
  State.dropHeaders_keeps ((State.forceChan_keeps h).trans ⟨rfl, rfl, rfl, rfl, rfl, rfl, fun x => filter_sound x⟩)

theorem State.fillChannel_keeps {s0 s : State} {x1 x2} (h : Keeps s0 s) :
    Keeps s0 (State.fillChannel s x1 x2) := by
  unfold State.fillChannel; try dsimp only
  repeat' first | with_reducible assumption | with_reducible rfl | (intro _) | with_reducible apply Keeps.ite
                | with_reducible apply Keeps.ite_fst | with_reducible apply State.fillLines_keeps

theorem State.docStore_keeps {s0 s : State} {x1 x2 x3 x4 x5} (h : Keeps s0 s) :
    Keeps s0 (State.docStore s x1 x2 x3 x4 x5) := by
  unfold State.docStore; try dsimp only
  repeat' first | with_reducible assumption | with_reducible rfl | (intro _) | with_reducible apply Keeps.ite
                | with_reducible apply Keeps.ite_fst | with_reducible apply State.dropHeaders_keeps
                | with_reducible apply State.storeQuiet_keeps

theorem State.readLines_keeps {s0 s : State} {x1 x2 x3 x4} (h : Keeps s0 s) :
    Keeps s0 (State.readLines s x1 x2 x3 x4).1 := by
  unfold State.readLines; try dsimp only
  repeat' first | with_reducible assumption | with_reducible rfl | (intro _) | with_reducible apply Keeps.ite
                | with_reducible apply Keeps.ite_fst | with_reducible apply State.decodeAt_keeps
                | with_reducible apply Keeps.foldl | with_reducible apply Keeps.foldl_fst

theorem State.scrubLine_keeps {s0 s : State} {x1 x2 x3} (h : Keeps s0 s) :
    Keeps s0 (State.scrubLine s x1 x2 x3).1 := by
  unfold State.scrubLine; try dsimp only
  repeat' first | with_reducible assumption | with_reducible rfl | (intro _) | with_reducible apply Keeps.ite
                | with_reducible apply Keeps.ite_fst | with_reducible apply State.docStore_keeps
                | with_reducible apply State.decodeAt_keeps | with_reducible apply State.coalesce_keeps
                | with_reducible apply State.bump_keeps | with_reducible apply Keeps.foldl
                | with_reducible apply Keeps.foldl_fst | (refine Keeps.of_fst ?_ (by with_reducible assumption)) | split

theorem State.scrubLines_keeps {s0 s : State} {x1 x2 x3 x4} (h : Keeps s0 s) :
    Keeps s0 (State.scrubLines s x1 x2 x3 x4).1 := by
  unfold State.scrubLines; try dsimp only
  repeat' first | with_reducible assumption | with_reducible rfl | (intro _) | with_reducible apply Keeps.ite
                | with_reducible apply Keeps.ite_fst | with_reducible apply State.scrubLine_keeps
                | with_reducible apply Keeps.foldl | with_reducible apply Keeps.foldl_fst

theorem State.walkTo_keeps {s0 s : State} {x1 x2 x3} (h : Keeps s0 s) :
    Keeps s0 (State.walkTo s x1 x2 x3) := by
  unfold State.walkTo; try dsimp only
  repeat' first | with_reducible assumption | with_reducible rfl | (intro _) | with_reducible apply Keeps.ite
                | with_reducible apply Keeps.ite_fst | with_reducible apply State.bump_keeps
                | with_reducible apply State.updChan_keeps

theorem State.retire_keeps {s0 s : State} {x1} (h : Keeps s0 s) :
    Keeps s0 (State.retire s x1) := by
  unfold State.retire; try dsimp only
  repeat' first | with_reducible assumption | with_reducible rfl | (intro _) | with_reducible apply Keeps.ite
                | with_reducible apply Keeps.ite_fst | with_reducible apply State.updMem_keeps

theorem State.flipEntry_keeps {s0 s : State} {x1 x2} (h : Keeps s0 s) :
    Keeps s0 (State.flipEntry s x1 x2) := by
  unfold State.flipEntry; try dsimp only
  repeat' first | with_reducible assumption | with_reducible rfl | (intro _) | with_reducible apply Keeps.ite
                | with_reducible apply Keeps.ite_fst | with_reducible apply State.settle_keeps
                | with_reducible apply State.putEntry_keeps | with_reducible apply State.updMem_keeps

theorem State.storeReserve_keeps {s0 s : State} {x1 x2 x3 x4} (h : Keeps s0 s) :
    Keeps s0 (State.storeReserve s x1 x2 x3 x4) := by
  unfold State.storeReserve; try dsimp only
  repeat' first | with_reducible assumption | with_reducible rfl | (intro _) | with_reducible apply Keeps.ite
                | with_reducible apply Keeps.ite_fst | with_reducible apply State.storeQuiet_keeps
                | with_reducible apply Keeps.foldl

theorem State.readReserve_keeps {s0 s : State} {x1 x2 x3} (h : Keeps s0 s) :
    Keeps s0 (State.readReserve s x1 x2 x3).1 := by
  unfold State.readReserve; try dsimp only
  repeat' first | with_reducible assumption | with_reducible rfl | (intro _) | with_reducible apply Keeps.ite
                | with_reducible apply Keeps.ite_fst | with_reducible apply State.readLine_keeps
                | with_reducible apply Keeps.foldl | with_reducible apply Keeps.foldl_fst

theorem State.copyReserve_keeps {s0 s : State} {x1 x2} (h : Keeps s0 s) :
    Keeps s0 (State.copyReserve s x1 x2) := by
  unfold State.copyReserve; try dsimp only
  repeat' first | with_reducible assumption | with_reducible rfl | (intro _) | with_reducible apply Keeps.ite
                | with_reducible apply Keeps.ite_fst | with_reducible apply State.docStore_keeps
                | with_reducible apply State.readLine_keeps | with_reducible apply Keeps.foldl

theorem State.reentryPass_keeps {s0 s : State} {x1 x2 x3 x4} (h : Keeps s0 s) :
    Keeps s0 (State.reentryPass s x1 x2 x3 x4) := by
  unfold State.reentryPass; try dsimp only
  repeat' first | with_reducible assumption | with_reducible rfl | (intro _) | with_reducible apply Keeps.ite
                | with_reducible apply Keeps.ite_fst | with_reducible apply State.copyReserve_keeps
                | with_reducible apply State.docAccess_keeps | with_reducible apply State.scrubLine_keeps
                | with_reducible apply State.fillChannel_keeps | with_reducible apply State.updChan_keeps
                | with_reducible apply Keeps.foldl

theorem State.releaseHeld_keeps {s0 s : State} {x1} (h : Keeps s0 s) :
    Keeps s0 (State.releaseHeld s x1) := by
  unfold State.releaseHeld; try dsimp only
  repeat' first | with_reducible assumption | with_reducible rfl | (intro _) | with_reducible apply Keeps.ite
                | with_reducible apply Keeps.ite_fst | with_reducible apply State.writeBackBlock_keeps
                | with_reducible apply State.updMem_keeps | with_reducible apply Keeps.foldl

theorem State.docCopy_keeps {s0 s : State} {x1 x2 x3} (h : Keeps s0 s) :
    Keeps s0 (State.docCopy s x1 x2 x3) := by
  unfold State.docCopy; try dsimp only
  repeat' first | with_reducible assumption | with_reducible rfl | (intro _) | with_reducible apply Keeps.ite
                | with_reducible apply Keeps.ite_fst | with_reducible apply State.docAccess_keeps
                | with_reducible apply State.copyRun_keeps | with_reducible apply State.verifyBlock_keeps
                | with_reducible apply Keeps.foldl | with_reducible apply Keeps.foldl_fst
                | (refine Keeps.of_fst ?_ (by with_reducible assumption)) | split

theorem State.evacuateRun_keeps {s0 s : State} {x1 x2 x3} (h : Keeps s0 s) :
    Keeps s0 (State.evacuateRun s x1 x2 x3) := by
  unfold State.evacuateRun; try dsimp only
  repeat' first | with_reducible assumption | with_reducible rfl | (intro _) | with_reducible apply Keeps.ite
                | with_reducible apply Keeps.ite_fst | with_reducible apply State.docCopy_keeps
                | with_reducible apply State.settle_keeps | with_reducible apply State.freeRuns_keeps
                | with_reducible apply State.putEntry_keeps | with_reducible apply State.bump_keeps
                | with_reducible apply Keeps.foldl | with_reducible apply Keeps.foldl_fst
                | (simp only [Keeps.mk_eq]; with_reducible apply KeepsMk.of)
                | (refine Keeps.of_fst ?_ (by with_reducible assumption)) | split

theorem State.evacuateOne_keeps {s0 s : State} {x1 x2 x3} (h : Keeps s0 s) :
    Keeps s0 (State.evacuateOne s x1 x2 x3) := by
  unfold State.evacuateOne; try dsimp only
  repeat' first | with_reducible assumption | with_reducible rfl | (intro _) | with_reducible apply Keeps.ite
                | with_reducible apply Keeps.ite_fst | with_reducible apply State.evacuateRun_keeps
                | with_reducible apply State.releaseHeld_keeps | with_reducible apply State.updChan_keeps

theorem State.passBlock_keeps {s0 s : State} {x1 x2 x3 x4} (h : Keeps s0 s) :
    Keeps s0 (State.passBlock s x1 x2 x3 x4) := by
  unfold State.passBlock; try dsimp only
  repeat' first | with_reducible assumption | with_reducible rfl | (intro _) | with_reducible apply Keeps.ite
                | with_reducible apply Keeps.ite_fst | with_reducible apply State.updMem_keeps

theorem State.flipShared_keeps {s0 s : State} {x1 x2} (h : Keeps s0 s) :
    Keeps s0 (State.flipShared s x1 x2) := by
  unfold State.flipShared; try dsimp only
  repeat' first | with_reducible assumption | with_reducible rfl | (intro _) | with_reducible apply Keeps.ite
                | with_reducible apply Keeps.ite_fst | with_reducible apply State.retire_keeps
                | with_reducible apply State.settle_keeps | with_reducible apply State.putEntry_keeps
                | with_reducible apply State.updMem_keeps | with_reducible apply Keeps.foldl

theorem State.fillFlow_keeps {s0 s : State} {x1 x2 x3 x4 x5 x6} (h : Keeps s0 s) :
    Keeps s0 (State.fillFlow s x1 x2 x3 x4 x5 x6).1 := by
  unfold State.fillFlow; try dsimp only
  repeat' first | with_reducible assumption | with_reducible rfl | (intro _) | with_reducible apply Keeps.ite
                | with_reducible apply Keeps.ite_fst | with_reducible apply State.fillLines_keeps
                | with_reducible apply Keeps.foldl | with_reducible apply Keeps.foldl_fst
                | (simp only [Keeps.mk_eq]; with_reducible apply KeepsMk.of)

theorem State.walkStep_keeps {s0 s : State} {x1 x2} (h : Keeps s0 s) :
    Keeps s0 (State.walkStep s x1 x2).1 := by
  unfold State.walkStep; try dsimp only
  repeat' first | with_reducible assumption | with_reducible rfl | (intro _) | with_reducible apply Keeps.ite
                | with_reducible apply Keeps.ite_fst | with_reducible apply State.docAccess_keeps
                | with_reducible apply State.walkTo_keeps | with_reducible apply State.scrubLines_keeps
                | with_reducible apply Keeps.foldl | with_reducible apply Keeps.foldl_fst
                | (refine Keeps.of_fst ?_ (by with_reducible assumption)) | split

theorem State.fillStep_keeps {s0 s : State} {x1 x2} (h : Keeps s0 s) :
    Keeps s0 (State.fillStep s x1 x2).1 := by
  unfold State.fillStep; try dsimp only
  repeat' first | with_reducible assumption | with_reducible rfl | (intro _) | with_reducible apply Keeps.ite
                | with_reducible apply Keeps.ite_fst | with_reducible apply State.fillFlow_keeps
                | with_reducible apply Keeps.foldl | with_reducible apply Keeps.foldl_fst
                | (refine Keeps.of_fst ?_ (by with_reducible assumption)) | split

theorem State.captureStep_keeps {s0 s : State} {x1 x2} (h : Keeps s0 s) :
    Keeps s0 (State.captureStep s x1 x2).1 := by
  unfold State.captureStep; try dsimp only
  repeat' first | with_reducible assumption | with_reducible rfl | (intro _) | with_reducible apply Keeps.ite
                | with_reducible apply Keeps.ite_fst | with_reducible apply State.storeReserve_keeps
                | with_reducible apply Keeps.foldl | with_reducible apply Keeps.foldl_fst
                | (refine Keeps.of_fst ?_ (by with_reducible assumption)) | split

theorem State.reentryStep_keeps {s0 s : State} {x1 x2} (h : Keeps s0 s) :
    Keeps s0 (State.reentryStep s x1 x2).1 := by
  unfold State.reentryStep; try dsimp only
  repeat' first | with_reducible assumption | with_reducible rfl | (intro _) | with_reducible apply Keeps.ite
                | with_reducible apply Keeps.ite_fst | with_reducible apply State.evacuateOne_keeps
                | with_reducible apply State.reentryPass_keeps | with_reducible apply Keeps.foldl
                | with_reducible apply Keeps.foldl_fst | (refine Keeps.of_fst ?_ (by with_reducible assumption)) | split

theorem State.docVerify_keeps {s0 s : State} {x1} (h : Keeps s0 s) :
    Keeps s0 (State.docVerify s x1).1 := by
  unfold State.docVerify; try dsimp only
  repeat' first | with_reducible assumption | with_reducible rfl | (intro _) | with_reducible apply Keeps.ite
                | with_reducible apply Keeps.ite_fst | with_reducible apply State.docAccess_keeps
                | with_reducible apply State.verifyBlock_keeps

theorem State.verifyStep_keeps {s0 s : State} {x1 x2} (h : Keeps s0 s) :
    Keeps s0 (State.verifyStep s x1 x2).1 := by
  unfold State.verifyStep; try dsimp only
  repeat' first | with_reducible assumption | with_reducible rfl | (intro _) | with_reducible apply Keeps.ite
                | with_reducible apply Keeps.ite_fst | with_reducible apply State.docVerify_keeps
                | with_reducible apply Keeps.foldl | with_reducible apply Keeps.foldl_fst
                | (refine Keeps.of_fst ?_ (by with_reducible assumption)) | split

theorem State.moveAllocate_keeps {s0 s : State} {x1 x2} (h : Keeps s0 s) :
    Keeps s0 (State.moveAllocate s x1 x2).1 := by
  unfold State.moveAllocate; try dsimp only
  repeat' first | with_reducible assumption | with_reducible rfl | (intro _) | with_reducible apply Keeps.ite
                | with_reducible apply Keeps.ite_fst | with_reducible apply State.passBlock_keeps
                | with_reducible apply State.startMoves_keeps | with_reducible apply State.updMem_keeps
                | with_reducible apply Keeps.foldl | with_reducible apply Keeps.foldl_fst
                | (simp only [Keeps.mk_eq]; with_reducible apply KeepsMk.of)
                | (refine Keeps.of_fst ?_ (by with_reducible assumption)) | split

theorem State.moveFlip_keeps {s0 s : State} {x1 x2} (h : Keeps s0 s) :
    Keeps s0 (State.moveFlip s x1 x2).1 := by
  unfold State.moveFlip; try dsimp only
  repeat' first | with_reducible assumption | with_reducible rfl | (intro _) | with_reducible apply Keeps.ite
                | with_reducible apply Keeps.ite_fst | with_reducible apply State.flipShared_keeps
                | with_reducible apply State.passBlock_keeps | with_reducible apply State.notePrepared_keeps
                | with_reducible apply State.startMoves_keeps | with_reducible apply State.updMem_keeps

theorem State.moveStep_keeps {s0 s : State} {x1 x2} (h : Keeps s0 s) :
    Keeps s0 (State.moveStep s x1 x2).1 := by
  unfold State.moveStep; try dsimp only
  repeat' first | with_reducible assumption | with_reducible rfl | (intro _) | with_reducible apply Keeps.ite
                | with_reducible apply Keeps.ite_fst | with_reducible apply State.moveFlip_keeps
                | with_reducible apply State.moveAllocate_keeps | with_reducible apply State.docCopy_keeps
                | with_reducible apply State.updMem_keeps | with_reducible apply Keeps.foldl
                | with_reducible apply Keeps.foldl_fst | (refine Keeps.of_fst ?_ (by with_reducible assumption)) | split

theorem State.testLines_keeps {s0 s : State} {x1 x2 x3 x4 x5} (h : Keeps s0 s) :
    Keeps s0 (State.testLines s x1 x2 x3 x4 x5).1 := by
  unfold State.testLines; try dsimp only
  repeat' first | with_reducible assumption | with_reducible rfl | (intro _) | with_reducible apply Keeps.ite
                | with_reducible apply Keeps.ite_fst | with_reducible apply State.readLines_keeps
                | with_reducible apply State.docStore_keeps | with_reducible apply Keeps.foldl
                | with_reducible apply Keeps.foldl_fst | (simp only [Keeps.mk_eq]; with_reducible apply KeepsMk.of)

theorem State.sweepStep_keeps {s0 s : State} {x1 x2} (h : Keeps s0 s) :
    Keeps s0 (State.sweepStep s x1 x2).1 := by
  unfold State.sweepStep; try dsimp only
  repeat' first | with_reducible assumption | with_reducible rfl | (intro _) | with_reducible apply Keeps.ite
                | with_reducible apply Keeps.ite_fst | with_reducible apply State.testLines_keeps
                | with_reducible apply State.docAccess_keeps | with_reducible apply State.updDocent_keeps
                | with_reducible apply Keeps.foldl | with_reducible apply Keeps.foldl_fst
                | (simp only [Keeps.mk_eq]; with_reducible apply KeepsMk.of)
                | (refine Keeps.of_fst ?_ (by with_reducible assumption)) | split

theorem State.nativeRun_keeps {s0 s : State} {x1 x2} (h : Keeps s0 s) :
    Keeps s0 (State.nativeRun s x1 x2).1 := by
  unfold State.nativeRun; try dsimp only
  repeat' first | with_reducible assumption | with_reducible rfl | (intro _) | with_reducible apply Keeps.ite
                | with_reducible apply Keeps.ite_fst | with_reducible apply State.sweepStep_keeps
                | with_reducible apply State.moveStep_keeps | with_reducible apply State.verifyStep_keeps
                | with_reducible apply State.reentryStep_keeps | with_reducible apply State.captureStep_keeps
                | with_reducible apply State.fillStep_keeps | with_reducible apply State.walkStep_keeps
                | with_reducible apply Keeps.foldl | with_reducible apply Keeps.foldl_fst
                | (refine Keeps.of_fst ?_ (by with_reducible assumption)) | split

theorem State.docFlow_keeps {s0 s : State} {x1 x2 x3 x4} (h : Keeps s0 s) :
    Keeps s0 (State.docFlow s x1 x2 x3 x4) := by
  unfold State.docFlow; try dsimp only
  repeat' first | with_reducible assumption | with_reducible rfl | (intro _) | with_reducible apply Keeps.ite
                | with_reducible apply Keeps.ite_fst | with_reducible apply State.docHalt_keeps
                | with_reducible apply State.docNext_keeps | with_reducible apply State.docFault_keeps
                | with_reducible apply State.setCtx_keeps | with_reducible apply Keeps.foldl
                | with_reducible apply Keeps.foldl_fst | (refine Keeps.of_fst ?_ (by with_reducible assumption)) | split

theorem State.docRun_keeps {s0 s : State} {x1 x2 x3 x4} (h : Keeps s0 s) (hf4 : ∀ y0 y1 y2, Keeps s0 y2 → Keeps s0 (x4 y0 y1 y2).1) :
    Keeps s0 (State.docRun s x1 x2 x3 x4) := by
  unfold State.docRun; try dsimp only
  repeat' first | with_reducible assumption | with_reducible rfl | (intro _) | with_reducible apply Keeps.ite
                | with_reducible apply Keeps.ite_fst | with_reducible apply hf4 | with_reducible apply State.docFlow_keeps
                | with_reducible apply State.nativeRun_keeps | with_reducible apply State.setCtx_keeps
                | with_reducible apply State.bump_keeps | with_reducible apply Keeps.foldl
                | with_reducible apply Keeps.foldl_fst | (refine Keeps.of_fst ?_ (by with_reducible assumption)) | split

theorem State.docPure_keeps {s0 s : State} {x1 x2 x3 x4} (h : Keeps s0 s) :
    Keeps s0 (State.docPure s x1 x2 x3 x4) := by
  unfold State.docPure; try dsimp only
  repeat' first | with_reducible assumption | with_reducible rfl | (intro _) | with_reducible apply Keeps.ite
                | with_reducible apply Keeps.ite_fst | with_reducible apply State.docRun_keeps

theorem State.docAlu_keeps {s0 s : State} {x1 x2 x3 x4} (h : Keeps s0 s) :
    Keeps s0 (State.docAlu s x1 x2 x3 x4) := by
  unfold State.docAlu; try dsimp only
  repeat' first | with_reducible assumption | with_reducible rfl | (intro _) | with_reducible apply Keeps.ite
                | with_reducible apply Keeps.ite_fst | with_reducible apply State.docPure_keeps

theorem State.docImm_keeps {s0 s : State} {x1 x2 x3 x4} (h : Keeps s0 s) :
    Keeps s0 (State.docImm s x1 x2 x3 x4) := by
  unfold State.docImm; try dsimp only
  repeat' first | with_reducible assumption | with_reducible rfl | (intro _) | with_reducible apply Keeps.ite
                | with_reducible apply Keeps.ite_fst | with_reducible apply State.docPure_keeps

theorem State.docBranch_keeps {s0 s : State} {x1 x2 x3 x4} (h : Keeps s0 s) :
    Keeps s0 (State.docBranch s x1 x2 x3 x4) := by
  unfold State.docBranch; try dsimp only
  repeat' first | with_reducible assumption | with_reducible rfl | (intro _) | with_reducible apply Keeps.ite
                | with_reducible apply Keeps.ite_fst | with_reducible apply State.docPure_keeps

theorem State.docChan_keeps {s0 s : State} {x1 x2 x3 x4 x5} (h : Keeps s0 s) (hf5 : ∀ y0 y1 y2 y3 y4 y5, Keeps s0 y5 → Keeps s0 (x5 y0 y1 y2 y3 y4 y5).1) :
    Keeps s0 (State.docChan s x1 x2 x3 x4 x5) := by
  unfold State.docChan; try dsimp only
  repeat' first | with_reducible assumption | with_reducible rfl | (intro _) | with_reducible apply Keeps.ite
                | with_reducible apply Keeps.ite_fst | with_reducible apply hf5 | with_reducible apply State.docRun_keeps
                | with_reducible apply Keeps.foldl | with_reducible apply Keeps.foldl_fst
                | (refine Keeps.of_fst ?_ (by with_reducible assumption)) | split

theorem State.startHandler_keeps {s0 s : State} {x1 x2} (h : Keeps s0 s) :
    Keeps s0 (State.startHandler s x1 x2) := by
  unfold State.startHandler; try dsimp only
  repeat' first | with_reducible assumption | with_reducible rfl | (intro _) | with_reducible apply Keeps.ite
                | with_reducible apply Keeps.ite_fst | with_reducible apply State.updDocent_keeps

theorem State.beginOrder_keeps {s0 s : State} {x1 x2} (h : Keeps s0 s) :
    Keeps s0 (State.beginOrder s x1 x2) := by
  unfold State.beginOrder; try dsimp only
  repeat' first | with_reducible assumption | with_reducible rfl | (intro _) | with_reducible apply Keeps.ite
                | with_reducible apply Keeps.ite_fst | with_reducible apply State.updChan_keeps

theorem State.verifyEntry_keeps {s0 s : State} {x1} (h : Keeps s0 s) :
    ∀ t, State.verifyEntry s x1 = .ok t → Keeps s0 t := by
  intro t e; unfold State.verifyEntry at e; try dsimp only at e
  repeat' split at e
  all_goals first | (cases e; done) | (injection e with e; subst e) | skip
  all_goals try dsimp only
  all_goals repeat' first | with_reducible assumption | with_reducible rfl | (intro _) | with_reducible apply Keeps.ite
                          | with_reducible apply Keeps.ite_fst | with_reducible apply State.queueTrigger_keeps
                          | with_reducible apply Keeps.foldl

theorem State.customerEntry_keeps {s0 s : State} {x1} (h : Keeps s0 s) :
    ∀ t, State.customerEntry s x1 = .ok t → Keeps s0 t := by
  intro t e; unfold State.customerEntry at e; try dsimp only at e
  repeat' split at e
  all_goals first | (cases e; done) | (injection e with e; subst e) | skip
  all_goals try dsimp only
  all_goals repeat' first | with_reducible assumption | with_reducible rfl | (intro _) | with_reducible apply Keeps.ite
                          | with_reducible apply Keeps.ite_fst | with_reducible apply State.queueTrigger_keeps

theorem State.restartRole_keeps {s0 s : State} {x1} (h : Keeps s0 s) :
    Keeps s0 (State.restartRole s x1) := by
  unfold State.restartRole; try dsimp only
  repeat' first | with_reducible assumption | with_reducible rfl | (intro _) | with_reducible apply Keeps.ite
                | with_reducible apply Keeps.ite_fst | with_reducible apply State.startRole_keeps
                | with_reducible apply Keeps.foldl | with_reducible apply Keeps.foldl_fst
                | (simp only [Keeps.mk_eq]; with_reducible apply KeepsMk.of)

theorem State.restartEntry_keeps {s0 s : State} {x1} (h : Keeps s0 s) :
    ∀ t, State.restartEntry s x1 = .ok t → Keeps s0 t := by
  intro t e; unfold State.restartEntry at e; try dsimp only at e
  repeat' split at e
  all_goals first | (cases e; done) | (injection e with e; subst e) | skip
  all_goals try dsimp only
  all_goals repeat' first | with_reducible assumption | with_reducible rfl | (intro _) | with_reducible apply Keeps.ite
                          | with_reducible apply Keeps.ite_fst | with_reducible apply State.restartRole_keeps

theorem State.applyBindings_keeps {s0 s : State} {x1} (h : Keeps s0 s) :
    Keeps s0 (State.applyBindings s x1) := by
  unfold State.applyBindings; try dsimp only
  repeat' first | with_reducible assumption | with_reducible rfl | (intro _) | with_reducible apply Keeps.ite
                | with_reducible apply Keeps.ite_fst | with_reducible apply State.restartRole_keeps
                | with_reducible apply State.endProgram_keeps | with_reducible apply State.updDocent_keeps
                | with_reducible apply Keeps.foldl

theorem State.stopDocents_keeps {s0 s : State} {x1} (h : Keeps s0 s) :
    Keeps s0 (State.stopDocents s x1) := by
  unfold State.stopDocents; try dsimp only
  repeat' first | with_reducible assumption | with_reducible rfl | (intro _) | with_reducible apply Keeps.ite
                | with_reducible apply Keeps.ite_fst | with_reducible apply Keeps.foldl | with_reducible apply Keeps.foldl_fst
                | (simp only [Keeps.mk_eq]; with_reducible apply KeepsMk.of)

theorem State.startRoles_keeps {s0 s : State} {x1} (h : Keeps s0 s) :
    Keeps s0 (State.startRoles s x1) := by
  unfold State.startRoles; try dsimp only
  repeat' first | with_reducible assumption | with_reducible rfl | (intro _) | with_reducible apply Keeps.ite
                | with_reducible apply Keeps.ite_fst | with_reducible apply State.restartRole_keeps
                | with_reducible apply State.updDocent_keeps | with_reducible apply Keeps.foldl

theorem State.startFill_keeps {s0 s : State} (h : Keeps s0 s) :
    Keeps s0 (State.startFill s) := by
  unfold State.startFill; try dsimp only
  repeat' first | with_reducible assumption | with_reducible rfl | (intro _) | with_reducible apply Keeps.ite
                | with_reducible apply Keeps.ite_fst | with_reducible apply Keeps.foldl | with_reducible apply Keeps.foldl_fst
                | (simp only [Keeps.mk_eq]; with_reducible apply KeepsMk.of)

theorem State.lineNow_keeps {s0 s : State} {x1 x2} (h : Keeps s0 s) :
    Keeps s0 (State.lineNow s x1 x2).1 := by
  unfold State.lineNow; try dsimp only
  repeat' first | with_reducible assumption | with_reducible rfl | (intro _) | with_reducible apply Keeps.ite
                | with_reducible apply Keeps.ite_fst | with_reducible apply Keeps.ite_s
                | with_reducible apply State.mergeRead_keeps | with_reducible apply State.cacheRead_keeps
                | with_reducible apply State.readBlockLine_keeps | with_reducible apply State.heat_keeps

theorem State.linesNow_keeps {s0 s : State} {x1 x2 x3} (h : Keeps s0 s) :
    Keeps s0 (State.linesNow s x1 x2 x3).1 := by
  unfold State.linesNow; try dsimp only
  repeat' first | with_reducible assumption | with_reducible rfl | (intro _) | with_reducible apply Keeps.ite
                | with_reducible apply Keeps.ite_fst | with_reducible apply State.lineNow_keeps
                | with_reducible apply Keeps.foldl | with_reducible apply Keeps.foldl_fst

theorem State.updJob_keeps {s0 s : State} {x1 x2} (h : Keeps s0 s) :
    Keeps s0 (State.updJob s x1 x2) := by
  unfold State.updJob; try dsimp only
  repeat' first | with_reducible assumption | with_reducible rfl | (intro _) | with_reducible apply Keeps.ite
                | with_reducible apply Keeps.ite_fst | with_reducible apply Keeps.foldl | with_reducible apply Keeps.foldl_fst
                | (simp only [Keeps.mk_eq]; with_reducible apply KeepsMk.of)

theorem State.jobWrite_keeps {s0 s : State} {x1 x2 x3 x4 x5} (h : Keeps s0 s) :
    Keeps s0 (State.jobWrite s x1 x2 x3 x4 x5) := by
  unfold State.jobWrite; try dsimp only
  repeat' first | with_reducible assumption | with_reducible rfl | (intro _) | with_reducible apply Keeps.ite
                | with_reducible apply Keeps.ite_fst | with_reducible apply State.serveWrite_keeps

theorem State.startJob_keeps {s0 s : State} {x1} (h : Keeps s0 s) :
    Keeps s0 (State.startJob s x1) := by
  unfold State.startJob; try dsimp only
  repeat' first | with_reducible assumption | with_reducible rfl | (intro _) | with_reducible apply Keeps.ite
                | with_reducible apply Keeps.ite_fst | with_reducible apply State.updJob_keeps
                | with_reducible apply State.wakeChannels_keeps | with_reducible apply Keeps.foldl
                | with_reducible apply Keeps.foldl_fst | (simp only [Keeps.mk_eq]; with_reducible apply KeepsMk.of)
                | (refine Keeps.of_fst ?_ (by with_reducible assumption)) | split

theorem State.endJob_keeps {s0 s : State} {x1 x2 x3 x4} (h : Keeps s0 s) :
    Keeps s0 (State.endJob s x1 x2 x3 x4) := by
  unfold State.endJob; try dsimp only
  repeat' first | with_reducible assumption | with_reducible rfl | (intro _) | with_reducible apply Keeps.ite
                | with_reducible apply Keeps.ite_fst | with_reducible apply State.jobWrite_keeps
                | with_reducible apply State.event_keeps | with_reducible apply State.updMem_keeps
                | with_reducible apply Keeps.foldl | with_reducible apply Keeps.foldl_fst
                | (simp only [Keeps.mk_eq]; with_reducible apply KeepsMk.of)

theorem State.stopJob_keeps {s0 s : State} {x1 x2 x3 x4} (h : Keeps s0 s) :
    Keeps s0 (State.stopJob s x1 x2 x3 x4) := by
  unfold State.stopJob; try dsimp only
  repeat' first | with_reducible assumption | with_reducible rfl | (intro _) | with_reducible apply Keeps.ite
                | with_reducible apply Keeps.ite_fst | with_reducible apply State.endJob_keeps
                | with_reducible apply State.updJob_keeps

theorem State.endStopped_keeps {s0 s : State} (h : Keeps s0 s) :
    Keeps s0 (State.endStopped s) := by
  unfold State.endStopped; try dsimp only
  repeat' first | with_reducible assumption | with_reducible rfl | (intro _) | with_reducible apply Keeps.ite
                | with_reducible apply Keeps.ite_fst | with_reducible apply State.endJob_keeps
                | with_reducible apply Keeps.foldl | with_reducible apply Keeps.foldl_fst
                | (refine Keeps.of_fst ?_ (by with_reducible assumption)) | split

theorem State.abortJob_keeps {s0 s : State} {x1 x2 x3} (h : Keeps s0 s) :
    Keeps s0 (State.abortJob s x1 x2 x3) := by
  unfold State.abortJob; try dsimp only
  repeat' first | with_reducible assumption | with_reducible rfl | (intro _) | with_reducible apply Keeps.ite
                | with_reducible apply Keeps.ite_fst | with_reducible apply State.stopJob_keeps

theorem State.clearTiles_keeps {s0 s : State} {x1} (h : Keeps s0 s) :
    Keeps s0 (State.clearTiles s x1) := by
  unfold State.clearTiles; try dsimp only
  repeat' first | with_reducible assumption | with_reducible rfl | (intro _) | with_reducible apply Keeps.ite
                | with_reducible apply Keeps.ite_fst | with_reducible apply Keeps.foldl | with_reducible apply Keeps.foldl_fst
                | (simp only [Keeps.mk_eq]; with_reducible apply KeepsMk.of)

theorem State.useLoan_keeps {s0 s : State} {x1} (h : Keeps s0 s) :
    Keeps s0 (State.useLoan s x1) := by
  unfold State.useLoan; try dsimp only
  repeat' first | with_reducible assumption | with_reducible rfl | (intro _) | with_reducible apply Keeps.ite
                | with_reducible apply Keeps.ite_fst | with_reducible apply State.updMem_keeps

theorem State.askLoan_keeps {s0 s : State} {x1 x2 x3} (h : Keeps s0 s) :
    Keeps s0 (State.askLoan s x1 x2 x3) := by
  unfold State.askLoan; try dsimp only
  repeat' first | with_reducible assumption | with_reducible rfl | (intro _) | with_reducible apply Keeps.ite
                | with_reducible apply Keeps.ite_fst | with_reducible apply State.send_keeps
                | with_reducible apply State.updMem_keeps

theorem State.readLoan_keeps {s0 s : State} {x1} (h : Keeps s0 s) :
    Keeps s0 (State.readLoan s x1).1 := by
  unfold State.readLoan; try dsimp only
  repeat' first | with_reducible assumption | with_reducible rfl | (intro _) | with_reducible apply Keeps.ite
                | with_reducible apply Keeps.ite_fst | with_reducible apply State.useLoan_keeps
                | with_reducible apply State.readSram_keeps | with_reducible apply State.updMem_keeps

theorem State.heldLine_keeps {s0 s : State} {x1 x2 x3 x4} (h : Keeps s0 s) :
    Keeps s0 (State.heldLine s x1 x2 x3 x4).1 := by
  unfold State.heldLine; try dsimp only
  repeat' first | with_reducible assumption | with_reducible rfl | (intro _) | with_reducible apply Keeps.ite
                | with_reducible apply Keeps.ite_fst | with_reducible apply State.readLoan_keeps
                | with_reducible apply State.cacheRead_keeps | with_reducible apply Keeps.foldl
                | with_reducible apply Keeps.foldl_fst | (refine Keeps.of_fst ?_ (by with_reducible assumption)) | split

theorem State.streamBlock_keeps {s0 s : State} {x1 x2 x3 x4} (h : Keeps s0 s) :
    Keeps s0 (State.streamBlock s x1 x2 x3 x4) := by
  unfold State.streamBlock; try dsimp only
  repeat' first | with_reducible assumption | with_reducible rfl | (intro _) | with_reducible apply Keeps.ite
                | with_reducible apply Keeps.ite_fst | with_reducible apply State.heldLine_keeps
                | with_reducible apply State.askLoan_keeps | with_reducible apply State.updJob_keeps
                | with_reducible apply State.giveLine_keeps | with_reducible apply State.verifyRead_keeps
                | with_reducible apply State.readBlock_keeps | with_reducible apply State.expandBlock_keeps
                | with_reducible apply State.heat_keeps | with_reducible apply Keeps.foldl
                | with_reducible apply Keeps.foldl_fst | (refine Keeps.of_fst ?_ (by with_reducible assumption)) | split

theorem State.streamLine_keeps {s0 s : State} {x1 x2 x3 x4} (h : Keeps s0 s) :
    Keeps s0 (State.streamLine s x1 x2 x3 x4) := by
  unfold State.streamLine; try dsimp only
  repeat' first | with_reducible assumption | with_reducible rfl | (intro _) | with_reducible apply Keeps.ite
                | with_reducible apply Keeps.ite_fst | with_reducible apply State.readLoan_keeps
                | with_reducible apply State.askLoan_keeps | with_reducible apply State.serveRead_keeps
                | with_reducible apply State.giveLine_keeps | with_reducible apply Keeps.foldl
                | with_reducible apply Keeps.foldl_fst | (refine Keeps.of_fst ?_ (by with_reducible assumption)) | split

theorem State.failRequests_keeps {s0 s : State} {x1} (h : Keeps s0 s) :
    Keeps s0 (State.failRequests s x1) := by
  unfold State.failRequests; try dsimp only
  repeat' first | with_reducible assumption | with_reducible rfl | (intro _) | with_reducible apply Keeps.ite
                | with_reducible apply Keeps.ite_fst | with_reducible apply State.anchorLost_keeps
                | with_reducible apply State.completeWrite_keeps | with_reducible apply State.answer_keeps
                | with_reducible apply State.updMem_keeps | with_reducible apply Keeps.foldl

theorem State.dropLoans_keeps {s0 s : State} {x1} (h : Keeps s0 s) :
    Keeps s0 (State.dropLoans s x1) := by
  unfold State.dropLoans; try dsimp only
  repeat' first | with_reducible assumption | with_reducible rfl | (intro _) | with_reducible apply Keeps.ite
                | with_reducible apply Keeps.ite_fst | with_reducible apply State.finishWrites_keeps
                | with_reducible apply State.updMem_keeps

theorem State.restChannels_keeps {s0 s : State} {x1 x2} (h : Keeps s0 s) :
    Keeps s0 (State.restChannels s x1 x2) := by
  unfold State.restChannels; try dsimp only
  repeat' first | with_reducible assumption | with_reducible rfl | (intro _) | with_reducible apply Keeps.ite
                | with_reducible apply Keeps.ite_fst | with_reducible apply State.forceChan_keeps
                | with_reducible apply Keeps.foldl | with_reducible apply Keeps.foldl_fst
                | (simp only [Keeps.mk_eq]; with_reducible apply KeepsMk.of)

theorem State.isolateWing_keeps {s0 s : State} {x1 x2} (h : Keeps s0 s) :
    Keeps s0 (State.isolateWing s x1 x2) := by
  unfold State.isolateWing; try dsimp only
  repeat' first | with_reducible assumption | with_reducible rfl | (intro _) | with_reducible apply Keeps.ite
                | with_reducible apply Keeps.ite_fst | with_reducible apply State.restChannels_keeps
                | with_reducible apply State.dropLoans_keeps | with_reducible apply State.failRequests_keeps
                | with_reducible apply State.abortJob_keeps | with_reducible apply State.stopDocents_keeps
                | with_reducible apply State.rederive_keeps | with_reducible apply State.rebind_keeps
                | with_reducible apply State.endFreq_keeps | with_reducible apply State.updMem_keeps
                | with_reducible apply State.updDie_keeps | with_reducible apply Keeps.foldl
                | with_reducible apply Keeps.foldl_fst | (refine Keeps.of_fst ?_ (by with_reducible assumption)) | split

theorem State.isolateAll_keeps {s0 s : State} {x1 x2} (h : Keeps s0 s) :
    Keeps s0 (State.isolateAll s x1 x2) := by
  unfold State.isolateAll; try dsimp only
  repeat' first | with_reducible assumption | with_reducible rfl | (intro _) | with_reducible apply Keeps.ite
                | with_reducible apply Keeps.ite_fst | with_reducible apply State.isolateWing_keeps
                | with_reducible apply Keeps.foldl

theorem State.resetWing_keeps {s0 s : State} {x1} (h : Keeps s0 s) :
    Keeps s0 (State.resetWing s x1) := by
  unfold State.resetWing; try dsimp only
  repeat' first | with_reducible assumption | with_reducible rfl | (intro _) | with_reducible apply Keeps.ite
                | with_reducible apply Keeps.ite_fst | with_reducible apply State.stopDocents_keeps
                | with_reducible apply State.setLink_keeps | with_reducible apply State.sendHello_keeps
                | with_reducible apply State.updCport_keeps | with_reducible apply State.updMem_keeps
                | with_reducible apply Keeps.foldl | with_reducible apply Keeps.foldl_fst
                | (simp only [Keeps.mk_eq]; with_reducible apply KeepsMk.of)
                | (refine Keeps.of_fst ?_ (by with_reducible assumption)) | split

theorem State.returnEntry_keeps {s0 s : State} {x1} (h : Keeps s0 s) :
    ∀ t, State.returnEntry s x1 = .ok t → Keeps s0 t := by
  intro t e; unfold State.returnEntry at e; try dsimp only at e
  repeat' split at e
  all_goals first | (cases e; done) | (injection e with e; subst e) | skip
  all_goals try dsimp only
  all_goals repeat' first | with_reducible assumption | with_reducible rfl | (intro _) | with_reducible apply Keeps.ite
                          | with_reducible apply Keeps.ite_fst | with_reducible apply State.resetWing_keeps
                          | with_reducible apply State.updDie_keeps

theorem State.isolateEntry_keeps {s0 s : State} {x1} (h : Keeps s0 s) :
    ∀ t, State.isolateEntry s x1 = .ok t → Keeps s0 t := by
  intro t e; unfold State.isolateEntry at e; try dsimp only at e
  repeat' split at e
  all_goals first | (cases e; done) | (injection e with e; subst e) | skip
  all_goals try dsimp only
  all_goals repeat' first | with_reducible assumption | with_reducible rfl | (intro _) | with_reducible apply Keeps.ite
                          | with_reducible apply Keeps.ite_fst | with_reducible apply State.isolateWing_keeps

theorem State.finishReturn_keeps {s0 s : State} {x1} (h : Keeps s0 s) :
    Keeps s0 (State.finishReturn s x1) := by
  unfold State.finishReturn; try dsimp only
  repeat' first | with_reducible assumption | with_reducible rfl | (intro _) | with_reducible apply Keeps.ite
                | with_reducible apply Keeps.ite_fst | with_reducible apply State.startRoles_keeps
                | with_reducible apply State.queueTrigger_keeps | with_reducible apply State.rederive_keeps
                | with_reducible apply State.rebind_keeps | with_reducible apply State.updDie_keeps
                | with_reducible apply Keeps.foldl | with_reducible apply Keeps.foldl_fst
                | (simp only [Keeps.mk_eq]; with_reducible apply KeepsMk.of)
                | (refine Keeps.of_fst ?_ (by with_reducible assumption)) | split

theorem State.failReturn_keeps {s0 s : State} {x1} (h : Keeps s0 s) :
    Keeps s0 (State.failReturn s x1) := by
  unfold State.failReturn; try dsimp only
  repeat' first | with_reducible assumption | with_reducible rfl | (intro _) | with_reducible apply Keeps.ite
                | with_reducible apply Keeps.ite_fst | with_reducible apply State.updDie_keeps

theorem State.dropBlock_keeps {s0 s : State} {x1 x2 x3} (h : Keeps s0 s) :
    Keeps s0 (State.dropBlock s x1 x2 x3).1 := by
  unfold State.dropBlock; try dsimp only
  repeat' first | with_reducible assumption | with_reducible rfl | (intro _) | with_reducible apply Keeps.ite
                | with_reducible apply Keeps.ite_fst | with_reducible apply State.zeroBlock_keeps
                | with_reducible apply State.forgetBlock_keeps

theorem State.dropRange_keeps {s0 s : State} {x1 x2 x3} (h : Keeps s0 s) :
    Keeps s0 (State.dropRange s x1 x2 x3).1 := by
  unfold State.dropRange; try dsimp only
  repeat' first | with_reducible assumption | with_reducible rfl | (intro _) | with_reducible apply Keeps.ite
                | with_reducible apply Keeps.ite_fst | with_reducible apply State.dropBlock_keeps
                | with_reducible apply State.settle_keeps | with_reducible apply Keeps.foldl
                | with_reducible apply Keeps.foldl_fst

theorem State.writeZeros_keeps {s0 s : State} {x1 x2 x3} (h : Keeps s0 s) :
    Keeps s0 (State.writeZeros s x1 x2 x3) := by
  unfold State.writeZeros; try dsimp only
  repeat' first | with_reducible assumption | with_reducible rfl | (intro _) | with_reducible apply Keeps.ite
                | with_reducible apply Keeps.ite_fst | with_reducible apply State.serveWrite_keeps
                | with_reducible apply Keeps.foldl

theorem State.copyBoundary_keeps {s0 s : State} {x1 x2 x3 x4 x5} (h : Keeps s0 s) :
    ∀ t, State.copyBoundary s x1 x2 x3 x4 x5 = some t → Keeps s0 t := by
  intro t e; unfold State.copyBoundary at e; try dsimp only at e
  repeat' split at e
  all_goals first | (cases e; done) | (injection e with e; subst e) | skip
  all_goals repeat' first | with_reducible assumption | with_reducible rfl | (intro _) | with_reducible apply Keeps.ite
                          | with_reducible apply Keeps.ite_fst | with_reducible apply State.storeBlock_keeps

theorem State.copyAll_keeps {s0 s : State} {x1 x2 x3 x4 x5 x6} (h : Keeps s0 s) :
    ∀ t, State.copyAll s x1 x2 x3 x4 x5 x6 = some t → Keeps s0 t := by
  intro t e
  induction x6 generalizing s with
  | nil => unfold State.copyAll at e; cases e; exact h
  | cons w l ih =>
    unfold State.copyAll at e
    dsimp only at e
    split at e
    · rename_i hc
      exact ih (State.copyBoundary_keeps h _ hc) e
    · cases e

theorem State.undoFork_keeps {s0 s : State} {x1} (h : Keeps s0 s) :
    Keeps s0 (State.undoFork s x1) := by
  unfold State.undoFork; try dsimp only
  repeat' first | with_reducible assumption | with_reducible rfl | (intro _) | with_reducible apply Keeps.ite
                | with_reducible apply Keeps.ite_fst | with_reducible apply State.dropBlock_keeps
                | with_reducible apply State.updMem_keeps | with_reducible apply Keeps.foldl
                | with_reducible apply Keeps.foldl_fst | (refine Keeps.of_fst ?_ (by with_reducible assumption)) | split

theorem State.forkOn_keeps {s0 s : State} {x1 x2 x3} (h : Keeps s0 s) : Keeps s0 (State.forkOn s x1 x2 x3) := by
  have hk {l : List (Nat × Nat)} {c w : Nat} : Keeps s0 (l.foldl (fun s k => s.writeBackBlock c w k.2) s) :=
    .foldl h fun _ _ k => State.writeBackBlock_keeps k
  unfold State.forkOn; dsimp only
  split
  · apply Keeps.ite (State.updMem_keeps h rfl)
    split
    · exact State.endCmd_keeps (State.undoFork_keeps h)
    · rename_i t e
      have ht : Keeps s0 t := by
        split at e
        · cases e; exact hk
        · split at e
          · cases e; exact .foldl hk fun _ _ j => State.putEntry_keeps j
          · exact State.copyAll_keeps (State.readBlock_keeps hk) _ e
      repeat' first | with_reducible assumption | with_reducible rfl | (intro _) | with_reducible apply Keeps.ite
                    | with_reducible apply State.endCmd_keeps | with_reducible apply State.settle_keeps
                    | with_reducible apply State.updMem_keeps | with_reducible apply State.putEntry_keeps
                    | with_reducible apply Keeps.foldl | split
  · exact h

theorem State.resumeForks_keeps {s0 s : State} {x1} (h : Keeps s0 s) :
    Keeps s0 (State.resumeForks s x1) := by
  unfold State.resumeForks; try dsimp only
  repeat' first | with_reducible assumption | with_reducible rfl | (intro _) | with_reducible apply Keeps.ite
                | with_reducible apply Keeps.ite_fst | with_reducible apply State.forkOn_keeps
                | with_reducible apply Keeps.foldl | with_reducible apply Keeps.foldl_fst
                | (refine Keeps.of_fst ?_ (by with_reducible assumption)) | split

theorem State.holdLines_keeps {s0 s : State} {x1 x2} (h : Keeps s0 s) :
    Keeps s0 (State.holdLines s x1 x2) := by
  unfold State.holdLines; try dsimp only
  repeat' first | with_reducible assumption | with_reducible rfl | (intro _) | with_reducible apply Keeps.ite
                | with_reducible apply Keeps.ite_fst | with_reducible apply State.updMem_keeps
                | with_reducible apply State.updChan_keeps

theorem State.freeze_keeps {s0 s : State} {x1 x2 x3 x4} (h : Keeps s0 s) :
    Keeps s0 (State.freeze s x1 x2 x3 x4) := by
  unfold State.freeze; try dsimp only
  repeat' first | with_reducible assumption | with_reducible rfl | (intro _) | with_reducible apply Keeps.ite
                | with_reducible apply Keeps.ite_fst | with_reducible apply State.holdLines_keeps
                | with_reducible apply State.isolateWing_keeps | with_reducible apply State.queueTrigger_keeps
                | with_reducible apply State.answer_keeps | with_reducible apply State.rederive_keeps
                | with_reducible apply State.coalesceC_keeps | with_reducible apply State.event_keeps
                | with_reducible apply State.bump_keeps | with_reducible apply State.updMem_keeps
                | with_reducible apply State.updChan_keeps | with_reducible apply Keeps.foldl
                | with_reducible apply Keeps.foldl_fst | (simp only [Keeps.mk_eq]; with_reducible apply KeepsMk.of)
                | (refine Keeps.of_fst ?_ (by with_reducible assumption)) | split

theorem State.flipChannel_keeps {s0 s : State} {x1 x2} (h : Keeps s0 s) :
    Keeps s0 (State.flipChannel s x1 x2) := by
  unfold State.flipChannel; try dsimp only
  repeat' first | with_reducible assumption | with_reducible rfl | (intro _) | with_reducible apply Keeps.ite
                | with_reducible apply Keeps.ite_fst | with_reducible apply State.releaseHeld_keeps
                | with_reducible apply State.reentryPass_keeps | with_reducible apply State.rederive_keeps
                | with_reducible apply State.updChan_keeps

theorem State.endEvacuation_keeps {s0 s : State} {x1 x2} (h : Keeps s0 s) :
    Keeps s0 (State.endEvacuation s x1 x2) := by
  unfold State.endEvacuation; try dsimp only
  repeat' first | with_reducible assumption | with_reducible rfl | (intro _) | with_reducible apply Keeps.ite
                | with_reducible apply Keeps.ite_fst | with_reducible apply State.evacuateOne_keeps
                | with_reducible apply State.rederive_keeps | with_reducible apply State.event_keeps
                | with_reducible apply State.updChan_keeps | with_reducible apply Keeps.foldl

theorem State.orderEntry_keeps {s0 s : State} {x1 x2 x3} (h : Keeps s0 s) :
    ∀ t, State.orderEntry s x1 x2 x3 = .ok t → Keeps s0 t := by
  intro t e; unfold State.orderEntry at e; try dsimp only at e
  repeat' split at e
  all_goals first | (cases e; done) | (injection e with e; subst e) | skip
  all_goals try dsimp only
  all_goals repeat' first | with_reducible assumption | with_reducible rfl | (intro _) | with_reducible apply Keeps.ite
                          | with_reducible apply Keeps.ite_fst | with_reducible apply State.freeze_keeps
                          | with_reducible apply State.queueTrigger_keeps

theorem State.writeBackEntry_keeps {s0 s : State} {x1} (h : Keeps s0 s) :
    ∀ t, State.writeBackEntry s x1 = .ok t → Keeps s0 t := by
  intro t e; unfold State.writeBackEntry at e; try dsimp only at e
  repeat' split at e
  all_goals first | (cases e; done) | (injection e with e; subst e) | skip
  all_goals try dsimp only
  all_goals repeat' first | with_reducible assumption | with_reducible rfl | (intro _) | with_reducible apply Keeps.ite
                          | with_reducible apply Keeps.ite_fst | with_reducible apply State.writeBackAll_keeps
                          | with_reducible apply State.dropLines_keeps | with_reducible apply Keeps.foldl

theorem State.updSplit_keeps {s0 s : State} {x1 x2} (h : Keeps s0 s) :
    Keeps s0 (State.updSplit s x1 x2) := by
  unfold State.updSplit; try dsimp only
  repeat' first | with_reducible assumption | with_reducible rfl | (intro _) | with_reducible apply Keeps.ite
                | with_reducible apply Keeps.ite_fst | with_reducible apply Keeps.foldl | with_reducible apply Keeps.foldl_fst
                | (simp only [Keeps.mk_eq]; with_reducible apply KeepsMk.of)

theorem State.runSplit_keeps {s0 s : State} {x1 x2} (h : Keeps s0 s) (hf2 : ∀ y0 y1, Keeps s0 y1 → Keeps s0 (x2 y0 y1)) :
    Keeps s0 (State.runSplit s x1 x2) := by
  unfold State.runSplit; try dsimp only
  repeat' first | with_reducible assumption | with_reducible rfl | (intro _) | with_reducible apply Keeps.ite
                | with_reducible apply Keeps.ite_fst | with_reducible apply hf2 | with_reducible apply Keeps.foldl
                | with_reducible apply Keeps.foldl_fst | (refine Keeps.of_fst ?_ (by with_reducible assumption)) | split

theorem State.splitResult_keeps {s0 s : State} {x1 x2} (h : Keeps s0 s) :
    Keeps s0 (State.splitResult s x1 x2) := by
  unfold State.splitResult; try dsimp only
  repeat' first | with_reducible assumption | with_reducible rfl | (intro _) | with_reducible apply Keeps.ite
                | with_reducible apply Keeps.ite_fst | with_reducible apply State.updSplit_keeps

end Sys2Proof.Machine
end

