-- ==== Sys2Proof/Laws/KeepsDevice.lean ====
section
/-! SUPPORT. What the operations over keys, ports, the emergency sequence, the Corridor, the memory path, functions, ingest and the Mover keep (`Keeps`): the queue, the assembly, and sound memory. -/

namespace Sys2Proof.Machine

theorem State.updEd_keeps {s0 s : State} {x1} (h : Keeps s0 s) :
    Keeps s0 (State.updEd s x1) := by
  unfold State.updEd; try dsimp only
  repeat' first | with_reducible assumption | with_reducible rfl | (intro _) | with_reducible apply Keeps.ite
                | with_reducible apply Keeps.ite_fst | with_reducible apply Keeps.foldl | with_reducible apply Keeps.foldl_fst
                | (simp only [Keeps.mk_eq]; with_reducible apply KeepsMk.of)

theorem State.breakKey_keeps {s0 s : State} {x1} (h : Keeps s0 s) :
    Keeps s0 (State.breakKey s x1) := by
  unfold State.breakKey; try dsimp only
  repeat' first | with_reducible assumption | with_reducible rfl | (intro _) | with_reducible apply Keeps.ite
                | with_reducible apply Keeps.ite_fst | with_reducible apply State.updEd_keeps
                | with_reducible apply State.event_keeps | with_reducible apply State.bump_keeps
                | with_reducible apply Keeps.foldl | with_reducible apply Keeps.foldl_fst
                | (refine Keeps.of_fst ?_ (by with_reducible assumption)) | split

theorem State.portBreaksKey_keeps {s0 s : State} {x1} (h : Keeps s0 s) :
    Keeps s0 (State.portBreaksKey s x1) := by
  unfold State.portBreaksKey; try dsimp only
  repeat' first | with_reducible assumption | with_reducible rfl | (intro _) | with_reducible apply Keeps.ite
                | with_reducible apply Keeps.ite_fst | with_reducible apply State.breakKey_keeps

theorem State.failCommit_keeps {s0 s : State} {x1 x2} (h : Keeps s0 s) :
    Keeps s0 (State.failCommit s x1 x2) := by
  unfold State.failCommit; try dsimp only
  repeat' first | with_reducible assumption | with_reducible rfl | (intro _) | with_reducible apply Keeps.ite
                | with_reducible apply Keeps.ite_fst | with_reducible apply State.updEd_keeps
                | with_reducible apply State.event_keeps | with_reducible apply Keeps.foldl
                | with_reducible apply Keeps.foldl_fst | (refine Keeps.of_fst ?_ (by with_reducible assumption)) | split

theorem State.abandonCommit_keeps {s0 s : State} (h : Keeps s0 s) :
    Keeps s0 (State.abandonCommit s) := by
  unfold State.abandonCommit; try dsimp only
  repeat' first | with_reducible assumption | with_reducible rfl | (intro _) | with_reducible apply Keeps.ite
                | with_reducible apply Keeps.ite_fst | with_reducible apply Keeps.ite_snd
                | with_reducible apply State.failCommit_keeps | with_reducible apply State.draw_keeps

theorem State.updExtent_keeps {s0 s : State} {x1 x2} (h : Keeps s0 s) :
    Keeps s0 (State.updExtent s x1 x2) := by
  unfold State.updExtent; try dsimp only
  repeat' first | with_reducible assumption | with_reducible rfl | (intro _) | with_reducible apply Keeps.ite
                | with_reducible apply Keeps.ite_fst | with_reducible apply State.updMem_keeps

theorem State.removeExtent_keeps {s0 s : State} {x1} (h : Keeps s0 s) :
    Keeps s0 (State.removeExtent s x1) := by
  unfold State.removeExtent; try dsimp only
  repeat' first | with_reducible assumption | with_reducible rfl | (intro _) | with_reducible apply Keeps.ite
                | with_reducible apply Keeps.ite_fst | with_reducible apply State.updMem_keeps

theorem State.enterDc_keeps {s0 s : State} {x1} (h : Keeps s0 s) :
    Keeps s0 (State.enterDc s x1) := by
  unfold State.enterDc; try dsimp only
  repeat' first | with_reducible assumption | with_reducible rfl | (intro _) | with_reducible apply Keeps.ite
                | with_reducible apply Keeps.ite_fst | with_reducible apply State.updExtent_keeps
                | with_reducible apply State.event_keeps | with_reducible apply State.signal_keeps
                | with_reducible apply State.pme_keeps | with_reducible apply State.updMem_keeps
                | with_reducible apply Keeps.foldl | with_reducible apply Keeps.foldl_fst
                | (refine Keeps.of_fst ?_ (by with_reducible assumption)) | split

theorem State.tryPortAux_keeps {s0 s : State} {x1 x2} (h : Keeps s0 s) :
    Keeps s0 (State.tryPortAux x1 x2 s) := by
  induction x2 generalizing s with
  | zero => unfold State.tryPortAux; exact h
  | succ _ ih =>
    unfold State.tryPortAux; try dsimp only
    repeat' first | with_reducible apply ih | with_reducible assumption | with_reducible rfl | (intro _)
                  | with_reducible apply Keeps.ite | with_reducible apply Keeps.ite_fst
                  | with_reducible apply State.enterDc_keeps | with_reducible apply Keeps.foldl
                  | with_reducible apply Keeps.foldl_fst | (refine Keeps.of_fst ?_ (by with_reducible assumption)) | split

theorem State.tryPort_keeps {s0 s : State} {x1} (h : Keeps s0 s) :
    Keeps s0 (State.tryPort s x1) := by
  unfold State.tryPort; try dsimp only
  repeat' first | with_reducible assumption | with_reducible rfl | (intro _) | with_reducible apply Keeps.ite
                | with_reducible apply Keeps.ite_fst | with_reducible apply State.tryPortAux_keeps

theorem State.dcEvent_keeps {s0 s : State} {x1 x2} (h : Keeps s0 s) :
    Keeps s0 (State.dcEvent s x1 x2) := by
  unfold State.dcEvent; try dsimp only
  repeat' first | with_reducible assumption | with_reducible rfl | (intro _) | with_reducible apply Keeps.ite
                | with_reducible apply Keeps.ite_fst | with_reducible apply State.tryPort_keeps
                | with_reducible apply State.updMem_keeps

theorem State.offer_keeps {s0 s : State} {x1 x2 x3} (h : Keeps s0 s) :
    Keeps s0 (State.offer s x1 x2 x3) := by
  unfold State.offer; try dsimp only
  repeat' first | with_reducible assumption | with_reducible rfl | (intro _) | with_reducible apply Keeps.ite
                | with_reducible apply Keeps.ite_fst | with_reducible apply Keeps.ite_snd
                | with_reducible apply State.dcEvent_keeps | with_reducible apply State.draw_keeps
                | with_reducible apply State.updMem_keeps

theorem State.withdraw_keeps {s0 s : State} {x1 x2} (h : Keeps s0 s) :
    Keeps s0 (State.withdraw s x1 x2) := by
  unfold State.withdraw; try dsimp only
  repeat' first | with_reducible assumption | with_reducible rfl | (intro _) | with_reducible apply Keeps.ite
                | with_reducible apply Keeps.ite_fst | with_reducible apply State.dcEvent_keeps
                | with_reducible apply State.tryPort_keeps | with_reducible apply State.removeExtent_keeps
                | with_reducible apply State.updExtent_keeps | with_reducible apply State.updMem_keeps
                | with_reducible apply Keeps.foldl | with_reducible apply Keeps.foldl_fst
                | (refine Keeps.of_fst ?_ (by with_reducible assumption)) | split

theorem State.shutExtents_keeps {s0 s : State} {x1} (h : Keeps s0 s) :
    Keeps s0 (State.shutExtents s x1) := by
  unfold State.shutExtents; try dsimp only
  repeat' first | with_reducible assumption | with_reducible rfl | (intro _) | with_reducible apply Keeps.ite
                | with_reducible apply Keeps.ite_fst | with_reducible apply State.updMem_keeps

theorem State.reoffer_keeps {s0 s : State} {x1} (h : Keeps s0 s) :
    Keeps s0 (State.reoffer s x1) := by
  unfold State.reoffer; try dsimp only
  repeat' first | with_reducible assumption | with_reducible rfl | (intro _) | with_reducible apply Keeps.ite
                | with_reducible apply Keeps.ite_fst | with_reducible apply State.dcEvent_keeps
                | with_reducible apply Keeps.foldl

theorem State.resetFn_keeps {s0 s : State} {x1 x2} (h : Keeps s0 s) :
    Keeps s0 (State.resetFn s x1 x2) := by
  unfold State.resetFn; try dsimp only
  repeat' first | with_reducible assumption | with_reducible rfl | (intro _) | with_reducible apply Keeps.ite
                | with_reducible apply Keeps.ite_fst | with_reducible apply State.updMem_keeps
                | with_reducible apply State.updFn_keeps

theorem State.dropDecoders_keeps {s0 s : State} {x1} (h : Keeps s0 s) :
    Keeps s0 (State.dropDecoders s x1) := by
  unfold State.dropDecoders; try dsimp only
  repeat' first | with_reducible assumption | with_reducible rfl | (intro _) | with_reducible apply Keeps.ite
                | with_reducible apply Keeps.ite_fst | with_reducible apply State.updFn_keeps

theorem State.linkDown_keeps {s0 s : State} {x1 x2 x3} (h : Keeps s0 s) :
    Keeps s0 (State.linkDown s x1 x2 x3) := by
  unfold State.linkDown; try dsimp only
  repeat' first | with_reducible assumption | with_reducible rfl | (intro _) | with_reducible apply Keeps.ite
                | with_reducible apply Keeps.ite_fst | with_reducible apply State.dropDecoders_keeps
                | with_reducible apply State.resetFn_keeps | with_reducible apply State.shutExtents_keeps
                | with_reducible apply State.portBreaksKey_keeps | with_reducible apply State.updEd_keeps
                | with_reducible apply State.updFn_keeps

theorem State.portsDown_keeps {s0 s : State} {x1} (h : Keeps s0 s) :
    Keeps s0 (State.portsDown s x1) := by
  unfold State.portsDown; try dsimp only
  repeat' first | with_reducible assumption | with_reducible rfl | (intro _) | with_reducible apply Keeps.ite
                | with_reducible apply Keeps.ite_fst | with_reducible apply State.linkDown_keeps
                | with_reducible apply Keeps.foldl | with_reducible apply Keeps.foldl_fst
                | (refine Keeps.of_fst ?_ (by with_reducible assumption)) | split

theorem State.updPw_keeps {s0 s : State} {x1} (h : Keeps s0 s) :
    Keeps s0 (State.updPw s x1) := by
  unfold State.updPw; try dsimp only
  repeat' first | with_reducible assumption | with_reducible rfl | (intro _) | with_reducible apply Keeps.ite
                | with_reducible apply Keeps.ite_fst | with_reducible apply Keeps.foldl | with_reducible apply Keeps.foldl_fst
                | (simp only [Keeps.mk_eq]; with_reducible apply KeepsMk.of)

theorem State.suspend_keeps {s0 s : State} {x1 x2} (h : Keeps s0 s) :
    Keeps s0 (State.suspend s x1 x2) := by
  unfold State.suspend; try dsimp only
  repeat' first | with_reducible assumption | with_reducible rfl | (intro _) | with_reducible apply Keeps.ite
                | with_reducible apply Keeps.ite_fst | with_reducible apply State.updPw_keeps
                | with_reducible apply State.watermark_keeps

theorem State.resume_keeps {s0 s : State} {x1 x2} (h : Keeps s0 s) :
    Keeps s0 (State.resume s x1 x2) := by
  unfold State.resume; try dsimp only
  repeat' first | with_reducible assumption | with_reducible rfl | (intro _) | with_reducible apply Keeps.ite
                | with_reducible apply Keeps.ite_fst | with_reducible apply State.updPw_keeps
                | with_reducible apply State.watermark_keeps

theorem State.stopTiles_keeps {s0 s : State} (h : Keeps s0 s) :
    Keeps s0 (State.stopTiles s) := by
  unfold State.stopTiles; try dsimp only
  repeat' first | with_reducible assumption | with_reducible rfl | (intro _) | with_reducible apply Keeps.ite
                | with_reducible apply Keeps.ite_fst | with_reducible apply Keeps.foldl | with_reducible apply Keeps.foldl_fst
                | (simp only [Keeps.mk_eq]; with_reducible apply KeepsMk.of)

theorem State.emergency_keeps {s0 s : State} {x1 x2} (h : Keeps s0 s) :
    Keeps s0 (State.emergency s x1 x2) := by
  unfold State.emergency; try dsimp only
  repeat' first | with_reducible assumption | with_reducible rfl | (intro _) | with_reducible apply Keeps.ite
                | with_reducible apply Keeps.ite_fst | with_reducible apply State.stopTiles_keeps
                | with_reducible apply State.updPkg_keeps | with_reducible apply State.updPw_keeps
                | with_reducible apply State.abandonCommit_keeps | with_reducible apply State.event_keeps
                | with_reducible apply State.updMem_keeps

theorem State.drainReads_keeps {s0 s : State} (h : Keeps s0 s) :
    Keeps s0 (State.drainReads s) := by
  unfold State.drainReads; try dsimp only
  repeat' first | with_reducible assumption | with_reducible rfl | (intro _) | with_reducible apply Keeps.ite
                | with_reducible apply Keeps.ite_fst | with_reducible apply State.completeRead_keeps
                | with_reducible apply Keeps.foldl

theorem State.flushDurable_keeps {s0 s : State} (h : Keeps s0 s) :
    Keeps s0 (State.flushDurable s) := by
  unfold State.flushDurable; try dsimp only
  repeat' first | with_reducible assumption | with_reducible rfl | (intro _) | with_reducible apply Keeps.ite
                | with_reducible apply Keeps.ite_fst | with_reducible apply State.depotWritten_keeps
                | with_reducible apply State.writeBackAll_keeps | with_reducible apply Keeps.foldl

theorem State.sleepDepot_keeps {s0 s : State} (h : Keeps s0 s) :
    Keeps s0 (State.sleepDepot s) := by
  unfold State.sleepDepot; try dsimp only
  repeat' first | with_reducible assumption | with_reducible rfl | (intro _) | with_reducible apply Keeps.ite
                | with_reducible apply Keeps.ite_fst | with_reducible apply Keeps.foldl | with_reducible apply Keeps.foldl_fst
                | (simp only [Keeps.mk_eq]; with_reducible apply KeepsMk.of)

theorem State.writeSeals_keeps {s0 s : State} (h : Keeps s0 s) :
    Keeps s0 (State.writeSeals s) := by
  unfold State.writeSeals; try dsimp only
  repeat' first | with_reducible assumption | with_reducible rfl | (intro _) | with_reducible apply Keeps.ite
                | with_reducible apply Keeps.ite_fst | with_reducible apply Keeps.ite_snd
                | with_reducible apply State.draw_keeps | with_reducible apply State.updDie_keeps
                | with_reducible apply Keeps.foldl | with_reducible apply Keeps.foldl_fst
                | (simp only [Keeps.mk_eq]; with_reducible apply KeepsMk.of)

theorem State.finishFreq_keeps {s0 s : State} (h : Keeps s0 s) :
    Keeps s0 (State.finishFreq s) := by
  unfold State.finishFreq; try dsimp only
  repeat' first | with_reducible assumption | with_reducible rfl | (intro _) | with_reducible apply Keeps.ite
                | with_reducible apply Keeps.ite_fst | with_reducible apply State.updPw_keeps
                | with_reducible apply Keeps.foldl | with_reducible apply Keeps.foldl_fst
                | (simp only [Keeps.mk_eq]; with_reducible apply KeepsMk.of)

theorem State.drainQueues_keeps {s0 s : State} (h : Keeps s0 s) :
    Keeps s0 (State.drainQueues s) := by
  unfold State.drainQueues; try dsimp only
  repeat' first | with_reducible assumption | with_reducible rfl | (intro _) | with_reducible apply Keeps.ite
                | with_reducible apply Keeps.ite_fst | with_reducible apply State.forceChan_keeps
                | with_reducible apply Keeps.foldl

theorem State.endEmergency_keeps {s0 s : State} (h : Keeps s0 s) :
    Keeps s0 (State.endEmergency s) := by
  unfold State.endEmergency; try dsimp only
  repeat' first | with_reducible assumption | with_reducible rfl | (intro _) | with_reducible apply Keeps.ite
                | with_reducible apply Keeps.ite_fst | with_reducible apply State.drainQueues_keeps
                | with_reducible apply State.finishFreq_keeps | with_reducible apply State.writeSeals_keeps
                | with_reducible apply State.sleepDepot_keeps | with_reducible apply State.flushDurable_keeps
                | with_reducible apply State.drainReads_keeps | with_reducible apply State.suspend_keeps
                | with_reducible apply State.updPkg_keeps | with_reducible apply State.portsDown_keeps
                | with_reducible apply State.event_keeps

theorem State.dropLink_keeps {s0 s : State} {x1 x2} (h : Keeps s0 s) :
    Keeps s0 (State.dropLink s x1 x2) := by
  unfold State.dropLink; try dsimp only
  repeat' first | with_reducible assumption | with_reducible rfl | (intro _) | with_reducible apply Keeps.ite
                | with_reducible apply Keeps.ite_fst | with_reducible apply State.updPkg_keeps
                | with_reducible apply State.portsDown_keeps | with_reducible apply State.isolateAll_keeps
                | with_reducible apply State.setLink_keeps | with_reducible apply State.rebind_keeps
                | with_reducible apply State.event_keeps | with_reducible apply Keeps.foldl
                | with_reducible apply Keeps.foldl_fst | (refine Keeps.of_fst ?_ (by with_reducible assumption)) | split

theorem State.loseBridge_keeps {s0 s : State} (h : Keeps s0 s) :
    Keeps s0 (State.loseBridge s) := by
  unfold State.loseBridge; try dsimp only
  repeat' first | with_reducible assumption | with_reducible rfl | (intro _) | with_reducible apply Keeps.ite
                | with_reducible apply Keeps.ite_fst | with_reducible apply State.dropLink_keeps

theorem State.resumeLink_keeps {s0 s : State} {x1 x2} (h : Keeps s0 s) :
    Keeps s0 (State.resumeLink s x1 x2) := by
  unfold State.resumeLink; try dsimp only
  repeat' first | with_reducible assumption | with_reducible rfl | (intro _) | with_reducible apply Keeps.ite
                | with_reducible apply Keeps.ite_fst | with_reducible apply State.setLink_keeps
                | with_reducible apply State.replayFrom_keeps | with_reducible apply State.sendLink_keeps
                | with_reducible apply State.flushPort_keeps | with_reducible apply State.rebind_keeps
                | with_reducible apply State.updCport_keeps | with_reducible apply Keeps.foldl

theorem State.badFlit_keeps {s0 s : State} {x1 x2 x3} (h : Keeps s0 s) :
    Keeps s0 (State.badFlit s x1 x2 x3) := by
  unfold State.badFlit; try dsimp only
  repeat' first | with_reducible assumption | with_reducible rfl | (intro _) | with_reducible apply Keeps.ite
                | with_reducible apply Keeps.ite_fst | with_reducible apply State.bump_keeps

theorem State.forward_keeps {s0 s : State} {x1 x2 x3} (h : Keeps s0 s) :
    Keeps s0 (State.forward s x1 x2 x3) := by
  unfold State.forward; try dsimp only
  repeat' first | with_reducible assumption | with_reducible rfl | (intro _) | with_reducible apply Keeps.ite
                | with_reducible apply Keeps.ite_fst | with_reducible apply State.sendData_keeps
                | with_reducible apply State.sendPart_keeps | with_reducible apply Keeps.foldl
                | with_reducible apply Keeps.foldl_fst | (refine Keeps.of_fst ?_ (by with_reducible assumption)) | split

theorem State.receiveData_keeps {s0 s : State} {x1 x2 x3 x4} (h : Keeps s0 s) :
    Keeps s0 (State.receiveData s x1 x2 x3 x4) := by
  unfold State.receiveData; try dsimp only
  repeat' first | with_reducible assumption | with_reducible rfl | (intro _) | with_reducible apply Keeps.ite
                | with_reducible apply Keeps.ite_fst | with_reducible apply State.forward_keeps
                | with_reducible apply State.retrain_keeps | with_reducible apply State.sendLink_keeps
                | with_reducible apply State.updCport_keeps | with_reducible apply State.bump_keeps

theorem State.bringUp_keeps {s0 s : State} {x1 x2 x3} (h : Keeps s0 s) :
    Keeps s0 (State.bringUp s x1 x2 x3) := by
  unfold State.bringUp; try dsimp only
  repeat' first | with_reducible assumption | with_reducible rfl | (intro _) | with_reducible apply Keeps.ite
                | with_reducible apply Keeps.ite_fst | with_reducible apply State.finishReturn_keeps
                | with_reducible apply State.rebind_keeps | with_reducible apply State.updCport_keeps
                | with_reducible apply Keeps.foldl | with_reducible apply Keeps.foldl_fst
                | (simp only [Keeps.mk_eq]; with_reducible apply KeepsMk.of)

theorem State.takeLoan_keeps {s0 s : State} {x1} (h : Keeps s0 s) :
    Keeps s0 (State.takeLoan s x1) := by
  unfold State.takeLoan; try dsimp only
  repeat' first | with_reducible assumption | with_reducible rfl | (intro _) | with_reducible apply Keeps.ite
                | with_reducible apply Keeps.ite_fst | with_reducible apply State.updMem_keeps

theorem State.setUncertain_keeps {s0 s : State} {x1 x2 x3} (h : Keeps s0 s) :
    Keeps s0 (State.setUncertain s x1 x2 x3) := by
  unfold State.setUncertain; try dsimp only
  repeat' first | with_reducible assumption | with_reducible rfl | (intro _) | with_reducible apply Keeps.ite
                | with_reducible apply Keeps.ite_fst | with_reducible apply State.watermark_keeps
                | with_reducible apply State.updDie_keeps

theorem State.takeSync_keeps {s0 s : State} {x1 x2 x3 x4} (h : Keeps s0 s) :
    Keeps s0 (State.takeSync s x1 x2 x3 x4) := by
  unfold State.takeSync; try dsimp only
  repeat' first | with_reducible assumption | with_reducible rfl | (intro _) | with_reducible apply Keeps.ite
                | with_reducible apply Keeps.ite_fst | with_reducible apply State.setUncertain_keeps
                | with_reducible apply State.watermark_keeps | with_reducible apply State.updDie_keeps

theorem State.tick_keeps {s0 s : State} (h : Keeps s0 s) :
    Keeps s0 (State.tick s) := by
  unfold State.tick; try dsimp only
  repeat' first | with_reducible assumption | with_reducible rfl | (intro _) | with_reducible apply Keeps.ite
                | with_reducible apply Keeps.ite_fst | with_reducible apply Keeps.foldl | with_reducible apply Keeps.foldl_fst
                | (simp only [Keeps.mk_eq]; with_reducible apply KeepsMk.of)

theorem State.unmapped_keeps {s0 s : State} {x1 x2} (h : Keeps s0 s) :
    Keeps s0 (State.unmapped s x1 x2) := by
  unfold State.unmapped; try dsimp only
  repeat' first | with_reducible assumption | with_reducible rfl | (intro _) | with_reducible apply Keeps.ite
                | with_reducible apply Keeps.ite_fst | with_reducible apply State.coalesce_keeps

theorem State.serveView_keeps {s0 s : State} {x1 x2 x3} (h : Keeps s0 s) :
    Keeps s0 (State.serveView s x1 x2 x3) := by
  unfold State.serveView; try dsimp only
  repeat' first | with_reducible assumption | with_reducible rfl | (intro _) | with_reducible apply Keeps.ite
                | with_reducible apply Keeps.ite_fst | with_reducible apply State.queueRead_keeps
                | with_reducible apply State.meterFor_keeps | with_reducible apply State.answer_keeps
                | with_reducible apply State.writeBackBlock_keeps | with_reducible apply Keeps.foldl
                | with_reducible apply Keeps.foldl_fst | (refine Keeps.of_fst ?_ (by with_reducible assumption)) | split

theorem State.linkRead_keeps {s0 s : State} {x1 x2} (h : Keeps s0 s) :
    Keeps s0 (State.linkRead s x1 x2) := by
  unfold State.linkRead; try dsimp only
  repeat' first | with_reducible assumption | with_reducible rfl | (intro _) | with_reducible apply Keeps.ite
                | with_reducible apply Keeps.ite_fst | with_reducible apply State.serveView_keeps
                | with_reducible apply State.serveRead_keeps | with_reducible apply State.meterFor_keeps
                | with_reducible apply State.answer_keeps | with_reducible apply State.wakeChannels_keeps
                | with_reducible apply State.bump_keeps | with_reducible apply Keeps.foldl
                | with_reducible apply Keeps.foldl_fst | (refine Keeps.of_fst ?_ (by with_reducible assumption)) | split

theorem State.linkWrite_keeps {s0 s : State} {x1 x2 x3 x4 x5} (h : Keeps s0 s) :
    Keeps s0 (State.linkWrite s x1 x2 x3 x4 x5) := by
  unfold State.linkWrite; try dsimp only
  repeat' first | with_reducible assumption | with_reducible rfl | (intro _) | with_reducible apply Keeps.ite
                | with_reducible apply Keeps.ite_fst | with_reducible apply State.unmapped_keeps
                | with_reducible apply State.writeLineCmd_keeps | with_reducible apply State.serveWrite_keeps
                | with_reducible apply State.discard_keeps | with_reducible apply State.meterFor_keeps
                | with_reducible apply State.completeWrite_keeps | with_reducible apply State.wakeChannels_keeps
                | with_reducible apply State.bump_keeps | with_reducible apply Keeps.foldl
                | with_reducible apply Keeps.foldl_fst | (refine Keeps.of_fst ?_ (by with_reducible assumption)) | split

theorem State.isolateTags_keeps {s0 s : State} (h : Keeps s0 s) :
    Keeps s0 (State.isolateTags s) := by
  unfold State.isolateTags; try dsimp only
  repeat' first | with_reducible assumption | with_reducible rfl | (intro _) | with_reducible apply Keeps.ite
                | with_reducible apply Keeps.ite_fst | with_reducible apply State.isolateWing_keeps
                | with_reducible apply State.updDie_keeps | with_reducible apply Keeps.foldl

theorem State.create_keeps {s0 s : State} {x1} (h : Keeps s0 s) :
    Keeps s0 (State.create x1 s) := by
  unfold State.create; try dsimp only
  repeat' first | with_reducible assumption | with_reducible rfl | (intro _) | with_reducible apply Keeps.ite
                | with_reducible apply Keeps.ite_fst | with_reducible apply State.dropRange_keeps
                | with_reducible apply State.endCmd_keeps | with_reducible apply State.updMem_keeps
                | with_reducible apply Keeps.foldl | with_reducible apply Keeps.foldl_fst
                | (refine Keeps.of_fst ?_ (by with_reducible assumption)) | split

theorem State.startFork_keeps {s0 s : State} {x1} (h : Keeps s0 s) :
    Keeps s0 (State.startFork x1 s) := by
  unfold State.startFork; try dsimp only
  repeat' first | with_reducible assumption | with_reducible rfl | (intro _) | with_reducible apply Keeps.ite
                | with_reducible apply Keeps.ite_fst | with_reducible apply State.endCmd_keeps
                | with_reducible apply State.putCmd_keeps | with_reducible apply State.updMem_keeps
                | with_reducible apply Keeps.foldl | with_reducible apply Keeps.foldl_fst
                | (refine Keeps.of_fst ?_ (by with_reducible assumption)) | split

theorem State.truncate_keeps {s0 s : State} {x1} (h : Keeps s0 s) :
    Keeps s0 (State.truncate x1 s) := by
  unfold State.truncate; try dsimp only
  repeat' first | with_reducible assumption | with_reducible rfl | (intro _) | with_reducible apply Keeps.ite
                | with_reducible apply Keeps.ite_fst | with_reducible apply State.writeZeros_keeps
                | with_reducible apply State.dropRange_keeps | with_reducible apply State.endCmd_keeps
                | with_reducible apply State.updMem_keeps | with_reducible apply Keeps.foldl
                | with_reducible apply Keeps.foldl_fst | (refine Keeps.of_fst ?_ (by with_reducible assumption)) | split

theorem State.endPins_keeps {s0 s : State} {x1 x2 x3} (h : Keeps s0 s) :
    Keeps s0 (State.endPins s x1 x2 x3) := by
  unfold State.endPins; try dsimp only
  repeat' first | with_reducible assumption | with_reducible rfl | (intro _) | with_reducible apply Keeps.ite
                | with_reducible apply Keeps.ite_fst | with_reducible apply State.updMem_keeps

theorem State.releaseSeq_keeps {s0 s : State} {x1} (h : Keeps s0 s) :
    Keeps s0 (State.releaseSeq x1 s) := by
  unfold State.releaseSeq; try dsimp only
  repeat' first | with_reducible assumption | with_reducible rfl | (intro _) | with_reducible apply Keeps.ite
                | with_reducible apply Keeps.ite_fst | with_reducible apply State.endPins_keeps
                | with_reducible apply State.dropRange_keeps | with_reducible apply State.endCmd_keeps
                | with_reducible apply State.updMem_keeps | with_reducible apply Keeps.foldl
                | with_reducible apply Keeps.foldl_fst | (refine Keeps.of_fst ?_ (by with_reducible assumption)) | split

theorem State.releaseRange_keeps {s0 s : State} {x1} (h : Keeps s0 s) :
    Keeps s0 (State.releaseRange x1 s) := by
  unfold State.releaseRange; try dsimp only
  repeat' first | with_reducible assumption | with_reducible rfl | (intro _) | with_reducible apply Keeps.ite
                | with_reducible apply Keeps.ite_fst | with_reducible apply State.endPins_keeps
                | with_reducible apply State.dropRange_keeps | with_reducible apply State.endCmd_keeps

theorem State.pin_keeps {s0 s : State} {x1} (h : Keeps s0 s) :
    Keeps s0 (State.pin x1 s) := by
  unfold State.pin; try dsimp only
  repeat' first | with_reducible assumption | with_reducible rfl | (intro _) | with_reducible apply Keeps.ite
                | with_reducible apply Keeps.ite_fst | with_reducible apply State.queueMoves_keeps
                | with_reducible apply State.endCmd_keeps | with_reducible apply State.putCmd_keeps
                | with_reducible apply State.updLot_keeps | with_reducible apply Keeps.foldl
                | with_reducible apply Keeps.foldl_fst | (refine Keeps.of_fst ?_ (by with_reducible assumption)) | split

theorem State.unpin_keeps {s0 s : State} {x1} (h : Keeps s0 s) :
    Keeps s0 (State.unpin x1 s) := by
  unfold State.unpin; try dsimp only
  repeat' first | with_reducible assumption | with_reducible rfl | (intro _) | with_reducible apply Keeps.ite
                | with_reducible apply Keeps.ite_fst | with_reducible apply State.endCmd_keeps
                | with_reducible apply State.updMem_keeps

theorem State.recheckAll_keeps {s0 s : State} {x1} (h : Keeps s0 s) :
    Keeps s0 (State.recheckAll s x1) := by
  unfold State.recheckAll; try dsimp only
  repeat' first | with_reducible assumption | with_reducible rfl | (intro _) | with_reducible apply Keeps.ite
                | with_reducible apply Keeps.ite_fst | with_reducible apply State.recheck_keeps
                | with_reducible apply Keeps.foldl

theorem State.releaseSignals_keeps {s0 s : State} {x1} (h : Keeps s0 s) :
    Keeps s0 (State.releaseSignals s x1) := by
  unfold State.releaseSignals; try dsimp only
  repeat' first | with_reducible assumption | with_reducible rfl | (intro _) | with_reducible apply Keeps.ite
                | with_reducible apply Keeps.ite_fst | with_reducible apply State.send_keeps
                | with_reducible apply Keeps.foldl | with_reducible apply Keeps.foldl_fst
                | (refine Keeps.of_fst ?_ (by with_reducible assumption)) | split

theorem State.sendPending_keeps {s0 s : State} {x1 x2} (h : Keeps s0 s) :
    Keeps s0 (State.sendPending s x1 x2) := by
  unfold State.sendPending; try dsimp only
  repeat' first | with_reducible assumption | with_reducible rfl | (intro _) | with_reducible apply Keeps.ite
                | with_reducible apply Keeps.ite_fst | with_reducible apply State.send_keeps
                | with_reducible apply State.updFn_keeps | with_reducible apply Keeps.foldl
                | with_reducible apply Keeps.foldl_fst | (refine Keeps.of_fst ?_ (by with_reducible assumption)) | split

theorem State.writeAborted_keeps {s0 s : State} {x1 x2} (h : Keeps s0 s) :
    Keeps s0 (State.writeAborted s x1 x2) := by
  unfold State.writeAborted; try dsimp only
  repeat' first | with_reducible assumption | with_reducible rfl | (intro _) | with_reducible apply Keeps.ite
                | with_reducible apply Keeps.ite_fst | with_reducible apply State.updEngine_keeps
                | with_reducible apply State.event_keeps | with_reducible apply State.send_keeps
                | with_reducible apply Keeps.foldl | with_reducible apply Keeps.foldl_fst
                | (refine Keeps.of_fst ?_ (by with_reducible assumption)) | split

theorem State.moveToDepot_keeps {s0 s : State} {x1} (h : Keeps s0 s) :
    Keeps s0 (State.moveToDepot s x1).1 := by
  unfold State.moveToDepot; try dsimp only
  repeat' first | with_reducible assumption | with_reducible rfl | (intro _) | with_reducible apply Keeps.ite
                | with_reducible apply Keeps.ite_fst | with_reducible apply State.docCopy_keeps
                | with_reducible apply State.loseBlock_keeps | with_reducible apply State.settle_keeps
                | with_reducible apply State.freeRuns_keeps | with_reducible apply State.putEntry_keeps
                | with_reducible apply State.bump_keeps | with_reducible apply Keeps.foldl
                | with_reducible apply Keeps.foldl_fst | (simp only [Keeps.mk_eq]; with_reducible apply KeepsMk.of)
                | (refine Keeps.of_fst ?_ (by with_reducible assumption)) | split

theorem State.flushLines_keeps {s0 s : State} (h : Keeps s0 s) :
    Keeps s0 (State.flushLines s) := by
  unfold State.flushLines; try dsimp only
  repeat' first | with_reducible assumption | with_reducible rfl | (intro _) | with_reducible apply Keeps.ite
                | with_reducible apply Keeps.ite_fst | with_reducible apply State.writeBackAll_keeps
                | with_reducible apply Keeps.foldl

theorem State.prepareEntry_keeps {s0 s : State} {x1} (h : Keeps s0 s) :
    Keeps s0 (State.prepareEntry s x1) := by
  unfold State.prepareEntry; try dsimp only
  repeat' first | with_reducible assumption | with_reducible rfl | (intro _) | with_reducible apply Keeps.ite
                | with_reducible apply Keeps.ite_fst | with_reducible apply State.updPw_keeps
                | with_reducible apply State.notePrepared_keeps

theorem State.updStream_keeps {s0 s : State} {x1 x2} (h : Keeps s0 s) :
    Keeps s0 (State.updStream s x1 x2) := by
  unfold State.updStream; try dsimp only
  repeat' first | with_reducible assumption | with_reducible rfl | (intro _) | with_reducible apply Keeps.ite
                | with_reducible apply Keeps.ite_fst | with_reducible apply State.updMem_keeps

theorem State.anchorBytes_keeps {s0 s : State} {x1} (h : Keeps s0 s) :
    Keeps s0 (State.anchorBytes s x1).1 := by
  unfold State.anchorBytes; try dsimp only
  repeat' first | with_reducible assumption | with_reducible rfl | (intro _) | with_reducible apply Keeps.ite
                | with_reducible apply Keeps.ite_fst | with_reducible apply Keeps.ite_s
                | with_reducible apply State.anchorSegment_keeps | with_reducible apply Keeps.foldl
                | with_reducible apply Keeps.foldl_fst

theorem State.checkRecord_keeps {s0 s : State} {x1 x2 x3} (h : Keeps s0 s) :
    Keeps s0 (State.checkRecord s x1 x2 x3).1 := by
  unfold State.checkRecord; try dsimp only
  repeat' first | with_reducible assumption | with_reducible rfl | (intro _) | with_reducible apply Keeps.ite
                | with_reducible apply Keeps.ite_fst | with_reducible apply State.anchorBytes_keeps
                | with_reducible apply Keeps.foldl | with_reducible apply Keeps.foldl_fst
                | (refine Keeps.of_fst ?_ (by with_reducible assumption)) | split

theorem State.refuseRecord_keeps {s0 s : State} {x1 x2 x3 x4} (h : Keeps s0 s) :
    Keeps s0 (State.refuseRecord s x1 x2 x3 x4) := by
  unfold State.refuseRecord; try dsimp only
  repeat' first | with_reducible assumption | with_reducible rfl | (intro _) | with_reducible apply Keeps.ite
                | with_reducible apply Keeps.ite_fst | with_reducible apply State.updStream_keeps
                | with_reducible apply State.coalesceC_keeps | with_reducible apply State.bump_keeps

theorem State.acceptRecord_keeps {s0 s : State} {x1 x2} (h : Keeps s0 s) :
    Keeps s0 (State.acceptRecord s x1 x2) := by
  unfold State.acceptRecord; try dsimp only
  repeat' first | with_reducible assumption | with_reducible rfl | (intro _) | with_reducible apply Keeps.ite
                | with_reducible apply Keeps.ite_fst | with_reducible apply State.storeBlock_keeps
                | with_reducible apply State.zeroBlock_keeps | with_reducible apply State.forgetBlock_keeps
                | with_reducible apply State.settle_keeps | with_reducible apply State.bump_keeps

theorem State.endCarrier_keeps {s0 s : State} {x1} (h : Keeps s0 s) :
    Keeps s0 (State.endCarrier s x1) := by
  unfold State.endCarrier; try dsimp only
  repeat' first | with_reducible assumption | with_reducible rfl | (intro _) | with_reducible apply Keeps.ite
                | with_reducible apply Keeps.ite_fst | with_reducible apply State.finishDesc_keeps
                | with_reducible apply State.updMem_keeps | with_reducible apply State.updFn_keeps
                | with_reducible apply Keeps.foldl | with_reducible apply Keeps.foldl_fst
                | (refine Keeps.of_fst ?_ (by with_reducible assumption)) | split

theorem State.streamDone_keeps {s0 s : State} {x1} (h : Keeps s0 s) :
    Keeps s0 (State.streamDone s x1) := by
  unfold State.streamDone; try dsimp only
  repeat' first | with_reducible assumption | with_reducible rfl | (intro _) | with_reducible apply Keeps.ite
                | with_reducible apply Keeps.ite_fst | with_reducible apply State.endCarrier_keeps
                | with_reducible apply Keeps.foldl | with_reducible apply Keeps.foldl_fst
                | (refine Keeps.of_fst ?_ (by with_reducible assumption)) | split

theorem State.ingestOne_keeps {s0 s : State} {x1} (h : Keeps s0 s) :
    Keeps s0 (State.ingestOne s x1) := by
  unfold State.ingestOne; try dsimp only
  repeat' first | with_reducible assumption | with_reducible rfl | (intro _) | with_reducible apply Keeps.ite
                | with_reducible apply Keeps.ite_fst | with_reducible apply State.acceptRecord_keeps
                | with_reducible apply State.refuseRecord_keeps | with_reducible apply State.checkRecord_keeps
                | with_reducible apply State.updStream_keeps | with_reducible apply Keeps.foldl
                | with_reducible apply Keeps.foldl_fst | (refine Keeps.of_fst ?_ (by with_reducible assumption)) | split

theorem State.writeMovCtl_keeps {s0 s : State} {x1 x2 x3} (h : Keeps s0 s) :
    Keeps s0 (State.writeMovCtl s x1 x2 x3) := by
  unfold State.writeMovCtl; try dsimp only
  repeat' first | with_reducible assumption | with_reducible rfl | (intro _) | with_reducible apply Keeps.ite
                | with_reducible apply Keeps.ite_fst | with_reducible apply State.fetchNext_keeps
                | with_reducible apply State.updEngine_keeps | with_reducible apply State.updFn_keeps
                | with_reducible apply Keeps.foldl | with_reducible apply Keeps.foldl_fst
                | (refine Keeps.of_fst ?_ (by with_reducible assumption)) | split

theorem State.beginDesc_keeps {s0 s : State} {x1 x2} (h : Keeps s0 s) :
    Keeps s0 (State.beginDesc s x1 x2) := by
  unfold State.beginDesc; try dsimp only
  repeat' first | with_reducible assumption | with_reducible rfl | (intro _) | with_reducible apply Keeps.ite
                | with_reducible apply Keeps.ite_fst | with_reducible apply State.updEngine_keeps

theorem State.takeBuffer_keeps {s0 s : State} {x1 x2 x3 x4} (h : Keeps s0 s) :
    Keeps s0 (State.takeBuffer s x1 x2 x3 x4).1 := by
  unfold State.takeBuffer; try dsimp only
  repeat' first | with_reducible assumption | with_reducible rfl | (intro _) | with_reducible apply Keeps.ite
                | with_reducible apply Keeps.ite_fst | with_reducible apply State.readSram_keeps

theorem State.updRead_keeps {s0 s : State} {x1 x2 x3} (h : Keeps s0 s) :
    Keeps s0 (State.updRead s x1 x2 x3) := by
  unfold State.updRead; try dsimp only
  repeat' first | with_reducible assumption | with_reducible rfl | (intro _) | with_reducible apply Keeps.ite
                | with_reducible apply Keeps.ite_fst | with_reducible apply State.updFn_keeps

theorem State.dropRead_keeps {s0 s : State} {x1 x2} (h : Keeps s0 s) :
    Keeps s0 (State.dropRead s x1 x2) := by
  unfold State.dropRead; try dsimp only
  repeat' first | with_reducible assumption | with_reducible rfl | (intro _) | with_reducible apply Keeps.ite
                | with_reducible apply Keeps.ite_fst | with_reducible apply State.updFn_keeps

theorem State.ingestAll_keeps {s0 s : State} {x1 x2} (h : Keeps s0 s) :
    Keeps s0 (State.ingestAll x1 x2 s) := by
  induction x2 generalizing s with
  | zero => unfold State.ingestAll; exact h
  | succ _ ih =>
    unfold State.ingestAll; try dsimp only
    repeat' first | with_reducible apply ih | with_reducible assumption | with_reducible rfl | (intro _)
                  | with_reducible apply Keeps.ite | with_reducible apply Keeps.ite_fst
                  | with_reducible apply State.ingestOne_keeps

theorem State.failRead_keeps {s0 s : State} {x1 x2 x3} (h : Keeps s0 s) :
    Keeps s0 (State.failRead s x1 x2 x3) := by
  unfold State.failRead; try dsimp only
  repeat' first | with_reducible assumption | with_reducible rfl | (intro _) | with_reducible apply Keeps.ite
                | with_reducible apply Keeps.ite_fst | with_reducible apply State.ingestAll_keeps
                | with_reducible apply State.finishDesc_keeps | with_reducible apply State.updEngine_keeps
                | with_reducible apply State.updMem_keeps | with_reducible apply State.updFn_keeps
                | with_reducible apply Keeps.foldl | with_reducible apply Keeps.foldl_fst
                | (refine Keeps.of_fst ?_ (by with_reducible assumption)) | split

theorem State.writeLines_keeps {s0 s : State} {x1 x2 x3 x4} (h : Keeps s0 s) :
    Keeps s0 (State.writeLines s x1 x2 x3 x4) := by
  unfold State.writeLines; try dsimp only
  repeat' first | with_reducible assumption | with_reducible rfl | (intro _) | with_reducible apply Keeps.ite
                | with_reducible apply Keeps.ite_fst | with_reducible apply State.takeBuffer_keeps
                | with_reducible apply State.serveWrite_keeps | with_reducible apply State.updEngine_keeps
                | with_reducible apply Keeps.foldl | with_reducible apply Keeps.foldl_fst
                | (refine Keeps.of_fst ?_ (by with_reducible assumption)) | split

theorem State.feedStream_keeps {s0 s : State} {x1 x2 x3} (h : Keeps s0 s) :
    Keeps s0 (State.feedStream x1 x2 x3 s) := by
  induction x3 generalizing s with
  | zero => unfold State.feedStream; exact h
  | succ _ ih =>
    unfold State.feedStream; try dsimp only
    repeat' first | with_reducible apply ih | with_reducible assumption | with_reducible rfl | (intro _)
                  | with_reducible apply Keeps.ite | with_reducible apply Keeps.ite_fst
                  | with_reducible apply State.dropRead_keeps | with_reducible apply State.takeBuffer_keeps
                  | with_reducible apply State.updStream_keeps | with_reducible apply State.updEngine_keeps
                  | with_reducible apply State.bump_keeps | with_reducible apply Keeps.foldl
                  | with_reducible apply Keeps.foldl_fst | (refine Keeps.of_fst ?_ (by with_reducible assumption)) | split

theorem State.wholeStream_keeps {s0 s : State} {x1 x2 x3} (h : Keeps s0 s) :
    Keeps s0 (State.wholeStream s x1 x2 x3) := by
  unfold State.wholeStream; try dsimp only
  repeat' first | with_reducible assumption | with_reducible rfl | (intro _) | with_reducible apply Keeps.ite
                | with_reducible apply Keeps.ite_fst | with_reducible apply State.streamDone_keeps
                | with_reducible apply State.updStream_keeps | with_reducible apply Keeps.foldl
                | with_reducible apply Keeps.foldl_fst | (refine Keeps.of_fst ?_ (by with_reducible assumption)) | split

theorem State.readArrives_keeps {s0 s : State} {x1 x2 x3 x4 x5} (h : Keeps s0 s) :
    Keeps s0 (State.readArrives s x1 x2 x3 x4 x5) := by
  unfold State.readArrives; try dsimp only
  repeat' first | with_reducible assumption | with_reducible rfl | (intro _) | with_reducible apply Keeps.ite
                | with_reducible apply Keeps.ite_fst | with_reducible apply State.wholeStream_keeps
                | with_reducible apply State.feedStream_keeps | with_reducible apply State.writeLines_keeps
                | with_reducible apply State.dropRead_keeps | with_reducible apply State.updRead_keeps
                | with_reducible apply State.takeBuffer_keeps | with_reducible apply State.updStream_keeps
                | with_reducible apply State.issueReads_keeps | with_reducible apply State.updEngine_keeps
                | with_reducible apply Keeps.foldl | with_reducible apply Keeps.foldl_fst
                | (refine Keeps.of_fst ?_ (by with_reducible assumption)) | split

theorem State.useTags_keeps {s0 s : State} {x1} (h : Keeps s0 s) :
    Keeps s0 (State.useTags s x1) := by
  unfold State.useTags; try dsimp only
  repeat' first | with_reducible assumption | with_reducible rfl | (intro _) | with_reducible apply Keeps.ite
                | with_reducible apply Keeps.ite_fst | with_reducible apply State.fetchNext_keeps
                | with_reducible apply State.issueReads_keeps | with_reducible apply Keeps.foldl

end Sys2Proof.Machine
end

