-- ==== Sys2Proof/Laws/KeepsSteward.lean ====
section
/-! SUPPORT. What the operations over power, editions, boot, channel events and jobs keep (`Keeps`): the queue, the assembly, and sound memory. -/

namespace Sys2Proof.Machine

theorem State.takePower_keeps {s0 s : State} (h : Keeps s0 s) :
    Keeps s0 (State.takePower s) := by
  unfold State.takePower; try dsimp only
  repeat' first | with_reducible assumption | with_reducible rfl | (intro _) | with_reducible apply Keeps.ite
                | with_reducible apply Keeps.ite_fst | with_reducible apply Keeps.foldl | with_reducible apply Keeps.foldl_fst
                | (simp only [Keeps.mk_eq]; with_reducible apply KeepsMk.of)

theorem State.setVdd_keeps {s0 s : State} {x1 x2} (h : Keeps s0 s) :
    Keeps s0 (State.setVdd s x1 x2) := by
  unfold State.setVdd; try dsimp only
  repeat' first | with_reducible assumption | with_reducible rfl | (intro _) | with_reducible apply Keeps.ite
                | with_reducible apply Keeps.ite_fst | with_reducible apply State.send_keeps
                | with_reducible apply State.updDie_keeps | with_reducible apply Keeps.foldl
                | with_reducible apply Keeps.foldl_fst | (refine Keeps.of_fst ?_ (by with_reducible assumption)) | split

theorem State.slowWing_keeps {s0 s : State} {x1} (h : Keeps s0 s) :
    Keeps s0 (State.slowWing s x1) := by
  unfold State.slowWing; try dsimp only
  repeat' first | with_reducible assumption | with_reducible rfl | (intro _) | with_reducible apply Keeps.ite
                | with_reducible apply Keeps.ite_fst | with_reducible apply State.updPw_keeps
                | with_reducible apply State.watermark_keeps | with_reducible apply State.updDie_keeps
                | with_reducible apply Keeps.foldl | with_reducible apply Keeps.foldl_fst
                | (refine Keeps.of_fst ?_ (by with_reducible assumption)) | split

theorem State.roundWing_keeps {s0 s : State} {x1} (h : Keeps s0 s) :
    Keeps s0 (State.roundWing s x1) := by
  unfold State.roundWing; try dsimp only
  repeat' first | with_reducible assumption | with_reducible rfl | (intro _) | with_reducible apply Keeps.ite
                | with_reducible apply Keeps.ite_fst | with_reducible apply State.slowWing_keeps
                | with_reducible apply State.setVdd_keeps | with_reducible apply State.resume_keeps
                | with_reducible apply State.watermark_keeps | with_reducible apply State.updDie_keeps
                | with_reducible apply Keeps.foldl | with_reducible apply Keeps.foldl_fst
                | (refine Keeps.of_fst ?_ (by with_reducible assumption)) | split

theorem State.orderFreq_keeps {s0 s : State} {x1} (h : Keeps s0 s) :
    Keeps s0 (State.orderFreq s x1) := by
  unfold State.orderFreq; try dsimp only
  repeat' first | with_reducible assumption | with_reducible rfl | (intro _) | with_reducible apply Keeps.ite
                | with_reducible apply Keeps.ite_fst | with_reducible apply State.updPw_keeps
                | with_reducible apply State.startFreq_keeps

theorem State.setStage_keeps {s0 s : State} {x1 x2} (h : Keeps s0 s) :
    Keeps s0 (State.setStage s x1 x2) := by
  unfold State.setStage; try dsimp only
  repeat' first | with_reducible assumption | with_reducible rfl | (intro _) | with_reducible apply Keeps.ite
                | with_reducible apply Keeps.ite_fst | with_reducible apply State.orderFreq_keeps
                | with_reducible apply State.updPw_keeps | with_reducible apply State.watermark_keeps
                | with_reducible apply State.bump_keeps

theorem State.moveStage_keeps {s0 s : State} (h : Keeps s0 s) :
    Keeps s0 (State.moveStage s) := by
  unfold State.moveStage; try dsimp only
  repeat' first | with_reducible assumption | with_reducible rfl | (intro _) | with_reducible apply Keeps.ite
                | with_reducible apply Keeps.ite_fst | with_reducible apply State.setStage_keeps

theorem State.thermal_keeps {s0 s : State} (h : Keeps s0 s) :
    Keeps s0 (State.thermal s) := by
  unfold State.thermal; try dsimp only
  repeat' first | with_reducible assumption | with_reducible rfl | (intro _) | with_reducible apply Keeps.ite
                | with_reducible apply Keeps.ite_fst | with_reducible apply State.resume_keeps
                | with_reducible apply State.suspend_keeps

theorem State.railFault_keeps {s0 s : State} {x1 x2} (h : Keeps s0 s) :
    Keeps s0 (State.railFault s x1 x2) := by
  unfold State.railFault; try dsimp only
  repeat' first | with_reducible assumption | with_reducible rfl | (intro _) | with_reducible apply Keeps.ite
                | with_reducible apply Keeps.ite_fst | with_reducible apply State.emergency_keeps
                | with_reducible apply State.isolateWing_keeps | with_reducible apply State.event_keeps

theorem State.readRail_keeps {s0 s : State} {x1} (h : Keeps s0 s) :
    Keeps s0 (State.readRail s x1) := by
  unfold State.readRail; try dsimp only
  repeat' first | with_reducible assumption | with_reducible rfl | (intro _) | with_reducible apply Keeps.ite
                | with_reducible apply Keeps.ite_fst | with_reducible apply State.updPw_keeps

theorem State.stewardFallback_keeps {s0 s : State} (h : Keeps s0 s) :
    Keeps s0 (State.stewardFallback s) := by
  unfold State.stewardFallback; try dsimp only
  repeat' first | with_reducible assumption | with_reducible rfl | (intro _) | with_reducible apply Keeps.ite
                | with_reducible apply Keeps.ite_fst | with_reducible apply State.setStage_keeps
                | with_reducible apply State.setVdd_keeps | with_reducible apply State.suspend_keeps
                | with_reducible apply State.updPw_keeps | with_reducible apply Keeps.foldl

theorem State.retrainDie_keeps {s0 s : State} {x1} (h : Keeps s0 s) :
    Keeps s0 (State.retrainDie s x1) := by
  unfold State.retrainDie; try dsimp only
  repeat' first | with_reducible assumption | with_reducible rfl | (intro _) | with_reducible apply Keeps.ite
                | with_reducible apply Keeps.ite_fst | with_reducible apply State.retrain_keeps
                | with_reducible apply Keeps.foldl | with_reducible apply Keeps.foldl_fst
                | (refine Keeps.of_fst ?_ (by with_reducible assumption)) | split

theorem State.holdover_keeps {s0 s : State} {x1} (h : Keeps s0 s) :
    Keeps s0 (State.holdover s x1) := by
  unfold State.holdover; try dsimp only
  repeat' first | with_reducible assumption | with_reducible rfl | (intro _) | with_reducible apply Keeps.ite
                | with_reducible apply Keeps.ite_fst | with_reducible apply Keeps.ite_snd
                | with_reducible apply State.setUncertain_keeps | with_reducible apply State.draw_keeps
                | with_reducible apply Keeps.foldl | with_reducible apply Keeps.foldl_fst
                | (refine Keeps.of_fst ?_ (by with_reducible assumption)) | split

theorem State.relock_keeps {s0 s : State} {x1 x2} (h : Keeps s0 s) :
    Keeps s0 (State.relock s x1 x2) := by
  unfold State.relock; try dsimp only
  repeat' first | with_reducible assumption | with_reducible rfl | (intro _) | with_reducible apply Keeps.ite
                | with_reducible apply Keeps.ite_fst | with_reducible apply State.updPw_keeps

theorem State.pllFails_keeps {s0 s : State} {x1 x2} (h : Keeps s0 s) :
    Keeps s0 (State.pllFails s x1 x2) := by
  unfold State.pllFails; try dsimp only
  repeat' first | with_reducible assumption | with_reducible rfl | (intro _) | with_reducible apply Keeps.ite
                | with_reducible apply Keeps.ite_fst | with_reducible apply State.stewardFallback_keeps
                | with_reducible apply State.dropLink_keeps | with_reducible apply State.emergency_keeps
                | with_reducible apply State.suspend_keeps | with_reducible apply State.linkDown_keeps
                | with_reducible apply State.isolateWing_keeps | with_reducible apply Keeps.foldl
                | with_reducible apply Keeps.foldl_fst | (refine Keeps.of_fst ?_ (by with_reducible assumption)) | split

theorem State.oneChannel_keeps {s0 s : State} {x1} (h : Keeps s0 s) :
    Keeps s0 (State.oneChannel s x1) := by
  unfold State.oneChannel; try dsimp only
  repeat' first | with_reducible assumption | with_reducible rfl | (intro _) | with_reducible apply Keeps.ite
                | with_reducible apply Keeps.ite_fst | with_reducible apply State.updPw_keeps

theorem State.expireLease_keeps {s0 s : State} (h : Keeps s0 s) :
    Keeps s0 (State.expireLease s) := by
  unfold State.expireLease; try dsimp only
  repeat' first | with_reducible assumption | with_reducible rfl | (intro _) | with_reducible apply Keeps.ite
                | with_reducible apply Keeps.ite_fst | with_reducible apply State.breakKey_keeps

theorem State.renewLease_keeps {s0 s : State} {x1} (h : Keeps s0 s) :
    Keeps s0 (State.renewLease s x1) := by
  unfold State.renewLease; try dsimp only
  repeat' first | with_reducible assumption | with_reducible rfl | (intro _) | with_reducible apply Keeps.ite
                | with_reducible apply Keeps.ite_fst | with_reducible apply State.updEd_keeps

theorem State.takeEntry_keeps {s0 s : State} {x1} (h : Keeps s0 s) :
    ∀ t, State.takeEntry s x1 = .ok t → Keeps s0 t := by
  intro t e; unfold State.takeEntry at e; try dsimp only at e
  repeat' split at e
  all_goals first | (cases e; done) | (injection e with e; subst e) | skip
  all_goals try dsimp only
  all_goals repeat' first | with_reducible assumption | with_reducible rfl | (intro _) | with_reducible apply Keeps.ite
                          | with_reducible apply Keeps.ite_fst | with_reducible apply State.updEd_keeps

theorem State.releaseEntry_keeps {s0 s : State} {x1} (h : Keeps s0 s) :
    ∀ t, State.releaseEntry s x1 = .ok t → Keeps s0 t := by
  intro t e; unfold State.releaseEntry at e; try dsimp only at e
  repeat' split at e
  all_goals first | (cases e; done) | (injection e with e; subst e) | skip
  all_goals try dsimp only
  all_goals repeat' first | with_reducible assumption | with_reducible rfl | (intro _) | with_reducible apply Keeps.ite
                          | with_reducible apply Keeps.ite_fst | with_reducible apply State.breakKey_keeps

theorem State.stage_keeps {s0 s : State} {x1} (h : Keeps s0 s) :
    Keeps s0 (State.stage s x1) := by
  unfold State.stage; try dsimp only
  repeat' first | with_reducible assumption | with_reducible rfl | (intro _) | with_reducible apply Keeps.ite
                | with_reducible apply Keeps.ite_fst | with_reducible apply State.updEd_keeps

theorem State.beginActiveEntry_keeps {s0 s : State} (h : Keeps s0 s) :
    ∀ t, State.beginActiveEntry s = .ok t → Keeps s0 t := by
  intro t e; unfold State.beginActiveEntry at e; try dsimp only at e
  repeat' split at e
  all_goals first | (cases e; done) | (injection e with e; subst e) | skip
  all_goals try dsimp only
  all_goals repeat' first | with_reducible assumption | with_reducible rfl | (intro _) | with_reducible apply Keeps.ite
                          | with_reducible apply Keeps.ite_fst | with_reducible apply State.stage_keeps

theorem State.beginPreviousEntry_keeps {s0 s : State} (h : Keeps s0 s) :
    ∀ t, State.beginPreviousEntry s = .ok t → Keeps s0 t := by
  intro t e; unfold State.beginPreviousEntry at e; try dsimp only at e
  repeat' split at e
  all_goals first | (cases e; done) | (injection e with e; subst e) | skip
  all_goals try dsimp only
  all_goals repeat' first | with_reducible assumption | with_reducible rfl | (intro _) | with_reducible apply Keeps.ite
                          | with_reducible apply Keeps.ite_fst | with_reducible apply State.stage_keeps

theorem State.validateEntry_keeps {s0 s : State} (h : Keeps s0 s) :
    ∀ t, State.validateEntry s = .ok t → Keeps s0 t := by
  intro t e; unfold State.validateEntry at e; try dsimp only at e
  repeat' split at e
  all_goals first | (cases e; done) | (injection e with e; subst e) | skip
  all_goals try dsimp only
  all_goals repeat' first | with_reducible assumption | with_reducible rfl | (intro _) | with_reducible apply Keeps.ite
                          | with_reducible apply Keeps.ite_fst | with_reducible apply State.updEd_keeps

theorem State.discardEntry_keeps {s0 s : State} (h : Keeps s0 s) :
    ∀ t, State.discardEntry s = .ok t → Keeps s0 t := by
  intro t e; unfold State.discardEntry at e; try dsimp only at e
  repeat' split at e
  all_goals first | (cases e; done) | (injection e with e; subst e) | skip
  all_goals try dsimp only
  all_goals repeat' first | with_reducible assumption | with_reducible rfl | (intro _) | with_reducible apply Keeps.ite
                          | with_reducible apply Keeps.ite_fst | with_reducible apply State.updEd_keeps

theorem State.confirmEntry_keeps {s0 s : State} (h : Keeps s0 s) :
    ∀ t, State.confirmEntry s = .ok t → Keeps s0 t := by
  intro t e; unfold State.confirmEntry at e; try dsimp only at e
  repeat' split at e
  all_goals first | (cases e; done) | (injection e with e; subst e) | skip
  all_goals try dsimp only
  all_goals repeat' first | with_reducible assumption | with_reducible rfl | (intro _) | with_reducible apply Keeps.ite
                          | with_reducible apply Keeps.ite_fst | with_reducible apply State.updEd_keeps

theorem State.editionEntry_keeps {s0 s : State} {x1} (h : Keeps s0 s) :
    ∀ t, State.editionEntry s x1 = .ok t → Keeps s0 t := by
  intro t e; unfold State.editionEntry at e; try dsimp only at e
  repeat' split at e
  all_goals first | (cases e; done) | (injection e with e; subst e) | skip
  all_goals try dsimp only
  all_goals repeat' first | with_reducible assumption | with_reducible rfl | (intro _) | with_reducible apply Keeps.ite
                          | with_reducible apply Keeps.ite_fst
                          | (refine State.confirmEntry_keeps ?_ _ (by with_reducible assumption))
                          | (refine State.discardEntry_keeps ?_ _ (by with_reducible assumption))
                          | (refine State.validateEntry_keeps ?_ _ (by with_reducible assumption))
                          | (refine State.beginPreviousEntry_keeps ?_ _ (by with_reducible assumption))
                          | (refine State.beginActiveEntry_keeps ?_ _ (by with_reducible assumption))

theorem State.endValidation_keeps {s0 s : State} (h : Keeps s0 s) :
    Keeps s0 (State.endValidation s) := by
  unfold State.endValidation; try dsimp only
  repeat' first | with_reducible assumption | with_reducible rfl | (intro _) | with_reducible apply Keeps.ite
                | with_reducible apply Keeps.ite_fst | with_reducible apply State.updEd_keeps
                | with_reducible apply State.event_keeps | with_reducible apply Keeps.foldl
                | with_reducible apply Keeps.foldl_fst | (refine Keeps.of_fst ?_ (by with_reducible assumption)) | split

theorem State.newKey_keeps {s0 s : State} (h : Keeps s0 s) :
    Keeps s0 (State.newKey s).2 := by
  unfold State.newKey; try dsimp only
  repeat' first | with_reducible assumption | with_reducible rfl | (intro _) | with_reducible apply Keeps.ite
                | with_reducible apply Keeps.ite_fst | with_reducible apply Keeps.ite_snd | with_reducible apply Keeps.foldl
                | with_reducible apply Keeps.foldl_fst | (simp only [Keeps.mk_eq]; with_reducible apply KeepsMk.of)

theorem State.sendKey_keeps {s0 s : State} {x1 x2 x3} (h : Keeps s0 s) :
    Keeps s0 (State.sendKey s x1 x2 x3) := by
  unfold State.sendKey; try dsimp only
  repeat' first | with_reducible assumption | with_reducible rfl | (intro _) | with_reducible apply Keeps.ite
                | with_reducible apply Keeps.ite_fst | with_reducible apply State.sendData_keeps
                | with_reducible apply Keeps.foldl | with_reducible apply Keeps.foldl_fst
                | (refine Keeps.of_fst ?_ (by with_reducible assumption)) | split

theorem State.prepareKeys_keeps {s0 s : State} {x1} (h : Keeps s0 s) :
    Keeps s0 (State.prepareKeys s x1) := by
  unfold State.prepareKeys; try dsimp only
  repeat' first | with_reducible assumption | with_reducible rfl | (intro _) | with_reducible apply Keeps.ite
                | with_reducible apply Keeps.ite_fst | with_reducible apply Keeps.ite_snd
                | with_reducible apply State.sendKey_keeps | with_reducible apply State.newKey_keeps
                | with_reducible apply State.updEd_keeps | with_reducible apply Keeps.foldl

theorem State.commitEntry_keeps {s0 s : State} {x1} (h : Keeps s0 s) :
    ∀ t, State.commitEntry s x1 = .ok t → Keeps s0 t := by
  intro t e; unfold State.commitEntry at e; try dsimp only at e
  repeat' split at e
  all_goals first | (cases e; done) | (injection e with e; subst e) | skip
  all_goals try dsimp only
  all_goals repeat' first | with_reducible assumption | with_reducible rfl | (intro _) | with_reducible apply Keeps.ite
                          | with_reducible apply Keeps.ite_fst | with_reducible apply State.prepareKeys_keeps
                          | with_reducible apply State.updEd_keeps

theorem State.collKey_keeps {s0 s : State} {x1 x2} (h : Keeps s0 s) :
    Keeps s0 (State.collKey s x1 x2).2 := by
  unfold State.collKey; try dsimp only
  repeat' first | with_reducible assumption | with_reducible rfl | (intro _) | with_reducible apply Keeps.ite
                | with_reducible apply Keeps.ite_fst | with_reducible apply Keeps.ite_snd
                | with_reducible apply State.sendKey_keeps | with_reducible apply State.newKey_keeps
                | with_reducible apply State.updEd_keeps | with_reducible apply Keeps.foldl
                | with_reducible apply Keeps.foldl_fst | (refine Keeps.of_fst ?_ (by with_reducible assumption)) | split

theorem State.createColl_keeps {s0 s : State} {x1} (h : Keeps s0 s) :
    Keeps s0 (State.createColl s x1) := by
  unfold State.createColl; try dsimp only
  repeat' first | with_reducible assumption | with_reducible rfl | (intro _) | with_reducible apply Keeps.ite
                | with_reducible apply Keeps.ite_fst | with_reducible apply Keeps.ite_snd
                | with_reducible apply State.collKey_keeps | with_reducible apply State.updMem_keeps
                | with_reducible apply Keeps.foldl | with_reducible apply Keeps.foldl_fst
                | (simp only [Keeps.mk_eq]; with_reducible apply KeepsMk.of)

theorem State.destroyColl_keeps {s0 s : State} {x1 x2} (h : Keeps s0 s) :
    Keeps s0 (State.destroyColl s x1 x2) := by
  unfold State.destroyColl; try dsimp only
  repeat' first | with_reducible assumption | with_reducible rfl | (intro _) | with_reducible apply Keeps.ite
                | with_reducible apply Keeps.ite_fst | with_reducible apply State.withdraw_keeps
                | with_reducible apply State.clearTiles_keeps | with_reducible apply State.updMem_keeps
                | with_reducible apply Keeps.foldl

theorem State.syncExtents_keeps {s0 s : State} {x1} (h : Keeps s0 s) :
    Keeps s0 (State.syncExtents s x1) := by
  unfold State.syncExtents; try dsimp only
  repeat' first | with_reducible assumption | with_reducible rfl | (intro _) | with_reducible apply Keeps.ite
                | with_reducible apply Keeps.ite_fst | with_reducible apply State.withdraw_keeps
                | with_reducible apply State.offer_keeps | with_reducible apply Keeps.foldl

theorem State.undoPin_keeps {s0 s : State} {x1} (h : Keeps s0 s) :
    Keeps s0 (State.undoPin s x1) := by
  unfold State.undoPin; try dsimp only
  repeat' first | with_reducible assumption | with_reducible rfl | (intro _) | with_reducible apply Keeps.ite
                | with_reducible apply Keeps.ite_fst | with_reducible apply State.updLot_keeps
                | with_reducible apply State.updMem_keeps | with_reducible apply Keeps.foldl

theorem State.abortCmd_keeps {s0 s : State} {x1} (h : Keeps s0 s) :
    Keeps s0 (State.abortCmd s x1) := by
  unfold State.abortCmd; try dsimp only
  repeat' first | with_reducible assumption | with_reducible rfl | (intro _) | with_reducible apply Keeps.ite
                | with_reducible apply Keeps.ite_fst | with_reducible apply State.undoPin_keeps
                | with_reducible apply State.undoFork_keeps | with_reducible apply State.endCmd_keeps
                | with_reducible apply Keeps.foldl

theorem State.commitJobs_keeps {s0 s : State} {x1 x2} (h : Keeps s0 s) :
    Keeps s0 (State.commitJobs s x1 x2) := by
  unfold State.commitJobs; try dsimp only
  repeat' first | with_reducible assumption | with_reducible rfl | (intro _) | with_reducible apply Keeps.ite
                | with_reducible apply Keeps.ite_fst | with_reducible apply State.abortJob_keeps
                | with_reducible apply Keeps.foldl

theorem State.trimLoans_keeps {s0 s : State} (h : Keeps s0 s) :
    Keeps s0 (State.trimLoans s) := by
  unfold State.trimLoans; try dsimp only
  repeat' first | with_reducible assumption | with_reducible rfl | (intro _) | with_reducible apply Keeps.ite
                | with_reducible apply Keeps.ite_fst | with_reducible apply State.updMem_keeps

theorem State.trimCaches_keeps {s0 s : State} (h : Keeps s0 s) :
    Keeps s0 (State.trimCaches s) := by
  unfold State.trimCaches; try dsimp only
  repeat' first | with_reducible assumption | with_reducible rfl | (intro _) | with_reducible apply Keeps.ite
                | with_reducible apply Keeps.ite_fst | with_reducible apply State.makeRoom_keeps
                | with_reducible apply Keeps.foldl

theorem State.trimPins_keeps {s0 s : State} (h : Keeps s0 s) :
    Keeps s0 (State.trimPins s) := by
  unfold State.trimPins; try dsimp only
  repeat' first | with_reducible assumption | with_reducible rfl | (intro _) | with_reducible apply Keeps.ite
                | with_reducible apply Keeps.ite_fst | with_reducible apply State.updMem_keeps

theorem State.syncFreq_keeps {s0 s : State} {x1} (h : Keeps s0 s) :
    Keeps s0 (State.syncFreq s x1) := by
  unfold State.syncFreq; try dsimp only
  repeat' first | with_reducible assumption | with_reducible rfl | (intro _) | with_reducible apply Keeps.ite
                | with_reducible apply Keeps.ite_fst | with_reducible apply State.orderFreq_keeps

theorem State.clearPools_keeps {s0 s : State} {x1} (h : Keeps s0 s) :
    Keeps s0 (State.clearPools s x1) := by
  unfold State.clearPools; try dsimp only
  repeat' first | with_reducible assumption | with_reducible rfl | (intro _) | with_reducible apply Keeps.ite
                | with_reducible apply Keeps.ite_fst | with_reducible apply State.dropRange_keeps
                | with_reducible apply State.updMem_keeps | with_reducible apply Keeps.foldl
                | with_reducible apply Keeps.foldl_fst | (refine Keeps.of_fst ?_ (by with_reducible assumption)) | split

theorem State.applyFast_keeps {s0 s : State} {x1 x2} (h : Keeps s0 s) :
    Keeps s0 (State.applyFast s x1 x2) := by
  unfold State.applyFast; try dsimp only
  repeat' first | with_reducible assumption | with_reducible rfl | (intro _) | with_reducible apply Keeps.ite
                | with_reducible apply Keeps.ite_fst | with_reducible apply State.clearPools_keeps
                | with_reducible apply State.syncFreq_keeps | with_reducible apply State.trimPins_keeps
                | with_reducible apply State.trimCaches_keeps | with_reducible apply State.trimLoans_keeps
                | with_reducible apply State.commitJobs_keeps | with_reducible apply State.abortCmd_keeps
                | with_reducible apply State.syncExtents_keeps | with_reducible apply State.destroyColl_keeps
                | with_reducible apply State.createColl_keeps | with_reducible apply State.updEd_keeps
                | with_reducible apply State.applyBindings_keeps | with_reducible apply State.rederiveAll_keeps
                | with_reducible apply State.settleBuckets_keeps | with_reducible apply State.settle_keeps
                | with_reducible apply Keeps.foldl

theorem State.resetEngines_keeps {s0 s : State} {x1} (h : Keeps s0 s) :
    Keeps s0 (State.resetEngines s x1) := by
  unfold State.resetEngines; try dsimp only
  repeat' first | with_reducible assumption | with_reducible rfl | (intro _) | with_reducible apply Keeps.ite
                | with_reducible apply Keeps.ite_fst | with_reducible apply Keeps.foldl | with_reducible apply Keeps.foldl_fst
                | (simp only [Keeps.mk_eq]; with_reducible apply KeepsMk.of)

theorem State.applySlow_keeps {s0 s : State} {x1} (h : Keeps s0 s) :
    Keeps s0 (State.applySlow s x1) := by
  unfold State.applySlow; try dsimp only
  repeat' first | with_reducible assumption | with_reducible rfl | (intro _) | with_reducible apply Keeps.ite
                | with_reducible apply Keeps.ite_fst | with_reducible apply State.resetEngines_keeps
                | with_reducible apply State.applyFast_keeps | with_reducible apply State.breakKey_keeps

theorem State.takeForce_keeps {s0 s : State} {x1 x2 x3 x4} (h : Keeps s0 s) :
    Keeps s0 (State.takeForce s x1 x2 x3 x4) := by
  unfold State.takeForce; try dsimp only
  repeat' first | with_reducible assumption | with_reducible rfl | (intro _) | with_reducible apply Keeps.ite
                | with_reducible apply Keeps.ite_fst | with_reducible apply State.updEd_keeps
                | with_reducible apply State.event_keeps

theorem State.reachInstant_keeps {s0 s : State} {x1 x2 x3} (h : Keeps s0 s) :
    Keeps s0 (State.reachInstant s x1 x2 x3) := by
  unfold State.reachInstant; try dsimp only
  repeat' first | with_reducible assumption | with_reducible rfl | (intro _) | with_reducible apply Keeps.ite
                | with_reducible apply Keeps.ite_fst | with_reducible apply State.takeForce_keeps
                | with_reducible apply State.applyFast_keeps | with_reducible apply State.updEd_keeps

theorem State.swapWhole_keeps {s0 s : State} {x1 x2 x3} (h : Keeps s0 s) :
    Keeps s0 (State.swapWhole s x1 x2 x3) := by
  unfold State.swapWhole; try dsimp only
  repeat' first | with_reducible assumption | with_reducible rfl | (intro _) | with_reducible apply Keeps.ite
                | with_reducible apply Keeps.ite_fst | with_reducible apply State.takeForce_keeps
                | with_reducible apply State.applySlow_keeps | with_reducible apply State.updEd_keeps

theorem State.coldReset_keeps {s0 s : State} (h : Keeps s0 s) : Keeps s0 (State.coldReset s) :=
  h.trans ⟨rfl, rfl, rfl, rfl, rfl, rfl, fun x => x⟩

theorem State.dropCollections_keeps {s0 s : State} (h : Keeps s0 s) :
    Keeps s0 (State.dropCollections s) := by
  unfold State.dropCollections; try dsimp only
  repeat' first | with_reducible assumption | with_reducible rfl | (intro _) | with_reducible apply Keeps.ite
                | with_reducible apply Keeps.ite_fst | with_reducible apply State.updEd_keeps
                | with_reducible apply State.updMem_keeps

theorem State.retainDepot_keeps {s0 s : State} (h : Keeps s0 s) :
    Keeps s0 (State.retainDepot s) := by
  unfold State.retainDepot; try dsimp only
  repeat' first | with_reducible assumption | with_reducible rfl | (intro _) | with_reducible apply Keeps.ite
                | with_reducible apply Keeps.ite_fst | with_reducible apply State.updPkg_keeps
                | with_reducible apply State.updMem_keeps

theorem State.startUp_keeps {s0 s : State} {x1 x2} (h : Keeps s0 s) :
    Keeps s0 (State.startUp s x1 x2) := by
  unfold State.startUp; try dsimp only
  repeat' first | with_reducible assumption | with_reducible rfl | (intro _) | with_reducible apply Keeps.ite
                | with_reducible apply Keeps.ite_fst | with_reducible apply State.retainDepot_keeps
                | with_reducible apply State.dropCollections_keeps | with_reducible apply State.updPkg_keeps
                | with_reducible apply State.updEd_keeps | with_reducible apply Keeps.foldl
                | with_reducible apply Keeps.foldl_fst | (simp only [Keeps.mk_eq]; with_reducible apply KeepsMk.of)

theorem State.initChannels_keeps {s0 s : State} (h : Keeps s0 s) :
    Keeps s0 (State.initChannels s) := by
  unfold State.initChannels; try dsimp only
  repeat' first | with_reducible assumption | with_reducible rfl | (intro _) | with_reducible apply Keeps.ite
                | with_reducible apply Keeps.ite_fst | with_reducible apply Keeps.foldl | with_reducible apply Keeps.foldl_fst
                | (simp only [Keeps.mk_eq]; with_reducible apply KeepsMk.of)

theorem State.reserveKey_keeps {s0 s : State} {x1} (h : Keeps s0 s) :
    Keeps s0 (State.reserveKey s x1) := by
  unfold State.reserveKey; try dsimp only
  repeat' first | with_reducible assumption | with_reducible rfl | (intro _) | with_reducible apply Keeps.ite
                | with_reducible apply Keeps.ite_fst | with_reducible apply Keeps.ite_snd
                | with_reducible apply State.sendKey_keeps | with_reducible apply State.newKey_keeps
                | with_reducible apply State.updMem_keeps

theorem State.endFill_keeps {s0 s : State} (h : Keeps s0 s) :
    Keeps s0 (State.endFill s) := by
  unfold State.endFill; try dsimp only
  repeat' first | with_reducible assumption | with_reducible rfl | (intro _) | with_reducible apply Keeps.ite
                | with_reducible apply Keeps.ite_fst | with_reducible apply State.fillChannel_keeps
                | with_reducible apply State.updChan_keeps | with_reducible apply Keeps.foldl
                | with_reducible apply Keeps.foldl_fst | (simp only [Keeps.mk_eq]; with_reducible apply KeepsMk.of)

theorem State.bootEdition_keeps {s0 s : State} (h : Keeps s0 s) :
    Keeps s0 (State.bootEdition s) := by
  unfold State.bootEdition; try dsimp only
  repeat' first | with_reducible assumption | with_reducible rfl | (intro _) | with_reducible apply Keeps.ite
                | with_reducible apply Keeps.ite_fst | with_reducible apply State.applyFast_keeps
                | with_reducible apply State.updPkg_keeps | with_reducible apply State.updEd_keeps

theorem State.startPrograms_keeps {s0 s : State} (h : Keeps s0 s) :
    Keeps s0 (State.startPrograms s) := by
  unfold State.startPrograms; try dsimp only
  repeat' first | with_reducible assumption | with_reducible rfl | (intro _) | with_reducible apply Keeps.ite
                | with_reducible apply Keeps.ite_fst | with_reducible apply State.bootEdition_keeps
                | with_reducible apply State.startFill_keeps | with_reducible apply State.startRoles_keeps
                | with_reducible apply Keeps.foldl

theorem State.runFirmware_keeps {s0 s : State} {x1} (h : Keeps s0 s) :
    Keeps s0 (State.runFirmware s x1) := by
  unfold State.runFirmware; try dsimp only
  repeat' first | with_reducible assumption | with_reducible rfl | (intro _) | with_reducible apply Keeps.ite
                | with_reducible apply Keeps.ite_fst | with_reducible apply State.startPrograms_keeps
                | with_reducible apply State.initChannels_keeps | with_reducible apply State.updPkg_keeps
                | with_reducible apply State.sendHello_keeps | with_reducible apply State.updDie_keeps
                | with_reducible apply Keeps.foldl | with_reducible apply Keeps.foldl_fst
                | (simp only [Keeps.mk_eq]; with_reducible apply KeepsMk.of)

theorem State.restoreEdition_keeps {s0 s : State} (h : Keeps s0 s) :
    Keeps s0 (State.restoreEdition s) := by
  unfold State.restoreEdition; try dsimp only
  repeat' first | with_reducible assumption | with_reducible rfl | (intro _) | with_reducible apply Keeps.ite
                | with_reducible apply Keeps.ite_fst | with_reducible apply State.applySlow_keeps
                | with_reducible apply State.syncExtents_keeps | with_reducible apply State.updEd_keeps
                | with_reducible apply Keeps.foldl | with_reducible apply Keeps.foldl_fst
                | (refine Keeps.of_fst ?_ (by with_reducible assumption)) | split

theorem State.releaseWings_keeps {s0 s : State} (h : Keeps s0 s) :
    Keeps s0 (State.releaseWings s) := by
  unfold State.releaseWings; try dsimp only
  repeat' first | with_reducible assumption | with_reducible rfl | (intro _) | with_reducible apply Keeps.ite
                | with_reducible apply Keeps.ite_fst | with_reducible apply State.restoreEdition_keeps
                | with_reducible apply State.bootEdition_keeps | with_reducible apply State.endFill_keeps
                | with_reducible apply State.reserveKey_keeps | with_reducible apply State.updPkg_keeps
                | with_reducible apply State.startRoles_keeps | with_reducible apply State.rederiveAll_keeps
                | with_reducible apply State.rebind_keeps | with_reducible apply Keeps.foldl
                | with_reducible apply Keeps.foldl_fst | (simp only [Keeps.mk_eq]; with_reducible apply KeepsMk.of)

theorem State.splitStore_keeps {s0 s : State} {x1 x2 x3 x4 x5} (h : Keeps s0 s) :
    Keeps s0 (State.splitStore s x1 x2 x3 x4 x5) := by
  unfold State.splitStore; try dsimp only
  repeat' first | with_reducible assumption | with_reducible rfl | (intro _) | with_reducible apply Keeps.ite
                | with_reducible apply Keeps.ite_fst | with_reducible apply State.dropHeaders_keeps
                | with_reducible apply State.queueWrite_keeps

theorem State.alert_keeps {s0 s : State} {x1 x2 x3 x4 x5} (h : Keeps s0 s) :
    Keeps s0 (State.alert s x1 x2 x3 x4 x5) := by
  unfold State.alert; try dsimp only
  repeat' first | with_reducible assumption | with_reducible rfl | (intro _) | with_reducible apply Keeps.ite
                | with_reducible apply Keeps.ite_fst | with_reducible apply State.freeze_keeps
                | with_reducible apply State.bump_keeps | with_reducible apply Keeps.foldl
                | with_reducible apply Keeps.foldl_fst | (refine Keeps.of_fst ?_ (by with_reducible assumption)) | split

theorem State.launchJob_keeps {s0 s : State} {x1} (h : Keeps s0 s) :
    Keeps s0 (State.launchJob x1 s) := by
  unfold State.launchJob; try dsimp only
  repeat' first | with_reducible assumption | with_reducible rfl | (intro _) | with_reducible apply Keeps.ite
                | with_reducible apply Keeps.ite_fst | with_reducible apply State.endCmd_keeps
                | with_reducible apply State.putCmd_keeps

theorem State.refuseJob_keeps {s0 s : State} {x1 x2 x3} (h : Keeps s0 s) :
    Keeps s0 (State.refuseJob s x1 x2 x3) := by
  unfold State.refuseJob; try dsimp only
  repeat' first | with_reducible assumption | with_reducible rfl | (intro _) | with_reducible apply Keeps.ite
                | with_reducible apply Keeps.ite_fst | with_reducible apply State.endCmd_keeps
                | with_reducible apply State.bump_keeps

theorem State.admitJob_keeps {s0 s : State} {x1 x2 x3 x4 x5} (h : Keeps s0 s) :
    Keeps s0 (State.admitJob s x1 x2 x3 x4 x5) := by
  unfold State.admitJob; try dsimp only
  repeat' first | with_reducible assumption | with_reducible rfl | (intro _) | with_reducible apply Keeps.ite
                | with_reducible apply Keeps.ite_fst | with_reducible apply State.startJob_keeps
                | with_reducible apply State.jobWrite_keeps | with_reducible apply State.endCmd_keeps
                | with_reducible apply State.bump_keeps | with_reducible apply Keeps.foldl
                | with_reducible apply Keeps.foldl_fst | (simp only [Keeps.mk_eq]; with_reducible apply KeepsMk.of)

theorem State.decideJob_keeps {s0 s : State} {x1} (h : Keeps s0 s) :
    Keeps s0 (State.decideJob s x1) := by
  unfold State.decideJob; try dsimp only
  repeat' first | with_reducible assumption | with_reducible rfl | (intro _) | with_reducible apply Keeps.ite
                | with_reducible apply Keeps.ite_fst | with_reducible apply State.admitJob_keeps
                | with_reducible apply State.refuseJob_keeps | with_reducible apply State.linesNow_keeps
                | with_reducible apply State.endCmd_keeps | with_reducible apply Keeps.foldl
                | with_reducible apply Keeps.foldl_fst | (refine Keeps.of_fst ?_ (by with_reducible assumption)) | split

theorem State.checkBuffers_keeps {s0 s : State} {x1} (h : Keeps s0 s) :
    Keeps s0 (State.checkBuffers s x1) := by
  unfold State.checkBuffers; try dsimp only
  repeat' first | with_reducible assumption | with_reducible rfl | (intro _) | with_reducible apply Keeps.ite
                | with_reducible apply Keeps.ite_fst | with_reducible apply State.updJob_keeps
                | with_reducible apply State.event_keeps | with_reducible apply State.bump_keeps
                | with_reducible apply Keeps.foldl

theorem State.touchVectors_keeps {s0 s : State} {x1} (h : Keeps s0 s) :
    Keeps s0 (State.touchVectors s x1) := by
  unfold State.touchVectors; try dsimp only
  repeat' first | with_reducible assumption | with_reducible rfl | (intro _) | with_reducible apply Keeps.ite
                | with_reducible apply Keeps.ite_fst | with_reducible apply Keeps.foldl | with_reducible apply Keeps.foldl_fst
                | (simp only [Keeps.mk_eq]; with_reducible apply KeepsMk.of)

theorem State.abortEntry_keeps {s0 s : State} {x1} (h : Keeps s0 s) :
    ∀ t, State.abortEntry s x1 = .ok t → Keeps s0 t := by
  intro t e; unfold State.abortEntry at e; try dsimp only at e
  repeat' split at e
  all_goals first | (cases e; done) | (injection e with e; subst e) | skip
  all_goals try dsimp only
  all_goals repeat' first | with_reducible assumption | with_reducible rfl | (intro _) | with_reducible apply Keeps.ite
                          | with_reducible apply Keeps.ite_fst | with_reducible apply State.abortJob_keeps

end Sys2Proof.Machine
end

