-- ==== Sys2Proof/Laws/KeepsRequests.lean ====
section
/-! SUPPORT. What the operations over the dictionary, sessions, control entries, registers and the TAP keep (`Keeps`): the queue, the assembly, and sound memory. -/

namespace Sys2Proof.Machine

theorem State.setCursors_keeps {s0 s : State} {x1 x2} (h : Keeps s0 s) :
    Keeps s0 (State.setCursors s x1 x2) := by
  unfold State.setCursors; try dsimp only
  repeat' first | with_reducible assumption | with_reducible rfl | (intro _) | with_reducible apply Keeps.ite
                | with_reducible apply Keeps.ite_fst | with_reducible apply State.updEd_keeps

theorem State.updId_keeps {s0 s : State} {x1} (h : Keeps s0 s) :
    Keeps s0 (State.updId s x1) := by
  unfold State.updId; try dsimp only
  repeat' first | with_reducible assumption | with_reducible rfl | (intro _) | with_reducible apply Keeps.ite
                | with_reducible apply Keeps.ite_fst | with_reducible apply Keeps.foldl | with_reducible apply Keeps.foldl_fst
                | (simp only [Keeps.mk_eq]; with_reducible apply KeepsMk.of)

theorem State.flashEntry_keeps {s0 s : State} {x1} (h : Keeps s0 s) :
    ∀ t, State.flashEntry s x1 = .ok t → Keeps s0 t := by
  intro t e; unfold State.flashEntry at e; try dsimp only at e
  repeat' split at e
  all_goals first | (cases e; done) | (injection e with e; subst e) | skip
  all_goals try dsimp only
  all_goals repeat' first | with_reducible assumption | with_reducible rfl | (intro _) | with_reducible apply Keeps.ite
                          | with_reducible apply Keeps.ite_fst | with_reducible apply State.updId_keeps

theorem State.svnEntry_keeps {s0 s : State} (h : Keeps s0 s) :
    ∀ t, State.svnEntry s = .ok t → Keeps s0 t := by
  intro t e; unfold State.svnEntry at e; try dsimp only at e
  repeat' split at e
  all_goals first | (cases e; done) | (injection e with e; subst e) | skip
  all_goals try dsimp only
  all_goals repeat' first | with_reducible assumption | with_reducible rfl | (intro _) | with_reducible apply Keeps.ite
                          | with_reducible apply Keeps.ite_fst | with_reducible apply State.updId_keeps

theorem State.provisionEntry_keeps {s0 s : State} {x1 x2} (h : Keeps s0 s) :
    ∀ t, State.provisionEntry s x1 x2 = .ok t → Keeps s0 t := by
  intro t e; unfold State.provisionEntry at e; try dsimp only at e
  repeat' split at e
  all_goals first | (cases e; done) | (injection e with e; subst e) | skip
  all_goals try dsimp only
  all_goals repeat' first | with_reducible assumption | with_reducible rfl | (intro _) | with_reducible apply Keeps.ite
                          | with_reducible apply Keeps.ite_fst | with_reducible apply State.updId_keeps

theorem State.makeNonce_keeps {s0 s : State} (h : Keeps s0 s) :
    Keeps s0 (State.makeNonce s) := by
  unfold State.makeNonce; try dsimp only
  repeat' first | with_reducible assumption | with_reducible rfl | (intro _) | with_reducible apply Keeps.ite
                | with_reducible apply Keeps.ite_fst | with_reducible apply Keeps.ite_snd
                | with_reducible apply State.updId_keeps | with_reducible apply State.draw_keeps

theorem State.refuseDebug_keeps {s0 s : State} (h : Keeps s0 s) :
    Keeps s0 (State.refuseDebug s) := by
  unfold State.refuseDebug; try dsimp only
  repeat' first | with_reducible assumption | with_reducible rfl | (intro _) | with_reducible apply Keeps.ite
                | with_reducible apply Keeps.ite_fst | with_reducible apply State.updId_keeps

theorem State.debugResponse_keeps {s0 s : State} {x1} (h : Keeps s0 s) :
    Keeps s0 (State.debugResponse s x1) := by
  unfold State.debugResponse; try dsimp only
  repeat' first | with_reducible assumption | with_reducible rfl | (intro _) | with_reducible apply Keeps.ite
                | with_reducible apply Keeps.ite_fst | with_reducible apply State.refuseDebug_keeps
                | with_reducible apply State.updId_keeps

theorem State.eraseKeys_keeps {s0 s : State} {x1} (h : Keeps s0 s) :
    Keeps s0 (State.eraseKeys s x1) := by
  unfold State.eraseKeys; try dsimp only
  repeat' first | with_reducible assumption | with_reducible rfl | (intro _) | with_reducible apply Keeps.ite
                | with_reducible apply Keeps.ite_fst | with_reducible apply State.updMem_keeps
                | with_reducible apply Keeps.foldl | with_reducible apply Keeps.foldl_fst
                | (simp only [Keeps.mk_eq]; with_reducible apply KeepsMk.of)

theorem State.mailDone_keeps {s0 s : State} {x1 x2 x3} (h : Keeps s0 s) :
    Keeps s0 (State.mailDone s x1 x2 x3) := by
  unfold State.mailDone; try dsimp only
  repeat' first | with_reducible assumption | with_reducible rfl | (intro _) | with_reducible apply Keeps.ite
                | with_reducible apply Keeps.ite_fst | with_reducible apply State.signal_keeps
                | with_reducible apply State.send_keeps

theorem State.mail_keeps {s0 s : State} {x1 x2} (h : Keeps s0 s) (hf2 : ∀ y0, Keeps s0 y0 → Keeps s0 (x2 y0).1) :
    Keeps s0 (State.mail s x1 x2) := by
  unfold State.mail; try dsimp only
  repeat' first | with_reducible assumption | with_reducible rfl | (intro _) | with_reducible apply Keeps.ite
                | with_reducible apply Keeps.ite_fst | with_reducible apply hf2 | with_reducible apply State.mailDone_keeps

theorem State.restartWalks_keeps {s0 s : State} (h : Keeps s0 s) :
    Keeps s0 (State.restartWalks s) := by
  unfold State.restartWalks; try dsimp only
  repeat' first | with_reducible assumption | with_reducible rfl | (intro _) | with_reducible apply Keeps.ite
                | with_reducible apply Keeps.ite_fst | with_reducible apply State.restartRole_keeps
                | with_reducible apply Keeps.foldl | with_reducible apply Keeps.foldl_fst
                | (simp only [Keeps.mk_eq]; with_reducible apply KeepsMk.of)

theorem State.consume_keeps {s0 s : State} {x1} (h : Keeps s0 s) :
    Keeps s0 (State.consume s x1) := by
  unfold State.consume; try dsimp only
  repeat' first | with_reducible assumption | with_reducible rfl | (intro _) | with_reducible apply Keeps.ite
                | with_reducible apply Keeps.ite_fst | with_reducible apply State.updEd_keeps

theorem State.readOp_keeps {s0 s : State} {x1 x2 x3 x4 x5} (h : Keeps s0 s) :
    ∀ t, State.readOp s x1 x2 x3 x4 x5 = .ok t → Keeps s0 t.1 := by
  intro t e; unfold State.readOp at e; try dsimp only at e
  repeat' split at e
  all_goals first | (cases e; done) | (injection e with e; subst e) | skip
  all_goals try dsimp only
  all_goals repeat' first | with_reducible assumption | with_reducible rfl | (intro _) | with_reducible apply Keeps.ite
                          | with_reducible apply Keeps.ite_fst | with_reducible apply Keeps.ite_snd
                          | with_reducible apply State.consume_keeps | with_reducible apply State.makeNonce_keeps
                          | with_reducible apply State.draw_keeps

theorem State.readStagedOp_keeps {s0 s : State} {x1 x2 x3 x4 x5} (h : Keeps s0 s) :
    ∀ t, State.readStagedOp s x1 x2 x3 x4 x5 = .ok t → Keeps s0 t.1 := by
  intro t e; unfold State.readStagedOp at e; try dsimp only at e
  repeat' split at e
  all_goals first | (cases e; done) | (injection e with e; subst e) | skip
  all_goals try dsimp only
  all_goals repeat' first | with_reducible assumption

theorem State.writeStagedOp_keeps {s0 s : State} {x1 x2 x3 x4 x5} (h : Keeps s0 s) :
    ∀ t, State.writeStagedOp s x1 x2 x3 x4 x5 = .ok t → Keeps s0 t.1 := by
  intro t e; unfold State.writeStagedOp at e; try dsimp only at e
  repeat' split at e
  all_goals first | (cases e; done) | (injection e with e; subst e) | skip
  all_goals try dsimp only
  all_goals repeat' first | with_reducible assumption | with_reducible rfl | (intro _) | with_reducible apply Keeps.ite
                          | with_reducible apply Keeps.ite_fst | with_reducible apply State.updEd_keeps

theorem State.requestEntry_keeps {s0 s : State} {x1 x2 x3} (h : Keeps s0 s) :
    ∀ t, State.requestEntry s x1 x2 x3 = .ok t → Keeps s0 t := by
  intro t e; unfold State.requestEntry at e; try dsimp only at e
  repeat' split at e
  all_goals first | (cases e; done) | (injection e with e; subst e) | skip
  all_goals try dsimp only
  all_goals repeat' first | with_reducible assumption | with_reducible rfl | (intro _) | with_reducible apply Keeps.ite
                          | with_reducible apply Keeps.ite_fst | with_reducible apply State.acceptCmd_keeps

theorem State.numEffect_keeps {s0 s : State} {x1 x2 x3 x4 x5} (h : Keeps s0 s) :
    ∀ t, State.numEffect s x1 x2 x3 x4 x5 = .ok t → Keeps s0 t := by
  intro t e; unfold State.numEffect at e; try dsimp only at e
  repeat' split at e
  all_goals first | (cases e; done) | (injection e with e; subst e) | skip
  all_goals try dsimp only
  all_goals repeat' first | with_reducible assumption | with_reducible rfl | (intro _) | with_reducible apply Keeps.ite
                          | with_reducible apply Keeps.ite_fst
                          | (refine State.svnEntry_keeps ?_ _ (by with_reducible assumption))
                          | (refine State.flashEntry_keeps ?_ _ (by with_reducible assumption))
                          | with_reducible apply State.updId_keeps
                          | (refine State.abortEntry_keeps ?_ _ (by with_reducible assumption))
                          | (refine State.commitEntry_keeps ?_ _ (by with_reducible assumption))
                          | (refine State.editionEntry_keeps ?_ _ (by with_reducible assumption))
                          | (refine State.releaseEntry_keeps ?_ _ (by with_reducible assumption))
                          | (refine State.takeEntry_keeps ?_ _ (by with_reducible assumption))
                          | with_reducible apply State.prepareEntry_keeps | with_reducible apply State.updEd_keeps
                          | (refine State.writeBackEntry_keeps ?_ _ (by with_reducible assumption))
                          | (refine State.orderEntry_keeps ?_ _ (by with_reducible assumption))
                          | (refine State.isolateEntry_keeps ?_ _ (by with_reducible assumption))
                          | (refine State.returnEntry_keeps ?_ _ (by with_reducible assumption))
                          | (refine State.restartEntry_keeps ?_ _ (by with_reducible assumption))
                          | (refine State.customerEntry_keeps ?_ _ (by with_reducible assumption))
                          | (refine State.verifyEntry_keeps ?_ _ (by with_reducible assumption))
                          | with_reducible apply State.updDocent_keeps | with_reducible apply State.setCounter_keeps
                          | with_reducible apply State.updChan_keeps

theorem State.octEffect_keeps {s0 s : State} {x1 x2 x3 x4} (h : Keeps s0 s) :
    ∀ t, State.octEffect s x1 x2 x3 x4 = .ok t → Keeps s0 t := by
  intro t e; unfold State.octEffect at e; try dsimp only at e
  repeat' split at e
  all_goals first | (cases e; done) | (injection e with e; subst e) | skip
  all_goals try dsimp only
  all_goals repeat' first | with_reducible assumption | with_reducible rfl | (intro _) | with_reducible apply Keeps.ite
                          | with_reducible apply Keeps.ite_fst
                          | (refine State.requestEntry_keeps ?_ _ (by with_reducible assumption))
                          | with_reducible apply State.debugResponse_keeps
                          | (refine State.provisionEntry_keeps ?_ _ (by with_reducible assumption))
                          | with_reducible apply State.updId_keeps | with_reducible apply Keeps.foldl
                          | with_reducible apply Keeps.foldl_fst | (simp only [Keeps.mk_eq]; with_reducible apply KeepsMk.of)

theorem State.cursorEffect_keeps {s0 s : State} {x1 x2 x3} (h : Keeps s0 s) :
    ∀ t, State.cursorEffect s x1 x2 x3 = .ok t → Keeps s0 t := by
  intro t e; unfold State.cursorEffect at e; try dsimp only at e
  repeat' split at e
  all_goals first | (cases e; done) | (injection e with e; subst e) | skip
  all_goals try dsimp only
  all_goals repeat' first | with_reducible assumption | with_reducible rfl | (intro _) | with_reducible apply Keeps.ite
                          | with_reducible apply Keeps.ite_fst | with_reducible apply State.setCursors_keeps

theorem State.writeOp_keeps {s0 s : State} {x1 x2 x3 x4 x5} (h : Keeps s0 s) :
    ∀ t, State.writeOp s x1 x2 x3 x4 x5 = .ok t → Keeps s0 t.1 := by
  intro t e
  have hd : ∀ {x : Except Nat State}, (∀ u, x = .ok u → Keeps s0 u) → x.map (fun t => (t, ([] : Bytes))) = .ok t →
      Keeps s0 t.1 := by
    intro x hx hm
    cases x with
    | error c => cases hm
    | ok u => cases hm; exact hx u rfl
  unfold State.writeOp at e
  dsimp only at e
  repeat' split at e
  all_goals first | exact hd (State.cursorEffect_keeps h) e | exact hd (State.numEffect_keeps h) e
                  | exact hd (State.octEffect_keeps h) e | cases e

theorem State.describeOp_keeps {s0 s : State} {x1 x2 x3} (h : Keeps s0 s) :
    ∀ t, State.describeOp s x1 x2 x3 = .ok t → Keeps s0 t.1 := by
  intro t e; unfold State.describeOp at e; try dsimp only at e
  repeat' split at e
  all_goals first | (cases e; done) | (injection e with e; subst e) | skip
  all_goals try dsimp only
  all_goals repeat' first | with_reducible assumption

theorem State.nextOp_keeps {s0 s : State} {x1 x2 x3} (h : Keeps s0 s) :
    ∀ t, State.nextOp s x1 x2 x3 = .ok t → Keeps s0 t.1 := by
  intro t e; unfold State.nextOp at e; try dsimp only at e
  repeat' split at e
  all_goals first | (cases e; done) | (injection e with e; subst e) | skip
  all_goals try dsimp only
  all_goals repeat' first | with_reducible assumption

theorem State.perform_keeps {s0 s : State} {x1 x2 x3 x4} (h : Keeps s0 s)
    (hf4 : ∀ y0, Keeps s0 y0 → ∀ t, x4 y0 = .ok t → Keeps s0 t.1) : Keeps s0 (State.perform s x1 x2 x3 x4).1 := by
  have hr : ∀ t, (if x1.rsvd && decide (1 ≤ x2) && decide (x2 ≤ 6) then .error 0xD else x4 s : OpResult) = .ok t →
      Keeps s0 t.1 := by
    intro t e
    split at e
    · cases e
    · exact hf4 s h t e
  unfold State.perform; dsimp only
  apply Keeps.ite_fst (State.draw_keeps h)
  split <;> split
  · exact State.renewLease_keeps (hr _ (by with_reducible assumption))
  · exact State.renewLease_keeps h
  · exact hr _ (by with_reducible assumption)
  · exact h

theorem State.setWindow_keeps {s0 s : State} {x1 x2 x3 x4 x5 x6 x7} (h : Keeps s0 s) :
    Keeps s0 (State.setWindow s x1 x2 x3 x4 x5 x6 x7) := by
  unfold State.setWindow; try dsimp only
  repeat' first | with_reducible assumption | with_reducible rfl | (intro _) | with_reducible apply Keeps.ite
                | with_reducible apply Keeps.ite_fst | with_reducible apply State.updFn_keeps

theorem State.endWindow_keeps {s0 s : State} {x1 x2 x3} (h : Keeps s0 s) :
    Keeps s0 (State.endWindow s x1 x2 x3) := by
  unfold State.endWindow; try dsimp only
  repeat' first | with_reducible assumption | with_reducible rfl | (intro _) | with_reducible apply Keeps.ite
                | with_reducible apply Keeps.ite_fst | with_reducible apply State.updFn_keeps

theorem State.updSession_keeps {s0 s : State} {x1 x2} (h : Keeps s0 s) :
    Keeps s0 (State.updSession s x1 x2) := by
  unfold State.updSession; try dsimp only
  repeat' first | with_reducible assumption | with_reducible rfl | (intro _) | with_reducible apply Keeps.ite
                | with_reducible apply Keeps.ite_fst | with_reducible apply State.updEd_keeps

theorem State.endSession_keeps {s0 s : State} {x1} (h : Keeps s0 s) :
    Keeps s0 (State.endSession s x1) := by
  unfold State.endSession; try dsimp only
  repeat' first | with_reducible assumption | with_reducible rfl | (intro _) | with_reducible apply Keeps.ite
                | with_reducible apply Keeps.ite_fst | with_reducible apply State.breakKey_keeps
                | with_reducible apply State.updEd_keeps

theorem State.operate_keeps {s0 s : State} {x1 x2 x3 x4 x5 x6 x7} (h : Keeps s0 s) (hf7 : ∀ y0, Keeps s0 y0 → ∀ t, x7 y0 = .ok t → Keeps s0 t.1) :
    Keeps s0 (State.operate s x1 x2 x3 x4 x5 x6 x7) := by
  unfold State.operate; try dsimp only
  repeat' first | with_reducible assumption | with_reducible rfl | (intro _) | with_reducible apply Keeps.ite
                | with_reducible apply Keeps.ite_fst | with_reducible apply hf7 | with_reducible apply State.endSession_keeps
                | with_reducible apply State.updSession_keeps | with_reducible apply State.endWindow_keeps
                | with_reducible apply State.setWindow_keeps | with_reducible apply State.perform_keeps
                | with_reducible apply State.renewLease_keeps | with_reducible apply State.expireLease_keeps
                | with_reducible apply State.bump_keeps | with_reducible apply State.send_keeps
                | with_reducible apply Keeps.foldl | with_reducible apply Keeps.foldl_fst
                | (refine Keeps.of_fst ?_ (by with_reducible assumption)) | split

theorem State.orHoldOp_keeps {s0 s : State} {x1 x2 x3} (h : Keeps s0 s) (hf3 : ∀ y0, Keeps s0 y0 → Keeps s0 (x3 y0)) :
    Keeps s0 (State.orHoldOp s x1 x2 x3) := by
  unfold State.orHoldOp; try dsimp only
  repeat' first | with_reducible assumption | with_reducible rfl | (intro _) | with_reducible apply Keeps.ite
                | with_reducible apply Keeps.ite_fst | with_reducible apply hf3 | with_reducible apply State.updEd_keeps

theorem State.dictRead_keeps {s0 s : State} {x1 x2 x3 x4 x5} (h : Keeps s0 s) :
    Keeps s0 (State.dictRead s x1 x2 x3 x4 x5) := by
  unfold State.dictRead; try dsimp only
  repeat' first | with_reducible assumption | with_reducible rfl | (intro _) | with_reducible apply Keeps.ite
                | with_reducible apply Keeps.ite_fst | with_reducible apply State.orHoldOp_keeps
                | with_reducible apply State.operate_keeps | (refine State.readOp_keeps ?_ _ (by with_reducible assumption))

theorem State.dictWrite_keeps {s0 s : State} {x1 x2 x3 x4 x5} (h : Keeps s0 s) :
    Keeps s0 (State.dictWrite s x1 x2 x3 x4 x5) := by
  unfold State.dictWrite; try dsimp only
  repeat' first | with_reducible assumption | with_reducible rfl | (intro _) | with_reducible apply Keeps.ite
                | with_reducible apply Keeps.ite_fst | with_reducible apply State.orHoldOp_keeps
                | with_reducible apply State.operate_keeps | (refine State.writeOp_keeps ?_ _ (by with_reducible assumption))

theorem State.dictReadStaged_keeps {s0 s : State} {x1 x2 x3 x4 x5} (h : Keeps s0 s) :
    Keeps s0 (State.dictReadStaged s x1 x2 x3 x4 x5) := by
  unfold State.dictReadStaged; try dsimp only
  repeat' first | with_reducible assumption | with_reducible rfl | (intro _) | with_reducible apply Keeps.ite
                | with_reducible apply Keeps.ite_fst | with_reducible apply State.orHoldOp_keeps
                | with_reducible apply State.operate_keeps
                | (refine State.readStagedOp_keeps ?_ _ (by with_reducible assumption))

theorem State.dictWriteStaged_keeps {s0 s : State} {x1 x2 x3 x4 x5} (h : Keeps s0 s) :
    Keeps s0 (State.dictWriteStaged s x1 x2 x3 x4 x5) := by
  unfold State.dictWriteStaged; try dsimp only
  repeat' first | with_reducible assumption | with_reducible rfl | (intro _) | with_reducible apply Keeps.ite
                | with_reducible apply Keeps.ite_fst | with_reducible apply State.orHoldOp_keeps
                | with_reducible apply State.operate_keeps
                | (refine State.writeStagedOp_keeps ?_ _ (by with_reducible assumption))

theorem State.dictDescribe_keeps {s0 s : State} {x1 x2 x3} (h : Keeps s0 s) :
    Keeps s0 (State.dictDescribe s x1 x2 x3) := by
  unfold State.dictDescribe; try dsimp only
  repeat' first | with_reducible assumption | with_reducible rfl | (intro _) | with_reducible apply Keeps.ite
                | with_reducible apply Keeps.ite_fst | with_reducible apply State.orHoldOp_keeps
                | with_reducible apply State.operate_keeps
                | (refine State.describeOp_keeps ?_ _ (by with_reducible assumption))

theorem State.dictNext_keeps {s0 s : State} {x1 x2 x3} (h : Keeps s0 s) :
    Keeps s0 (State.dictNext s x1 x2 x3) := by
  unfold State.dictNext; try dsimp only
  repeat' first | with_reducible assumption | with_reducible rfl | (intro _) | with_reducible apply Keeps.ite
                | with_reducible apply Keeps.ite_fst | with_reducible apply State.orHoldOp_keeps
                | with_reducible apply State.operate_keeps | (refine State.nextOp_keeps ?_ _ (by with_reducible assumption))

theorem State.dictBad_keeps {s0 s : State} {x1 x2} (h : Keeps s0 s) :
    Keeps s0 (State.dictBad s x1 x2) := by
  unfold State.dictBad; try dsimp only
  repeat' first | with_reducible assumption | with_reducible rfl | (intro _) | with_reducible apply Keeps.ite
                | with_reducible apply Keeps.ite_fst | with_reducible apply State.orHoldOp_keeps
                | with_reducible apply State.operate_keeps | (rename_i e; cases e)

theorem State.runHeld_keeps {s0 s : State} {x1} (h : Keeps s0 s) :
    Keeps s0 (State.runHeld s x1) := by
  unfold State.runHeld; try dsimp only
  repeat' first | with_reducible assumption | with_reducible rfl | (intro _) | with_reducible apply Keeps.ite
                | with_reducible apply Keeps.ite_fst | with_reducible apply State.dictBad_keeps
                | with_reducible apply State.dictNext_keeps | with_reducible apply State.dictDescribe_keeps
                | with_reducible apply State.dictWriteStaged_keeps | with_reducible apply State.dictReadStaged_keeps
                | with_reducible apply State.dictWrite_keeps | with_reducible apply State.dictRead_keeps
                | with_reducible apply State.linkWrite_keeps | with_reducible apply State.linkRead_keeps
                | with_reducible apply Keeps.foldl | with_reducible apply Keeps.foldl_fst
                | (refine Keeps.of_fst ?_ (by with_reducible assumption)) | split

theorem State.spdmAnswer_keeps {s0 s : State} {x1 x2 x3} (h : Keeps s0 s) :
    Keeps s0 (State.spdmAnswer s x1 x2 x3) := by
  unfold State.spdmAnswer; try dsimp only
  repeat' first | with_reducible assumption | with_reducible rfl | (intro _) | with_reducible apply Keeps.ite
                | with_reducible apply Keeps.ite_fst | with_reducible apply State.updSession_keeps
                | with_reducible apply State.send_keeps | with_reducible apply Keeps.foldl
                | with_reducible apply Keeps.foldl_fst | (refine Keeps.of_fst ?_ (by with_reducible assumption)) | split

theorem State.serveSpdm_keeps {s0 s : State} {x1 x2} (h : Keeps s0 s) (hf2 : ∀ y0, Keeps s0 y0 → Keeps s0 (x2 y0)) :
    Keeps s0 (State.serveSpdm s x1 x2) := by
  unfold State.serveSpdm; try dsimp only
  repeat' first | with_reducible assumption | with_reducible rfl | (intro _) | with_reducible apply Keeps.ite
                | with_reducible apply Keeps.ite_fst | with_reducible apply hf2 | with_reducible apply State.send_keeps

theorem State.plainSpdm_keeps {s0 s : State} {x1 x2 x3} (h : Keeps s0 s) :
    Keeps s0 (State.plainSpdm s x1 x2 x3) := by
  unfold State.plainSpdm; try dsimp only
  repeat' first | with_reducible assumption | with_reducible rfl | (intro _) | with_reducible apply Keeps.ite
                | with_reducible apply Keeps.ite_fst | with_reducible apply State.serveSpdm_keeps
                | with_reducible apply State.spdmAnswer_keeps

theorem State.releaseHeldReqs_keeps {s0 s : State} (h : Keeps s0 s) :
    Keeps s0 (State.releaseHeldReqs s) := by
  unfold State.releaseHeldReqs; try dsimp only
  repeat' first | with_reducible assumption | with_reducible rfl | (intro _) | with_reducible apply Keeps.ite
                | with_reducible apply Keeps.ite_fst | with_reducible apply State.runHeld_keeps
                | with_reducible apply State.updEd_keeps | with_reducible apply Keeps.foldl

theorem State.windowGo_keeps {s0 s : State} {x1 x2 x3} (h : Keeps s0 s) :
    Keeps s0 (State.windowGo s x1 x2 x3) := by
  unfold State.windowGo; try dsimp only
  repeat' first | with_reducible assumption | with_reducible rfl | (intro _) | with_reducible apply Keeps.ite
                | with_reducible apply Keeps.ite_fst | with_reducible apply State.dictBad_keeps
                | with_reducible apply State.dictNext_keeps | with_reducible apply State.dictDescribe_keeps
                | with_reducible apply State.dictWriteStaged_keeps | with_reducible apply State.dictReadStaged_keeps
                | with_reducible apply State.dictWrite_keeps | with_reducible apply State.dictRead_keeps
                | with_reducible apply Keeps.foldl | with_reducible apply Keeps.foldl_fst
                | (refine Keeps.of_fst ?_ (by with_reducible assumption)) | split

theorem State.updDict_keeps {s0 s : State} {x1 x2} (h : Keeps s0 s) :
    Keeps s0 (State.updDict s x1 x2) := by
  unfold State.updDict; try dsimp only
  repeat' first | with_reducible assumption | with_reducible rfl | (intro _) | with_reducible apply Keeps.ite
                | with_reducible apply Keeps.ite_fst | with_reducible apply State.updFn_keeps

theorem State.writeWindow_keeps {s0 s : State} {x1 x2 x3} (h : Keeps s0 s) :
    Keeps s0 (State.writeWindow s x1 x2 x3) := by
  unfold State.writeWindow; try dsimp only
  repeat' first | with_reducible assumption | with_reducible rfl | (intro _) | with_reducible apply Keeps.ite
                | with_reducible apply Keeps.ite_fst | with_reducible apply State.updDict_keeps
                | with_reducible apply State.windowGo_keeps | with_reducible apply Keeps.foldl
                | with_reducible apply Keeps.foldl_fst | (refine Keeps.of_fst ?_ (by with_reducible assumption)) | split

theorem State.writeTable_keeps {s0 s : State} {x1 x2 x3} (h : Keeps s0 s) :
    Keeps s0 (State.writeTable s x1 x2 x3) := by
  unfold State.writeTable; try dsimp only
  repeat' first | with_reducible assumption | with_reducible rfl | (intro _) | with_reducible apply Keeps.ite
                | with_reducible apply Keeps.ite_fst | with_reducible apply State.sendPending_keeps
                | with_reducible apply State.updFn_keeps

theorem State.sendMsiPending_keeps {s0 s : State} {x1} (h : Keeps s0 s) :
    Keeps s0 (State.sendMsiPending s x1) := by
  unfold State.sendMsiPending; try dsimp only
  repeat' first | with_reducible assumption | with_reducible rfl | (intro _) | with_reducible apply Keeps.ite
                | with_reducible apply Keeps.ite_fst | with_reducible apply State.send_keeps
                | with_reducible apply State.updFn_keeps | with_reducible apply Keeps.foldl
                | with_reducible apply Keeps.foldl_fst | (refine Keeps.of_fst ?_ (by with_reducible assumption)) | split

theorem State.intxChange_keeps {s0 s : State} {x1 x2} (h : Keeps s0 s) :
    Keeps s0 (State.intxChange s x1 x2) := by
  unfold State.intxChange; try dsimp only
  repeat' first | with_reducible assumption | with_reducible rfl | (intro _) | with_reducible apply Keeps.ite
                | with_reducible apply Keeps.ite_fst | with_reducible apply State.send_keeps
                | with_reducible apply State.updFn_keeps | with_reducible apply Keeps.foldl
                | with_reducible apply Keeps.foldl_fst | (refine Keeps.of_fst ?_ (by with_reducible assumption)) | split

theorem State.poisonedWrite_keeps {s0 s : State} {x1 x2 x3} (h : Keeps s0 s) :
    Keeps s0 (State.poisonedWrite s x1 x2 x3) := by
  unfold State.poisonedWrite; try dsimp only
  repeat' first | with_reducible assumption | with_reducible rfl | (intro _) | with_reducible apply Keeps.ite
                | with_reducible apply Keeps.ite_fst | with_reducible apply State.updFn_keeps

theorem State.tap_keeps {s0 s : State} {x1 x2 x3} (h : Keeps s0 s) (hf3 : ∀ y0, Keeps s0 y0 → Keeps s0 (x3 y0)) :
    Keeps s0 (State.tap s x1 x2 x3) := by
  unfold State.tap; try dsimp only
  repeat' first | with_reducible assumption | with_reducible rfl | (intro _) | with_reducible apply Keeps.ite
                | with_reducible apply Keeps.ite_fst | with_reducible apply hf3 | with_reducible apply State.updId_keeps
                | with_reducible apply State.send_keeps

end Sys2Proof.Machine
end

