-- ==== Sys2Proof/Laws/Records.lean ====
section
/-! SUPPORT. What raising a record, counting an event and sending a message can change: the messages, the functions, the
records and counters, and the queues of the sessions; nothing else. -/

namespace Sys2Proof.Machine

/-- `t` differs from `s` at most in its messages, functions, records, counters and sessions. -/
structure OnlyRecords (s t : State) : Prop where
  pending : t.pending = s.pending
  fresh : t.fresh = s.fresh
  tsc : t.tsc = s.tsc
  pkg : t.pkg = s.pkg
  dies : t.dies = s.dies
  mem : t.mem = s.mem
  chans : t.chans = s.chans
  split : t.split = s.split
  wb : t.wb = s.wb
  doc : t.doc = s.doc
  cor : t.cor = s.cor
  pw : t.pw = s.pw
  id : t.id = s.id
  ed : { t.ed with sessions := s.ed.sessions } = s.ed

theorem OnlyRecords.refl (s : State) : OnlyRecords s s :=
  ⟨rfl, rfl, rfl, rfl, rfl, rfl, rfl, rfl, rfl, rfl, rfl, rfl, rfl, rfl⟩

theorem OnlyRecords.trans {a b c : State} (h : OnlyRecords a b) (k : OnlyRecords b c) : OnlyRecords a c where
  pending := k.pending.trans h.pending
  fresh := k.fresh.trans h.fresh
  tsc := k.tsc.trans h.tsc
  pkg := k.pkg.trans h.pkg
  dies := k.dies.trans h.dies
  mem := k.mem.trans h.mem
  chans := k.chans.trans h.chans
  split := k.split.trans h.split
  wb := k.wb.trans h.wb
  doc := k.doc.trans h.doc
  cor := k.cor.trans h.cor
  pw := k.pw.trans h.pw
  id := k.id.trans h.id
  ed := by
    have h1 := h.ed
    have h2 := k.ed
    rw [← h1, ← h2]

theorem OnlyRecords.foldl {α : Type} {a s : State} {f : State → α → State} {l : List α} (h : OnlyRecords a s)
    (hf : ∀ t x, OnlyRecords a t → OnlyRecords a (f t x)) : OnlyRecords a (l.foldl f s) := by
  induction l generalizing s with
  | nil => exact h
  | cons x l ih => exact ih (hf s x h)

theorem State.send_onlyRecords {a s : State} {m : Msg} (h : OnlyRecords a s) : OnlyRecords a (s.send m) :=
  h.trans ⟨rfl, rfl, rfl, rfl, rfl, rfl, rfl, rfl, rfl, rfl, rfl, rfl, rfl, rfl⟩

theorem State.updFn_onlyRecords {a s : State} {p : Nat} {f : Fn → Fn} (h : OnlyRecords a s) : OnlyRecords a (s.updFn p f) :=
  h.trans ⟨rfl, rfl, rfl, rfl, rfl, rfl, rfl, rfl, rfl, rfl, rfl, rfl, rfl, rfl⟩

theorem State.setCounter_onlyRecords {a s : State} {i j k v : Nat} (h : OnlyRecords a s) : OnlyRecords a (s.setCounter i j k v) :=
  h.trans ⟨rfl, rfl, rfl, rfl, rfl, rfl, rfl, rfl, rfl, rfl, rfl, rfl, rfl, rfl⟩

theorem State.bump_onlyRecords {a s : State} {i j k n : Nat} (h : OnlyRecords a s) : OnlyRecords a (s.bump i j k n) := by
  unfold State.bump
  dsimp only
  split
  · exact h
  · exact h.trans ⟨rfl, rfl, rfl, rfl, rfl, rfl, rfl, rfl, rfl, rfl, rfl, rfl, rfl, rfl⟩

theorem State.pme_onlyRecords {a s : State} {p : Nat} (h : OnlyRecords a s) : OnlyRecords a (s.pme p) := by
  unfold State.pme
  repeat' first | exact h | apply State.send_onlyRecords | apply State.updFn_onlyRecords | split

theorem State.signal_onlyRecords {a s : State} {p b v : Nat} (h : OnlyRecords a s) : OnlyRecords a (s.signal p b v) := by
  unfold State.signal
  repeat' first | exact h | apply State.send_onlyRecords | apply State.updFn_onlyRecords | split | dsimp only

theorem State.pushRecord_onlyRecords {a s : State} {p q : Nat} {r : Rec} (h : OnlyRecords a s) : OnlyRecords a (s.pushRecord p q r) := by
  unfold State.pushRecord
  repeat' first | exact h | apply State.send_onlyRecords | apply State.updFn_onlyRecords | split

theorem State.endBatch_onlyRecords {a s : State} {p q : Nat} (h : OnlyRecords a s) : OnlyRecords a (s.endBatch p q) := by
  unfold State.endBatch
  repeat' first | exact h | apply State.signal_onlyRecords | apply State.send_onlyRecords | apply State.updFn_onlyRecords | split | dsimp only

theorem State.recheck_onlyRecords {a s : State} {p q : Nat} (h : OnlyRecords a s) : OnlyRecords a (s.recheck p q) := by
  unfold State.recheck
  repeat' first | exact h | apply State.endBatch_onlyRecords | apply State.pushRecord_onlyRecords | apply State.updFn_onlyRecords | split | dsimp only

theorem State.writeTo_onlyRecords {a s : State} {r : Rec} {x : Recv} (h : OnlyRecords a s) : OnlyRecords a (s.writeTo r x) := by
  unfold State.writeTo
  split
  · repeat' first | exact h | apply State.endBatch_onlyRecords | apply State.pushRecord_onlyRecords | apply State.pme_onlyRecords | apply State.updFn_onlyRecords | split
  · exact h.trans ⟨rfl, rfl, rfl, rfl, rfl, rfl, rfl, rfl, rfl, rfl, rfl, rfl, rfl, rfl⟩

/-- A record raised changes the messages, functions, records and sessions, and nothing else (R355, R359). -/
theorem State.raiseAs_onlyRecords {a s : State} {sc : Scope} {n : Nat} {r : Rec} (h : OnlyRecords a s) :
    OnlyRecords a (s.raiseAs sc n r) := by
  unfold State.raiseAs
  split
  · exact h
  · split
    · exact .foldl h fun _ _ k => State.writeTo_onlyRecords k
    · exact h.trans ⟨rfl, rfl, rfl, rfl, rfl, rfl, rfl, rfl, rfl, rfl, rfl, rfl, rfl, rfl⟩

theorem State.raiseRec_onlyRecords {a s : State} {sc : Scope} {r : Rec} (h : OnlyRecords a s) :
    OnlyRecords a (s.raiseRec sc r) := State.raiseAs_onlyRecords h

theorem State.event_onlyRecords {a s : State} {sc : Scope} {t u c : Nat} {b : Bytes} (h : OnlyRecords a s) :
    OnlyRecords a (s.event sc t u c b) := State.raiseRec_onlyRecords h

theorem State.watermark_onlyRecords {a s : State} {sc : Scope} {t u c : Nat} {x : Bool} {b : Bytes} (h : OnlyRecords a s) :
    OnlyRecords a (s.watermark sc t u c x b) := State.raiseRec_onlyRecords h

@[simp] theorem State.bump_pending (s : State) (i j k n : Nat) : (s.bump i j k n).pending = s.pending :=
  (State.bump_onlyRecords (.refl s)).pending
@[simp] theorem State.bump_fresh (s : State) (i j k n : Nat) : (s.bump i j k n).fresh = s.fresh :=
  (State.bump_onlyRecords (.refl s)).fresh
@[simp] theorem State.bump_tsc (s : State) (i j k n : Nat) : (s.bump i j k n).tsc = s.tsc :=
  (State.bump_onlyRecords (.refl s)).tsc
@[simp] theorem State.bump_pkg (s : State) (i j k n : Nat) : (s.bump i j k n).pkg = s.pkg :=
  (State.bump_onlyRecords (.refl s)).pkg
@[simp] theorem State.bump_dies (s : State) (i j k n : Nat) : (s.bump i j k n).dies = s.dies :=
  (State.bump_onlyRecords (.refl s)).dies
@[simp] theorem State.bump_mem (s : State) (i j k n : Nat) : (s.bump i j k n).mem = s.mem :=
  (State.bump_onlyRecords (.refl s)).mem
@[simp] theorem State.bump_chans (s : State) (i j k n : Nat) : (s.bump i j k n).chans = s.chans :=
  (State.bump_onlyRecords (.refl s)).chans
@[simp] theorem State.bump_split (s : State) (i j k n : Nat) : (s.bump i j k n).split = s.split :=
  (State.bump_onlyRecords (.refl s)).split
@[simp] theorem State.bump_wb (s : State) (i j k n : Nat) : (s.bump i j k n).wb = s.wb :=
  (State.bump_onlyRecords (.refl s)).wb
@[simp] theorem State.bump_doc (s : State) (i j k n : Nat) : (s.bump i j k n).doc = s.doc :=
  (State.bump_onlyRecords (.refl s)).doc
@[simp] theorem State.bump_cor (s : State) (i j k n : Nat) : (s.bump i j k n).cor = s.cor :=
  (State.bump_onlyRecords (.refl s)).cor
@[simp] theorem State.bump_pw (s : State) (i j k n : Nat) : (s.bump i j k n).pw = s.pw :=
  (State.bump_onlyRecords (.refl s)).pw
@[simp] theorem State.bump_id (s : State) (i j k n : Nat) : (s.bump i j k n).id = s.id :=
  (State.bump_onlyRecords (.refl s)).id

@[simp] theorem State.raiseAs_pending (s : State) (sc : Scope) (n : Nat) (r : Rec) : (s.raiseAs sc n r).pending = s.pending :=
  (State.raiseAs_onlyRecords (.refl s)).pending
@[simp] theorem State.raiseAs_fresh (s : State) (sc : Scope) (n : Nat) (r : Rec) : (s.raiseAs sc n r).fresh = s.fresh :=
  (State.raiseAs_onlyRecords (.refl s)).fresh
@[simp] theorem State.raiseAs_tsc (s : State) (sc : Scope) (n : Nat) (r : Rec) : (s.raiseAs sc n r).tsc = s.tsc :=
  (State.raiseAs_onlyRecords (.refl s)).tsc
@[simp] theorem State.raiseAs_pkg (s : State) (sc : Scope) (n : Nat) (r : Rec) : (s.raiseAs sc n r).pkg = s.pkg :=
  (State.raiseAs_onlyRecords (.refl s)).pkg
@[simp] theorem State.raiseAs_dies (s : State) (sc : Scope) (n : Nat) (r : Rec) : (s.raiseAs sc n r).dies = s.dies :=
  (State.raiseAs_onlyRecords (.refl s)).dies
@[simp] theorem State.raiseAs_mem (s : State) (sc : Scope) (n : Nat) (r : Rec) : (s.raiseAs sc n r).mem = s.mem :=
  (State.raiseAs_onlyRecords (.refl s)).mem
@[simp] theorem State.raiseAs_chans (s : State) (sc : Scope) (n : Nat) (r : Rec) : (s.raiseAs sc n r).chans = s.chans :=
  (State.raiseAs_onlyRecords (.refl s)).chans
@[simp] theorem State.raiseAs_split (s : State) (sc : Scope) (n : Nat) (r : Rec) : (s.raiseAs sc n r).split = s.split :=
  (State.raiseAs_onlyRecords (.refl s)).split
@[simp] theorem State.raiseAs_wb (s : State) (sc : Scope) (n : Nat) (r : Rec) : (s.raiseAs sc n r).wb = s.wb :=
  (State.raiseAs_onlyRecords (.refl s)).wb
@[simp] theorem State.raiseAs_doc (s : State) (sc : Scope) (n : Nat) (r : Rec) : (s.raiseAs sc n r).doc = s.doc :=
  (State.raiseAs_onlyRecords (.refl s)).doc
@[simp] theorem State.raiseAs_cor (s : State) (sc : Scope) (n : Nat) (r : Rec) : (s.raiseAs sc n r).cor = s.cor :=
  (State.raiseAs_onlyRecords (.refl s)).cor
@[simp] theorem State.raiseAs_pw (s : State) (sc : Scope) (n : Nat) (r : Rec) : (s.raiseAs sc n r).pw = s.pw :=
  (State.raiseAs_onlyRecords (.refl s)).pw
@[simp] theorem State.raiseAs_id (s : State) (sc : Scope) (n : Nat) (r : Rec) : (s.raiseAs sc n r).id = s.id :=
  (State.raiseAs_onlyRecords (.refl s)).id

@[simp] theorem State.raiseRec_pending (s : State) (sc : Scope) (r : Rec) : (s.raiseRec sc r).pending = s.pending :=
  (State.raiseRec_onlyRecords (.refl s)).pending
@[simp] theorem State.raiseRec_fresh (s : State) (sc : Scope) (r : Rec) : (s.raiseRec sc r).fresh = s.fresh :=
  (State.raiseRec_onlyRecords (.refl s)).fresh
@[simp] theorem State.raiseRec_tsc (s : State) (sc : Scope) (r : Rec) : (s.raiseRec sc r).tsc = s.tsc :=
  (State.raiseRec_onlyRecords (.refl s)).tsc
@[simp] theorem State.raiseRec_pkg (s : State) (sc : Scope) (r : Rec) : (s.raiseRec sc r).pkg = s.pkg :=
  (State.raiseRec_onlyRecords (.refl s)).pkg
@[simp] theorem State.raiseRec_dies (s : State) (sc : Scope) (r : Rec) : (s.raiseRec sc r).dies = s.dies :=
  (State.raiseRec_onlyRecords (.refl s)).dies
@[simp] theorem State.raiseRec_mem (s : State) (sc : Scope) (r : Rec) : (s.raiseRec sc r).mem = s.mem :=
  (State.raiseRec_onlyRecords (.refl s)).mem
@[simp] theorem State.raiseRec_chans (s : State) (sc : Scope) (r : Rec) : (s.raiseRec sc r).chans = s.chans :=
  (State.raiseRec_onlyRecords (.refl s)).chans
@[simp] theorem State.raiseRec_split (s : State) (sc : Scope) (r : Rec) : (s.raiseRec sc r).split = s.split :=
  (State.raiseRec_onlyRecords (.refl s)).split
@[simp] theorem State.raiseRec_wb (s : State) (sc : Scope) (r : Rec) : (s.raiseRec sc r).wb = s.wb :=
  (State.raiseRec_onlyRecords (.refl s)).wb
@[simp] theorem State.raiseRec_doc (s : State) (sc : Scope) (r : Rec) : (s.raiseRec sc r).doc = s.doc :=
  (State.raiseRec_onlyRecords (.refl s)).doc
@[simp] theorem State.raiseRec_cor (s : State) (sc : Scope) (r : Rec) : (s.raiseRec sc r).cor = s.cor :=
  (State.raiseRec_onlyRecords (.refl s)).cor
@[simp] theorem State.raiseRec_pw (s : State) (sc : Scope) (r : Rec) : (s.raiseRec sc r).pw = s.pw :=
  (State.raiseRec_onlyRecords (.refl s)).pw
@[simp] theorem State.raiseRec_id (s : State) (sc : Scope) (r : Rec) : (s.raiseRec sc r).id = s.id :=
  (State.raiseRec_onlyRecords (.refl s)).id

@[simp] theorem State.event_pending (s : State) (sc : Scope) (t u c : Nat) (b : Bytes) : (s.event sc t u c b).pending = s.pending :=
  (State.event_onlyRecords (.refl s)).pending
@[simp] theorem State.event_fresh (s : State) (sc : Scope) (t u c : Nat) (b : Bytes) : (s.event sc t u c b).fresh = s.fresh :=
  (State.event_onlyRecords (.refl s)).fresh
@[simp] theorem State.event_tsc (s : State) (sc : Scope) (t u c : Nat) (b : Bytes) : (s.event sc t u c b).tsc = s.tsc :=
  (State.event_onlyRecords (.refl s)).tsc
@[simp] theorem State.event_pkg (s : State) (sc : Scope) (t u c : Nat) (b : Bytes) : (s.event sc t u c b).pkg = s.pkg :=
  (State.event_onlyRecords (.refl s)).pkg
@[simp] theorem State.event_dies (s : State) (sc : Scope) (t u c : Nat) (b : Bytes) : (s.event sc t u c b).dies = s.dies :=
  (State.event_onlyRecords (.refl s)).dies
@[simp] theorem State.event_mem (s : State) (sc : Scope) (t u c : Nat) (b : Bytes) : (s.event sc t u c b).mem = s.mem :=
  (State.event_onlyRecords (.refl s)).mem
@[simp] theorem State.event_chans (s : State) (sc : Scope) (t u c : Nat) (b : Bytes) : (s.event sc t u c b).chans = s.chans :=
  (State.event_onlyRecords (.refl s)).chans
@[simp] theorem State.event_split (s : State) (sc : Scope) (t u c : Nat) (b : Bytes) : (s.event sc t u c b).split = s.split :=
  (State.event_onlyRecords (.refl s)).split
@[simp] theorem State.event_wb (s : State) (sc : Scope) (t u c : Nat) (b : Bytes) : (s.event sc t u c b).wb = s.wb :=
  (State.event_onlyRecords (.refl s)).wb
@[simp] theorem State.event_doc (s : State) (sc : Scope) (t u c : Nat) (b : Bytes) : (s.event sc t u c b).doc = s.doc :=
  (State.event_onlyRecords (.refl s)).doc
@[simp] theorem State.event_cor (s : State) (sc : Scope) (t u c : Nat) (b : Bytes) : (s.event sc t u c b).cor = s.cor :=
  (State.event_onlyRecords (.refl s)).cor
@[simp] theorem State.event_pw (s : State) (sc : Scope) (t u c : Nat) (b : Bytes) : (s.event sc t u c b).pw = s.pw :=
  (State.event_onlyRecords (.refl s)).pw
@[simp] theorem State.event_id (s : State) (sc : Scope) (t u c : Nat) (b : Bytes) : (s.event sc t u c b).id = s.id :=
  (State.event_onlyRecords (.refl s)).id

@[simp] theorem State.watermark_pending (s : State) (sc : Scope) (t u c : Nat) (x : Bool) (b : Bytes) : (s.watermark sc t u c x b).pending = s.pending :=
  (State.watermark_onlyRecords (.refl s)).pending
@[simp] theorem State.watermark_fresh (s : State) (sc : Scope) (t u c : Nat) (x : Bool) (b : Bytes) : (s.watermark sc t u c x b).fresh = s.fresh :=
  (State.watermark_onlyRecords (.refl s)).fresh
@[simp] theorem State.watermark_tsc (s : State) (sc : Scope) (t u c : Nat) (x : Bool) (b : Bytes) : (s.watermark sc t u c x b).tsc = s.tsc :=
  (State.watermark_onlyRecords (.refl s)).tsc
@[simp] theorem State.watermark_pkg (s : State) (sc : Scope) (t u c : Nat) (x : Bool) (b : Bytes) : (s.watermark sc t u c x b).pkg = s.pkg :=
  (State.watermark_onlyRecords (.refl s)).pkg
@[simp] theorem State.watermark_dies (s : State) (sc : Scope) (t u c : Nat) (x : Bool) (b : Bytes) : (s.watermark sc t u c x b).dies = s.dies :=
  (State.watermark_onlyRecords (.refl s)).dies
@[simp] theorem State.watermark_mem (s : State) (sc : Scope) (t u c : Nat) (x : Bool) (b : Bytes) : (s.watermark sc t u c x b).mem = s.mem :=
  (State.watermark_onlyRecords (.refl s)).mem
@[simp] theorem State.watermark_chans (s : State) (sc : Scope) (t u c : Nat) (x : Bool) (b : Bytes) : (s.watermark sc t u c x b).chans = s.chans :=
  (State.watermark_onlyRecords (.refl s)).chans
@[simp] theorem State.watermark_split (s : State) (sc : Scope) (t u c : Nat) (x : Bool) (b : Bytes) : (s.watermark sc t u c x b).split = s.split :=
  (State.watermark_onlyRecords (.refl s)).split
@[simp] theorem State.watermark_wb (s : State) (sc : Scope) (t u c : Nat) (x : Bool) (b : Bytes) : (s.watermark sc t u c x b).wb = s.wb :=
  (State.watermark_onlyRecords (.refl s)).wb
@[simp] theorem State.watermark_doc (s : State) (sc : Scope) (t u c : Nat) (x : Bool) (b : Bytes) : (s.watermark sc t u c x b).doc = s.doc :=
  (State.watermark_onlyRecords (.refl s)).doc
@[simp] theorem State.watermark_cor (s : State) (sc : Scope) (t u c : Nat) (x : Bool) (b : Bytes) : (s.watermark sc t u c x b).cor = s.cor :=
  (State.watermark_onlyRecords (.refl s)).cor
@[simp] theorem State.watermark_pw (s : State) (sc : Scope) (t u c : Nat) (x : Bool) (b : Bytes) : (s.watermark sc t u c x b).pw = s.pw :=
  (State.watermark_onlyRecords (.refl s)).pw
@[simp] theorem State.watermark_id (s : State) (sc : Scope) (t u c : Nat) (x : Bool) (b : Bytes) : (s.watermark sc t u c x b).id = s.id :=
  (State.watermark_onlyRecords (.refl s)).id

@[simp] theorem State.signal_pending (s : State) (p b v : Nat) : (s.signal p b v).pending = s.pending :=
  (State.signal_onlyRecords (.refl s)).pending
@[simp] theorem State.signal_fresh (s : State) (p b v : Nat) : (s.signal p b v).fresh = s.fresh :=
  (State.signal_onlyRecords (.refl s)).fresh
@[simp] theorem State.signal_tsc (s : State) (p b v : Nat) : (s.signal p b v).tsc = s.tsc :=
  (State.signal_onlyRecords (.refl s)).tsc
@[simp] theorem State.signal_pkg (s : State) (p b v : Nat) : (s.signal p b v).pkg = s.pkg :=
  (State.signal_onlyRecords (.refl s)).pkg
@[simp] theorem State.signal_dies (s : State) (p b v : Nat) : (s.signal p b v).dies = s.dies :=
  (State.signal_onlyRecords (.refl s)).dies
@[simp] theorem State.signal_mem (s : State) (p b v : Nat) : (s.signal p b v).mem = s.mem :=
  (State.signal_onlyRecords (.refl s)).mem
@[simp] theorem State.signal_chans (s : State) (p b v : Nat) : (s.signal p b v).chans = s.chans :=
  (State.signal_onlyRecords (.refl s)).chans
@[simp] theorem State.signal_split (s : State) (p b v : Nat) : (s.signal p b v).split = s.split :=
  (State.signal_onlyRecords (.refl s)).split
@[simp] theorem State.signal_wb (s : State) (p b v : Nat) : (s.signal p b v).wb = s.wb :=
  (State.signal_onlyRecords (.refl s)).wb
@[simp] theorem State.signal_doc (s : State) (p b v : Nat) : (s.signal p b v).doc = s.doc :=
  (State.signal_onlyRecords (.refl s)).doc
@[simp] theorem State.signal_cor (s : State) (p b v : Nat) : (s.signal p b v).cor = s.cor :=
  (State.signal_onlyRecords (.refl s)).cor
@[simp] theorem State.signal_pw (s : State) (p b v : Nat) : (s.signal p b v).pw = s.pw :=
  (State.signal_onlyRecords (.refl s)).pw
@[simp] theorem State.signal_id (s : State) (p b v : Nat) : (s.signal p b v).id = s.id :=
  (State.signal_onlyRecords (.refl s)).id

@[simp] theorem State.pme_pending (s : State) (p : Nat) : (s.pme p).pending = s.pending :=
  (State.pme_onlyRecords (.refl s)).pending
@[simp] theorem State.pme_fresh (s : State) (p : Nat) : (s.pme p).fresh = s.fresh :=
  (State.pme_onlyRecords (.refl s)).fresh
@[simp] theorem State.pme_tsc (s : State) (p : Nat) : (s.pme p).tsc = s.tsc :=
  (State.pme_onlyRecords (.refl s)).tsc
@[simp] theorem State.pme_pkg (s : State) (p : Nat) : (s.pme p).pkg = s.pkg :=
  (State.pme_onlyRecords (.refl s)).pkg
@[simp] theorem State.pme_dies (s : State) (p : Nat) : (s.pme p).dies = s.dies :=
  (State.pme_onlyRecords (.refl s)).dies
@[simp] theorem State.pme_mem (s : State) (p : Nat) : (s.pme p).mem = s.mem :=
  (State.pme_onlyRecords (.refl s)).mem
@[simp] theorem State.pme_chans (s : State) (p : Nat) : (s.pme p).chans = s.chans :=
  (State.pme_onlyRecords (.refl s)).chans
@[simp] theorem State.pme_split (s : State) (p : Nat) : (s.pme p).split = s.split :=
  (State.pme_onlyRecords (.refl s)).split
@[simp] theorem State.pme_wb (s : State) (p : Nat) : (s.pme p).wb = s.wb :=
  (State.pme_onlyRecords (.refl s)).wb
@[simp] theorem State.pme_doc (s : State) (p : Nat) : (s.pme p).doc = s.doc :=
  (State.pme_onlyRecords (.refl s)).doc
@[simp] theorem State.pme_cor (s : State) (p : Nat) : (s.pme p).cor = s.cor :=
  (State.pme_onlyRecords (.refl s)).cor
@[simp] theorem State.pme_pw (s : State) (p : Nat) : (s.pme p).pw = s.pw :=
  (State.pme_onlyRecords (.refl s)).pw
@[simp] theorem State.pme_id (s : State) (p : Nat) : (s.pme p).id = s.id :=
  (State.pme_onlyRecords (.refl s)).id

@[simp] theorem State.recheck_pending (s : State) (p q : Nat) : (s.recheck p q).pending = s.pending :=
  (State.recheck_onlyRecords (.refl s)).pending
@[simp] theorem State.recheck_fresh (s : State) (p q : Nat) : (s.recheck p q).fresh = s.fresh :=
  (State.recheck_onlyRecords (.refl s)).fresh
@[simp] theorem State.recheck_tsc (s : State) (p q : Nat) : (s.recheck p q).tsc = s.tsc :=
  (State.recheck_onlyRecords (.refl s)).tsc
@[simp] theorem State.recheck_pkg (s : State) (p q : Nat) : (s.recheck p q).pkg = s.pkg :=
  (State.recheck_onlyRecords (.refl s)).pkg
@[simp] theorem State.recheck_dies (s : State) (p q : Nat) : (s.recheck p q).dies = s.dies :=
  (State.recheck_onlyRecords (.refl s)).dies
@[simp] theorem State.recheck_mem (s : State) (p q : Nat) : (s.recheck p q).mem = s.mem :=
  (State.recheck_onlyRecords (.refl s)).mem
@[simp] theorem State.recheck_chans (s : State) (p q : Nat) : (s.recheck p q).chans = s.chans :=
  (State.recheck_onlyRecords (.refl s)).chans
@[simp] theorem State.recheck_split (s : State) (p q : Nat) : (s.recheck p q).split = s.split :=
  (State.recheck_onlyRecords (.refl s)).split
@[simp] theorem State.recheck_wb (s : State) (p q : Nat) : (s.recheck p q).wb = s.wb :=
  (State.recheck_onlyRecords (.refl s)).wb
@[simp] theorem State.recheck_doc (s : State) (p q : Nat) : (s.recheck p q).doc = s.doc :=
  (State.recheck_onlyRecords (.refl s)).doc
@[simp] theorem State.recheck_cor (s : State) (p q : Nat) : (s.recheck p q).cor = s.cor :=
  (State.recheck_onlyRecords (.refl s)).cor
@[simp] theorem State.recheck_pw (s : State) (p q : Nat) : (s.recheck p q).pw = s.pw :=
  (State.recheck_onlyRecords (.refl s)).pw
@[simp] theorem State.recheck_id (s : State) (p q : Nat) : (s.recheck p q).id = s.id :=
  (State.recheck_onlyRecords (.refl s)).id

end Sys2Proof.Machine
end

