-- ==== Sys2Proof/Laws/State.lean ====
section
/-! SUPPORT. What each update of State changes and what it leaves: one lemma per field per update, true by definition. -/

namespace Sys2Proof.Machine

@[simp] theorem State.updMem_mem (s : State) (f : MemState → MemState) : (s.updMem f).mem = f s.mem := rfl
@[simp] theorem State.updMem_pending (s : State) (f : MemState → MemState) : (s.updMem f).pending = s.pending := rfl
@[simp] theorem State.updMem_out (s : State) (f : MemState → MemState) : (s.updMem f).out = s.out := rfl
@[simp] theorem State.updMem_fresh (s : State) (f : MemState → MemState) : (s.updMem f).fresh = s.fresh := rfl
@[simp] theorem State.updMem_tsc (s : State) (f : MemState → MemState) : (s.updMem f).tsc = s.tsc := rfl
@[simp] theorem State.updMem_pkg (s : State) (f : MemState → MemState) : (s.updMem f).pkg = s.pkg := rfl
@[simp] theorem State.updMem_dies (s : State) (f : MemState → MemState) : (s.updMem f).dies = s.dies := rfl
@[simp] theorem State.updMem_ed (s : State) (f : MemState → MemState) : (s.updMem f).ed = s.ed := rfl
@[simp] theorem State.updMem_chans (s : State) (f : MemState → MemState) : (s.updMem f).chans = s.chans := rfl
@[simp] theorem State.updMem_split (s : State) (f : MemState → MemState) : (s.updMem f).split = s.split := rfl
@[simp] theorem State.updMem_wb (s : State) (f : MemState → MemState) : (s.updMem f).wb = s.wb := rfl
@[simp] theorem State.updMem_doc (s : State) (f : MemState → MemState) : (s.updMem f).doc = s.doc := rfl
@[simp] theorem State.updMem_cor (s : State) (f : MemState → MemState) : (s.updMem f).cor = s.cor := rfl
@[simp] theorem State.updMem_fn (s : State) (f : MemState → MemState) : (s.updMem f).fn = s.fn := rfl
@[simp] theorem State.updMem_ev (s : State) (f : MemState → MemState) : (s.updMem f).ev = s.ev := rfl
@[simp] theorem State.updMem_pw (s : State) (f : MemState → MemState) : (s.updMem f).pw = s.pw := rfl
@[simp] theorem State.updMem_id (s : State) (f : MemState → MemState) : (s.updMem f).id = s.id := rfl

@[simp] theorem State.updPkg_pkg (s : State) (f : Pkg → Pkg) : (s.updPkg f).pkg = f s.pkg := rfl
@[simp] theorem State.updPkg_pending (s : State) (f : Pkg → Pkg) : (s.updPkg f).pending = s.pending := rfl
@[simp] theorem State.updPkg_out (s : State) (f : Pkg → Pkg) : (s.updPkg f).out = s.out := rfl
@[simp] theorem State.updPkg_fresh (s : State) (f : Pkg → Pkg) : (s.updPkg f).fresh = s.fresh := rfl
@[simp] theorem State.updPkg_tsc (s : State) (f : Pkg → Pkg) : (s.updPkg f).tsc = s.tsc := rfl
@[simp] theorem State.updPkg_dies (s : State) (f : Pkg → Pkg) : (s.updPkg f).dies = s.dies := rfl
@[simp] theorem State.updPkg_ed (s : State) (f : Pkg → Pkg) : (s.updPkg f).ed = s.ed := rfl
@[simp] theorem State.updPkg_mem (s : State) (f : Pkg → Pkg) : (s.updPkg f).mem = s.mem := rfl
@[simp] theorem State.updPkg_chans (s : State) (f : Pkg → Pkg) : (s.updPkg f).chans = s.chans := rfl
@[simp] theorem State.updPkg_split (s : State) (f : Pkg → Pkg) : (s.updPkg f).split = s.split := rfl
@[simp] theorem State.updPkg_wb (s : State) (f : Pkg → Pkg) : (s.updPkg f).wb = s.wb := rfl
@[simp] theorem State.updPkg_doc (s : State) (f : Pkg → Pkg) : (s.updPkg f).doc = s.doc := rfl
@[simp] theorem State.updPkg_cor (s : State) (f : Pkg → Pkg) : (s.updPkg f).cor = s.cor := rfl
@[simp] theorem State.updPkg_fn (s : State) (f : Pkg → Pkg) : (s.updPkg f).fn = s.fn := rfl
@[simp] theorem State.updPkg_ev (s : State) (f : Pkg → Pkg) : (s.updPkg f).ev = s.ev := rfl
@[simp] theorem State.updPkg_pw (s : State) (f : Pkg → Pkg) : (s.updPkg f).pw = s.pw := rfl
@[simp] theorem State.updPkg_id (s : State) (f : Pkg → Pkg) : (s.updPkg f).id = s.id := rfl

@[simp] theorem State.updEd_ed (s : State) (f : EdState → EdState) : (s.updEd f).ed = f s.ed := rfl
@[simp] theorem State.updEd_pending (s : State) (f : EdState → EdState) : (s.updEd f).pending = s.pending := rfl
@[simp] theorem State.updEd_out (s : State) (f : EdState → EdState) : (s.updEd f).out = s.out := rfl
@[simp] theorem State.updEd_fresh (s : State) (f : EdState → EdState) : (s.updEd f).fresh = s.fresh := rfl
@[simp] theorem State.updEd_tsc (s : State) (f : EdState → EdState) : (s.updEd f).tsc = s.tsc := rfl
@[simp] theorem State.updEd_pkg (s : State) (f : EdState → EdState) : (s.updEd f).pkg = s.pkg := rfl
@[simp] theorem State.updEd_dies (s : State) (f : EdState → EdState) : (s.updEd f).dies = s.dies := rfl
@[simp] theorem State.updEd_mem (s : State) (f : EdState → EdState) : (s.updEd f).mem = s.mem := rfl
@[simp] theorem State.updEd_chans (s : State) (f : EdState → EdState) : (s.updEd f).chans = s.chans := rfl
@[simp] theorem State.updEd_split (s : State) (f : EdState → EdState) : (s.updEd f).split = s.split := rfl
@[simp] theorem State.updEd_wb (s : State) (f : EdState → EdState) : (s.updEd f).wb = s.wb := rfl
@[simp] theorem State.updEd_doc (s : State) (f : EdState → EdState) : (s.updEd f).doc = s.doc := rfl
@[simp] theorem State.updEd_cor (s : State) (f : EdState → EdState) : (s.updEd f).cor = s.cor := rfl
@[simp] theorem State.updEd_fn (s : State) (f : EdState → EdState) : (s.updEd f).fn = s.fn := rfl
@[simp] theorem State.updEd_ev (s : State) (f : EdState → EdState) : (s.updEd f).ev = s.ev := rfl
@[simp] theorem State.updEd_pw (s : State) (f : EdState → EdState) : (s.updEd f).pw = s.pw := rfl
@[simp] theorem State.updEd_id (s : State) (f : EdState → EdState) : (s.updEd f).id = s.id := rfl

@[simp] theorem State.updId_id (s : State) (f : IdState → IdState) : (s.updId f).id = f s.id := rfl
@[simp] theorem State.updId_pending (s : State) (f : IdState → IdState) : (s.updId f).pending = s.pending := rfl
@[simp] theorem State.updId_out (s : State) (f : IdState → IdState) : (s.updId f).out = s.out := rfl
@[simp] theorem State.updId_fresh (s : State) (f : IdState → IdState) : (s.updId f).fresh = s.fresh := rfl
@[simp] theorem State.updId_tsc (s : State) (f : IdState → IdState) : (s.updId f).tsc = s.tsc := rfl
@[simp] theorem State.updId_pkg (s : State) (f : IdState → IdState) : (s.updId f).pkg = s.pkg := rfl
@[simp] theorem State.updId_dies (s : State) (f : IdState → IdState) : (s.updId f).dies = s.dies := rfl
@[simp] theorem State.updId_ed (s : State) (f : IdState → IdState) : (s.updId f).ed = s.ed := rfl
@[simp] theorem State.updId_mem (s : State) (f : IdState → IdState) : (s.updId f).mem = s.mem := rfl
@[simp] theorem State.updId_chans (s : State) (f : IdState → IdState) : (s.updId f).chans = s.chans := rfl
@[simp] theorem State.updId_split (s : State) (f : IdState → IdState) : (s.updId f).split = s.split := rfl
@[simp] theorem State.updId_wb (s : State) (f : IdState → IdState) : (s.updId f).wb = s.wb := rfl
@[simp] theorem State.updId_doc (s : State) (f : IdState → IdState) : (s.updId f).doc = s.doc := rfl
@[simp] theorem State.updId_cor (s : State) (f : IdState → IdState) : (s.updId f).cor = s.cor := rfl
@[simp] theorem State.updId_fn (s : State) (f : IdState → IdState) : (s.updId f).fn = s.fn := rfl
@[simp] theorem State.updId_ev (s : State) (f : IdState → IdState) : (s.updId f).ev = s.ev := rfl
@[simp] theorem State.updId_pw (s : State) (f : IdState → IdState) : (s.updId f).pw = s.pw := rfl

@[simp] theorem State.updPw_pw (s : State) (f : PwState → PwState) : (s.updPw f).pw = f s.pw := rfl
@[simp] theorem State.updPw_pending (s : State) (f : PwState → PwState) : (s.updPw f).pending = s.pending := rfl
@[simp] theorem State.updPw_out (s : State) (f : PwState → PwState) : (s.updPw f).out = s.out := rfl
@[simp] theorem State.updPw_fresh (s : State) (f : PwState → PwState) : (s.updPw f).fresh = s.fresh := rfl
@[simp] theorem State.updPw_tsc (s : State) (f : PwState → PwState) : (s.updPw f).tsc = s.tsc := rfl
@[simp] theorem State.updPw_pkg (s : State) (f : PwState → PwState) : (s.updPw f).pkg = s.pkg := rfl
@[simp] theorem State.updPw_dies (s : State) (f : PwState → PwState) : (s.updPw f).dies = s.dies := rfl
@[simp] theorem State.updPw_ed (s : State) (f : PwState → PwState) : (s.updPw f).ed = s.ed := rfl
@[simp] theorem State.updPw_mem (s : State) (f : PwState → PwState) : (s.updPw f).mem = s.mem := rfl
@[simp] theorem State.updPw_chans (s : State) (f : PwState → PwState) : (s.updPw f).chans = s.chans := rfl
@[simp] theorem State.updPw_split (s : State) (f : PwState → PwState) : (s.updPw f).split = s.split := rfl
@[simp] theorem State.updPw_wb (s : State) (f : PwState → PwState) : (s.updPw f).wb = s.wb := rfl
@[simp] theorem State.updPw_doc (s : State) (f : PwState → PwState) : (s.updPw f).doc = s.doc := rfl
@[simp] theorem State.updPw_cor (s : State) (f : PwState → PwState) : (s.updPw f).cor = s.cor := rfl
@[simp] theorem State.updPw_fn (s : State) (f : PwState → PwState) : (s.updPw f).fn = s.fn := rfl
@[simp] theorem State.updPw_ev (s : State) (f : PwState → PwState) : (s.updPw f).ev = s.ev := rfl
@[simp] theorem State.updPw_id (s : State) (f : PwState → PwState) : (s.updPw f).id = s.id := rfl

@[simp] theorem State.updDie_dies (s : State) (c : Nat) (f : Die → Die) : (s.updDie c f).dies = updWhere (·.code == c) f s.dies := rfl
@[simp] theorem State.updDie_pending (s : State) (c : Nat) (f : Die → Die) : (s.updDie c f).pending = s.pending := rfl
@[simp] theorem State.updDie_out (s : State) (c : Nat) (f : Die → Die) : (s.updDie c f).out = s.out := rfl
@[simp] theorem State.updDie_fresh (s : State) (c : Nat) (f : Die → Die) : (s.updDie c f).fresh = s.fresh := rfl
@[simp] theorem State.updDie_tsc (s : State) (c : Nat) (f : Die → Die) : (s.updDie c f).tsc = s.tsc := rfl
@[simp] theorem State.updDie_pkg (s : State) (c : Nat) (f : Die → Die) : (s.updDie c f).pkg = s.pkg := rfl
@[simp] theorem State.updDie_ed (s : State) (c : Nat) (f : Die → Die) : (s.updDie c f).ed = s.ed := rfl
@[simp] theorem State.updDie_mem (s : State) (c : Nat) (f : Die → Die) : (s.updDie c f).mem = s.mem := rfl
@[simp] theorem State.updDie_chans (s : State) (c : Nat) (f : Die → Die) : (s.updDie c f).chans = s.chans := rfl
@[simp] theorem State.updDie_split (s : State) (c : Nat) (f : Die → Die) : (s.updDie c f).split = s.split := rfl
@[simp] theorem State.updDie_wb (s : State) (c : Nat) (f : Die → Die) : (s.updDie c f).wb = s.wb := rfl
@[simp] theorem State.updDie_doc (s : State) (c : Nat) (f : Die → Die) : (s.updDie c f).doc = s.doc := rfl
@[simp] theorem State.updDie_cor (s : State) (c : Nat) (f : Die → Die) : (s.updDie c f).cor = s.cor := rfl
@[simp] theorem State.updDie_fn (s : State) (c : Nat) (f : Die → Die) : (s.updDie c f).fn = s.fn := rfl
@[simp] theorem State.updDie_ev (s : State) (c : Nat) (f : Die → Die) : (s.updDie c f).ev = s.ev := rfl
@[simp] theorem State.updDie_pw (s : State) (c : Nat) (f : Die → Die) : (s.updDie c f).pw = s.pw := rfl
@[simp] theorem State.updDie_id (s : State) (c : Nat) (f : Die → Die) : (s.updDie c f).id = s.id := rfl

@[simp] theorem State.updFn_fn (s : State) (p : Nat) (f : Fn → Fn) : (s.updFn p f).fn = updWhere (·.port == p) f s.fn := rfl
@[simp] theorem State.updFn_pending (s : State) (p : Nat) (f : Fn → Fn) : (s.updFn p f).pending = s.pending := rfl
@[simp] theorem State.updFn_out (s : State) (p : Nat) (f : Fn → Fn) : (s.updFn p f).out = s.out := rfl
@[simp] theorem State.updFn_fresh (s : State) (p : Nat) (f : Fn → Fn) : (s.updFn p f).fresh = s.fresh := rfl
@[simp] theorem State.updFn_tsc (s : State) (p : Nat) (f : Fn → Fn) : (s.updFn p f).tsc = s.tsc := rfl
@[simp] theorem State.updFn_pkg (s : State) (p : Nat) (f : Fn → Fn) : (s.updFn p f).pkg = s.pkg := rfl
@[simp] theorem State.updFn_dies (s : State) (p : Nat) (f : Fn → Fn) : (s.updFn p f).dies = s.dies := rfl
@[simp] theorem State.updFn_ed (s : State) (p : Nat) (f : Fn → Fn) : (s.updFn p f).ed = s.ed := rfl
@[simp] theorem State.updFn_mem (s : State) (p : Nat) (f : Fn → Fn) : (s.updFn p f).mem = s.mem := rfl
@[simp] theorem State.updFn_chans (s : State) (p : Nat) (f : Fn → Fn) : (s.updFn p f).chans = s.chans := rfl
@[simp] theorem State.updFn_split (s : State) (p : Nat) (f : Fn → Fn) : (s.updFn p f).split = s.split := rfl
@[simp] theorem State.updFn_wb (s : State) (p : Nat) (f : Fn → Fn) : (s.updFn p f).wb = s.wb := rfl
@[simp] theorem State.updFn_doc (s : State) (p : Nat) (f : Fn → Fn) : (s.updFn p f).doc = s.doc := rfl
@[simp] theorem State.updFn_cor (s : State) (p : Nat) (f : Fn → Fn) : (s.updFn p f).cor = s.cor := rfl
@[simp] theorem State.updFn_ev (s : State) (p : Nat) (f : Fn → Fn) : (s.updFn p f).ev = s.ev := rfl
@[simp] theorem State.updFn_pw (s : State) (p : Nat) (f : Fn → Fn) : (s.updFn p f).pw = s.pw := rfl
@[simp] theorem State.updFn_id (s : State) (p : Nat) (f : Fn → Fn) : (s.updFn p f).id = s.id := rfl

@[simp] theorem State.updChan_chans (s : State) (w sel : Nat) (f : Chan → Chan) : (s.updChan w sel f).chans = updWhere (fun c => c.wing == w && c.sel == sel) f s.chans := rfl
@[simp] theorem State.updChan_pending (s : State) (w sel : Nat) (f : Chan → Chan) : (s.updChan w sel f).pending = s.pending := rfl
@[simp] theorem State.updChan_out (s : State) (w sel : Nat) (f : Chan → Chan) : (s.updChan w sel f).out = s.out := rfl
@[simp] theorem State.updChan_fresh (s : State) (w sel : Nat) (f : Chan → Chan) : (s.updChan w sel f).fresh = s.fresh := rfl
@[simp] theorem State.updChan_tsc (s : State) (w sel : Nat) (f : Chan → Chan) : (s.updChan w sel f).tsc = s.tsc := rfl
@[simp] theorem State.updChan_pkg (s : State) (w sel : Nat) (f : Chan → Chan) : (s.updChan w sel f).pkg = s.pkg := rfl
@[simp] theorem State.updChan_dies (s : State) (w sel : Nat) (f : Chan → Chan) : (s.updChan w sel f).dies = s.dies := rfl
@[simp] theorem State.updChan_ed (s : State) (w sel : Nat) (f : Chan → Chan) : (s.updChan w sel f).ed = s.ed := rfl
@[simp] theorem State.updChan_mem (s : State) (w sel : Nat) (f : Chan → Chan) : (s.updChan w sel f).mem = s.mem := rfl
@[simp] theorem State.updChan_split (s : State) (w sel : Nat) (f : Chan → Chan) : (s.updChan w sel f).split = s.split := rfl
@[simp] theorem State.updChan_wb (s : State) (w sel : Nat) (f : Chan → Chan) : (s.updChan w sel f).wb = s.wb := rfl
@[simp] theorem State.updChan_doc (s : State) (w sel : Nat) (f : Chan → Chan) : (s.updChan w sel f).doc = s.doc := rfl
@[simp] theorem State.updChan_cor (s : State) (w sel : Nat) (f : Chan → Chan) : (s.updChan w sel f).cor = s.cor := rfl
@[simp] theorem State.updChan_fn (s : State) (w sel : Nat) (f : Chan → Chan) : (s.updChan w sel f).fn = s.fn := rfl
@[simp] theorem State.updChan_ev (s : State) (w sel : Nat) (f : Chan → Chan) : (s.updChan w sel f).ev = s.ev := rfl
@[simp] theorem State.updChan_pw (s : State) (w sel : Nat) (f : Chan → Chan) : (s.updChan w sel f).pw = s.pw := rfl
@[simp] theorem State.updChan_id (s : State) (w sel : Nat) (f : Chan → Chan) : (s.updChan w sel f).id = s.id := rfl

@[simp] theorem State.updCport_cor (s : State) (die i : Nat) (f : CPort → CPort) : (s.updCport die i f).cor = updWhere (fun p => p.die == die && p.idx == i) f s.cor := rfl
@[simp] theorem State.updCport_pending (s : State) (die i : Nat) (f : CPort → CPort) : (s.updCport die i f).pending = s.pending := rfl
@[simp] theorem State.updCport_out (s : State) (die i : Nat) (f : CPort → CPort) : (s.updCport die i f).out = s.out := rfl
@[simp] theorem State.updCport_fresh (s : State) (die i : Nat) (f : CPort → CPort) : (s.updCport die i f).fresh = s.fresh := rfl
@[simp] theorem State.updCport_tsc (s : State) (die i : Nat) (f : CPort → CPort) : (s.updCport die i f).tsc = s.tsc := rfl
@[simp] theorem State.updCport_pkg (s : State) (die i : Nat) (f : CPort → CPort) : (s.updCport die i f).pkg = s.pkg := rfl
@[simp] theorem State.updCport_dies (s : State) (die i : Nat) (f : CPort → CPort) : (s.updCport die i f).dies = s.dies := rfl
@[simp] theorem State.updCport_ed (s : State) (die i : Nat) (f : CPort → CPort) : (s.updCport die i f).ed = s.ed := rfl
@[simp] theorem State.updCport_mem (s : State) (die i : Nat) (f : CPort → CPort) : (s.updCport die i f).mem = s.mem := rfl
@[simp] theorem State.updCport_chans (s : State) (die i : Nat) (f : CPort → CPort) : (s.updCport die i f).chans = s.chans := rfl
@[simp] theorem State.updCport_split (s : State) (die i : Nat) (f : CPort → CPort) : (s.updCport die i f).split = s.split := rfl
@[simp] theorem State.updCport_wb (s : State) (die i : Nat) (f : CPort → CPort) : (s.updCport die i f).wb = s.wb := rfl
@[simp] theorem State.updCport_doc (s : State) (die i : Nat) (f : CPort → CPort) : (s.updCport die i f).doc = s.doc := rfl
@[simp] theorem State.updCport_fn (s : State) (die i : Nat) (f : CPort → CPort) : (s.updCport die i f).fn = s.fn := rfl
@[simp] theorem State.updCport_ev (s : State) (die i : Nat) (f : CPort → CPort) : (s.updCport die i f).ev = s.ev := rfl
@[simp] theorem State.updCport_pw (s : State) (die i : Nat) (f : CPort → CPort) : (s.updCport die i f).pw = s.pw := rfl
@[simp] theorem State.updCport_id (s : State) (die i : Nat) (f : CPort → CPort) : (s.updCport die i f).id = s.id := rfl

@[simp] theorem State.updSplit_split (s : State) (w : Nat) (f : Split → Split) : (s.updSplit w f).split = updWhere (·.wing == w) f s.split := rfl
@[simp] theorem State.updSplit_pending (s : State) (w : Nat) (f : Split → Split) : (s.updSplit w f).pending = s.pending := rfl
@[simp] theorem State.updSplit_out (s : State) (w : Nat) (f : Split → Split) : (s.updSplit w f).out = s.out := rfl
@[simp] theorem State.updSplit_fresh (s : State) (w : Nat) (f : Split → Split) : (s.updSplit w f).fresh = s.fresh := rfl
@[simp] theorem State.updSplit_tsc (s : State) (w : Nat) (f : Split → Split) : (s.updSplit w f).tsc = s.tsc := rfl
@[simp] theorem State.updSplit_pkg (s : State) (w : Nat) (f : Split → Split) : (s.updSplit w f).pkg = s.pkg := rfl
@[simp] theorem State.updSplit_dies (s : State) (w : Nat) (f : Split → Split) : (s.updSplit w f).dies = s.dies := rfl
@[simp] theorem State.updSplit_ed (s : State) (w : Nat) (f : Split → Split) : (s.updSplit w f).ed = s.ed := rfl
@[simp] theorem State.updSplit_mem (s : State) (w : Nat) (f : Split → Split) : (s.updSplit w f).mem = s.mem := rfl
@[simp] theorem State.updSplit_chans (s : State) (w : Nat) (f : Split → Split) : (s.updSplit w f).chans = s.chans := rfl
@[simp] theorem State.updSplit_wb (s : State) (w : Nat) (f : Split → Split) : (s.updSplit w f).wb = s.wb := rfl
@[simp] theorem State.updSplit_doc (s : State) (w : Nat) (f : Split → Split) : (s.updSplit w f).doc = s.doc := rfl
@[simp] theorem State.updSplit_cor (s : State) (w : Nat) (f : Split → Split) : (s.updSplit w f).cor = s.cor := rfl
@[simp] theorem State.updSplit_fn (s : State) (w : Nat) (f : Split → Split) : (s.updSplit w f).fn = s.fn := rfl
@[simp] theorem State.updSplit_ev (s : State) (w : Nat) (f : Split → Split) : (s.updSplit w f).ev = s.ev := rfl
@[simp] theorem State.updSplit_pw (s : State) (w : Nat) (f : Split → Split) : (s.updSplit w f).pw = s.pw := rfl
@[simp] theorem State.updSplit_id (s : State) (w : Nat) (f : Split → Split) : (s.updSplit w f).id = s.id := rfl

@[simp] theorem State.updDocent_doc (s : State) (d : Nat) (f : Docent → Docent) : (s.updDocent d f).doc = { s.doc with docents := updWhere (·.id == d) f s.doc.docents } := rfl
@[simp] theorem State.updDocent_pending (s : State) (d : Nat) (f : Docent → Docent) : (s.updDocent d f).pending = s.pending := rfl
@[simp] theorem State.updDocent_out (s : State) (d : Nat) (f : Docent → Docent) : (s.updDocent d f).out = s.out := rfl
@[simp] theorem State.updDocent_fresh (s : State) (d : Nat) (f : Docent → Docent) : (s.updDocent d f).fresh = s.fresh := rfl
@[simp] theorem State.updDocent_tsc (s : State) (d : Nat) (f : Docent → Docent) : (s.updDocent d f).tsc = s.tsc := rfl
@[simp] theorem State.updDocent_pkg (s : State) (d : Nat) (f : Docent → Docent) : (s.updDocent d f).pkg = s.pkg := rfl
@[simp] theorem State.updDocent_dies (s : State) (d : Nat) (f : Docent → Docent) : (s.updDocent d f).dies = s.dies := rfl
@[simp] theorem State.updDocent_ed (s : State) (d : Nat) (f : Docent → Docent) : (s.updDocent d f).ed = s.ed := rfl
@[simp] theorem State.updDocent_mem (s : State) (d : Nat) (f : Docent → Docent) : (s.updDocent d f).mem = s.mem := rfl
@[simp] theorem State.updDocent_chans (s : State) (d : Nat) (f : Docent → Docent) : (s.updDocent d f).chans = s.chans := rfl
@[simp] theorem State.updDocent_split (s : State) (d : Nat) (f : Docent → Docent) : (s.updDocent d f).split = s.split := rfl
@[simp] theorem State.updDocent_wb (s : State) (d : Nat) (f : Docent → Docent) : (s.updDocent d f).wb = s.wb := rfl
@[simp] theorem State.updDocent_cor (s : State) (d : Nat) (f : Docent → Docent) : (s.updDocent d f).cor = s.cor := rfl
@[simp] theorem State.updDocent_fn (s : State) (d : Nat) (f : Docent → Docent) : (s.updDocent d f).fn = s.fn := rfl
@[simp] theorem State.updDocent_ev (s : State) (d : Nat) (f : Docent → Docent) : (s.updDocent d f).ev = s.ev := rfl
@[simp] theorem State.updDocent_pw (s : State) (d : Nat) (f : Docent → Docent) : (s.updDocent d f).pw = s.pw := rfl
@[simp] theorem State.updDocent_id (s : State) (d : Nat) (f : Docent → Docent) : (s.updDocent d f).id = s.id := rfl

@[simp] theorem State.send_out (s : State) (m : Msg) : (s.send m).out = s.out ++ [m] := rfl
@[simp] theorem State.send_pending (s : State) (m : Msg) : (s.send m).pending = s.pending := rfl
@[simp] theorem State.send_fresh (s : State) (m : Msg) : (s.send m).fresh = s.fresh := rfl
@[simp] theorem State.send_tsc (s : State) (m : Msg) : (s.send m).tsc = s.tsc := rfl
@[simp] theorem State.send_pkg (s : State) (m : Msg) : (s.send m).pkg = s.pkg := rfl
@[simp] theorem State.send_dies (s : State) (m : Msg) : (s.send m).dies = s.dies := rfl
@[simp] theorem State.send_ed (s : State) (m : Msg) : (s.send m).ed = s.ed := rfl
@[simp] theorem State.send_mem (s : State) (m : Msg) : (s.send m).mem = s.mem := rfl
@[simp] theorem State.send_chans (s : State) (m : Msg) : (s.send m).chans = s.chans := rfl
@[simp] theorem State.send_split (s : State) (m : Msg) : (s.send m).split = s.split := rfl
@[simp] theorem State.send_wb (s : State) (m : Msg) : (s.send m).wb = s.wb := rfl
@[simp] theorem State.send_doc (s : State) (m : Msg) : (s.send m).doc = s.doc := rfl
@[simp] theorem State.send_cor (s : State) (m : Msg) : (s.send m).cor = s.cor := rfl
@[simp] theorem State.send_fn (s : State) (m : Msg) : (s.send m).fn = s.fn := rfl
@[simp] theorem State.send_ev (s : State) (m : Msg) : (s.send m).ev = s.ev := rfl
@[simp] theorem State.send_pw (s : State) (m : Msg) : (s.send m).pw = s.pw := rfl
@[simp] theorem State.send_id (s : State) (m : Msg) : (s.send m).id = s.id := rfl

@[simp] theorem State.draw_fst (s : State) : s.draw.1 = s.fresh := rfl
@[simp] theorem State.draw_fresh (s : State) : s.draw.2.fresh = s.fresh + 1 := rfl
@[simp] theorem State.draw_pending (s : State) : s.draw.2.pending = s.pending := rfl
@[simp] theorem State.draw_out (s : State) : s.draw.2.out = s.out := rfl
@[simp] theorem State.draw_tsc (s : State) : s.draw.2.tsc = s.tsc := rfl
@[simp] theorem State.draw_pkg (s : State) : s.draw.2.pkg = s.pkg := rfl
@[simp] theorem State.draw_dies (s : State) : s.draw.2.dies = s.dies := rfl
@[simp] theorem State.draw_ed (s : State) : s.draw.2.ed = s.ed := rfl
@[simp] theorem State.draw_mem (s : State) : s.draw.2.mem = s.mem := rfl
@[simp] theorem State.draw_chans (s : State) : s.draw.2.chans = s.chans := rfl
@[simp] theorem State.draw_split (s : State) : s.draw.2.split = s.split := rfl
@[simp] theorem State.draw_wb (s : State) : s.draw.2.wb = s.wb := rfl
@[simp] theorem State.draw_doc (s : State) : s.draw.2.doc = s.doc := rfl
@[simp] theorem State.draw_cor (s : State) : s.draw.2.cor = s.cor := rfl
@[simp] theorem State.draw_fn (s : State) : s.draw.2.fn = s.fn := rfl
@[simp] theorem State.draw_ev (s : State) : s.draw.2.ev = s.ev := rfl
@[simp] theorem State.draw_pw (s : State) : s.draw.2.pw = s.pw := rfl
@[simp] theorem State.draw_id (s : State) : s.draw.2.id = s.id := rfl

/-! Updates written through another: simp first turns them into it, and the lemmas above say the rest. -/

@[simp] theorem State.updEngine_eq (s : State) (p i : Nat) (f : Engine → Engine) : s.updEngine p i f = s.updFn p fun x => { x with engines := updWhere (·.e == i) f x.engines } := rfl
@[simp] theorem State.updDict_eq (s : State) (p : Nat) (g : DictWindow → DictWindow) : s.updDict p g = s.updFn p fun f => { f with dict := g f.dict } := rfl
@[simp] theorem State.updSession_eq (s : State) (i : Nat) (f : Session → Session) : s.updSession i f = s.updEd fun e => { e with sessions := updWhere (·.id == i) f e.sessions } := rfl
@[simp] theorem State.updExtent_eq (s : State) (h : Nat) (f : Extent → Extent) : s.updExtent h f = s.updMem fun m => { m with extents := updWhere (·.handle == h) f m.extents } := rfl
@[simp] theorem State.updColl_eq (s : State) (c : Nat) (f : CollState → CollState) : s.updColl c f = s.updMem fun m => { m with colls := updWhere (·.coll == c) f m.colls } := rfl
@[simp] theorem State.updStream_eq (s : State) (k : Carrier) (f : IngestStream → IngestStream) : s.updStream k f = s.updMem fun m => { m with ingest := updWhere (·.carrier == k) f m.ingest } := rfl
@[simp] theorem State.updRead_eq (s : State) (p t : Nat) (f : HostRead → HostRead) : s.updRead p t f = s.updFn p fun x => { x with hostReads := updWhere (·.tag == t) f x.hostReads } := rfl
@[simp] theorem State.setCtx_eq (s : State) (d : Nat) (c : Ctx) (y : CtxState) : s.setCtx d c y = s.updDocent d fun x => x.setCtx c y := rfl

/-! An entry after `updWhere`: the one that answers the test is the image of the one that answered it before. -/

theorem find?_updWhere {α : Type} {p : α → Bool} {f : α → α} {l : List α} (h : ∀ x, p (f x) = p x) :
    (updWhere p f l).find? p = (l.find? p).map f := by
  induction l with
  | nil => rfl
  | cons x l ih =>
    unfold updWhere at ih ⊢
    cases hx : p x <;> simp_all

theorem find?_updWhere_ne {α : Type} {p q : α → Bool} {f : α → α} {l : List α} (h : ∀ x, p x = true → q x = false ∧ q (f x) = false) :
    (updWhere p f l).find? q = l.find? q := by
  induction l with
  | nil => rfl
  | cons x l ih =>
    unfold updWhere at ih ⊢
    cases hx : p x <;> simp_all [List.find?_cons]

theorem State.chan?_updChan {s : State} {w sel : Nat} {f : Chan → Chan} (h : ∀ c, (f c).wing = c.wing ∧ (f c).sel = c.sel) :
    (s.updChan w sel f).chan? w sel = (s.chan? w sel).map f :=
  find?_updWhere fun c => by rw [(h c).1, (h c).2]

theorem State.fn?_updFn {s : State} {p : Nat} {f : Fn → Fn} (h : ∀ x, (f x).port = x.port) :
    (s.updFn p f).fn? p = (s.fn? p).map f :=
  find?_updWhere fun x => by rw [h x]

theorem State.die?_updDie {s : State} {c : Nat} {f : Die → Die} (h : ∀ d, (f d).code = d.code) :
    (s.updDie c f).die? c = (s.die? c).map f :=
  find?_updWhere fun d => by rw [h d]

theorem State.cport?_updCport {s : State} {d i : Nat} {f : CPort → CPort} (h : ∀ p, (f p).die = p.die ∧ (f p).idx = p.idx) :
    (s.updCport d i f).cport? d i = (s.cport? d i).map f :=
  find?_updWhere fun p => by rw [(h p).1, (h p).2]

theorem State.fn?_updFn_ne {s : State} {p q : Nat} {f : Fn → Fn} (h : ∀ x, (f x).port = x.port) (hq : q ≠ p) :
    (s.updFn p f).fn? q = s.fn? q :=
  find?_updWhere_ne fun x hx => by
    have : x.port = p := by simpa using hx
    simp [h, this, Ne.symm hq]

theorem State.chan?_updChan_ne {s : State} {w sel v k : Nat} {f : Chan → Chan}
    (h : ∀ c, (f c).wing = c.wing ∧ (f c).sel = c.sel) (hne : ¬(v = w ∧ k = sel)) :
    (s.updChan w sel f).chan? v k = s.chan? v k :=
  find?_updWhere_ne fun c hc => by
    have h1 : c.wing = w ∧ c.sel = sel := by simpa using hc
    rw [(h c).1, (h c).2, h1.1, h1.2]
    have : ¬(w = v ∧ sel = k) := fun x => hne ⟨x.1.symm, x.2.symm⟩
    simpa using this

end Sys2Proof.Machine
end

