-- ==== Sys2Proof/Tests/Slice0.lean ====
section
/-! SUPPORT. The author's own tests. `witness_<statement>` shows, for each clause of a statement, a state and operands that meet
its hypotheses together; `wf_…` an ill-formed command that the check refuses; `test_…` one command's effect on a small state,
worked out by hand from the manual. -/

namespace Sys2Proof.Tests

set_option Elab.async false

open Sys2Proof Sys2Proof.Machine Sys2Proof.Claims

/-- An edition of numeric values (entry, subindex, object, value). -/
def edition (l : List (Nat × Nat × Nat × Nat)) : Edition :=
  { num := 0, vals := l.map fun x => ⟨x.1, x.2.1, x.2.2.1, leBytes 8 x.2.2.2⟩ }

/-- Collection 5 is RAW, 6 ACT, 7 PACKED, 8 durable, each of 1 MiB with 2 MiB quotas at both tiers; 9 an exhibit with a
compressed view; 5 has a pool of 16 windows at 64 KiB. -/
def values : List (Nat × Nat × Nat × Nat) := [
  (0x3001, 1, 5, 1), (0x3001, 3, 5, 0x200000), (0x3002, 1, 5, 0x200000), (0x3002, 2, 5, 0x200000),
  (0x3001, 1, 6, 2), (0x3001, 2, 6, 1), (0x3001, 3, 6, 0x100000), (0x3002, 1, 6, 0x200000), (0x3002, 2, 6, 0x200000),
  (0x3001, 1, 7, 3), (0x3001, 3, 7, 0x100000), (0x3002, 1, 7, 0x200000), (0x3002, 2, 7, 0x200000),
  (0x3001, 1, 8, 1), (0x3001, 3, 8, 0x100000), (0x3001, 4, 8, 2), (0x3002, 2, 8, 0x200000),
  (0x3001, 1, 9, 3), (0x3001, 3, 9, 0x100000), (0x3001, 4, 9, 12), (0x3002, 1, 9, 0x200000), (0x3002, 2, 9, 0x200000),
  (0x3004, 2, 9, 8),
  (0x3800, 1, 5, 0x100000), (0x3800, 2, 5, 64), (0x3800, 3, 5, 1024), (0x3800, 4, 5, 16),
  (0x4102, 5, 0, 1), (0x1104, 1, 0, 0x10000000), (0x4101, 33, 0, 0x1000), (0x4101, 34, 0, 1)]

/-- An extent of a collection at port 0, accepted. -/
def extentOf (c h off len : Nat) : Extent :=
  { port := 0, coll := c, view := false, region := 0, offset := off, length := len, st := .accepted, deadline := 0, handle := h,
    shut := false, dead := false }

/-- A program image of the given words: 1-word header fields as R201 lays them out. -/
def image (ws : List Nat) : Bytes :=
  zeros 12 ++ leBytes 2 ws.length ++ zeros 50 ++ ws.flatMap (leBytes 4)

/-- The package in service: every die, channel, link and Corridor port up, the collections above live, at 10 s. -/
def up : State :=
  let r := State.reset
  let die (d : Die) : Die := { d with inService := true, lastBeat := 10000000000, lastSync := 10000000000, lastTelemetry := 10000000000 }
  let dec (d : Decoder) : Decoder := if d.r = 0 then { d with size := 0x10000000, committed := true } else d
  let fn (f : Fn) : Fn := { f with link := 2, cxl := true, perst := false, ready := true, bme := true, decoders := f.decoders.map dec }
  let e := edition values
  { r with
    tsc := 10000000000
    pkg := { r.pkg with inReset := false, fwRunning := true, phase := 4, fieldLink := true }
    dies := r.dies.map die
    chans := r.chans.map fun c => { c with st := 2 }
    fn := r.fn.map fn
    cor := r.cor.map fun p => { p with st := 2 }
    pw := { r.pw with stewardUp := true, lastRound := 10000000000 }
    ed := { r.ed with active := { e with vals := e.vals ++ [⟨0x4103, 1, 0, image [0, 0]⟩] } }
    mem := { r.mem with
      colls := [5, 6, 7, 8, 9].map fun c => ⟨c, 0xF, false, false, false⟩
      keys := [5, 6, 7, 8, 9].flatMap fun c => [0, 1, 2, 3].map fun w => ⟨c, w, 1⟩
      extents := [extentOf 5 1 0 0x210000, extentOf 6 2 0x400000 0x110000, extentOf 7 3 0x600000 0x110000,
        extentOf 8 4 0x800000 0x110000, extentOf 9 5 0xA00000 0x110000,
        { extentOf 9 6 0xC00000 0x110000 with view := true }] } }

/-- The state a command leaves. -/
def after (c : Instr) (s : State) : State := match exec c s with | .next t => t | _ => s

/-- A block of collection 5 on Wing 0, stored RAW on the Depot in 9 slots at slot 18. -/
def entry0 : CatEntry :=
  { coll := 5, wing := 0, blk := 0, tier := .depot, coding := 1, slot := 18, slots := 9, copySlot := none, site := 0, segDamage := 0,
    hdrDamage := false, crcFailed := false, crc := 0, origin := 0 }

/-- A state with a catalogue. -/
def withCat (es : List CatEntry) (s : State) : State := s.updMem fun m => { m with cat := es }

/-! Docents. -/

/-- `up` with docent 32 of Wing 0 running a program of the given words in context A, with registers 1, 2, 3, … . -/
def doc (ws : List Nat) : State :=
  up.updDocent 32 fun x => { x with a := { CtxState.idle with
    running := true, image := image ws, regs := [1, 2, 3, 4, 5, 6, 7, 8, 9, 10, 11, 12, 13, 14, 15, 0xFFFFFFFFFFFFFFF0] } }

/-- A word of a docent's line buffer, as it is stored. -/
def bufWord (v : Nat) : Sram := Sram.store false (leBytes 8 v)

/-- A context under another program, of capability bits `cap` (R201). -/
def withCap (cap : Nat) (s : State) (ws : List Nat) : State :=
  s.updDocent 32 fun x => { x with a := { x.a with image := setSlice (image ws) 6 (leBytes 2 cap) } }

/-- An instruction word: opcode, rd, ra, rb and the low bits (R196). -/
def word (op rd ra rb imm : Nat) : Nat := op * 2 ^ 26 + rd * 2 ^ 22 + ra * 2 ^ 18 + rb * 2 ^ 14 + imm

/-- Docent 32 is ready for the opcode, with words still to come. -/
def readyFor (s : State) (op : Nat) : Bool :=
  match s.docReady 32 .a op with | some y => decide (y.pc + 1 < progCount y.image) | none => false

theorem witness_DocentAlu : (aluTable.all fun k => readyFor (doc [word k.1 15 15 0 0, 0]) k.1) = true := by decide +kernel
theorem witness_DocentImmediate : (immediateTable.all fun k => readyFor (doc [word k.1 15 15 15 0x3FFF, 0]) k.1) = true := by
  decide +kernel
theorem witness_DocentMoves :
    ([0x19, 0x18, 0x28, 0x29, 0x00].all fun op => readyFor (doc [word op 15 12 15 0x3FFF, 0]) op) = true := by decide +kernel
theorem witness_DocentBranches : (branchTable.all fun k => readyFor (doc [word k.1 15 15 15 0x3FFF, 0]) k.1) = true := by
  decide +kernel

/-- Context A of docent 32. -/
def ctxA (s : State) : CtxState := ((s.docent? 32).map (·.a)).getD .idle

/-- Docent 32 itself. -/
def dc32 (s : State) : Docent := (s.docent? 32).getD (.reset 32)

theorem witness_DocentRunsOff :
    let s := doc [word 0 0 0 0 0]
    s.docReady 32 .a 0x00 = some (ctxA s) ∧ (ctxA s).pc + 1 = progCount (ctxA s).image ∧ s.docent? 32 = some (dc32 s) ∧
      (dc32 s).roleDue = false := by decide +kernel

/-- Docent 32 with a program in context P. -/
def docP (ws : List Nat) : State :=
  up.updDocent 32 fun x => { x with p := { CtxState.idle with running := true, image := image ws, trig := 0x10 } }

theorem witness_DocentWaits :
    (let s := doc [word 0x2A 0 15 0 0]; s.docReady 32 .a 0x2A = some (ctxA s) ∧
      s.dieTsc (docDie 32) < ((ctxA s).ea (wordOf (ctxA s))).toNat) ∧
    (let s := { doc [word 0x2A 0 1 0 0, 0] with tsc := 2 }; s.docReady 32 .a 0x2A = some (ctxA s) ∧
      ((ctxA s).ea (wordOf (ctxA s))).toNat ≤ s.dieTsc (docDie 32) ∧ notLast (ctxA s)) ∧
    (let s := (doc [word 0x2A 0 1 0 0, 0]).setCtx 32 .a { ctxA (doc [word 0x2A 0 1 0 0, 0]) with waitUntil := some 10000000000 };
      s.docent? 32 = some (dc32 s) ∧ (dc32 s).ctx .a = ctxA s ∧ (ctxA s).waitUntil = some 10000000000 ∧
      10000000000 ≤ s.dieTsc (docDie 32) ∧ (ctxA s).suspended = false ∧ (ctxA s).native = none ∧ notLast (ctxA s)) ∧
    (let s := docP [word 0x2C 0 0 0 0]; s.docReady 32 .p 0x2C = some (dc32 s).p ∧ s.docent? 32 = some (dc32 s) ∧
      wImm16 (wordOf (dc32 s).p) = 0 ∧ (dc32 s).p.trig ≠ 3) ∧
    (let s := (doc [0]).setCtx 32 .a { ctxA (doc [0]) with sinceWait := 1048576 };
      s.docent? 32 = some (dc32 s) ∧ (dc32 s).ctx .a = ctxA s ∧ (ctxA s).running = true ∧ 1048576 ≤ (ctxA s).sinceWait ∧
      (dc32 s).roleDue = false) := by
  decide +kernel

/-- Queue 0 of port 0 and of the control port takes every record. -/
def heard (s : State) : State :=
  s.updFn 0 fun f => f.updQueue 0 fun q => { q with base := 0x1000, enable := true, filter := 2 ^ 15 + 2 ^ 16 + 2 ^ 14 + 2 ^ 13 }

theorem witness_DocentNotice :
    let s := heard (doc [word 0x2B 0 15 0 0xFFFF, 0])
    s.docReady 32 .a 0x2B = some (ctxA s) ∧ notLast (ctxA s) ∧ s.docent? 32 = some (dc32 s) ∧ s.receivers .d 0xFFFF ≠ [] ∧
      s.tsc ≤ s.dieTsc (docSrc 32 / 512) + 2000 := by decide +kernel

theorem witness_DocentRegistersAndBuffer :
    (let s := doc [word 0x2D 3 7 0 0x3FFF8, 0]; notLast (ctxA s) ∧ ((ctxA s).ea (wordOf (ctxA s))).toNat % 8 = 0 ∧
      s.docReady 32 .a 0x2D = some (ctxA s) ∧ ((ctxA s).ea (wordOf (ctxA s))).toNat < blockBytes (docDie 32)) ∧
    (let s := withCap 2 (doc []) [word 0x2E 3 7 0 0, 0]; notLast (ctxA s) ∧ ((ctxA s).ea (wordOf (ctxA s))).toNat % 8 = 0 ∧
      s.docReady 32 .a 0x2E = some (ctxA s) ∧ ((ctxA s).ea (wordOf (ctxA s))).toNat < blockBytes (docDie 32) ∧
      bitSet (fieldAt (ctxA s).image 6 2) 1 = true ∧ s.docent? 32 = some (dc32 s)) ∧
    (let s := doc [word 0x30 3 7 0 4080, 0]; notLast (ctxA s) ∧ ((ctxA s).ea (wordOf (ctxA s))).toNat % 8 = 0 ∧
      s.docReady 32 .a 0x30 = some (ctxA s) ∧ ((ctxA s).ea (wordOf (ctxA s))).toNat ≤ 4088 ∧ bufSound (ctxA s)) ∧
    (let s := doc [word 0x31 3 7 0 4080, 0]; notLast (ctxA s) ∧ ((ctxA s).ea (wordOf (ctxA s))).toNat % 8 = 0 ∧
      s.docReady 32 .a 0x31 = some (ctxA s) ∧ ((ctxA s).ea (wordOf (ctxA s))).toNat ≤ 4088 ∧ s.pkg.bootMode ≠ 3) := by
  decide +kernel

/-- Docent 32 at one instruction `op r3, r1, r2`, with registers 1, 2 and 3 as given. -/
def docAt (op : Nat) (a b d : Word64) : State :=
  (doc [word op 3 1 2 0, 0]).setCtx 32 .a { ctxA (doc [word op 3 1 2 0, 0]) with
    regs := [0, a, b, d, 0, 0, 0, 0, 0, 0, 0, 0, 0, 0, 0, 0], buf := [(0, bufWord 0xAB), (9, bufWord 0x1234567890)] }

/-- The last line of Gallery channel 0x1F, and two lines of Depot channel 3. -/
def galleryEnd : Word64 := BitVec.ofNat 64 (0x1F * 2 ^ 56 + 64 * 35156249)
def depotTwo : Word64 := BitVec.ofNat 64 (0x03 * 2 ^ 56 + 0x1000)

theorem witness_DocentChannels :
    (let s := docAt 0x35 depotTwo 2 0; s.depotBytes ≤ 2 ^ 40 ∧ s.changing (docDie 32 - 4) = false ∧ bufSound (ctxA s) ∧ idle s 0 3) ∧
    (let s := docAt 0x34 galleryEnd 1 0; s.docReady 32 .a 0x34 = some (ctxA s) ∧
      (s.chanArgs 32 galleryEnd 1 64).toOption = some (0, 0x1F, 64 * 35156249, false)) ∧
    (let s := docAt 0x35 depotTwo 2 0; s.docReady 32 .a 0x35 = some (ctxA s) ∧
      (s.chanArgs 32 depotTwo 2 64).toOption = some (0, 3, 0x1000, false)) ∧
    (let s := docAt 0x36 (BitVec.ofNat 64 (0x10 * 2 ^ 56)) 35156250 0; s.docReady 32 .a 0x36 = some (ctxA s) ∧
      (s.chanArgs 32 (BitVec.ofNat 64 (0x10 * 2 ^ 56)) 35156250 (2 ^ 34)).toOption = some (0, 0x10, 0, false)) ∧
    (let s := docAt 0x37 depotTwo 64 0; s.docReady 32 .a 0x37 = some (ctxA s) ∧
      (s.chanArgs 32 depotTwo 64 64).toOption = some (0, 3, 0x1000, false)) ∧
    (let s := { docAt 0x3F galleryEnd 1 0 with pkg := { up.pkg with bootMode := 3 } }
     s.docReady 32 .a 0x3F = some (ctxA s) ∧ s.pkg.bootMode = 3 ∧
      (s.chanArgs 32 galleryEnd 1 64).toOption = some (0, 0x1F, 64 * 35156249, false)) ∧
    (let s := (docAt 0x34 galleryEnd 1 0).setCtx 32 .a { ctxA (docAt 0x34 galleryEnd 1 0) with op := some ⟨3, 5, none⟩ };
     s.docent? 32 = some (dc32 s) ∧ (dc32 s).ctx .a = ctxA s ∧ (ctxA s).op = some ⟨3, 5, none⟩ ∧ (ctxA s).suspended = false ∧
      (ctxA s).native = none ∧ notLast (ctxA s)) ∧
    (let s := (docAt 0x36 depotTwo 64 0).setCtx 32 .a { ctxA (docAt 0x36 depotTwo 64 0) with op := some ⟨3, 0, some (0, 3, 0x1000, 64)⟩ };
     s.docent? 32 = some (dc32 s) ∧ (dc32 s).ctx .a = ctxA s ∧ (ctxA s).op = some ⟨3, 0, some (0, 3, 0x1000, 64)⟩ ∧
      (s.chan? 0 3).any (·.st != 3) = true ∧ (ctxA s).native = none ∧ notLast (ctxA s)) := by
  refine ⟨?_, ?_, ?_, ?_, ?_, ?_, ?_, ?_⟩ <;> decide +kernel

theorem freeRun_isSome {s : State} {w sel n : Nat}
    (h : ((sortBy (fun x y : Nat => decide (x ≤ y)) (s.chanFirst sel :: (s.usedOn w sel).map fun r => r.slot + r.slots)).find?
      (fits (s.usedOn w sel) (s.chanFirst sel) (s.chanFirst sel + s.usableSlots (isDepot sel)) n)).isSome = true) :
    (s.freeRun w sel n).isSome = true := by
  unfold State.freeRun
  dsimp only
  split
  · rfl
  · exact h

/-- A share with room in an empty Depot channel 0 gives slots, wherever the free value puts them. -/
theorem allocShare_isSome {s : State} {c w n : Nat} (h1 : ¬s.share c w false < s.roomUsed c w false none [] + n)
    (h2 : 0 ∈ s.tierChans w false)
    (h3 : (decide (s.roomUsed c w false (some 0) [] + n ≤ ceilDiv (s.share c w false) (max 1 (s.tierChans w false).length)) &&
      s.serves w 0) = true) (h4 : (s.freeRun w 0 n).isSome = true) : (s.allocShare c w false 0 n).isSome = true := by
  obtain ⟨a, ha⟩ := Option.isSome_iff_exists.1 h4
  unfold State.allocShare
  dsimp only
  rw [if_neg h1, List.findSome?_isSome_iff]
  refine ⟨0, by simpa using h2, ?_⟩
  rw [if_pos h3, ha]
  rfl

theorem witness_SallocRoom (n : Nat) (hn : n = 1 ∨ n = 9) :
    (∃ y, (docAt 0x3A (BitVec.ofNat 64 (5 + 2 * 4096)) (BitVec.ofNat 64 n) 0).docReady 32 .a 0x3A = some y) ∧
    ∃ r, (docAt 0x3A (BitVec.ofNat 64 (5 + 2 * 4096)) (BitVec.ofNat 64 n) 0).allocShare 5 0 false 0 n = some r := by
  refine ⟨Option.isSome_iff_exists.1 ?_, Option.isSome_iff_exists.1 (allocShare_isSome ?_ ?_ ?_ (freeRun_isSome ?_))⟩ <;>
    rcases hn with rfl | rfl <;> decide +kernel

theorem witness_DocentCatalogue :
    (let s := withCat [entry0] (docAt 0x38 5 0 0); s.docReady 32 .a 0x38 = some (ctxA s) ∧ s.entryExists 0 5 0 = true ∧
      s.changing 0 = false) ∧
    (let s := docAt 0x39 (BitVec.ofNat 64 (5 + 508 * 65536)) 0 0; s.docReady 32 .a 0x39 = some (ctxA s) ∧
      s.entryExists 0 5 508 = true ∧ bufSound (ctxA s) ∧
      (∀ r ∈ (s.entry 5 0 508).runs ++ ((s.entry 5 0 508).ofBytes ((ctxA s).bufBytes 2 2)).runs, s.runClosed r = false)) ∧
    (let r : Run := ⟨0, .depot, 0, 18, 9⟩
     let s := (docAt 0x3B 18 9 0).updMem fun m => { m with allocs := [(5, r)] };
     s.docReady 32 .a 0x3B = some (ctxA s) ∧ ((ctxA s).get (wA (wordOf (ctxA s)))).toNat = 18 ∧
      ((ctxA s).get (wB (wordOf (ctxA s)))).toNat = 9 ∧ s.freedRun 0 18 9 = some r) ∧
    (let s := withCat [entry0] (docAt 0x3E 5 0 0); s.docReady 32 .a 0x3E = some (ctxA s) ∧
      (s.entry 5 0 0).primary.any s.runClosed = false) ∧
    (let s := withCat [entry0] ((docAt 0x3E 5 0 0).updChan 0 0 fun c => { c with st := 3 });
     s.docReady 32 .a 0x3E = some (ctxA s) ∧ (s.entry 5 0 0).primary.any s.runClosed = true) ∧
    (let s := docAt 0x3E 5 0 0; s.docReady 32 .a 0x3E = some (ctxA s) ∧ (s.entry 5 0 0).stored = false) := by
  refine ⟨?_, ?_, ?_, ?_, ?_, ?_⟩ <;> decide +kernel

/-- Docent 32 at RUNCOPY of 9 slots from 18 to 27, which it holds. -/
def copying : State :=
  let s := withCat [entry0] (docAt 0x3C 4072 0 0)
  (s.setCtx 32 .a { ctxA s with buf := [(509, bufWord 18), (510, bufWord 27), (511, bufWord 9)] }).updMem fun m =>
    { m with allocs := [(5, ⟨0, .depot, 0, 27, 9⟩)] }

/-- A finished copy. -/
def copyDone : Copy := { handle := 255, src := 18, dst := 27, count := 9, status := 0, done := true }

theorem witness_DocentCopies :
    (let s := copying; s.docReady 32 .a 0x3C = some (ctxA s) ∧ ((ctxA s).get (wA (wordOf (ctxA s)))).toNat % 8 = 0 ∧
      ((ctxA s).get (wA (wordOf (ctxA s)))).toNat ≤ 4072 ∧ (ctxA s).copies.length < 32 ∧ bufSound (ctxA s) ∧ s.changing 0 = false ∧
      ((ctxA s).word (((ctxA s).get (wA (wordOf (ctxA s)))).toNat / 8 + 2)).toNat = 9 ∧
      (s.sourceRun 0 18 9).isSome = true ∧ (s.destRun 0 27 9).isSome = true) ∧
    (let s := copying.setCtx 32 .a { ctxA copying with copies := [{ copyDone with done := false }] };
     s.docent? 32 = some (dc32 s) ∧ (dc32 s).ctx .a = ctxA s ∧ (ctxA s).copyWait = none ∧
      (ctxA s).copies.find? (fun j => j.handle == 255 && !j.done) = some { copyDone with done := false }) ∧
    (let s := (docAt 0x3D 0 0 0).setCtx 32 .a { ctxA (docAt 0x3D 0 0 0) with copies := [copyDone] };
     s.docReady 32 .a 0x3D = some (ctxA s) ∧ (ctxA s).copies.find? (·.done) = some copyDone ∧ notLast (ctxA s)) ∧
    (let s := docAt 0x3D 0 0 0; s.docReady 32 .a 0x3D = some (ctxA s) ∧ (ctxA s).copies.find? (·.done) = none) := by
  decide +kernel

/-- A customer trigger for docent 32 waits. -/
def customer : Trigger := { die := 4, code := 0x10, arg := 77, prio := 0, target := some 32 }

/-- `up` with a trigger. -/
def triggered : State := { up with doc := { up.doc with triggers := [customer] } }

theorem witness_TriggerStartsHandler :
    triggered.dieRuns 4 = true ∧
    triggered.doc.triggers.find? (fun t => t.die == 4 && (triggered.takerOf t).isSome) = some customer ∧
    triggered.takerOf customer = some (dc32 triggered) ∧ customer.code = 0x10 ∧
    triggered.act.hasProgram (triggered.act.handler 5) = true := by decide +kernel

/-! The memory path. -/

/-- The first bytes of a pattern line. -/
def lineA : Bytes := (List.range 64).map byteOf

theorem witness_UnmappedAccess :
    taken up 0 0x3FFFFF ∧ up.target 0 0x3FFFFF = .unmapped ∧
    (let x : Machine.Window := ⟨0x11, 0, 9999000001, 3, up.mkRec 0x11 0 0xFFFF false [], 0⟩
     let s := up.updMem fun m => { m with windows := [x] };
     taken s 0 0x3FFFFF ∧ s.target 0 0x3FFFFF = .unmapped ∧ x ∈ s.mem.windows ∧ x.kind = 0x11 ∧ x.obj = 0 ∧
       s.tsc < x.start + 1000000) ∧
    up.mem.windows.all (fun x => !(x.kind == 0x11 && x.obj == 0)) = true := by decide +kernel

theorem witness_WindowsWithoutSequence :
    taken up 0 0x1FFFFF ∧ up.target 0 0x1FFFFF = .data 5 0x1FFFFF ∧ up.noData 5 (0x1FFFFF / 64 * 64) = true ∧
    up.wingUp (up.place 5 (0x1FFFFF / 64 * 64)).wing = true ∧
    up.target 0 0x100000 = .data 5 0x100000 ∧ up.noData 5 0x100000 = true ∧ up.wingUp (up.place 5 0x100000).wing = true := by
  decide +kernel

/-- `entry0` served, its channel frozen, and a lost block. -/
def withEntry (e : CatEntry) : State := withCat [e] up

/-- What ReadByEntry asks of a state for offset 0xFC0 of collection 5, the last line of its block 0. -/
def readable5 (s : State) (e : CatEntry) : Bool :=
  decide (taken s 0 0xFC0) && decide (s.target 0 0xFC0 = .data 5 0xFC0) && !s.noData 5 0xFC0 && decide (s.place 5 0xFC0 = ⟨0, 0, 63⟩) &&
    s.wingUp 0 && decide (s.cached? 5 0 63 = none) && decide (s.merge? 5 0 63 = none) && decide (s.entry 5 0 0 = e)

theorem witness_ReadByEntry :
    (readable5 up (up.entry 5 0 0) = true ∧ (up.entry 5 0 0).tier = .none ∧ allDrained up) ∧
    (let e := { entry0 with tier := .lost }; readable5 (withEntry e) e = true ∧ e.tier = .lost) ∧
    (readable5 (withEntry entry0) entry0 = true ∧ entry0.stored = true ∧ entry0.hdrDamage = false ∧
      (withEntry entry0).serves 0 ((withEntry entry0).entrySel entry0) = true) ∧
    (let e := { entry0 with hdrDamage := true }; readable5 (withEntry e) e = true ∧ e.stored = true) ∧
    (let s := (withEntry entry0).updChan 0 0 fun c => { c with st := 3 };
     readable5 s entry0 = true ∧ s.serves 0 (s.entrySel entry0) = false) := by
  refine ⟨?_, ?_, ?_, ?_, ?_⟩ <;> decide +kernel

/-- A read of port 0 that waits for the last line of `entry0`. -/
def waitingRead : PendRead :=
  { id := 4, coll := 5, wing := 0, line := 63, view := none, entry := entry0, cls := 3, waiter := .port 0, merged := [],
    mergedMask := 0, sel := 0, places := [], at_ := 9999999000, stage := .issued, got := none }

/-- A state in which it waits. -/
def readWaits : State := (withEntry entry0).updMem fun m => { m with reads := [waitingRead] }

theorem witness_ReadsReturn :
    readWaits.mem.reads.find? (fun x => x.id == waitingRead.id && x.stage == .issued) = some waitingRead ∧
    waitingRead.waiter = .port 0 ∧ waitingRead.view = none ∧ waitingRead.got = none ∧ readWaits.linkUp 0 = true ∧
    readWaits.paused 0 0 = false := by decide +kernel

/-- A line in its partition with both copies of its tag, as it is placed. -/
def tagged (l : CacheLine) : CacheLine := { l with tagA := Sram.store false l.tag, tagB := Sram.store false l.tag }

/-- A whole cached line of a collection, Wing and line, with its data. -/
def cachedLine (c w n : Nat) (data : Bytes) (dirty : Bool) : CacheLine := tagged { CacheLine.filled c w n data false false with dirty := dirty }

/-- A whole cached line of collection 5, Wing 0. -/
def cached0 (n : Nat) (dirty : Bool) : CacheLine := cachedLine 5 0 n lineA dirty

/-- What WriteByKind asks of every clause, for address `a` of port 0 that names offset `off` of collection `c` and line `line`
of Wing `w`. -/
def writable (s : State) (a c off w line : Nat) : Bool :=
  decide (taken s 0 a) && decide (s.target 0 a = .data c off) && !s.noData c (off / 64 * 64) &&
    decide ((s.place c (off / 64 * 64)).wing = w) && s.wingUp w &&
    decide (64 * (s.place c (off / 64 * 64)).blk + (s.place c (off / 64 * 64)).line = line) && s.mem.loanDir.isEmpty &&
    !s.act.durable c && !s.pw.flushing && !s.overfull c

theorem witness_WriteByKind :
    (let l := cached0 63 false
     let s := up.updMem fun m => { m with cache := [l] };
     writable s 0xFC0 5 0xFC0 0 63 = true ∧ s.act.kind 5 = 1 ∧ s.act.exhibit 5 = false ∧ s.cached? 5 0 63 = some l ∧
      l.tagA = Sram.store false l.tag ∧ l.tagB = Sram.store false l.tag) ∧
    (let l := tagged { cachedLine 6 3 16383 lineA false with expanded := true }
     let s := up.updMem fun m => { m with cache := [l] };
     writable s 0x4FFFC0 6 0xFFFC0 3 16383 = true ∧ s.act.kind 6 = 2 ∧ s.act.exhibit 6 = false ∧ s.cached? 6 3 16383 = some l ∧
      l.expanded = true ∧ l.tagA = Sram.store false l.tag ∧ l.tagB = Sram.store false l.tag) ∧
    (writable up 0xFC0 5 0xFC0 0 63 = true ∧ up.cached? 5 0 63 = none ∧ up.stuck (up.entry 5 0 0) = false ∧
      up.partUsed 5 0 + 1 ≤ up.partLines 5) ∧
    (writable up 0x4FFFC0 6 0xFFFC0 3 16383 = true ∧ up.act.kind 6 = 2 ∧ up.act.exhibit 6 = false ∧ up.cached? 6 3 16383 = none ∧
      up.stuck (up.entry 6 3 255) = false ∧ up.merge? 6 3 16383 = none ∧ (up.place 6 0xFFFC0).blk = 255 ∧
      up.partUsed 6 3 + 1 ≤ up.partLines 6) ∧
    (writable up 0x600000 7 0 0 0 = true ∧ up.act.kind 7 = 3) ∧ (writable up 0xA00000 9 0 0 0 = true ∧ up.act.exhibit 9 = true) := by
  refine ⟨?_, ?_, ?_, ?_, ?_, ?_⟩ <;> decide +kernel

/-- Every line of block 0 of collection 5 on Wing 0, held whole and zero, the first one dirty. -/
def zeroBlock : State :=
  up.updMem fun m => { m with cache := (List.range 64).map fun i => cachedLine 5 0 i (zeros 64) (i == 0) }

theorem witness_LinesLeave :
    (let l := cached0 63 false
     let s := up.updMem fun m => { m with cache := [l] };
     s.cached? 5 0 63 = some l ∧ l.canLeave = true ∧ s.act.kind 5 = 1 ∧ s.stuck (s.entry 5 0 (63 / 64)) = false ∧
      s.leavesZero 5 0 (63 / 64) = false ∧ blockDrained s 5 0 0) ∧
    (let l := cachedLine 5 0 1 (zeros 64) false
     zeroBlock.cached? 5 0 1 = some l ∧ l.canLeave = true ∧ zeroBlock.leavesZero 5 0 (1 / 64) = true ∧
      zeroBlock.stuck (zeroBlock.entry 5 0 (1 / 64)) = false) ∧
    (let l := cached0 63 true
     let s := (withEntry entry0).updMem fun m => { m with cache := [l] };
     s.cached? 5 0 63 = some l ∧ l.canLeave = true ∧ s.act.kind 5 = 1 ∧ s.entry 5 0 (63 / 64) = entry0 ∧ entry0.tier = .depot ∧
      entry0.copySlot = none ∧ entry0.hdrDamage = false ∧ s.stuck entry0 = false ∧ s.shared entry0 = false ∧ s.moving entry0 = false ∧
      l.dirty = true ∧ l.valid = fullMask ∧ l.poison = false ∧ l.data.length = 64 ∧ l.check = sramStore false l.data ∧
      s.leavesZero 5 0 (63 / 64) = false ∧
      (s.chan? 0 (s.locate entry0.tier entry0.site entry0.slot 64).1).any (fun x => !bitSet x.flip.ctl 0) = true ∧
      s.depotBytes ≤ 2 ^ 40 ∧ 0 < s.depotBytes ∧ idle s 0 (s.locate entry0.tier entry0.site entry0.slot 64).1 ∧
      blockDrained s 5 0 (63 / 64)) := by
  refine ⟨?_, ?_, ?_⟩ <;> decide +kernel

/-- A write that waits in the merge buffer for block 0 of collection 6. -/
def merge0 : MergeEntry := ⟨6, 0, 0, lineA, sramStore false lineA, 1, false, false⟩

theorem witness_HeldWritesMerge :
    (let s := up.updMem fun m => { m with wmb := [merge0] }
     s.blockMerges 6 0 0 = [merge0] ∧ s.stuck (s.entry 6 0 0) = false ∧ s.changing 0 = false ∧
      s.partUsed 6 0 + 64 ≤ s.partLines 6 ∧ allDrained s) ∧
    up.blockMerges 6 0 0 = [] := by
  constructor <;> decide +kernel

/-- A durable write of port 0 that waits for its Depot copy. -/
def waitingWrite : PendWrite := ⟨7, 8, 0, 0, true, .port 0⟩

/-- A coalescing window that ends at 10 s. -/
def window0 : Machine.Window := ⟨0x11, 0, 9999000000, 3, up.mkRec 0x11 0 0xFFFF false [], 0⟩

theorem witness_MemorySmall :
    up.accepting = true ∧ up.linkUp 0 = true ∧
    (let s := up.updMem fun m => { m with windows := [window0] };
     s.mem.windows.find? (fun w => w.kind == window0.kind && w.obj == window0.obj) = some window0 ∧ s.windowOver window0 = true) ∧
    (let s := up.updMem fun m => { m with windows := [{ window0 with count := 0 }] };
     s.mem.windows.find? (fun w => w.kind == window0.kind && w.obj == window0.obj) = some { window0 with count := 0 } ∧
       s.windowOver { window0 with count := 0 } = true) ∧
    (let s := up.updMem fun m => { m with writes := [waitingWrite] };
     s.mem.writes = [waitingWrite] ∧ waitingWrite.depot = true ∧ waitingWrite.waiter = .port 0 ∧ s.linkUp 0 = true ∧ s.mem.loanDir = [] ∧
      s.blockMerges 8 0 0 = [] ∧ s.blockLines 8 0 0 = []) ∧ up.mem.reads = [] := by
  refine ⟨?_, ?_, ?_, ?_, ?_, ?_⟩ <;> decide +kernel

/-- Lines of the compressed view of collection 9 by their address, offset, block and Wing: the first and the last header line, and
the last payload line. -/
def viewLines : List (Nat × Nat × Nat × Nat) :=
  [(0xC00000, 0, 0, 0), (0xC00000 + 0x3FC0, 0x3FC0, 255, 3), (0xC00000 + 0x10FFC0, 0x10FFC0, 255, 3)]

/-- The entry of a block of collection 9 in a tier. -/
def entry9 (w blk : Nat) (t : Tier) : CatEntry := { entry0 with coll := 9, wing := w, blk := blk, tier := t }

theorem witness_CompressedViewByEntry :
    ∀ x ∈ viewLines, ∀ t ∈ [Tier.none, .lost, .depot],
      let e := entry9 x.2.2.2 x.2.2.1 t
      let s := withCat [e] up
      taken s 0 x.1 ∧ s.target 0 x.1 = .view 9 x.2.1 ∧
      (if x.2.1 < viewH (s.act.size 9) then x.2.1 / 64 else (x.2.1 - viewH (s.act.size 9)) / 4096) = x.2.2.1 ∧
      s.act.size 9 % 4096 = 0 ∧ x.2.2.1 * 4096 < s.act.size 9 ∧ (s.place 9 (x.2.2.1 * 4096)).wing = x.2.2.2 ∧
      s.wingUp x.2.2.2 = true ∧ s.blockLines 9 x.2.2.2 x.2.2.1 = [] ∧ s.blockMerges 9 x.2.2.2 x.2.2.1 = [] ∧
      (s.entry 9 x.2.2.2 x.2.2.1).tier = t ∧
      (t = .depot → s.entry 9 x.2.2.2 x.2.2.1 = e ∧ e.stored = true ∧ e.hdrDamage = false ∧ s.serves x.2.2.2 (s.entrySel e) = true ∧
        (x.2.1 < viewH (s.act.size 9) ∨ (x.2.1 - viewH (s.act.size 9)) % 4096 / 64 * 64 < s.viewLen e)) := by
  decide +kernel

/-! Commands. -/

/-- The 56 bytes of a command: fields (offset, length, value) over zeros. -/
def cmdBytes (fs : List (Nat × Nat × Nat)) : Bytes := fs.foldl (fun b f => setSlice b f.1 (leBytes f.2.1 f.2.2)) (zeros 56)

/-- A PENDING command on line 0 of a collection's area. -/
def cmdOf (c : Nat) (fs : List (Nat × Nat × Nat)) : Cmd :=
  { coll := c, src := .line 0, bytes := cmdBytes fs, status := 1, detail := 0, result := 0, order := 5, forwarded := false,
    undo := [] }

/-- `up` with commands and live sequences 0 and 15 of pool 0 of collection 5, 20 and 1,024 tokens held. -/
def withCmds (xs : List Cmd) : State :=
  up.updMem fun m => { m with cmds := xs, seqs := [⟨5, 0, 0, none, 20⟩, ⟨5, 15, 15, none, 1024⟩] }

/-- The first command of a state. -/
def cmd1 (s : State) : Cmd := s.mem.cmds.headD (.idle 0 (.line 0))

/-- Does a command run with an opcode? -/
def runs5 (x : Cmd) (op : Nat) : Bool := decide (runs (withCmds [x]) x op)

theorem witness_UnknownOpcodeEnds :
    (∀ x ∈ [cmdOf 5 [(0, 1, 0)], cmdOf 5 [(0, 1, 8)], cmdOf 5 [(0, 1, 255)]],
      (withCmds [x]).due x.coll x.src x.op = some x ∧ x.opOk = false) := by decide +kernel

/-- CREATE of `n` windows of pool 0 from the sequence entry. -/
def createCmd (n : Nat) : Cmd := { cmdOf 5 [(0, 1, 0x10), (8, 1, 0), (12, 2, n)] with src := .seqEntry true }

/-- Pool 0 of collection 5. -/
def pool5 : Pool := ⟨0x100000, 64, 1024, 16, 65536⟩

theorem witness_CreateMakesRoots :
    (∀ n ∈ [1, 14, 15, 1024], let x := createCmd n
      runs5 x 0x10 = true ∧ fieldAt x.bytes 8 1 < 8 ∧ (withCmds [x]).pool 5 0 = some pool5 ∧ 1 ≤ fieldAt x.bytes 12 2 ∧
      fieldAt x.bytes 12 2 ≤ 1024 ∧ ((withCmds [x]).takeWindows 5 0 pool5 n).toOption = if n ≤ 14 then some 1 else none) := by
  decide +kernel

/-- FORK of sequence 0 at token `t` into `n` children. -/
def forkCmd (seq n t : Nat) : Cmd := cmdOf 5 [(0, 1, 1), (8, 4, seq), (12, 2, n), (14, 4, t)]

/-- The fork of sequence 0 at token 0 into one child, at its last Wing. -/
def fork1 : ForkJob := ⟨5, .line 0, 0, 1, 1, 0, [3], []⟩

/-- A state in which that fork is under way. -/
def forking : State :=
  (withCmds [{ forkCmd 0 1 0 with forwarded := true }]).updMem fun m => { m with forks := [fork1] }

/-- A fork of sequence 15 at its 64th token, one block: the last Wing's turn, that of the block, stored on a serving channel. -/
def fork64 : State :=
  let f : ForkJob := ⟨5, .line 0, 15, 1, 1, 64, [3], []⟩
  let e := { entry0 with wing := ((withCmds []).windowBlock 5 pool5 15 0).1, blk := ((withCmds []).windowBlock 5 pool5 15 0).2 }
  withCat [e] ((withCmds [{ forkCmd 15 1 64 with forwarded := true }]).updMem fun m =>
    { m with forks := [{ f with wingsLeft := [e.wing] }] })

theorem witness_ForkMakesChildren :
    (∀ k ∈ [(15, 1, 1024), (0, 14, 0)], let x := forkCmd k.1 k.2.1 k.2.2; let s := withCmds [x]
      runs5 x 1 = true ∧ s.seqPlace 5 k.1 = some (pool5, 0, k.1) ∧ 1 ≤ fieldAt x.bytes 12 2 ∧ fieldAt x.bytes 12 2 ≤ 1024 ∧
      fieldAt x.bytes 14 4 ≤ pool5.cap ∧ ((s.seq? 5 k.1).map (·.depth)).any (· < 16) = true ∧
      (s.takeWindows 5 0 pool5 k.2.1).toOption = some 1) ∧
    (let s := forking; let x := cmd1 s
     s.underWay 5 (.line 0) 1 = some x ∧
      s.mem.forks.find? (fun f => f.coll == x.coll && f.src == x.src && f.wingsLeft.contains 3) = some fork1 ∧
      fork1.wingsLeft = [3] ∧ s.seqPlace 5 0 = some (pool5, 0, 0) ∧ s.seqPlace 5 1 = some (pool5, 0, 1) ∧
      (s.seq? 5 0).isSome = true ∧ fork1.first / 65536 = 0 ∧ s.wingUp 3 = true ∧ fork1.token * pool5.rec_ = 0) ∧
    (let s := fork64; let x := cmd1 s; let k := s.windowBlock 5 pool5 15 0
     s.underWay 5 (.line 0) 1 = some x ∧ s.seqPlace 5 15 = some (pool5, 0, 15) ∧ s.wingUp k.1 = true ∧ 64 * pool5.rec_ % 4096 = 0 ∧
      64 * pool5.rec_ / 4096 = 1 ∧ s.mem.forks.all (·.wingsLeft == [k.1]) = true ∧ s.stuck (s.entry 5 k.1 k.2) = false ∧
      (s.entry 5 k.1 k.2).stored = true ∧ s.blockMerges 5 k.1 k.2 = [] ∧ s.blockLines 5 k.1 k.2 = []) := by
  refine ⟨?_, ?_, ?_⟩ <;> decide +kernel

/-- TRUNCATE of a sequence to `n` tokens. -/
def truncCmd (seq n : Nat) : Cmd := cmdOf 5 [(0, 1, 2), (8, 4, seq), (12, 4, n)]

theorem witness_TruncateCutsTokens :
    (∀ k ∈ [(0, 1025), (0, 1024), (0, 20), (15, 1023 / 64 * 64), (15, 0)], let x := truncCmd k.1 k.2; let s := withCmds [x]
      runs5 x 2 = true ∧ s.seqPlace 5 k.1 = some (pool5, 0, k.1) ∧ (s.seq? 5 k.1).isSome = true) ∧
    pool5.cap < 1025 ∧ (20 ≤ 1024 ∧ 1024 ≤ pool5.cap) ∧ (960 ≤ pool5.cap ∧ 960 < 1024 ∧ 960 * pool5.rec_ % 4096 = 0) ∧
    0 * pool5.rec_ % 4096 = 0 := by
  refine ⟨?_, ?_⟩ <;> decide +kernel

/-- RELEASE of a sequence, and of `n` blocks from block `b`. -/
def releaseSeq (seq : Nat) : Cmd := cmdOf 5 [(0, 1, 3), (12, 4, seq)]
def releaseBlocks (b n : Nat) : Cmd := cmdOf 5 [(0, 1, 3), (8, 1, 1), (16, 8, b), (24, 8, n)]

theorem witness_ReleaseFrees :
    (∀ q ∈ [0, 15], let x := releaseSeq q; let s := withCmds [x]
      runs5 x 3 = true ∧ fieldAt x.bytes 8 1 = 0 ∧ fieldAt x.bytes 16 8 = 0 ∧ fieldAt x.bytes 24 8 = 0 ∧
      s.seqPlace 5 q = some (pool5, 0, q) ∧ (s.seq? 5 q).isSome = true) ∧
    (let x := releaseBlocks 511 1; runs5 x 3 = true ∧ fieldAt x.bytes 8 1 = 1 ∧ fieldAt x.bytes 12 4 = 0 ∧
      (fieldAt x.bytes 16 8 + fieldAt x.bytes 24 8) * 4096 ≤ up.act.size 5) ∧
    (let x := releaseBlocks 511 2; runs5 x 3 = true ∧ fieldAt x.bytes 8 1 = 1 ∧
      up.act.size 5 < (fieldAt x.bytes 16 8 + fieldAt x.bytes 24 8) * 4096) := by
  refine ⟨?_, ?_, ?_⟩ <;> decide +kernel

/-- FENCE, and a command accepted before it. -/
def fenceCmd : Cmd := cmdOf 5 [(0, 1, 4)]
def earlier (status : Nat) : Cmd := { truncCmd 0 1 with src := .line 1, order := 4, status := status }

theorem witness_FenceWaits :
    runs5 fenceCmd 4 = true ∧
    (let s := withCmds [earlier 2, { fenceCmd with forwarded := true }]; let x := { fenceCmd with forwarded := true }
     s.underWay 5 (.line 0) 4 = some x ∧
      (∀ y ∈ s.mem.cmds, y.coll = x.coll → isLine y.src = true → y.order < x.order → y.status ≠ 1) ∧ s.act.durable 5 = false) ∧
    (let s := withCmds [earlier 1, { fenceCmd with forwarded := true }]; let x := { fenceCmd with forwarded := true }
     earlier 1 ∈ s.mem.cmds ∧ (earlier 1).coll = x.coll ∧ isLine (earlier 1).src = true ∧ (earlier 1).order < x.order ∧
      (earlier 1).status = 1 ∧ s.underWay 5 (.line 0) 4 = some x) ∧
    (let x := { fenceCmd with coll := 8, forwarded := true }
     let s := (withCmds [x]).updMem fun m => { m with writes := [waitingWrite] }
     waitingWrite ∈ s.mem.writes ∧ waitingWrite.coll = x.coll ∧ waitingWrite.depot = true ∧ s.act.durable 8 = true ∧
      s.underWay 8 (.line 0) 4 = some x) ∧
    (let x := { fenceCmd with coll := 8, forwarded := true }
     (withCmds [x]).underWay 8 (.line 0) 4 = some x ∧ (withCmds [x]).act.durable 8 = true ∧ (withCmds [x]).mem.writes = []) := by
  refine ⟨?_, ?_, ?_, ?_, ?_⟩ <;> decide +kernel

/-- PIN or UNPIN of `n` lots from lot `l` to a tier (1: the Depot). -/
def pinCmd (op l n tier : Nat) : Cmd := cmdOf 5 [(0, 1, op), (8, 8, l), (16, 8, n), (24, 1, tier)]

/-- The Wing lots a command names. -/
def lotsOfCmd (s : State) (x : Cmd) : List (Nat × Nat) :=
  ((List.range (fieldAt x.bytes 16 8)).flatMap fun i => s.lotsOf x.coll (fieldAt x.bytes 8 8 + i)).eraseDups

theorem witness_PinsHold :
    (∀ k ∈ [(0, 1, 0), (31, 1, 0), (31, 1, 1), (0, 32, 1)], let x := pinCmd 5 k.1 k.2.1 k.2.2; let s := withCmds [x]
      fieldAt x.bytes 16 8 ≠ 0 ∧ fieldAt x.bytes 8 8 + fieldAt x.bytes 16 8 ≤ s.act.size 5 / 65536 ∧
      runs5 x 5 = true ∧ fieldAt x.bytes 24 1 = k.2.2 ∧ bit1 (!(k.2.2 == 0)) = k.2.2 ∧
      (lotsOfCmd s x).any (fun l => s.act.pinAt x.coll (s.collLots x.coll l.1 l.2) == some (!(k.2.2 == 0))) = false ∧
      (lotsOfCmd s x).all (fun l => s.act.pinAt x.coll (s.collLots x.coll l.1 l.2) == none) = true) ∧
    (∀ tier ∈ [0, 1], let x := { pinCmd 5 31 1 tier with forwarded := true }; let s := withCmds [x]
     s.underWay 5 (.line 0) 5 = some x ∧ (lotsOfCmd s x).all (fun k => s.resides x.coll k.1 k.2 (tier == 0)) = true) ∧
    (∀ tier ∈ [0, 1], runs5 (pinCmd 6 31 1 tier) 6 = true) := by
  refine ⟨?_, ?_, ?_⟩ <;> decide +kernel

/-- An ingest record with the zero flag for block `b` of a collection (R114). -/
def zeroRecord (c b : Nat) : Bytes := leBytes 2 0xC51A ++ [1, 1] ++ leBytes 2 c ++ zeros 2 ++ leBytes 8 b

/-- The load window of port 0 carries records of collection 7. -/
def loading (c b : Nat) : State :=
  up.updMem fun m => { m with ingest := [⟨.loadWindow 0, 7, zeroRecord c b ++ zeros 16, 0, [], 0, 0, false, false⟩] }

/-- Its stream. -/
def stream0 (s : State) : IngestStream := (s.stream? (.loadWindow 0)).getD ⟨.loadWindow 0, 0, [], 0, [], 0, 0, false, false⟩

theorem witness_IngestRecords :
    (let s := loading 7 255; let x := stream0 s
     s.accepting = true ∧ s.stream? (.loadWindow 0) = some x ∧ x.front = .record 16 ∧ x.whole = false ∧
      fieldAt (slice x.bytes 0 16) 3 1 = 1 ∧ fieldAt (slice x.bytes 0 16) 8 8 = 255 ∧ s.place 7 (4096 * 255) = ⟨3, 255, 0⟩ ∧
      s.checkRecord (.loadWindow 0) 7 (slice x.bytes 0 16) = (s, none)) ∧
    (let s := loading 7 256; let x := stream0 s
     s.accepting = true ∧ s.stream? (.loadWindow 0) = some x ∧ x.front = .record 16 ∧
      s.checkRecord (.loadWindow 0) 7 (slice x.bytes 0 16) = (s, some 2)) := by
  refine ⟨?_, ?_⟩ <;> decide +kernel

theorem witness_HeatHalves :
    up.accepting = true ∧ up.mem.periodAt + up.heatPeriod * 1000000 ≤ up.tsc ∧
    (let s := up.updMem fun m => { m with periodAt := 9990000001 }
     s.accepting = true ∧ s.tsc < s.mem.periodAt + s.heatPeriod * 1000000) := by decide +kernel

/-! The Workbench. -/

/-- A layout image: not of the library unless `flags` says so, 1 column and 1 row of tiles, up to 4 operands. -/
def layoutOf (id flags args : Nat) : Bytes :=
  zeros 5 ++ [byteOf flags] ++ zeros 2 ++ leBytes 4 id ++ zeros 4 ++ [1, 1] ++ zeros 6 ++ leBytes 2 1 ++ leBytes 2 1 ++
    [0, 4] ++ leBytes 2 args ++ zeros 96

/-- `up` with layout 1 in the ACTIVE edition. -/
def withLayout (s : State) : State :=
  { s with ed := { s.ed with active := { s.ed.active with vals := s.ed.active.vals ++ [⟨0x4002, 1, 0, layoutOf 1 0 0⟩] } } }

/-- A launch of layout `n` on Wing `w` with its parameter block at `a`. -/
def launchCmd (n w a : Nat) : Cmd := cmdOf 5 [(0, 1, 7), (8, 4, n), (12, 1, w), (16, 8, a)]

theorem witness_LaunchChecks :
    ∀ k ∈ [(1, 0, 0), (1, 3, 0x1FFF80), (2, 0, 0), (1, 4, 0), (1, 0, 32), (1, 0, 0x1FFFC0)],
      let x := launchCmd k.1 k.2.1 k.2.2; runs (withLayout (withCmds [x])) x 7 := by decide +kernel

/-- A parameter block with no operands and no arguments (R169). -/
def paramLine : Bytes := leBytes 2 0x4A42 ++ [1] ++ zeros 61

/-- A launch under way whose parameter block is the last two lines of collection 5, cached on their Wing. -/
def launching (poison : Bool) : State :=
  let line (n : Nat) (d : Bytes) (p : Bool) : CacheLine := tagged { CacheLine.filled 5 3 n d p false with dirty := true }
  ((withLayout (withCmds [{ launchCmd 1 3 0xFFF80 with forwarded := true }])).updMem fun m =>
    { m with cache := [line (64 * 255 + 62) paramLine false, line (64 * 255 + 63) (zeros 64) poison] })

theorem witness_JobAdmission :
    (∀ p ∈ [false, true], let s := launching p; let x := cmd1 s; let r := s.linesNow 5 0xFFF80 2
      s.underWay 5 (.line 0) 7 = some x ∧ fieldAt x.bytes 12 1 = 3 ∧ fieldAt x.bytes 16 8 = 0xFFF80 ∧
      s.layoutImage (fieldAt x.bytes 8 4) = layoutOf 1 0 0 ∧ layoutOf 1 0 0 ≠ [] ∧ s.wingUp 3 = true ∧ r.2.2 = p) ∧
    (let s := launching false; let r := s.linesNow 5 0xFFF80 2; let h := layoutOf 1 0 0; let b := r.2.1
     paramExtent b = 128 ∧ 0xFFF80 + 128 ≤ s.act.size 5 ∧ paramsOk h b = true ∧
      r.1.operandsOk h 5 (paramOperands b) (slice b 128 (fieldAt b 4 2)) = true ∧ fieldAt b 3 1 = 0 ∧
      (r.1.placeJob h 5 3).toOption = some [0]) := by
  refine ⟨?_, ?_⟩ <;> decide +kernel

/-- A job of layout 1 with operand 0 read and operand 1 written, one line each. -/
def job0 : Job :=
  { num := 16, wing := 0, coll := 5, layout := 1, header := layoutOf 1 0 0, ticket := 0, event := false, paramOffset := 0,
    operands := [⟨5, 0, 1, 0, 64⟩, ⟨5, 1, 1, 64, 64⟩], args := [], homeOnly := false, timeLimit := 1, tiles := [63], streams := 1,
    bandwidth := 1, clearing := false, started := 9999000000, lines := [], written := [], poisoned := 0, crcFails := 0, status := 0,
    ending := none }

/-- `up` with a job. -/
def withJob (j : Job) : State := { withLayout up with wb := { up.wb with jobs := [j] } }

theorem witness_JobStarts :
    (withJob { job0 with clearing := true }).job? 16 = some { job0 with clearing := true } := by decide +kernel

/-- A line a job has read. -/
def lineOf (o off : Nat) (d : Bytes) (p : Bool) : JobLine := ⟨o, off, d, sramStore p d, p⟩

theorem witness_JobStreams :
    (∀ e ∈ [up.entry 5 0 0, entry0], let s := withCat [e] (withJob job0)
     s.started? 16 = some job0 ∧ s.job? 16 = some job0 ∧ s.readable job0 0 0 = some 5 ∧ s.mem.reads = [] ∧ job0.line? 0 0 = none ∧
      libOf job0.header ≠ some .delta ∧ s.borrows job0 5 0 = false ∧ s.noData 5 0 = false ∧ s.place 5 0 = ⟨0, 0, 0⟩ ∧
      s.wingUp 0 = true ∧ s.cached? 5 0 0 = none ∧ s.merge? 5 0 0 = none ∧ s.entry 5 0 0 = e ∧
      (e.tier = .none ∨ e.stored = true ∧ e.crcFailed = false ∧ e.hdrDamage = false ∧ e.segDamage = 0 ∧
        s.serves 0 (s.entrySel e) = true)) ∧
    (let j := { job0 with lines := [lineOf 0 0 lineA false] }
     let s := withJob j
     s.started? 16 = some j ∧ (1, 64) ∈ s.outLines j ∧ (1, 64) ∉ j.written ∧ libOf j.header ≠ some .gather ∧
      (s.outLine j 1 64).any (·.mask != 0) = true ∧ (∀ x ∈ j.lines, (sramReadLine x.data x.check).1 ≠ .uncorrectable)) := by
  refine ⟨?_, ?_⟩ <;> decide +kernel

/-- A KV-GATHER of one token whose index, 1,024, is the pool's capacity. -/
def gather0 : Job :=
  { job0 with
    header := setSlice (layoutOf 0x105 1 12) 16
      ([2, 2, 0, 0] ++ leBytes 4 0x40000 ++ leBytes 2 6 ++ leBytes 2 32 ++ [1, 1])
    args := leBytes 4 0 ++ leBytes 4 15 ++ leBytes 4 1, operands := [⟨5, 0, 6, 0, 64⟩]
    lines := [lineOf 0 0 (leBytes 4 1024 ++ zeros 60) false] }

/-- A durable write of job 16 that waits for its Depot copy. -/
def jobWrite : PendWrite := { waitingWrite with waiter := .job 16 1 64 }

theorem witness_JobEnds :
    (∀ p ∈ [false, true], let j := { job0 with lines := [lineOf 0 0 (zeros 64) p] }; let s := withJob j
      s.started? 16 = some j ∧ (∀ y ∈ s.wb.jobs, y.ending = none) ∧ s.jobFinished j = true ∧ s.jobBusy 16 = false) ∧
    (let s := withJob gather0
     s.started? 16 = some gather0 ∧ libOf gather0.header = some .gather ∧ (s.gatherFault gather0).isSome = true ∧
      (s.outLines gather0).all gather0.written.contains = true ∧ s.jobBusy 16 = false) ∧
    (job0.timeLimit ≠ 0 ∧ job0.started + job0.timeLimit * 1000000 ≤ up.tsc ∧ (withJob job0).jobBusy 16 = false) ∧
    (let s := (withJob job0).updMem fun m => { m with writes := [jobWrite] }; s.started? 16 = some job0 ∧ s.jobBusy 16 = true) ∧
    (let j := { job0 with timeLimit := 0 }; (withJob j).started? 16 = some j ∧ j.timeLimit = 0) := by
  refine ⟨?_, ?_, ?_, ?_, ?_⟩ <;> decide +kernel

/-! Channels. -/

/-- A channel of `up`. -/
def chanOf (s : State) (w sel : Nat) : Chan := (s.chan? w sel).getD (.reset w sel)

/-- `up` with a channel changed. -/
def withChan (w sel : Nat) (f : Chan → Chan) : State := up.updChan w sel f

/-- Is the channel there under its own numbers? -/
def hasChan (s : State) (w sel : Nat) : Bool :=
  match s.chan? w sel with | some c => c.wing == w && c.sel == sel | none => false

theorem witness_CorrectedWindowEnds :
    (hasChan up 3 0x2F = true ∧ (chanOf up 3 0x2F).winEnd < up.tsc / 1000000000) ∧
    (let s := withChan 0 3 fun c => { c with winCorrected := 1001 }; hasChan s 0 3 = true ∧ (chanOf s 0 3).winEnd < s.tsc / 1000000000) ∧
    (let s := withChan 0 3 fun c => { c with winEnd := 10 }; hasChan s 0 3 = true ∧ s.tsc / 1000000000 ≤ (chanOf s 0 3).winEnd) := by
  decide +kernel

/-- `up` with a diagnostic edition ACTIVE, the Host port's key, and Wing 3's window on the first and last lines of a channel. -/
def splitAt (sel a : Nat) : State :=
  let s := { up with ed := { up.ed with holder := .host, lease := 20000000000
                                        active := { up.ed.active with vals := up.ed.active.vals ++ [(⟨0x7003, 2, 0, [1]⟩ : EdVal)] } } }
  s.updSplit 3 fun x => { x with sel := sel, addr := a, data := lineA, check := (List.range 16).map byteOf }

/-- Wing 3's window. -/
def split3 (s : State) : Split := (s.split.find? (·.wing == 3)).getD (.reset 3)

theorem witness_SplitWrite :
    ∀ k ∈ [(0, 0), (3, 64 * 1023), (0x10, 0), (0x2F, 64 * 35156249)],
      let s := splitAt k.1 k.2; let x := split3 s
      s.splitOpen 3 = true ∧ s.split.find? (·.wing == 3) = some x ∧ s.splitDest x = .chan k.1 k.2 ∧ k.2 % 64 = 0 ∧
      k.2 < 2 ^ 40 ∧ x.data.length = 64 ∧ (s.rawLine 3 k.1 k.2).1.length = 64 ∧ idle s 3 k.1 := by decide +kernel

theorem witness_SplitWriteSram :
    ∀ a ∈ [0, 64 * (sramLines - 1)], let s := (splitAt 0x40 a).updPkg fun p => { p with bootMode := 2 }; let x := split3 s
      s.splitOpen 3 = true ∧ s.split.find? (·.wing == 3) = some x ∧ s.splitDest x = .sram a := by decide +kernel

theorem witness_SplitWriteShut :
    up.splitOpen 3 = false ∧
    (∀ k ∈ [(0x30, 0), (0, 2 ^ 40 - 64), (0x10, 64 * 35156250)], let s := splitAt k.1 k.2; let x := split3 s
      s.splitOpen 3 = true ∧ s.split.find? (·.wing == 3) = some x ∧ s.splitDest x = .refused 5) ∧
    (let s := (splitAt 0 0).updChan 3 0 fun c => { c with st := 3 }; let x := split3 s
     s.splitOpen 3 = true ∧ ∀ sel a, s.splitDest x ≠ .chan sel a) := by
  refine ⟨by decide +kernel, by decide +kernel, by decide +kernel, ?_⟩
  have h : ((splitAt 0 0).updChan 3 0 fun c => { c with st := 3 }).splitDest
      (split3 ((splitAt 0 0).updChan 3 0 fun c => { c with st := 3 })) = .refused 4 := by decide +kernel
  simp [h]

/-- A read of class 0 that waits for a rank of a Depot channel of Wing 0. -/
def urgent : State := readWaits.updMem fun m => { m with reads := [{ waitingRead with cls := 0, stage := .queued }] }

theorem witness_Refreshes :
    (let s := up.updChan 0 3 fun c => { c with postponed := [(3, 3)], pendingBand := some 2 }; let c := chanOf s 0 3
     hasChan s 0 3 = true ∧ c.refreshes = true ∧ isDepot 3 = true ∧ 0 < s.pkg.dimms ∧ s.changing 0 = false ∧
      s.urgentReads 0 3 1 = false) ∧
    (∀ n ∈ [3, 4], let s := urgent.updChan 0 0 fun c => { c with postponed := [(0, n)] }; let c := chanOf s 0 0
     hasChan s 0 0 = true ∧ c.refreshes = true ∧ 0 < s.pkg.dimms ∧ s.changing 0 = false ∧ s.urgentReads 0 0 0 = true ∧ c.owed 0 = n) ∧
    (let s := withChan 0 0x1F fun c => { c with pendingBand := some 0 }
     hasChan s 0 0x1F = true ∧ (chanOf s 0 0x1F).refreshes = true ∧ isDepot 0x1F = false) := by
  refine ⟨?_, ?_, ?_⟩ <;> decide +kernel

theorem witness_ThermalPoll :
    (∀ b ∈ [0, 3], let s := withChan 0 3 fun c => { c with band := b }; let c := chanOf s 0 3
      s.pw.stewardUp = true ∧ hasChan s 0 3 = true ∧ isDepot 3 = true ∧ (∀ x ∈ s.chans, x.wing = 0 → x.sel = 3 → x = c) ∧
      (85 : Int) ≤ 85 ∧ c.band ≤ 3) := by decide +kernel

theorem witness_RankPowersDown :
    hasChan up 0 3 = true ∧ isDepot 3 = true ∧ (chanOf up 0 3).st = 2 ∧ up.mem.reads = [] ∧ (chanOf up 0 3).wq = [] ∧
    1 < 2 * up.pkg.dimms ∧ 1 ∉ (chanOf up 0 3).poweredDown ∧ up.changing 0 = false ∧
    (((chanOf up 0 3).idleFrom.find? (·.1 == 1)).map (·.2)).getD 0 + up.act.nat 0x2810 2 0 1000 ≤ up.tsc := by decide +kernel

theorem witness_AlertsFreeze :
    ∀ sel ∈ [0, 3, 0x10, 0x2F], hasChan up 3 sel = true ∧ up.wingUp 3 = true ∧ (chanOf up 3 sel).refreshes = true ∧
      up.reserveHeld 3 sel = true ∧ isDepot sel = decide (sel < 4) := by decide +kernel

theorem witness_FrozenStaysAsItIs :
    ∀ st ∈ [0, 3, 6], let s := withChan 0 0 fun c => { c with st := st }
      hasChan s 0 0 = true ∧ (chanOf s 0 0).st = st := by decide +kernel

theorem witness_ReentryAndRetirement :
    (∀ st ∈ [4, 5], let s := withChan 0 0x10 fun c => { c with st := st, epoch := 65535 }
      hasChan s 0 0x10 = true ∧ s.wingUp 0 = true ∧ s.accepting = true ∧ s.changing 0 = false ∧ s.mem.cache = [] ∧ s.mem.forks = [] ∧
      (chanOf s 0 0x10).st = st ∧ s.blocksOnChan 0 0x10 = []) := by decide +kernel

/-- A frequency change of Wing 2 to set 1 is under way. -/
def changing : State := { up with pw := { up.pw with freqChange := [(2, 1)] } }

theorem witness_FrequencyChangeEnds : changing.pw.freqChange.head? = some (2, 1) ∧ allDrained changing := by decide +kernel

/-! The Corridor and time. -/

/-- Port 0 of Wing 0 (die 4), whose link goes to Lobby 0, changed. -/
def withPort (f : CPort → CPort) : State := up.updCport 4 0 f

/-- A port. -/
def portOf (s : State) (die i : Nat) : CPort := (s.cport? die i).getD (.reset die i)

/-- Is the port there under its own numbers, in a state? -/
def isPort (s : State) (die i st : Nat) : Bool :=
  match s.cport? die i with | some p => p.die == die && p.idx == i && p.st == st | none => false

/-- Sound DATA flits of stream 3, with seq 5 and 4095. -/
def flit5 : Bytes := mkFlit 3 0 5 0 (zeros 120)
def flit4095 : Bytes := mkFlit 31 0 4095 127 (zeros 119 ++ [1])

/-- Lobby 1's port to Lobby 0 receives the first flit of stream 3, which goes on to Wing 2 by port 0. -/
def flit3 : Bytes := mkFlit 3 0 0 0 (zeros 120)
def passing : State := up.updCport 1 0 fun p => { p with credits := p.credits.set 3 1 }

theorem witness_DataFlits :
    (∀ f ∈ [flit5, flit4095, flit3], flitSound f = true ∧ flitType f = 0) ∧
    (let s := withPort fun p => { p with expect := 4095, sinceAck := 14 }
     isPort s 4 0 2 = true ∧ ahead (portOf s 4 0) flit4095 = 0 ∧ (portOf s 4 0).sinceAck < 15 ∧
      s.forwardTo 4 0 (flitStream flit4095) = none ∧ flitStream flit4095 ≠ 1) ∧
    (let s := passing
     isPort s 1 2 2 = true ∧ ahead (portOf s 1 2) flit3 = 0 ∧ (portOf s 1 2).sinceAck < 15 ∧
      s.forwardTo 1 2 (flitStream flit3) = some (0, 3) ∧ isPort s 1 0 2 = true ∧ (portOf s 1 0).sendq = [] ∧
      (portOf s 1 0).unacked < 1024 ∧ (portOf s 1 0).credits.getD 3 0 ≠ 0) ∧
    (let s := withPort fun p => { p with expect := 0 }
     isPort s 4 0 2 = true ∧ 3072 ≤ ahead (portOf s 4 0) flit4095) ∧
    (let s := withPort fun p => { p with expect := 0, nakUntil := some 10000000001 }
     isPort s 4 0 2 = true ∧ 0 < ahead (portOf s 4 0) flit5 ∧ ahead (portOf s 4 0) flit5 < 1024 ∧
     (portOf s 4 0).nakUntil = some 10000000001 ∧ s.tsc < 10000000001) ∧
    (let s := withPort fun p => { p with expect := 3078 }
     isPort s 4 0 2 = true ∧ ahead (portOf s 4 0) flit5 = 1023 ∧ (portOf s 4 0).nakUntil = none) := by
  refine ⟨?_, ?_, ?_, ?_, ?_, ?_⟩ <;> decide +kernel

theorem witness_BadFlitDiscarded :
    let f := flit5.set 7 1
    isPort up 4 0 2 = true ∧ f.length = 128 ∧ fieldAt f 124 4 ≠ crc32c (slice f 0 124) := by decide +kernel

/-- Three unacknowledged flits, the oldest with seq 4095, and a LINK flit that acknowledges seq 0. -/
def unacked3 : State := withPort fun p => { p with oldest := 4095, replay := [flit4095, flit5, flit5].map (Sram.store false), timerFrom := 9999998500 }
def linkFlit0 : Bytes := mkFlit 0 1 0 127 (byteOf 1 :: zeros 7 ++ [5] ++ zeros 30 ++ [9] ++ zeros 80)

theorem witness_LinkFlitAcknowledges :
    isPort unacked3 4 0 2 = true ∧ flitSound linkFlit0 = true ∧ flitType linkFlit0 = 1 ∧ (portOf unacked3 4 0).sendq = [] ∧ fieldAt linkFlit0 4 1 % 4 = 1 ∧
    (bits (fieldAt linkFlit0 5 2) 0 12 + 4096 - (portOf unacked3 4 0).oldest) % 4096 < (portOf unacked3 4 0).replay.length := by
  decide +kernel

/-- Every timer of the port due. -/
def timersDue : State := unacked3.updCport 4 0 fun p => { p with ackFrom := some 9999999800, nakUntil := some 10000000000, stalled := 6 }

theorem witness_LinkTimers :
    let s := timersDue; let p := portOf s 4 0
    isPort s 4 0 2 = true ∧ p.ackFrom = some 9999999800 ∧ 9999999800 + 200 ≤ s.tsc ∧ p.nakUntil = some 10000000000 ∧
    10000000000 ≤ s.tsc ∧ p.replay ≠ [] ∧ replaySound p ∧ p.timerFrom + 1500 ≤ s.tsc ∧ p.stalled < 7 := by decide +kernel

/-- The port retraining after `n` failures, its lock lost 50 us ago. -/
def retraining (n : Nat) : State := withPort fun p => { p with st := 3, retrainFails := n, lostAt := some 9999950000, replay := [Sram.store false flit5] }

theorem witness_LinkRetrains :
    isPort up 4 0 2 = true ∧ up.pkg.asm.peer 4 0 ≠ some (4, 0) ∧
    (∀ n ∈ [1, 2], let s := retraining n
      isPort s 4 0 3 = true ∧ s.pllHolds 4 0 = false ∧ (portOf s 4 0).retrainFails = n ∧ s.pkg.asm.peer 4 0 ≠ some (4, 0) ∧ (portOf s 4 0).sendq = [] ∧
      replaySound (portOf s 4 0) ∧ (portOf s 4 0).lostAt = some 9999950000 ∧ 9999950000 + 50000 ≤ s.tsc) := by decide +kernel

/-- The port under bring-up after `n` failed tries, and HELLOs that fit and do not. -/
def bringing (n : Nat) : State := withPort fun p => { p with st := 1, helloTries := n }
def helloOf (version : Nat) : HelloMsg := { die := 0, version := version, features := 7, mark := 2, certOk := true }

theorem witness_HelloBringsUp :
    ∀ n ∈ [0, 1, 2], let s := bringing n
      isPort s 4 0 1 = true ∧ s.helloOk 4 0 (helloOf 2) = true ∧ s.helloOk 4 0 (helloOf 1) = true ∧
      s.helloOk 4 0 (helloOf 3) = false ∧ (portOf s 4 0).helloTries = n ∧
      (∀ w ∈ s.wingEnds 4 0, (s.die? (wingDie w)).any (·.isoState == 2) = false) := by decide +kernel

/-- A loan message of a kind from Wing 1 for line 7 of collection 10, Homed on Wing 0, on which lines are lent. -/
def loaning (k : Nat) : State :=
  let e := edition [(0x3001, 1, 10, 1), (0x3001, 3, 10, 0x100000), (0x3003, 1, 10, 1), (0x3003, 2, 10, 1), (0x3004, 2, 10, 1)]
  { up with
    ed := { up.ed with active := { up.ed.active with vals := up.ed.active.vals ++ e.vals } }
    mem := { up.mem with
      colls := up.mem.colls ++ [⟨10, 1, false, false, false⟩]
      keys := up.mem.keys ++ [⟨10, 0, 1⟩]
      loanDir := [⟨10, 7, [1, 2], 0⟩]
      loans := [⟨1, 10, 7, zeros 64, sramStore false (zeros 64), false, 0⟩]
      loanMsgs := [⟨k, 1, 10, 7, if k = 2 then lineA else [], false⟩] } }

theorem witness_LoansAreRecalled :
    (∀ k ∈ [1, 2, 3, 4], ((loaning k).loanMsg? k 1 10 7).isSome = true ∧ allDrained (loaning k)) ∧
    ((loaning 1).dirOf ((loaning 1).loanHome 10)).length < 262144 ∧ 0 < (loaning 2).act.loanShare 10 ∧ (loaning 4).wb.jobs = [] := by
  decide +kernel

/-- A die. -/
def dieOf (s : State) (c : Nat) : Die := (s.die? c).getD (.reset c)

/-- `up` with die 5 changed. -/
def withDie (f : Die → Die) : State := up.updDie 5 f

theorem witness_Heartbeats :
    (let d := dieOf up 5
     up.running = true ∧ up.pkg.masterLost = false ∧ up.die? d.code = some d ∧ d.code = 5 ∧ d.present = true ∧
     d.code ≠ up.pkg.primary ∧ d.reachable = true ∧ up.tsc < d.lastBeat + 1000000) ∧
    (let s := withDie fun d => { d with lastBeat := 9999000000 }; let d := dieOf s 5
     s.running = true ∧ s.pkg.masterLost = false ∧ s.die? d.code = some d ∧ d.present = true ∧ d.code ≠ s.pkg.primary ∧
     d.inService = true ∧ d.lastBeat + 1000000 ≤ s.tsc ∧ s.pw.emergency = false) := by decide +kernel

theorem witness_TimeSync :
    (let d := dieOf up 5
     up.running = true ∧ up.die? d.code = some d ∧ d.present = true ∧ d.code ≠ up.pkg.primary ∧ up.pkg.masterLost = false ∧
     d.uncertain = false ∧ d.skewHigh = false ∧ timeDiff (up.dieTsc d.code) (10000000003 + 5) = -8 ∧
     timeDiff (up.dieTsc d.code) (9999999987 + 5) = 8 ∧ timeDiff (up.dieTsc d.code) (10000000060 + 5) < -64) ∧
    (let s := withDie fun d => { d with lastSync := 9999000000 }; let d := dieOf s 5
     s.running = true ∧ s.die? d.code = some d ∧ d.present = true ∧ d.code ≠ s.pkg.primary ∧ d.uncertain = false ∧
     d.lastSync + 1000000 ≤ s.tsc) := by decide +kernel

/-! The mailbox. -/

/-- A function. -/
def fnOf (s : State) (p : Nat) : Fn := (s.fn? p).getD (.reset p)

theorem witness_MailboxQueries :
    up.mailOpen 0 = true ∧ up.mailOpen 15 = true ∧ (fnOf up 15).background = 0 ∧ up.fn? 15 = some (fnOf up 15) ∧
    (let s := up.updFn 0 fun f => { f with background := 1, scanning := true }
     s.mailOpen 0 = true ∧ s.fn? 0 = some (fnOf s 0) ∧ (fnOf s 0).background ≠ 0) := by decide +kernel

/-- Two events of port 0 and one of port 1 in the Dynamic Capacity log. -/
def logged : State :=
  up.updMem fun m => { m with
    dcLog := [⟨0, 5, false, true, 1, 1⟩, ⟨1, 5, false, true, 1, 1⟩, ⟨0, 6, false, false, 2, 2⟩]
    dcWait := [⟨0, 7, false, true, 3, 3⟩] }

theorem witness_EventLogs :
    logged.mailOpen 0 = true ∧ logged.fn? 0 = some (fnOf logged 0) ∧ logged.mem.dcWait ≠ [] ∧
    ([1, 2].all fun h => logged.mem.dcLog.any fun v => v.port == 0 && v.handle == h) = true ∧
    ([0, 1, 2, 3, 255] : List Nat).length = 5 ∧ ([0, 1, 2, 3, 255].all (· < 256)) = true := by decide +kernel

/-- An extent of collection 5 at port 0 in a state of its life. -/
def extentIn (st : ExtState) : Extent := { extentOf 5 1 0 0x210000 with st := st, deadline := 10000000000 }
def withExtent (st : ExtState) : State := up.updMem fun m => { m with extents := [extentIn st, extentOf 6 2 0x400000 0x110000] }

theorem witness_DynamicCapacity :
    (let s := withExtent .offered; let x := extentIn .offered
     x.port = 0 ∧ x ∈ s.mem.extents ∧ s.mailOpen 0 = true ∧
     s.namedExtents 0 [(s.extentDpa x, x.length)] (·.st == .offered) = some [x]) ∧
    (let s := withExtent .accepted; let x := extentIn .accepted
     x.port = 0 ∧ x ∈ s.mem.extents ∧ s.mailOpen 0 = true ∧
     s.namedExtents 0 [(s.extentDpa x, x.length)] (·.mapped) = some [x]) ∧
    (let s := withExtent .releasing; let x := extentIn .releasing
     x.port = 0 ∧ x ∈ s.mem.extents ∧ s.mailOpen 0 = true ∧ s.namedExtents 0 [(s.extentDpa x, x.length)] (·.mapped) = some [x] ∧
     x.st ≠ .accepted ∧ s.running = true ∧
     s.mem.extents.find? (fun y => y.same 0 x.coll x.view && y.st == .releasing) = some x ∧ x.deadline ≤ s.tsc) := by decide +kernel

theorem witness_ScanMedia :
    up.mailOpen 0 = true ∧ up.mailOpen 1 = true ∧ up.act.controlPort = 0 ∧ 64 ≠ up.act.regionBase 0 8 ∧
    up.fn.any (·.scanning) = false ∧
    (let s := up.updFn 3 fun f => { f with scanning := true, background := 1 }
     s.mailOpen 0 = true ∧ s.act.controlPort = 0 ∧ s.fn.any (·.scanning) = true) := by decide +kernel

theorem witness_DecoderCommit :
    up.running = true ∧ up.fn? 15 = some (fnOf up 15) ∧ (fnOf up 15).ready = true ∧ (fnOf up 15).resetting = false := by decide +kernel

/-! The function of a port. -/

/-- `up` with engine 0 of port 0 enabled, over a ring of 16 at 0x1000, changed further. -/
def withEngine (f : Engine → Engine) : State :=
  up.updEngine 0 0 fun g => f { g with enable := true, base := 0x1000, size := 4, st := 1, head := 15 }

/-- An engine. -/
def engineOf (s : State) (p i : Nat) : Engine := (s.engine? p i).getD (.reset i)

/-- Is the engine there under its own number? -/
def isEngine (s : State) (p i : Nat) : Bool :=
  match s.fn? p, s.engine? p i with | some f, some g => f.port == p && g.e == i | _, _ => false

theorem witness_MoverRing :
    (let s := withEngine id; let g := engineOf s 0 0
     isEngine s 0 0 = true ∧ g.enable = true ∧ g.st = 1 ∧ g.fetching = false ∧ g.head ≠ 16 % 2 ^ 64 % 2 ^ g.size ∧
     (fnOf s 0).canMaster = true ∧ (fnOf s 0).hostReads.length < (fnOf s 0).tagLimit) ∧
    (∀ st ∈ [3, 4], let s := withEngine fun g => { g with st := st, stopIdx := 15 }; let g := engineOf s 0 0
     isEngine s 0 0 = true ∧ bitSet 0x204 9 = true ∧ bitSet 0x204 8 = false ∧ bitSet 0x304 9 = true ∧ bitSet 0x304 8 = true ∧
     g.st = st ∧ g.enable = true) := by decide +kernel

/-- A descriptor: opcode, flags, collection, host address, offset, length. -/
def descOf (op flags coll host off len : Nat) : Bytes :=
  leBytes 1 op ++ leBytes 1 flags ++ leBytes 2 coll ++ leBytes 4 77 ++ leBytes 8 host ++ leBytes 8 off ++ leBytes 8 len ++ zeros 32

/-- Engine 0 has fetched a descriptor. -/
def fetchedBy (d : Bytes) : State := withEngine fun g => { g with st := 2, desc := some d }

/-- `fetchedBy` with no tag left. -/
def noTags (d : Bytes) : State :=
  (fetchedBy d).updFn 0 fun f => { f with hostReads := (List.range 256).map fun t => ⟨t, 8, false, 0, 64, 0, []⟩ }

/-- Has engine 0 of port 0 fetched the descriptor, with its opcode? -/
def hasDesc (s : State) (op : Nat) (d : Bytes) : Bool :=
  isEngine s 0 0 && s.fetched 0 0 (fun o => o == op) == some d && descOp d == op

theorem witness_MoverDescriptors :
    (let d := descOf 0 0 0 0 0 0
     hasDesc (fetchedBy d) 0 d = true ∧ descSound d = true) ∧
    (let d := descOf 0 0x80 0 0 0 0
     hasDesc (fetchedBy d) 0 d = true ∧ descSound d = false) ∧
    (∀ op ∈ [4, 255], let d := descOf op 1 5 0 0 64
     hasDesc (fetchedBy d) op d = true ∧ 3 < descOp d) ∧
    (let d := descOf 1 1 5 0x10000 0 0x100000; let s := fetchedBy d
     hasDesc s 1 d = true ∧ s.copyCheck 0 d = none ∧ (engineOf s 0 0).issued = 0 ∧ (fnOf s 0).hostReads = [] ∧
     0 < (fnOf s 0).maxRead) ∧
    (let d := descOf 1 1 5 0x10000 0 0x100000; let s := noTags d
     hasDesc s 1 d = true ∧ s.copyCheck 0 d = none ∧ (fnOf s 0).tagLimit ≤ (fnOf s 0).hostReads.length) ∧
    (∀ d ∈ [descOf 1 1 5 32 0 64, descOf 1 1 5 0 0 0, descOf 1 1 12 0 0 64, descOf 1 1 5 0 0x200000 64, descOf 1 1 7 0 0 64],
     hasDesc (fetchedBy d) 1 d = true ∧ ((fetchedBy d).copyCheck 0 d).isSome = true) ∧
    (∀ d ∈ [descOf 2 1 5 32 0 64, descOf 2 1 12 0 0 64, descOf 2 1 5 0 0x200000 64],
     hasDesc (fetchedBy d) 2 d = true ∧ ((fetchedBy d).copyCheck 0 d).isSome = true) ∧
    (let d := descOf 2 1 5 0x10000 0x1FFFC0 64; let s := fetchedBy d
     hasDesc s 2 d = true ∧ s.copyCheck 0 d = none ∧ descLen d = 64 ∧ s.noData (descColl d) (descOff d) = true ∧
     s.wingUp (s.place (descColl d) (descOff d)).wing = true) ∧
    (let d := descOf 3 0 7 0x10 0 0x20; let s := fetchedBy d
     hasDesc s 3 d = true ∧ descSound d = true ∧ descHost d % 16 = 0 ∧ descLen d % 16 = 0 ∧ descLen d ≠ 0 ∧ descOff d = 0 ∧
     s.live (descColl d) = true ∧ s.accepted 0 (descColl d) = true) := by
  refine ⟨?_, ?_, ?_, ?_, ?_, ?_, ?_, ?_, ?_⟩ <;> decide +kernel

/-- Engine 0 waits for its descriptor, the read with tag 3. -/
def fetchRead : HostRead := ⟨3, 0, true, 0x1000 + 64 * 15, 64, 0, List.replicate 64 none⟩
def fetching : State :=
  (withEngine fun g => { g with st := 2, fetching := true }).updFn 0 fun f => { f with hostReads := [fetchRead] }

theorem witness_MoverCompletions :
    let s := fetching; let f := fnOf s 0; let g := engineOf s 0 0
    isEngine s 0 0 = true ∧ f.hostReads.find? (·.tag == 4) = none ∧ f.hostReads.find? (·.tag == 3) = some fetchRead ∧
    fetchRead.engine = 0 ∧ fetchRead.fetch = true ∧ fetchRead.length = 64 ∧ fetchRead.got.length = 64 ∧
    (zeros 64).length = 64 ∧ g.st = 2 ∧ g.fetching = true ∧ s.stream? (.engine (0 / 8) 0) = none := by decide +kernel

theorem witness_LoadWindow :
    (∀ n ∈ [16, 524288], let v := 2 ^ 63 + n * 2 ^ 32 + 7
     up.fn? 1 = some (fnOf up 1) ∧ (fnOf up 1).port = 1 ∧ bitSet v 63 = true ∧ (fnOf up 1).loadBusy = false ∧
     (fnOf up 1).resetting = false ∧ up.accepting = true ∧ loadLength v % 16 = 0 ∧ 0 < loadLength v ∧ loadLength v ≤ 524288) ∧
    loadLength (2 ^ 63 + 17 * 2 ^ 32 + 7) % 16 ≠ 0 ∧
    (let s := up.updFn 1 fun f => { f with loadBusy := true }
     s.fn? 1 = some (fnOf s 1) ∧ (fnOf s 1).port = 1 ∧ (fnOf s 1).loadBusy = true) := by decide +kernel

theorem witness_Interrupts :
    (let s := up.updFn 0 fun f => { f with intStat := 0x10001 }; let f := fnOf s 0
     s.fn? 0 = some f ∧ f.port = 0 ∧ f.usesIntx = true ∧ f.intStat ≠ 0 ∧ f.intStat &&& 0x30001 = f.intStat) ∧
    (∀ v ∈ [0, 63], let s := up.updFn 0 fun f => { f with msixEn := true, pba := 2 ^ 63 + 1 }; let f := fnOf s 0
     s.fn? 0 = some f ∧ f.port = 0 ∧ f.msixEn = true ∧ f.msixMask = false ∧ bitSet f.pba v = true ∧ f.canMaster = true) ∧
    (let eq : EventQueue := { EventQueue.reset with deferred := true, moderation := 255, lastMsg := some 9999745000 }
     let s := up.updFn 0 fun f => { f with queues := List.replicate 16 eq }; let f := fnOf s 0
     s.fn? 0 = some f ∧ f.port = 0 ∧ f.queues[15]? = some eq ∧ eq.deferred = true ∧ 9999745000 + eq.moderation * 1000 ≤ s.tsc) := by decide +kernel

theorem witness_EventQueueRegisters :
    (∀ q ∈ [0, 15], let f := fnOf up 0; let eq := f.queues.getD q .reset
     up.fn? 0 = some f ∧ f.port = 0 ∧ f.queues[q]? = some eq ∧ eq.lost = 0 ∧ eq.enable = false ∧ 4 ≤ bits 16 0 5 ∧
     bits 16 0 5 ≤ 16 ∧ bits 16 0 5 ≠ eq.size ∧ bits 3 0 5 < 4) ∧
    (let eq : EventQueue := { EventQueue.reset with enable := true, base := 4096 }
     let s := up.updFn 0 fun f => { f with queues := List.replicate 16 eq }; let f := fnOf s 0
     s.fn? 0 = some f ∧ f.port = 0 ∧ f.queues[15]? = some eq ∧ eq.lost = 0 ∧ eq.enable = true) ∧
    (let eq : EventQueue := { EventQueue.reset with enable := true, base := 4096, size := 4, tail := 15, head := 0, lost := 7 }
     let s := up.updFn 0 fun f => { f with queues := List.replicate 16 eq }; let f := fnOf s 0
     s.fn? 0 = some f ∧ f.port = 0 ∧ f.queues[0]? = some eq ∧ eq.lost ≠ 0 ∧ f.canWrite eq = false ∧
      f.canWrite { eq with head := 3 % 2 ^ 64 } = true) := by decide +kernel

theorem witness_FunctionResets :
    (let f := fnOf up 0
     up.fn? 0 = some f ∧ f.port = 0 ∧ f.bme = true ∧ f.ready = true ∧ f.link = 2) ∧
    (let s := up.updFn 0 fun f => { f with bme := false, perst := true }; let f := fnOf s 0
     s.fn? 0 = some f ∧ f.port = 0 ∧ f.bme = false ∧ f.perst = true ∧ s.running = true ∧ s.portInService 0 = true) ∧
    (let s := (withEngine fun g => { g with st := 4, stopIdx := 15, aborted := true }).updFn 0 fun f => { f with bme := false }
     let f := fnOf s 0
     s.fn? 0 = some f ∧ f.bme = false ∧ f.engines.any (·.aborted) = true) := by
  decide +kernel

/-- Every function asleep. -/
def asleep : State := { up with fn := up.fn.map fun f => { f with dstate := 3 } }

/-- PME_Turn_Off received on every port but port 0, and then on all of them, with an empty catalogue. -/
def turnedOff : State := { up with fn := up.fn.map fun f => { f with turnOff := f.port != 0 } }
def flushing : State :=
  { up with fn := up.fn.map fun f => { f with turnOff := true }, pw := { up.pw with flushing := true } }

/-- An empty package but for one durable block whose Depot copy stands beside its Gallery form. -/
def flushed : State :=
  withCat [{ entry0 with coll := 8, tier := .gallery, copySlot := some 18 }] flushing

theorem witness_FunctionPower :
    (∀ k ∈ [(2, 4, false), (32, 8, true), (64, 8, true)], ∀ l ∈ [[], up.mem.extents],
     let s := (up.updFn 0 fun f => { f with link := 1 }).updMem fun m => { m with extents := l }; let f := fnOf s 0
     s.fn? 0 = some f ∧ f.port = 0 ∧ f.link = 1 ∧ f.perst = false ∧ s.accepting = true ∧ s.portInService 0 = true ∧
     s.linkMode k.1 k.2.1 k.2.2 = true ∧ s.mem.extents = l) ∧
    (let f := fnOf up 0
     up.running = true ∧ up.pkg.fwRunning = true ∧ f.perst = false ∧ f.link ≠ 0 ∧ f.ready = true ∧ f.resetting = false) ∧
    (let s := asleep; let f := fnOf s 0
     s.fn? 0 = some f ∧ f.port = 0 ∧ f.dstate ≠ 0 ∧ s.accepting = true ∧ s.fn.all (·.asleep) = true ∧ s.mem.reads = [] ∧
     s.mem.writes = [] ∧ s.wb.jobs = [] ∧ s.pw.busyAt + 1000000 ≤ s.tsc) ∧
    (let s := turnedOff; let f := fnOf s 0
     s.fn? 0 = some f ∧ f.port = 0 ∧ s.accepting = true ∧ f.link = 2 ∧ (∀ g ∈ s.fn, g.port ≠ 0 → g.link = 2 → g.turnOff = true)) ∧
    (∀ s ∈ [flushing, flushed], let f := fnOf s 0
     s.fn? 0 = some f ∧ f.port = 0 ∧ s.accepting = true ∧ s.pw.flushing = true ∧ s.allOff = true ∧ s.mem.writes = [] ∧
     s.mem.cache = [] ∧ s.mem.wmb = [] ∧ (∀ e ∈ s.mem.cat, e.tier = .gallery → s.act.durable e.coll = true) ∧ f.link = 2) := by
  refine ⟨?_, ?_, ?_, ?_, ?_⟩ <;> decide +kernel

/-! The dictionary, the key and editions. -/

/-- Does the window of port `p` serve an operation on an index? -/
def serves (s : State) (p op idx : Nat) : Bool :=
  !s.windowHeld (.window p) && s.windowOpen p && s.opServed op idx &&
  (s.ed.holder == .free || decide (s.tsc < s.ed.lease))

/-- `up` with the key at the Host port, and with it at session 7. -/
def keyed : State := { up with ed := { up.ed with holder := .host, lease := 10000000001 } }
def keyedBySession : State := { up with ed := { up.ed with holder := .session 7, lease := 10000000001 } }

theorem witness_WindowOperations :
    (∀ p ∈ [0, 15], up.windowHeld (.window p) = false ∧ up.windowOpen p = true ∧ up.ed.holder = .free) ∧
    odRow 0x1000 4 = none ∧ odRow 0xFFFF 255 = none ∧ (∀ op ∈ [1, 2, 3, 4, 5], up.opServed op 0xFFFF = true) ∧
    (∀ op ∈ [0, 7, 0x3F, 0x42, 255], (op = 0 ∨ (6 < op ∧ op ≠ 0x40 ∧ op ≠ 0x41)) ∧ up.opServed op 0 = true) ∧
    (let s := up.updPkg fun p => { p with phase := 3 }
     s.windowHeld (.window 0) = false ∧ s.windowOpen 0 = true ∧ s.opServed 1 0x3001 = false) ∧
    up.opServed 1 0x1000 = true ∧ up.opServed 1 0x5000 = true ∧ up.opServed 2 0x3000 = true ∧ up.opServed 5 0x3001 = true ∧
    up.opServed 6 0x1000 = true := by
  refine ⟨?_, ?_, ?_, ?_, ?_, ?_, ?_, ?_, ?_, ?_, ?_⟩ <;> decide +kernel

/-- A STAGED copy of ACTIVE, in a state, under the Host port's key. -/
def stagedIn (st : Nat) : State :=
  { keyed with ed := { keyed.ed with staged := some { up.ed.active with num := 1 }, stagedState := st } }

/-- The row of OD 0x2810:02, and of OD 0x3001:03. -/
def rowOf (idx sub : Nat) : OdRow := (odRow idx sub).getD (num 0 0 0 0 0 0 0 0)

/-- The values a staged write takes at the ends of its range. -/
def stagedWrites : List (Nat × Nat × Nat × Bytes) :=
  [(0x2810, 2, 0, leBytes 4 64), (0x2810, 2, 0, leBytes 4 1000000), (0x3001, 3, 5, leBytes 8 (2 ^ 46)), (0x3001, 4, 5, [15])]

theorem witness_StagedAccess :
    ∀ st ∈ [1, 3, 4], ∀ k ∈ stagedWrites,
      let r := rowOf k.1 k.2.1
      let s := (stagedIn st).setCursors (.window 0) fun c => { c with coll := 5 }
      odRow k.1 k.2.1 = some r ∧ r.acc = 4 ∧ r.ty ≤ 8 ∧ (s.cursors (hostPort s)).object r.scope = k.2.2.1 ∧
      s.ed.staged.isSome = true ∧ serves s s.act.controlPort 3 k.1 = true ∧ serves s s.act.controlPort 4 k.1 = true ∧
      s.ed.holder = .host ∧ k.2.2.2.length = r.len ∧ odLo r ≤ leNat (dropRsvd k.1 k.2.2.2) ∧
      leNat (dropRsvd k.1 k.2.2.2) ≤ s.odHi r ∧ s.objectOk r.scope k.2.2.1 = true ∧
      (s.putValue (s.ed.staged.getD s.act) r k.2.1 k.2.2.1 (dropRsvd k.1 k.2.2.2)).domainBytes ≤ s.act.domainBytes + 0x4000000 := by
  decide +kernel

theorem witness_StagedAccessWithoutKey :
    let s := { stagedIn 1 with ed := { (stagedIn 1).ed with holder := .free } }
    serves s s.act.controlPort 4 0x2810 = true ∧ s.ed.staged.isSome = true ∧ s.ed.holder ≠ .host := by decide +kernel

theorem witness_WritesNeedTheKey :
    (∀ k ∈ [(0x2803, 4), (0x1102, 1), (0x8010, 1)], let r := rowOf k.1 k.2
     odRow k.1 k.2 = some r ∧ cursorScope k.1 k.2 = none ∧ r.acc = 5 ∧ r.vis ≤ 1 ∧
     up.unavailable r ((up.cursors (hostPort up)).object r.scope) = false ∧ serves up up.act.controlPort 2 k.1 = true ∧
     up.ed.holder ≠ .host) ∧
    (1 ≠ up.act.controlPort ∧ serves up 1 2 0x2803 = true) := by decide +kernel

theorem witness_KeyIsTakenAndBroken :
    (serves up up.act.controlPort 2 0x1020 = true ∧ up.ed.holder = .free) ∧
    (∀ st ∈ [1, 5], let s := stagedIn st; serves s s.act.controlPort 2 0x1020 = true ∧ s.ed.holder = .host ∧ s.ed.stagedState = st) ∧
    (serves keyedBySession keyedBySession.act.controlPort 2 0x1020 = true ∧ keyedBySession.ed.holder = .session 7) ∧
    (let s := { keyed with tsc := 10000000001 }
     s.running = true ∧ s.ed.holder ≠ .free ∧ s.ed.lease ≤ s.tsc) ∧
    keyed.tsc < keyed.ed.lease := by decide +kernel

/-- An edition other than ACTIVE, and states of the edition machine. -/
def otherEdition : Edition := { up.ed.active with num := 3, vals := up.ed.active.vals.filter fun v => v.obj != 9 || v.idx < 0x3000 }
def withPrevious : State := { keyed with ed := { keyed.ed with previous := some otherEdition } }
def unconfirmed : State := { withPrevious with ed := { withPrevious.ed with confirmed := false, deadline := 10000000001 } }

theorem witness_EditionCommands :
    (serves keyed keyed.act.controlPort 2 0x7001 = true ∧ keyed.ed.holder = .host ∧ keyed.ed.stagedState = 0 ∧
     keyed.ed.confirmed = true) ∧
    (let s := withPrevious
     serves s s.act.controlPort 2 0x7001 = true ∧ s.ed.holder = .host ∧ s.ed.stagedState = 0 ∧ s.ed.confirmed = true ∧
     s.ed.previous = some otherEdition) ∧
    (∀ st ∈ [1, 3, 4, 5], let s := stagedIn st
     serves s s.act.controlPort 2 0x7001 = true ∧ s.ed.holder = .host ∧ s.ed.stagedState = st) ∧
    (let s := unconfirmed
     serves s s.act.controlPort 2 0x7001 = true ∧ s.ed.holder = .host ∧ s.ed.confirmed = false ∧ s.tsc < s.ed.deadline) ∧
    (let s := stagedIn 2; s.running = true ∧ s.ed.staged = some { up.ed.active with num := 1 } ∧ s.ed.stagedState = 2) := by
  decide +kernel

/-- A commit of `otherEdition` in a phase, its instant at an offset in ns from 1 ms before now. -/
def committing (phase decision instant : Nat) : State :=
  { keyed with ed := { keyed.ed with staged := some otherEdition, stagedState := 5, phase := phase, decision := decision,
                                     instant := instant } }

/-- The quiesce of collection 9, which `otherEdition` lacks. -/
def quiescing : State :=
  { up with ed := { up.ed with quiescing := true, incoming := some otherEdition, quiesced := [9] } }

/-- `s` on the /LM1, and with the link of Wing 0's port 0 retraining. -/
def onLm1 (s : State) : State := s.updPkg fun p => { p with mark := 1 }
def withRetrain (s : State) : State := s.updCport 4 0 fun p => { p with st := 3 }

theorem witness_CommitCommand :
    (∀ n ∈ [0, 10005000000, 70000000000], let s := stagedIn 3
     serves s s.act.controlPort 2 0x7002 = true ∧ s.ed.holder = .host ∧ s.ed.stagedState = 3 ∧ s.ed.confirmed = true ∧
     s.ed.phase = 0 ∧ (n = 0 ∨ (s.pkg.mark ≠ 1 ∧ s.tsc + 5000000 ≤ n ∧ n ≤ s.tsc + 60000000000))) ∧
    (serves (onLm1 (stagedIn 3)) 0 2 0x7002 = true ∧ (onLm1 (stagedIn 3)).ed.stagedState = 3) ∧
    (∀ n ∈ [1, 10004999999, 70000000001, 2 ^ 64 - 1], n ≠ 0 ∧ (n < up.tsc + 5000000 ∨ up.tsc + 60000000000 < n)) ∧
    (let s := stagedIn 1; serves s s.act.controlPort 2 0x7002 = true ∧ s.ed.holder = .host ∧ s.ed.stagedState ≠ 3) := by
  decide +kernel

/-- The hash question: the verdict over the answers of the dies asked, whatever the STAGED edition's hash is, when all answer it, and
when the first does not answer or was not prepared. -/
theorem witness_CommitAgreement :
    let s := committing 1 0 10002000000
    let h := leNat (s.editionHash otherEdition)
    let as := fun a => (s.askedDies.map fun d => (d, if d = 0 then a else .hash h))
    s.running = true ∧ s.ed.staged = some otherEdition ∧ s.ed.stagedState = 5 ∧ s.ed.phase = 1 ∧ s.ed.instant ≤ s.tsc + 2000000 ∧
    s.verdict h (as (.hash h)) = none ∧ s.verdict h (as .none) = some (3, 0) ∧ s.verdict h (as .unprepared) = some (1, 0) := by
  refine ⟨by decide +kernel, by decide +kernel, by decide +kernel, by decide +kernel, by decide +kernel, ?_⟩
  generalize leNat ((committing 1 0 10002000000).editionHash otherEdition) = h
  have e : (committing 1 0 10002000000).askedDies = [0, 1, 4, 5, 6, 7] := by decide +kernel
  simp only [State.verdict, e]
  simp [answerFault]

theorem witness_CommitDecision :
    ∀ d ∈ [1, 3], let s := committing 2 d 10001000000
     s.running = true ∧ s.ed.phase = 2 ∧ s.ed.instant ≤ s.tsc + 1000000 ∧ s.ed.decision = d ∧ s.ed.staged = some otherEdition ∧
     s.ed.stagedState = 5 := by decide +kernel

theorem witness_CommitTakesForce :
    ∀ s ∈ [committing 3 1 10000000000, onLm1 (committing 3 1 10000000000)],
     s.ed.staged = some otherEdition ∧ s.atInstant = true ∧ s.retraining = none ∧ s.act.colls.any s.inFlight = false ∧
     s.ed.heldReqs = [] ∧ (withRetrain s).atInstant = true ∧ (withRetrain s).retraining = some 4 ∧
     (withRetrain s).ed.stagedState = 5 := by decide +kernel

theorem witness_QuiesceAndRevert :
    (∀ s ∈ [quiescing, onLm1 quiescing],
     s.running = true ∧ s.ed.incoming = some otherEdition ∧ s.ed.quiescing = true ∧ s.drained otherEdition = true ∧
     s.ed.heldReqs = []) ∧
    (∀ s ∈ [{ unconfirmed with tsc := 10000000001 }, onLm1 { unconfirmed with tsc := 10000000001 }],
     s.running = true ∧ s.ed.previous = some otherEdition ∧ s.ed.confirmed = false ∧ s.ed.quiescing = false ∧
     s.ed.deadline ≤ s.tsc) := by
  refine ⟨?_, ?_⟩ <;> decide +kernel

/-- A job of collection 5 on Wing 0. -/
def jobbed : State :=
  let j : Job := { num := 9, wing := 0, coll := 5, layout := 1, header := zeros 56, ticket := 0, event := false, paramOffset := 0,
                   operands := [], args := [], homeOnly := false, timeLimit := 0, tiles := [3], streams := 0, bandwidth := 0,
                   clearing := false, started := 0, lines := [], written := [], poisoned := 0, crcFails := 0, status := 1,
                   ending := none }
  { up with wb := { up.wb with jobs := [j] } }

/-- Docent 33, bound to program 1, with a faulted role. -/
def faultedRole : State :=
  { up with doc := { up.doc with docents := updWhere (·.id == 33) (fun x => { x with roleFaulted := true }) up.doc.docents } }

/-- The counter OD 0x1020:04 selected. -/
def counting : State := { up with ev := { up.ev with selector := 0x041020 } }

/-- `jobbed` with a durable write of the job that waits. -/
def jobBusyState : State := jobbed.updMem fun m => { m with writes := [{ waitingWrite with waiter := .job 9 1 64 }] }

/-- Sixteen customer triggers of other arguments wait on die 4. -/
def fullQueue : State :=
  { up with doc := { up.doc with triggers := (List.range 16).map fun i => { customer with arg := 1000 + i } } }

/-- Docent 33's faulted role, with context A as given. -/
def faultedWith (running isRole : Bool) : State :=
  faultedRole.updDocent 33 fun x => { x with a := { x.a with running := running, isRole := isRole } }

theorem witness_ControlEntries :
    (serves jobbed jobbed.act.controlPort 2 0x4014 = true ∧ (jobbed.job? 9).isSome = true ∧ jobbed.jobBusy 9 = false ∧
     jobbed.job? 8 = none) ∧
    (serves jobBusyState jobBusyState.act.controlPort 2 0x4014 = true ∧ (jobBusyState.job? 9).isSome = true ∧
     jobBusyState.jobBusy 9 = true) ∧
    (serves up up.act.controlPort 2 0x4121 = true ∧ up.live 5 = true ∧
     (∀ w ∈ up.pkg.asm.wings, up.waitingOn (wingDie w) 3 < 16) ∧ 2 ∈ up.wingsOf 5 ∧ up.wingUp 2 = true) ∧
    (∀ n ∈ [32, 32 + 256 * (2 ^ 56 - 1)], ∀ s ∈ [up, fullQueue],
     serves s s.act.controlPort 2 0x4112 = true ∧ n < 2 ^ 64 ∧ (s.docent? (n % 256)).isSome = true ∧
     s.dieRuns (docDie (n % 256)) = true ∧ s.boundTo (n % 256) 0x10 = true ∧ s.merges (docDie (n % 256)) 0x10 (n / 256) = false) ∧
    (up.waitingOn 4 0x10 < 16 ∧ 16 ≤ fullQueue.waitingOn 4 0x10 ∧ fullQueue.merges 4 0x10 1000 = true) ∧
    (∀ k ∈ [(false, false), (true, true), (true, false)], let s := faultedWith k.1 k.2; let n := 33
     serves s s.act.controlPort 2 0x4111 = true ∧ s.dieRuns (docDie n) = true ∧
     (s.docent? n).any (fun x => x.roleFaulted && x.a.running == k.1 && x.a.isRole == k.2) = true ∧
     s.act.hasProgram (s.roleIn s.act n) = true ∧ (s.docent? 63).any (fun x => !x.roleFaulted) = true ∧
     s.dieRuns (docDie 63) = true) ∧
    (let s := keyed
     serves s s.act.controlPort 2 0x8010 = true ∧ serves s s.act.controlPort 2 0x1102 = true ∧ s.ed.holder = .host ∧
     s.live 5 = true ∧ s.mem.wmb = [] ∧ s.mem.cache = [] ∧ s.live 4095 = false) ∧
    (let s := counting
     serves s s.act.controlPort 2 0x5002 = true ∧ s.selected = some (rowOf 0x1020 4, 4, 0)) := by
  refine ⟨?_, ?_, ?_, ?_, ?_, ?_, ?_, ?_⟩ <;> decide +kernel

/-- The Host port's channel cursor at channel 0x13 of Wing 3, in a state of service, under the key. -/
def ordered (st : Nat) : State :=
  (keyed.updChan 3 0x13 fun c => { c with st := st }).setCursors (.window 0) fun c => { c with chan := 0x313 }

/-- Wing 3 isolated with a cause, under the key. -/
def isolatedBy (cause : Nat) : State := keyed.updDie 7 fun d => { d with isoState := 1, isoCause := cause, inService := false }

theorem witness_ChannelAndWingOrders :
    (∀ st ∈ [0, 1, 2, 3, 6], let s := ordered st
     serves s s.act.controlPort 2 0x2803 = true ∧ s.ed.holder = .host ∧ chanCursor s = 0x313 ∧ hasChan s 3 0x13 = true ∧
     (chanOf s 3 0x13).st = st ∧ s.dieGone (wingDie 3) = false ∧ s.wingUp 3 = true ∧ s.reserveHeld 3 0x13 = true) ∧
    (∀ k ∈ [(0, true), (2, false)], let s := keyed.updDie 7 fun d => { d with isoState := k.1, inService := k.2 }
     serves s s.act.controlPort 2 0x8002 = true ∧ s.ed.holder = .host ∧ (s.die? (wingDie 3)).any (·.isoState == k.1) = true ∧
     (dieOf s 7).present = true ∧ s.wb.jobs = [] ∧ s.chans.all (·.wq.isEmpty) = true) ∧
    (∀ cause ∈ [1, 4, 5], let s := isolatedBy cause
     serves s s.act.controlPort 2 0x8002 = true ∧ s.ed.holder = .host ∧ (dieOf s 7).isoState = 1 ∧
     ((dieOf s 7).isoCause ≠ 4 ∨ s.pkg.bridgeDown = false) ∧ (dieOf s 7).present = true) := by
  refine ⟨?_, ?_, ?_⟩ <;> decide +kernel

/-! The Field port, records, the flash, the fuses and debug unlock. -/

/-- Session 7, open, its last frame numbered 4 and its queue holding `n` records. -/
def session7 (n : Nat) : Session :=
  let x : Rec := { type := 0x60, uncertain := false, coalesced := false, late := false, cleared := false, source := 0x40, coll := 0xFFFF, tsc := 9,
                   payload := [], count := 1 }
  { id := 7, opened := true, last := 4, reply := some (0, [1, 2]), idleFrom := 9999999000, filter := 0,
    queue := List.replicate n x, lost := 0 }
def withSession (n : Nat) : State := { up with ed := { up.ed with sessions := [session7 n] } }

/-- A way SPDM is served over. -/
def ways : List SpdmVia := [.doe 0, .doe 15, .dap, .session 7]

/-- Before the ROM has handed over. -/
def preFirmware : State := up.updPkg fun p => { p with fwRunning := false }

theorem witness_SpdmRequests :
    (∀ v ∈ ways, (withSession 0).spdmOpen v = true ∧ (withSession 0).tooEarly v = false) ∧
    (∀ i ∈ [1, 8], 1 ≤ i ∧ i ≤ 8) ∧ (∀ i ∈ [0, 9, 254], i ≠ 0xFF ∧ (i = 0 ∨ 8 < i)) ∧
    (preFirmware.spdmOpen .dap = true ∧ preFirmware.pkg.fwRunning = false) := by decide +kernel

/-- `up` with a provisioned control root and `n` sessions that are not open. -/
def handshakes (n : Nat) : State :=
  { up with ed := { up.ed with sessions := (List.range n).map fun i => { session7 0 with id := 1 + i, opened := false, reply := none } }
            id := { up.id with controlRoot := some (zeros 97) } }

theorem witness_SessionsStartAndEnd :
    (up.fieldOpen = true ∧ up.pkg.fwRunning = true ∧ up.ed.sessions.length < 8 ∧ up.id.controlRoot = none ∧ up.sessionIds = []) ∧
    (∀ n ∈ [0, 7], (handshakes n).fieldOpen = true ∧ (handshakes n).pkg.fwRunning = true ∧ (handshakes n).ed.sessions.length < 8 ∧
      (handshakes n).id.controlRoot = some (zeros 97)) ∧
    (handshakes 0).sessionIds = [] ∧
    (8 ≤ (handshakes 8).ed.sessions.length ∧ (handshakes 8).fieldOpen = true) ∧
    (let s := withSession 0
     s.fieldOpen = true ∧ (session7 0).opened = true ∧ s.session? 7 = some (session7 0) ∧
     s.tsc < (session7 0).idleFrom + s.act.nat 0x1031 1 0 60 * 1000000000) ∧
    (let s := { withSession 0 with tsc := 69999999000 }
     s.fieldOpen = true ∧ s.session? 7 = some (session7 0) ∧ s.running = true ∧
     (session7 0).idleFrom + s.act.nat 0x1031 1 0 60 * 1000000000 ≤ s.tsc) ∧
    (up.running = true ∧ up.pkg.primary = 0) := by
  refine ⟨?_, ?_, ?_, ?_, ?_, ?_, ?_⟩ <;> decide +kernel

/-- Which transcripts verify is the control root's own: a key exchange that does and one that does not, a finish of session 3 and a
finish of none. -/
theorem witness_KeyExchange (m : Bytes) (b : Bool) (h : Config.spdmVerifies 0 (zeros 97 ++ m) = b) :
    (handshakes 0).id.controlRoot = some (zeros 97) ∧ Config.spdmVerifies 0 (zeros 97 ++ m) = b ∧ (handshakes 0).ed.sessions.length < 8 :=
  ⟨rfl, h, by decide +kernel⟩
theorem witness_FinishOpens (m : Bytes) (h : Config.spdmVerifies 1 m = true) :
    ((handshakes 7).ed.sessions.find? (fun x => !x.opened && Config.spdmVerifies x.id m)).isSome = true := by
  simp [handshakes, List.range, List.range.loop, session7, h]
theorem witness_FinishOpensNone (m : Bytes) : (handshakes 0).ed.sessions.find? (fun x => !x.opened && Config.spdmVerifies x.id m) = none :=
  rfl

/-- Every address has another. -/
theorem otherAddress (n : Nat) : n + 1 ≠ n := by omega
theorem witness_FieldFrames : up.fieldOpen = true ∧ (1 : Nat) ≠ 0 ∧ linkLocal + 1 ≠ linkLocal :=
  ⟨by decide +kernel, by decide, otherAddress linkLocal⟩

/-- `withSession n` with records lost. -/
def withLost (n k : Nat) : State := { up with ed := { up.ed with sessions := [{ session7 n with lost := k }] } }

theorem witness_SequenceNumbers :
    ∀ n ∈ [0, 1, 31, 32, 33, 64], ∀ k ∈ [0, 1, 2 ^ 32 - 1], let s := withLost n k; let x := { session7 n with lost := k }
      s.fieldOpen = true ∧ x.opened = true ∧ s.session? x.id = some x ∧ s.ed.holder = .free ∧ x.reply = some (0, [1, 2]) ∧
      6 ≠ x.last ∧ 6 ≠ x.last + 1 ∧ s.opServed 1 0x6011 = true ∧ x.last + 1 ≠ 2 ^ 32 - 1 := by decide +kernel

/-- A record held for session 7 and host queue 15 of port 0, made at a time; the queue has room, or none. -/
def heldFor (n tsc : Nat) (room : Bool) : State :=
  let x : Rec := { type := 0x61, uncertain := false, coalesced := false, late := false, cleared := false, source := 0x40, coll := 0xFFFF, tsc := tsc,
                   payload := [], count := 1 }
  let eq : EventQueue := { EventQueue.reset with enable := true, base := 4096, size := 4, tail := 15, head := if room then 3 else 0 }
  let s := (withSession n).updFn 0 fun f => { f with queues := List.replicate 16 eq }
  { s with ev := { s.ev with heldRecs := [⟨x, [.session 7, .hostQueue 0 15], 0⟩] } }

theorem witness_HeldRecordsAreDelivered :
    (∀ n ∈ [63, 64], ∀ room ∈ [true, false], let s := heldFor n 9999998000 room; let f := fnOf s 0
      s.ev.heldRecs.length = 1 ∧ (∀ h ∈ s.ev.heldRecs, h.body.tsc + 2000 ≤ s.tsc ∧ Recv.session 7 ∈ h.dest ∧ Recv.hostQueue 0 15 ∈ h.dest ∧
        h.dest.Nodup) ∧
      s.session? 7 = some (session7 n) ∧ (session7 n).opened = true ∧ s.fn? 0 = some f ∧
      (f.queues[15]?).any (fun eq => f.canWrite eq == room) = true) ∧
    (∀ h ∈ (heldFor 0 9999998001 true).ev.heldRecs, (heldFor 0 9999998001 true).tsc < h.body.tsc + 2000) := by decide +kernel

/-- Under the Host port's key, the flash at an offset, an operation under way, and a firmware newer than the fused minimum. -/
def flashing (off : Nat) (op : Option (Bool × Nat × Bytes)) : State :=
  { keyed with id := { keyed.id with flashOff := off, flashOp := op, flash := [(0x200010, 0x0F)], minSvn := 3, svn := 4, svnRaises := 63 } }

theorem witness_FlashAndFuses :
    (∀ off ∈ [0x600000, 0xFFFF00], let s := flashing off none
      serves s s.act.controlPort 2 0xA003 = true ∧ s.ed.holder = .host ∧ s.id.flashOp = none ∧ s.id.flashOff < 0x1000000 ∧
      s.flashGuarded (s.id.flashOff / 65536 * 65536) 65536 = false ∧ s.id.flashOff % 256 = 0 ∧
      s.flashGuarded s.id.flashOff 256 = false) ∧
    (∀ off ∈ [recordBase, 0x100000], let s := flashing off none
     serves s s.act.controlPort 2 0xA003 = true ∧ s.ed.holder = .host ∧ s.id.flashOp = none ∧ s.id.flashOff < 0x1000000 ∧
     s.flashGuarded (s.id.flashOff / 65536 * 65536) 65536 = true ∧ s.id.flashOff % 256 = 0 ∧ s.flashGuarded s.id.flashOff 256 = true) ∧
    ((flashing 0 (some (true, 0x200000, []))).id.flashOp = some (true, 0x200000, [])) ∧
    ((flashing 0 (some (false, 0x200000, zeros 256))).id.flashOp = some (false, 0x200000, zeros 256) ∧ (zeros 256).length = 256) ∧
    (let s := flashing 0 none
     serves s s.act.controlPort 2 0xA001 = true ∧ s.ed.holder = .host ∧ s.id.minSvn < s.id.svn ∧ s.id.svnRaises < 64 ∧
     serves keyed keyed.act.controlPort 2 0xA001 = true ∧ keyed.id.svn ≤ keyed.id.minSvn) ∧
    (let s := flashing 0 none
     serves s s.act.controlPort 2 0xA002 = true ∧ s.ed.holder = .host ∧ (zeros 97).length = 97 ∧ s.id.controlRoot = none ∧
     s.id.provKey = none ∧ s.id.controlBanks = [] ∧ s.id.provBanks = []) := by
  refine ⟨?_, ?_, ?_, ?_, ?_, ?_⟩ <;> decide +kernel

/-- A response under check, and held boot mode under the key. -/
def checking (r : Bytes) : State := { up with id := { up.id with debugState := 1, nonce := some 5, failures := 2, response := r } }
def holding : State := { keyed with pkg := { keyed.pkg with phase := 5, bootMode := 3 } }

theorem witness_DebugUnlock :
    (checking []).id.debugState = 1 ∧ ((checking []).die? (wingDie 3)).any (·.present) = true ∧ up.inChain up.pkg.primary = true ∧
    up.pkg.phase ≠ 5 ∧ holding.inChain holding.pkg.primary = true ∧ holding.pkg.phase = 5 ∧ holding.id.debugState = 0 ∧
    serves holding holding.act.controlPort 1 0x8020 = true ∧ serves holding holding.act.controlPort 2 0x8020 = true ∧
    holding.ed.holder = .host ∧ (zeros 96).length = 96 := by
  decide +kernel

/-- Which responses verify is Barlon's debug key's own: one that does; a response of zeros never does. -/
theorem witness_DebugPasses (r : Bytes) (h : ecdsaVerifies (romKey 2) ((checking r).challengeBytes 5) (slice r 0 96) = true) :
    (checking r).id.debugState = 1 ∧ (checking r).debugPasses = true :=
  ⟨rfl, Bool.and_eq_true_iff.mpr ⟨rfl, h⟩⟩
theorem noSignature (k m sig : Bytes) (e : beNat (slice sig 0 48) = 0) : ecdsaVerifies k m sig = false := by
  unfold ecdsaVerifies
  dsimp only
  split
  · rfl
  · exact if_pos (Or.inl e)
theorem witness_DebugFails : (checking []).id.debugState = 1 ∧ (checking []).debugPasses = false :=
  ⟨rfl, Bool.and_eq_false_iff.mpr (.inr (noSignature _ _ _ (by decide +kernel)))⟩

/-! Telemetry, the Steward, clocks and the emergency input. -/

/-- A die's telemetry with an edition hash. -/
def telemetryOf (hash : Nat) : Telemetry := { temp := 160, rings := List.replicate 8 2000, power := [(0, 30000000)], inService := true, hash := hash }

theorem witness_TelemetryIsHeld :
    (∀ c ∈ [0, 7], up.running = true ∧ up.pkg.fwRunning = true ∧ up.die? c = some (dieOf up c) ∧ (dieOf up c).present = true) ∧
    (7 = 3 + 4 ∧ (dieOf up 7).inService = true ∧ (dieOf up 7).isoState = 0 ∧ up.pkg.phase = 4) ∧
    (let s := up.updDie 7 fun d => { d with inService := false }
     s.running = true ∧ s.die? 7 = some (dieOf s 7) ∧ (dieOf s 7).present = true ∧ (dieOf s 7).inService = false) := by decide +kernel

/-- Telemetry with a hash that is, and one that is not, the ACTIVE edition's, whatever that is. -/
theorem witness_TelemetryHash (h : Nat) : (telemetryOf h).hash = h ∧ (telemetryOf (h + 1)).hash ≠ h := ⟨rfl, Nat.succ_ne_self h⟩

/-- `up` at a time, and with the Steward restarting. -/
def at_ (t : Nat) : State := { up with tsc := t }
def restarting : State := { up with pw := { up.pw with stewardUp := false } }

/-- Wing 0's eight rings with one reading slow, for Wings that raise, hold and lower their voltage. -/
def paced (pace : Nat) : State := up.updDie 4 fun d => { d with rings := 2500 :: pace :: List.replicate 6 2500 }

theorem witness_StewardRounds :
    (∀ pace ∈ [2000, 2100, 2500], (paced pace).stewardRuns = true ∧ (paced pace).wingUp 0 = true ∧ (dieOf (paced pace) 4).pace = pace) ∧
    (∀ d ∈ up.dies, 650 ≤ d.vdd ∧ d.vdd ≤ 900) ∧ restarting.stewardRuns = false ∧ 1 ≠ up.pkg.primary ∧
    restarting.running = true ∧ restarting.pw.stewardUp = false ∧
    ((at_ 10010000000).running = true ∧ (at_ 10010000000).pw.stewardUp = true ∧
      (at_ 10010000000).pw.lastRound + 10000000 ≤ (at_ 10010000000).tsc) ∧
    (at_ 10009999999).tsc < (at_ 10009999999).pw.lastRound + 10000000 := by decide +kernel

theorem witness_RailsAndTelemetryLoss :
    (∀ w ∈ [0, 3], let s := up; let d := dieOf s (wingDie w)
     s.stewardRuns = true ∧ w < 4 ∧ s.die? (wingDie w) = some d ∧ d.present = true ∧ d.isoState = 0 ∧ d.inService = true ∧
     s.pw.emergency = false ∧ s.ed.stagedState ≠ 5 ∧ d.vddHold = false ∧ 0 < s.paceR ∧ s.paceR ≤ 2500 ∧
     s.tsc < d.lastTelemetry + 1000000) ∧
    (let s := paced 2500; 7 < (dieOf s 4).rings.length ∧ ¬ 8 < (dieOf s 4).rings.length) ∧
    (let s := at_ 10001000000; let d := dieOf s 7
     s.stewardRuns = true ∧ d.telemetryLost = false ∧ d.lastTelemetry + 1000000 ≤ s.tsc) ∧
    (let s := at_ 10010000000; let d := dieOf s 7
     s.stewardRuns = true ∧ d.isoState = 0 ∧ d.lastTelemetry + 10000000 ≤ s.tsc) := by decide +kernel

/-- A PLL out of lock since 50 us ago. -/
def unlocked (die domain : Nat) : State := { up with pw := { up.pw with pllLost := [⟨die, domain, 9999950000⟩] } }

/-- REFCLK lost at a time. -/
def noRefclk (t : Nat) : State := { up with pw := { up.pw with refclk := false, refclkLostAt := t } }

theorem witness_HeatAndClocks :
    (∀ c ∈ [0, 7], up.running = true ∧ up.pw.emergency = false ∧ up.ed.stagedState ≠ 5 ∧ up.die? c = some (dieOf up c) ∧
      (dieOf up c).present = true ∧ up.pw.refclk = true ∧ (dieOf up c).isoState = 0) ∧
    (∀ k ∈ [(0, 2), (0, 6), (7, 9), (7, 12)], k.2 ∈ pllDomains k.1 ∧ k.2 ≠ corridorDomain k.1 ∧ k.2 ≠ 1 ∧
      up.pllOut k.1 k.2 = false) ∧
    (∀ k ∈ [(0, 1), (7, 1), (0, 2), (0, 3), (0, 4), (0, 6), (7, 9), (7, 12)], let s := unlocked k.1 k.2
      s.pllOut k.1 k.2 = true ∧ (⟨k.1, k.2, 9999950000⟩ : PllLoss) ∈ s.pw.pllLost ∧ 9999950000 + 50000 ≤ s.tsc ∧ k.2 ≠ corridorDomain k.1) ∧
    (∀ l ∈ ({ unlocked 0 1 with tsc := 9999999999 } : State).pw.pllLost, (9999999999 : Nat) < l.at_ + 50000) ∧
    ((noRefclk 9999000000).pw.refclk = false ∧ (noRefclk 9999000000).pw.refclkLostAt + 1000000 ≤ up.tsc ∧
      up.tsc < (noRefclk 9999000001).pw.refclkLostAt + 1000000) := by decide +kernel

/-- The emergency input after `n` samples of one channel. -/
def sampled (n : Nat) : State := { up with pw := { up.pw with epdCount := n } }

/-- The emergency sequence under way. -/
def inEmergency : State := { up with pw := { up.pw with emergency := true, emergencyCause := 1 } }

theorem witness_EmergencyInput :
    (∀ n ∈ [0, 198], let s := sampled n; s.sampling = true ∧ s.ed.stagedState ≠ 5 ∧ s.pw.epdCount + 1 < s.epdLimit) ∧
    ((sampled 199).sampling = true ∧ (sampled 199).epdLimit ≤ (sampled 199).pw.epdCount + 1) ∧
    (∀ n ∈ [198, 199], let s := heard (sampled n)
      s.sampling = true ∧ s.pw.epdCount ≠ 0 ∧ s.receivers .d 0xFFFF ≠ [] ∧ s.tsc ≤ s.dieTsc (s.primarySrc / 512) + 2000) ∧
    (at_ 10000000001).sampling = false ∧
    (inEmergency.running = true ∧ inEmergency.pw.emergency = true ∧ inEmergency.pkg.epdDone = false) := by decide +kernel

/-! Power-up, resets, the test access port, register writes, the queue. -/

theorem witness_PackageResets :
    (State.reset.running = false) ∧ (up.running = true ∧ up.pw.emergency = false ∧ up.ed.stagedState ≠ 5) ∧
    ((State.reset.updPkg fun p => { p with mainPower := false }).pkg.mainPower = false ∧ State.reset.pkg.aon = true) ∧
    up.pkg.mainPower = true ∧ (State.reset.updPkg fun p => { p with wake := true }).pkg.wake = true := by
  decide +kernel

/-- A firmware slot of an empty body with a sequence number, its header and trailer as R419 lays them out, its signature of zeros. -/
def slotImage (seq : Nat) : Bytes :=
  pack [(4, 0x57465742), (4, 1), (4, 0), (4, seq), (4, 256), (4, 0xFFFFFFFF)] ++ zeros 40 ++ sha384 [] ++ zeros 16 ++ zeros 128

/-- The package out of reset, before any firmware runs, in a boot mode, slots tried, with images in the slots. -/
def booting (mode : Nat) (tried : List Nat) (a b : Bytes) : State :=
  let s := State.reset.updPkg fun p => { p with inReset := false, bootMode := mode, slotsTried := tried }
  { s with id := { s.id with flash := storeFlash (storeFlash [] 0x100000 a) 0x300000 b } }

/-- The package at phase 3: `up` with no Wing in service. -/
def releasing : State :=
  { up with pkg := { up.pkg with phase := 3 }
            dies := up.dies.map fun d => if d.code < 4 then d else { d with inService := false }
            cor := updWhere (fun p => p.die == 7 && p.idx == 1) (fun p => { p with st := 4 }) up.cor }

theorem witness_PowerUp :
    (∀ a ∈ [true, false], let s := State.reset.updPkg fun p => { p with aonKept := a }
      s.pkg.mainPower = true ∧ s.pkg.inReset = true ∧ s.pkg.aonKept = a) ∧
    up.pkg.inReset = false ∧
    (∀ k ∈ [(0, []), (0, [1]), (3, [1]), (1, [])], let s := booting k.1 k.2 (zeros 4) (zeros 4)
      s.running = true ∧ s.pkg.fwRunning = false ∧ s.pkg.bootFailed = false ∧ s.pkg.phase = 0 ∧ s.pkg.slotsTried = k.2 ∧
      s.pkg.bootMode = k.1 ∧ s.slotValid 0 = false ∧ s.slotValid 1 = false) ∧
    up.pkg.phase ≠ 3 ∧
    (let s := releasing
     s.accepting = true ∧ s.pkg.phase = 3 ∧ s.pkg.asm.wings.any s.comingUp = false ∧ s.releasable 0 = true ∧ s.releasable 3 = false ∧
     s.dies.all (fun d => d.code != wingDie 3 || !d.inService) = true) := by
  refine ⟨?_, ?_, ?_, ?_, ?_⟩ <;> decide +kernel

/-- Two slots, the first of the higher sequence. -/
def twoSlots : State := booting 0 [] (slotImage 9) (slotImage 8)

/-- All of R419's conditions on a slot of 256 bytes but its signature and the package's stepping. -/
def slotSound (s : State) (slot : Nat) : Bool :=
  s.slotField slot 0 4 == 0x57465742 && s.slotField slot 4 1 == 1 && s.slotField slot 5 3 == 0 &&
  allZero (s.flashN (slotBase slot + 24) 40) && allZero (s.flashN (slotBase slot + 112) 16) &&
  sha384 (s.flashN (slotBase slot + 128) (256 - 256)) == s.flashN (slotBase slot + 64) 48 && s.slotField slot (256 - 128) 1 == 0 &&
  allZero (s.flashN (slotBase slot + 256 - 127) 15) && decide (s.id.minSvn ≤ s.slotField slot 8 4)

/-- A slot is valid when its signature is right, which is Barlon's key's own, and the package's stepping is one of its 32. -/
theorem slot_valid (s : State) (slot : Nat) (n : s.slotField slot 16 4 = 256) (f : s.slotField slot 20 4 = 0xFFFFFFFF)
    (rest : slotSound s slot = true) (step : bitSet 0xFFFFFFFF Config.stepping.toNat = true)
    (signed : ecdsaVerifies (romKey 1) (s.flashN (slotBase slot) (256 - 128)) (s.flashN (slotBase slot + 256 - 112) 96) = true) :
    s.slotValid slot = true := by
  simp only [slotSound, Bool.and_eq_true] at rest
  obtain ⟨⟨⟨⟨⟨⟨⟨⟨r1, r2⟩, r3⟩, r4⟩, r5⟩, r6⟩, r7⟩, r8⟩, r9⟩ := rest
  simp only [State.slotValid, n, f, r1, r2, r3, r4, r5, r6, r7, r8, r9, step, signed, Bool.and_true, Bool.true_and]
  decide

/-- Slot A boots and slot B, valid too, does not. -/
theorem slot_boots (s : State) (v0 : s.slotValid 0 = true) (v1 : s.slotValid 1 = true) (m : s.pkg.bootMode = 0)
    (a : s.slotField 0 12 4 = 9) (b : s.slotField 1 12 4 = 8) : s.boots 0 = true ∧ s.slotValid 1 = true ∧ s.boots 1 = false := by
  simp [State.boots, v0, v1, m, a, b]

theorem slots_sound : slotSound twoSlots 0 = true ∧ slotSound twoSlots 1 = true := by decide +kernel
theorem slots_long : twoSlots.slotField 0 16 4 = 256 ∧ twoSlots.slotField 1 16 4 = 256 := by decide +kernel
theorem slots_stepping : twoSlots.slotField 0 20 4 = 0xFFFFFFFF ∧ twoSlots.slotField 1 20 4 = 0xFFFFFFFF := by decide +kernel
theorem slots_sequence : twoSlots.slotField 0 12 4 = 9 ∧ twoSlots.slotField 1 12 4 = 8 := by decide +kernel

theorem witness_SlotBoots (step : bitSet 0xFFFFFFFF Config.stepping.toNat = true)
    (signed : ∀ slot, ecdsaVerifies (romKey 1) (twoSlots.flashN (slotBase slot) (256 - 128)) (twoSlots.flashN (slotBase slot + 256 - 112) 96) = true) :
    twoSlots.boots 0 = true ∧ twoSlots.slotValid 1 = true ∧ twoSlots.boots 1 = false :=
  slot_boots twoSlots (slot_valid twoSlots 0 slots_long.1 slots_stepping.1 slots_sound.1 step (signed 0))
    (slot_valid twoSlots 1 slots_long.2 slots_stepping.2 slots_sound.2 step (signed 1)) rfl slots_sequence.1 slots_sequence.2

theorem witness_IdentityWord : up.inChain 0 = true ∧ up.inChain 7 = true := by decide +kernel

theorem witness_TapInstructions :
    up.inChain 0 = true ∧ up.inChain 7 = true ∧ up.inChain 2 = false ∧ 0xFE ∉ tapCodes := by decide +kernel

/-- A port in the off-line state, and one whose loopback runs with a register, its partner's register as given. -/
def offPort : State := withPort fun p => { p with st := 4 }
def looping (reg partner : Nat) : State :=
  let s := withPort fun p => { p with st := 4, inLoopback := true, loopback := reg }
  match s.pkg.asm.peer 4 0 with
  | some q => s.updCport q.1 q.2 fun p => { p with loopback := partner }
  | none => s

/-- Does the partner of Wing 0's port 0 echo? -/
def echoes (s : State) : Bool :=
  match s.pkg.asm.peer 4 0 with
  | some q => (match s.cport? q.1 q.2 with | some x => bits x.loopback 2 2 == 3 | none => false)
  | none => false

theorem witness_LoopbackRuns :
    (up.inChain 4 = true ∧ bits (4 + 64 + 256) 0 2 = 0 ∧ isPort up 4 0 2 = true ∧ up.loopFree (portOf up 4 0) = false) ∧
    (offPort.inChain 4 = true ∧ isPort offPort 4 0 4 = true ∧ offPort.loopFree (portOf offPort 4 0) = true ∧ bits (4 + 64 + 256) 2 2 ≠ 0 ∧
      (portOf offPort 4 0).inLoopback = false) ∧
    (∀ k ∈ [(1, 0), (2, 12), (2, 0), (2, 4)], let s := looping (4 * k.1 + 64 + 256 * 1000) k.2
      s.inChain 4 = true ∧ isPort s 4 0 4 = true ∧ (portOf s 4 0).inLoopback = true ∧ bits (portOf s 4 0).loopback 2 2 = k.1 ∧
      echoes s = (k.2 == 12)) := by decide +kernel

/-- Does port `p` take writes? -/
def takes (s : State) (p : Nat) : Bool :=
  let f := fnOf s p
  decide (s.fn? p = some f) && f.port == p && s.running && !s.pkg.epdDone && f.ready && !f.resetting && f.link == 2 && f.dstate == 0

/-- A dictionary operation of port 0's window waits. -/
def windowWaits : State := { up with ed := { up.ed with heldReqs := [.read (.window 0) 0x1000 0 0 1] } }

theorem witness_RegisterWrites :
    takes up 0 = true ∧ takes up 15 = true ∧ up.windowBusy 0 = false ∧ (fnOf up 0).loadBusy = false ∧
    (∀ e ∈ [0, 15], ∃ x ∈ (fnOf up 0).engines, x.e = e) ∧ 15 ≠ up.act.controlPort ∧
    (∀ s ∈ [up, keyed], takes s 0 = true ∧ 0 = s.act.controlPort ∧
      ∀ k ∈ [(0, 0), (3, 3)], s.die? (wingDie k.1) = some (dieOf s (wingDie k.1)) ∧ (dieOf s (wingDie k.1)).present = true ∧
        (dieOf s (wingDie k.1)).reachable = true ∧ hasChan s k.1 k.2 = true) ∧
    up.hostKey = false ∧ keyed.hostKey = true ∧ (takes windowWaits 0 = true ∧ windowWaits.windowBusy 0 = true) ∧
    (∀ x ∈ (withEngine id).fn, x.port = 0 → takes (withEngine id) 0 = true ∧ x.engines.any (·.enable) = true) ∧
    ((up.updFn 1 fun f => { f with ready := false }).fn? 1).any (fun f => !f.ready) = true := by
  refine ⟨?_, ?_, ?_, ?_, ?_, ?_, ?_, ?_, ?_, ?_, ?_, ?_⟩ <;> decide +kernel

theorem witness_StepRunsFront : (⟨[.flrReady 0], up.out, up.fresh, up.tsc, up.pkg, up.dies, up.ed, up.mem, up.chans, up.split, up.wb,
    up.doc, up.cor, up.fn, up.ev, up.pw, up.id⟩ : State).pending = [.flrReady 0] := rfl

theorem witness_EmptyQueueTicks : up.pending = [] ∧ up.running = true := by decide +kernel

theorem witness_EveryStepKeepsMemorySound : up.sound = true := by decide +kernel

/-! Ill-formed commands, one for each check. -/

theorem wf_port : wellFormed (.cxlMemRead 16 0) = false ∧ wellFormed (.cxlMemRead 15 0) = true := by decide
theorem wf_lineData : wellFormed (.cxlMemWrite 0 0 (zeros 63) 0 false) = false := by decide +kernel
theorem wf_byteEnables : wellFormed (.cxlMemWrite 0 0 (zeros 64) (2 ^ 64) false) = false ∧
    wellFormed (.cxlMemWrite 0 0 (zeros 64) (2 ^ 64 - 1) false) = true := by decide
theorem wf_wing : wellFormed (.readRaw 4) = false ∧ wellFormed (.readRaw 3) = true := by decide
theorem wf_die : wellFormed (.thermtrip 2) = false ∧ wellFormed (.thermtrip 8) = false ∧ wellFormed (.thermtrip 7) = true := by decide
theorem wf_channel : wellFormed (.channelFlip 0 4) = false ∧ wellFormed (.channelFlip 0 0x30) = false ∧
    wellFormed (.channelFlip 0 0x2F) = true := by decide
theorem wf_docent : wellFormed (.nop 4 .p) = false ∧ wellFormed (.nop 64 .p) = false ∧
    wellFormed (.nop 63 .p) = true := by decide
theorem wf_collection : wellFormed (.create 4096 (.line 0)) = false ∧ wellFormed (.create 4095 (.line 0)) = true := by decide
theorem wf_commandLine : wellFormed (.create 0 (.line 1024)) = false ∧ wellFormed (.create 0 (.line 1023)) = true := by decide
theorem wf_corridorPort : wellFormed (.ackTimer 0 3) = false ∧ wellFormed (.ackTimer 0 2) = true := by decide
theorem wf_flit : wellFormed (.dataFlit 0 0 (zeros 127)) = false ∧ wellFormed (.dataFlit 0 0 (zeros 128)) = true := by decide +kernel
theorem wf_engine : wellFormed (.toHost 0 16) = false ∧ wellFormed (.toHost 0 15) = true := by decide
theorem wf_carrier : wellFormed (.ingestRecord (.engine 2 0)) = false ∧ wellFormed (.ingestRecord (.loadWindow 16)) = false := by decide
theorem wf_decoder : wellFormed (.hdmDecoderCommit 0 8 0 0 1) = false ∧ wellFormed (.hdmDecoderCommit 0 7 0 0 1) = true := by decide
theorem wf_index : wellFormed (.read (.window 0) 0x10000 0 0 0) = false ∧ wellFormed (.read (.window 0) 0xFFFF 256 0 0) = false := by
  decide
theorem wf_requester : wellFormed (.keyTake (.window 16)) = false ∧ wellFormed (.keyTake (.dap 0 0)) = true := by decide
theorem wf_spdm : wellFormed (.getVersion (.doe 16) []) = false ∧ wellFormed (.getVersion .dap []) = true := by decide
theorem wf_nonce : wellFormed (.getMeasurements .dap 1 (zeros 31)) = false := by decide +kernel
theorem wf_debug : wellFormed (.dbgChal (.dict (.window 16))) = false ∧ wellFormed (.dbgChal .tap) = true := by decide
theorem wf_key : wellFormed (.provisionKey (.window 0) (zeros 96)) = false ∧
    wellFormed (.provisionKey (.window 0) (zeros 97)) = true := by decide +kernel
theorem wf_answers : wellFormed (.commitHashQuery [(3, .none)]) = false := by decide
theorem wf_temperatures : wellFormed (.thermalSensorPoll [(0, 4, 0)]) = false := by decide
theorem wf_rails : wellFormed (.pmbusPoll [⟨16, true, 0, 0, 0, false⟩]) = false ∧
    wellFormed (.pmbusPoll [⟨15, true, 0, 0, 0, false⟩]) = true := by decide
theorem wf_ring : wellFormed (.paceComparatorAlert ⟨0, 8⟩ 0) = false ∧ wellFormed (.paceComparatorAlert ⟨0, 7⟩ 0) = true := by decide
theorem wf_straps : wellFormed (.pkgResetDeassert 16 0) = false ∧ wellFormed (.pkgResetDeassert 15 4) = false := by decide
theorem wf_slot : wellFormed (.firmwareSlotVerified 2) = false ∧ wellFormed (.firmwareSlotVerified 1) = true := by decide

/-! Results worked out by hand. -/

/-- The check value of CRC-32C over "123456789", the standard's own. -/
theorem test_crc32c : crc32c [0x31, 0x32, 0x33, 0x34, 0x35, 0x36, 0x37, 0x38, 0x39] = 0xE3069283 := by decide +kernel

/-- R212: data bit 0 stands at Hamming position 3, so c0 and c1 are 1, and c4 makes the parity of all 13 bits even. -/
theorem test_sramCheck : sramCheck 1 = 0b10011 := by decide +kernel

/-- R182: 1.0 + 2^-24 lies half way and rounds to even; 0 times infinity is the default NaN. -/
theorem test_binary32 : f32Add 0x3F800000 0x33800000 = 0x3F800000 ∧ f32Mul 0 0x7F800000 = 0x7FC00000 := by decide +kernel

/-- R102: a MASK segment of format fp32 with element 1 alone not 0. -/
theorem test_mask : decodeMask 6 ([2, 0, 0, 0, 0, 0, 0, 0, 0xAA, 0xBB, 0xCC, 0xDD] : Bytes) =
    some (zeros 4 ++ [0xAA, 0xBB, 0xCC, 0xDD] ++ zeros 248) := by decide +kernel

/-- R197: ADD wraps at 2^64: 0xFFFFFFFFFFFFFFF0 twice. -/
theorem test_add_wraps :
    (ctxA (after (.add 32 .a) (doc [word 0x01 0 15 15 0, 0]))).regs[0]? = some 0xFFFFFFFFFFFFFFE0 := by decide +kernel

/-- R197: SUB below zero wraps; the destination is a source too. -/
theorem test_sub_wraps :
    (ctxA (after (.sub 32 .a) (doc [word 0x02 0 0 15 0, 0]))).regs[0]? = some 0x11 := by decide +kernel

/-- R339: the key taken at 10 s runs out at 12 s. -/
theorem test_keyTake_lease :
    (after (.keyTake (.window 0)) up).ed.holder = .host ∧ (after (.keyTake (.window 0)) up).ed.lease = 12000000000 := by decide +kernel

/-- R390: one channel asserted alone is counted and starts nothing. -/
theorem test_epdSample : (after (.epdSample 1) up).pw.epdCount = 1 ∧ (after (.epdSample 1) up).pw.emergency = false := by decide +kernel

/-- R42: a decoder set to 2-way interleave reports an error and decodes nothing. -/
theorem test_decoder_ways :
    ((fnOf (after (.hdmDecoderCommit 1 0 0 0x10000 2) up) 1).decoders.map fun d => (d.committed, d.error)).head? = some (false, true) := by
  decide +kernel

end Sys2Proof.Tests
end

section
/-! PROOF. What every command keeps (`Keeps`): the queue, the assembly, WAKE_N and the canonical form of memory. Two commands alone
move WAKE_N: the wake frame, which asserts it, and the return of main power, which releases it. -/

namespace Sys2Proof.Machine

/-- If the answer is a next state, that state keeps what `s` has. -/
def AnswerKeeps (s : State) (r : Res) : Prop := ∀ t, r = .next t → Keeps s t

theorem AnswerKeeps.next {s t : State} (h : Keeps s t) : AnswerKeeps s (.next t) := by
  rintro _ ⟨⟩
  exact h

theorem AnswerKeeps.ite {p : Prop} [Decidable p] {s : State} {q r : Res} (hq : AnswerKeeps s q) (hr : AnswerKeeps s r) :
    AnswerKeeps s (if p then q else r) := by
  split <;> assumption

theorem AnswerKeeps.trans {a s : State} {r : Res} (h : Keeps a s) (k : AnswerKeeps s r) : AnswerKeeps a r :=
  fun t e => h.trans (k t e)

/-- A state that agrees with a kept one in its queue, its package facts and its bytes is kept. -/
theorem Keeps.of_eq {a s t : State} (h : Keeps a s) (hq : t.pending = s.pending) (hp : t.pkg = s.pkg) (hm : t.mem.dram = s.mem.dram) :
    Keeps a t :=
  h.trans ⟨hq, by rw [hp], by rw [hp], by rw [hp], by rw [hp], by rw [hp], fun x => by simpa [State.sound, hm] using x⟩

section Commands

variable {s : State} {docent die cport wing sel port engine job coll : Nat} {ctx : Ctx} {src : CmdSrc}

/-! Docents. -/

theorem execLwrite_keeps : AnswerKeeps s (execLwrite docent ctx s) :=
  .next (State.docChan_keeps (.refl s) fun _ _ _ _ _ _ h =>
    .foldl_fst h fun _ _ k => State.docStore_keeps (State.readBuf_keeps k))

theorem execLfill_keeps : AnswerKeeps s (execLfill docent ctx s) := by
  refine .next (State.docRun_keeps (.refl s) fun w y t h => ?_)
  dsimp only
  split
  · exact h
  · exact .ite_fst h (State.fillFlow_keeps h)

theorem execLtest_keeps : AnswerKeeps s (execLtest docent ctx s) := by
  refine .next (State.docRun_keeps (.refl s) fun w y t h => .ite_fst h ?_)
  split
  · exact h
  · exact .ite_fst h (State.testLines_keeps h)

theorem execCatflip_keeps : AnswerKeeps s (execCatflip docent ctx s) :=
  .next (State.docRun_keeps (.refl s) fun _ _ _ h =>
    .ite_fst (State.notePrepared_keeps (State.startMoves_keeps (State.flipEntry_keeps (State.readBuf_keeps h)))) (State.readBuf_keeps h))

theorem execSalloc_keeps : AnswerKeeps s (execSalloc docent ctx s) := by
  refine .next (State.docRun_keeps (.refl s) fun w y t h => .ite_fst h ?_)
  dsimp only
  split
  · dsimp only
    exact State.updMem_keeps (.of_eq h rfl rfl rfl) rfl
  · exact h

theorem execSfree_keeps : AnswerKeeps s (execSfree docent ctx s) := by
  refine .next (State.docRun_keeps (.refl s) fun w y t h => .ite_fst h ?_)
  split
  · exact h
  · dsimp only
    exact State.updMem_keeps h rfl

theorem execRuncopy_keeps : AnswerKeeps s (execRuncopy docent ctx s) := by
  refine .next (State.docRun_keeps (.refl s) fun w y t h => .ite_fst h (.ite_fst (State.readBuf_keeps h) ?_))
  split
  · exact .ite (State.readBuf_keeps h) (State.docCopy_keeps (State.readBuf_keeps h))
  · exact State.readBuf_keeps h

theorem execCopyComplete_keeps {handle : Nat} : AnswerKeeps s (execCopyComplete docent ctx handle s) := by
  refine .next ?_
  split
  · exact .refl s
  · dsimp only
    split
    · exact .refl s
    · split
      · exact State.docNext_keeps (.refl s)
      · exact State.setCtx_keeps (.refl s)

theorem execDocentChannelOpDone_keeps : AnswerKeeps s (execDocentChannelOpDone docent ctx s) := by
  refine .next ?_
  split
  · exact .refl s
  · dsimp only
    split
    · exact .refl s
    · refine .ite (.refl s) ?_
      split
      · exact State.docNext_keeps (.refl s)
      · exact State.docNext_keeps (.ite (.refl s) (State.fillLines_keeps (.refl s)))

theorem execWaitExpiry_keeps : AnswerKeeps s (execWaitExpiry docent ctx s) := by
  refine .next ?_
  split
  · exact .refl s
  · dsimp only
    split
    · exact .ite (State.docNext_keeps (.refl s)) (.refl s)
    · exact .refl s

theorem execWatchdog_keeps : AnswerKeeps s (execWatchdog docent ctx s) := by
  refine .next ?_
  split
  · exact .refl s
  · exact .ite (State.docFault_keeps (.refl s)) (.refl s)

theorem execTriggerDispatch_keeps : AnswerKeeps s (execTriggerDispatch die s) := by
  refine .next (.ite (.refl s) ?_)
  split
  · exact .refl s
  · split
    · exact .refl s
    · have h (trs : List Trigger) : Keeps s { s with doc := { s.doc with triggers := trs } } := .of_eq (.refl s) rfl rfl rfl
      exact State.startHandler_keeps (.ite (State.startMoves_keeps (h _)) (.ite (State.beginOrder_keeps (h _)) (h _)))

/-! The Corridor and time. -/

theorem execDataFlit_keeps {flit : Bytes} : AnswerKeeps s (execDataFlit die cport flit s) := by
  refine .next ?_
  split
  · exact .refl s
  · exact .ite (.refl s) (.ite (State.badFlit_keeps (.refl s)) (.ite (State.receiveData_keeps (.refl s)) (.refl s)))

theorem execLinkFlit_keeps {flit : Bytes} : AnswerKeeps s (execLinkFlit die cport flit s) := by
  refine .next ?_
  split
  · exact .refl s
  · have h := fun (f : CPort → CPort) => State.updCport_keeps (x1 := die) (x2 := cport) (x3 := f) (.refl s)
    exact .ite (.refl s) (.ite (State.badFlit_keeps (.refl s)) (.ite (.refl s)
      (State.flushPort_keeps (.ite (State.checkStall_keeps (State.replayFrom_keeps (State.bump_keeps (h _)))) (h _)))))

theorem execFlitCrcFailure_keeps {flit : Bytes} : AnswerKeeps s (execFlitCrcFailure die cport flit s) := by
  refine .next ?_
  split
  · exact .refl s
  · exact .ite (.refl s) (State.badFlit_keeps (.refl s))

theorem execAckTimer_keeps : AnswerKeeps s (execAckTimer die cport s) := by
  refine .next ?_
  split
  · exact .refl s
  · split
    · exact .ite (State.sendLink_keeps (.refl s)) (.refl s)
    · exact .refl s

theorem execNakHoldoffExpiry_keeps : AnswerKeeps s (execNakHoldoffExpiry die cport s) := by
  refine .next ?_
  split
  · exact .refl s
  · split
    · exact .ite (State.updCport_keeps (.refl s)) (.refl s)
    · exact .refl s

theorem execReplayTimer_keeps : AnswerKeeps s (execReplayTimer die cport s) := by
  refine .next ?_
  split
  · exact .refl s
  · exact .ite (State.checkStall_keeps (State.replayFrom_keeps (State.bump_keeps (.refl s)))) (.refl s)

theorem execRetrainDone_keeps {ok : Bool} : AnswerKeeps s (execRetrainDone die cport ok s) := by
  refine .next ?_
  split
  · exact .refl s
  · exact .ite (.refl s) (.ite (State.resumeLink_keeps (.refl s))
      (.ite (State.dropLink_keeps (.refl s)) (State.updCport_keeps (.refl s))))

theorem execReceiverLockLoss_keeps : AnswerKeeps s (execReceiverLockLoss die cport s) := by
  refine .next ?_
  split
  · exact .refl s
  · exact .ite (State.updCport_keeps (State.retrain_keeps (.refl s))) (.ite (State.updCport_keeps (.refl s)) (.refl s))

theorem execLockLossTimeout_keeps : AnswerKeeps s (execLockLossTimeout die cport s) := by
  refine .next ?_
  split
  · exact .refl s
  · split
    · exact .ite (State.dropLink_keeps (.refl s)) (.refl s)
    · exact .refl s

theorem execHello_keeps {peer : HelloMsg} : AnswerKeeps s (execHello die cport peer s) := by
  refine .next ?_
  split
  · exact .refl s
  · exact .ite (.refl s) (.ite (State.bringUp_keeps (.refl s))
      (.ite (.foldl (State.dropLink_keeps (.refl s)) fun _ _ h => State.failReturn_keeps h)
        (State.sendHello_keeps (State.updCport_keeps (.refl s)))))

theorem execLoanFillRequest_keeps {borrower line : Nat} : AnswerKeeps s (execLoanFillRequest borrower coll line s) := by
  refine .next ?_
  split
  · exact .refl s
  · refine .ite ?_ (State.serveRead_keeps (State.updMem_keeps (State.takeLoan_keeps (.refl s)) rfl))
    dsimp only
    split
    · exact State.recall_keeps (State.updMem_keeps (State.takeLoan_keeps (.refl s)) rfl)
    · exact State.updMem_keeps (State.takeLoan_keeps (.refl s)) rfl

theorem execLoanFillReply_keeps {borrower line : Nat} : AnswerKeeps s (execLoanFillReply borrower coll line s) := by
  refine .next ?_
  split
  · exact .refl s
  · exact State.updMem_keeps (State.takeLoan_keeps (.refl s)) rfl

theorem execLoanRecall_keeps {borrower line : Nat} : AnswerKeeps s (execLoanRecall borrower coll line s) := by
  refine .next ?_
  split
  · exact .refl s
  · exact State.updMem_keeps (State.send_keeps (State.takeLoan_keeps (.refl s))) rfl

theorem execRecallAck_keeps {borrower line : Nat} : AnswerKeeps s (execRecallAck borrower coll line s) := by
  refine .next ?_
  split
  · exact .refl s
  · exact State.endStopped_keeps (State.finishWrites_keeps (State.updMem_keeps (State.takeLoan_keeps (.refl s)) rfl))

theorem execLobby0Heartbeat_keeps : AnswerKeeps s (execLobby0Heartbeat s) :=
  .next (.ite (.refl s) (.of_eq
    (.foldl (.foldl (.refl s) fun _ _ h => State.send_keeps h) fun _ _ h => State.sendData_keeps h) rfl rfl rfl))

theorem execHeartbeatTimeout_keeps : AnswerKeeps s (execHeartbeatTimeout die s) := by
  refine .next ?_
  split
  · exact .refl s
  · exact .ite (.refl s) (State.emergency_keeps (State.portsDown_keeps (State.updPkg_keeps (.refl s) rfl rfl rfl rfl rfl)))

theorem execTimeSyncSend_keeps : AnswerKeeps s (execTimeSyncSend s) := by
  refine .next (.ite (.refl s) (.foldl (.refl s) fun t x h => ?_))
  split
  · exact .ite (State.send_keeps (State.sendData_keeps h)) h
  · exact h

theorem execTimeSyncReceive_keeps {stamp delay : Nat} : AnswerKeeps s (execTimeSyncReceive die stamp delay s) := by
  refine .next ?_
  split
  · exact .refl s
  · exact .ite (.refl s) (State.takeSync_keeps (.refl s))

theorem execTimeSyncTimeout_keeps : AnswerKeeps s (execTimeSyncTimeout die s) := by
  refine .next ?_
  split
  · exact .refl s
  · exact .ite (.refl s) (State.setUncertain_keeps (.refl s))

theorem execTelemetryMessage_keeps {msg : Telemetry} : AnswerKeeps s (execTelemetryMessage die msg s) := by
  refine .next ?_
  split
  · exact .refl s
  · refine .ite (.refl s) ?_
    dsimp only
    split
    · exact .ite (State.isolateWing_keeps (State.updDie_keeps (.refl s))) (State.updDie_keeps (.refl s))
    · exact State.updDie_keeps (.refl s)

/-! The memory path and commands of a command area. -/

theorem execChannelReadComplete_keeps {id : Nat} : AnswerKeeps s (execChannelReadComplete id s) := by
  refine .next ?_
  split
  · exact .ite (.refl s) (State.completeRead_keeps (.refl s))
  · exact .refl s

theorem execLineLeavesCache_keeps {line : Nat} : AnswerKeeps s (execLineLeavesCache coll wing line s) := by
  refine .next ?_
  split
  · exact .ite (State.leave_keeps (.refl s)) (.refl s)
  · exact .refl s

theorem execCompressedViewRead_keeps {hpa : Nat} : AnswerKeeps s (execCompressedViewRead port hpa s) := by
  refine .next ?_
  split
  · exact State.orHold_keeps (.refl s) fun _ h => State.isolateTags_keeps (State.linkRead_keeps h)
  · exact .refl s

theorem execForkInstant_keeps : AnswerKeeps s (execForkInstant coll src wing s) := by
  refine .next ?_
  split
  · exact State.forkOn_keeps (.refl s)
  · exact .refl s

theorem execFenceComplete_keeps : AnswerKeeps s (execFenceComplete coll src s) := by
  refine .next ?_
  split
  · exact .ite (State.endCmd_keeps (.refl s)) (.refl s)
  · exact .refl s

theorem execPinMoveDone_keeps : AnswerKeeps s (execPinMoveDone coll src s) := by
  refine .next ?_
  split
  · exact .ite (State.endCmd_keeps (.refl s)) (.refl s)
  · exact .refl s

theorem execUndefinedCommandOpcode_keeps : AnswerKeeps s (execUndefinedCommandOpcode coll src s) := by
  refine .next ?_
  split
  · exact .ite (.refl s) (State.runCmd_keeps (.refl s) fun _ _ h => h)
  · exact .refl s

/-! The function of a link port. -/

theorem execMsixUnmask_keeps {vector : Option Nat} : AnswerKeeps s (execMsixUnmask port vector s) := by
  refine .next ?_
  split
  · exact .ite (.refl s) (State.sendPending_keeps (State.updFn_keeps (.refl s)))
  · exact .foldl (State.updFn_keeps (.refl s)) fun _ _ h => State.sendPending_keeps h

theorem execModerationExpiry_keeps {q : Nat} : AnswerKeeps s (execModerationExpiry port q s) := by
  refine .next ?_
  split
  · exact .refl s
  · exact .ite (State.signal_keeps (State.updFn_keeps (.refl s))) (.refl s)

theorem execIntStatClear_keeps {value : Nat} : AnswerKeeps s (execIntStatClear port value s) := by
  refine .next ?_
  split
  · exact .refl s
  · exact .ite (State.send_keeps (State.updFn_keeps (.refl s))) (State.updFn_keeps (.refl s))

theorem execFnEqHeadWrite_keeps {q value : Nat} : AnswerKeeps s (execFnEqHeadWrite port q value s) :=
  .next (.ite (State.recheck_keeps (State.updFn_keeps (.refl s))) (.refl s))

theorem execFnEqCtlWrite_keeps {q value : Nat} {base : Bool} : AnswerKeeps s (execFnEqCtlWrite port q base value s) :=
  .next (.ite (.refl s) (.ite (State.updFn_keeps (.refl s))
    (.ite (State.recheck_keeps (State.updFn_keeps (.refl s))) (State.updFn_keeps (.refl s)))))

theorem execFnEqFilterWrite_keeps {q value : Nat} : AnswerKeeps s (execFnEqFilterWrite port q value s) :=
  .next (.ite (State.updFn_keeps (.refl s)) (.refl s))

theorem execBusMasterEnableSet_keeps : AnswerKeeps s (execBusMasterEnableSet port s) := by
  refine .next ?_
  split
  · exact .refl s
  · exact .ite (.refl s) (.foldl (State.releaseSignals_keeps (State.recheckAll_keeps
      (.foldl (State.updFn_keeps (.refl s)) fun _ _ h => State.writeAborted_keeps h))) fun _ _ h => State.fetchNext_keeps h)

theorem execFlr_keeps : AnswerKeeps s (execFlr port s) := by
  refine .next ?_
  split
  · exact .refl s
  · exact .ite (.refl s) (State.bump_keeps (State.updFn_keeps (State.resetFn_keeps (State.portBreaksKey_keeps (.refl s)))))

theorem execHotReset_keeps : AnswerKeeps s (execHotReset port s) := by
  refine .next ?_
  split
  · exact .refl s
  · exact .ite (State.linkDown_keeps (.refl s)) (.refl s)

theorem execPortLinkUp_keeps {rate width : Nat} {flit256 cxl : Bool} :
    AnswerKeeps s (execPortLinkUp port rate width flit256 cxl s) := by
  refine .next ?_
  split
  · exact .refl s
  · exact .ite (.refl s) (State.reoffer_keeps (State.updFn_keeps (.refl s)))

theorem execD0Return_keeps : AnswerKeeps s (execD0Return port s) := by
  refine .next ?_
  split
  · exact .refl s
  · exact .ite (.refl s) (.foldl (State.releaseSignals_keeps (State.recheckAll_keeps (State.updFn_keeps (.refl s))))
      fun _ _ h => State.fetchNext_keeps (State.issueReads_keeps h))

theorem execPmeTurnOff_keeps : AnswerKeeps s (execPmeTurnOff port s) :=
  .next (.ite (.refl s) (.ite (State.updPw_keeps (State.updFn_keeps (.refl s))) (State.updFn_keeps (.refl s))))

theorem execD3coldFlushComplete_keeps : AnswerKeeps s (execD3coldFlushComplete s) := by
  have h : Keeps s ((s.flushLines.mem.writes.map (·.id)).foldl (fun s id => s.depotWritten id) s.flushLines) :=
    .foldl (State.flushLines_keeps (.refl s)) fun _ _ h => State.depotWritten_keeps h
  have h2 (rs : List Run) := Keeps.foldl_fst (l := rs) (f := fun (a : State × Nat) r => ((a.1.moveToDepot r).1, a.2 + (a.1.moveToDepot r).2))
    (z := (_, 0)) h fun _ _ k => State.moveToDepot_keeps k
  exact .next (.ite (.refl s) (.foldl (State.writeSeals_keeps (State.sleepDepot_keeps (.ite (h2 _) (State.event_keeps (h2 _)))))
    fun _ _ k => State.send_keeps k))

theorem execHeatPeriodEnd_keeps : AnswerKeeps s (execHeatPeriodEnd s) :=
  .next (.ite (State.notePrepared_keeps (.foldl (State.updMem_keeps (.refl s) rfl)
    fun _ _ h => .ite (State.periodOn_keeps h) h)) (.refl s))

theorem execMoverDoorbell_keeps {value : Nat} : AnswerKeeps s (execMoverDoorbell port engine value s) := by
  refine .next ?_
  split
  · exact .refl s
  · exact State.fetchNext_keeps (State.updEngine_keeps (.refl s))

theorem execDescriptorNop_keeps : AnswerKeeps s (execDescriptorNop port engine s) := by
  refine .next ?_
  split
  · exact .refl s
  · exact State.finishDesc_keeps (.refl s)

theorem execUndefinedDescriptorOpcode_keeps : AnswerKeeps s (execUndefinedDescriptorOpcode port engine s) := by
  refine .next ?_
  split
  · exact .refl s
  · exact State.finishDesc_keeps (.refl s)

theorem execToDevice_keeps : AnswerKeeps s (execToDevice port engine s) := by
  refine .next ?_
  split
  · exact .refl s
  · split
    · exact State.finishDesc_keeps (.refl s)
    · exact State.issueReads_keeps (State.beginDesc_keeps (.refl s))

theorem execToHost_keeps : AnswerKeeps s (execToHost port engine s) := by
  refine .next ?_
  split
  · exact .refl s
  · split
    · exact State.finishDesc_keeps (.refl s)
    · exact .foldl (State.beginDesc_keeps (.refl s)) fun _ _ h => State.serveRead_keeps h

theorem execIngest_keeps : AnswerKeeps s (execIngest port engine s) := by
  refine .next ?_
  split
  · exact .refl s
  · exact .ite (State.finishDesc_keeps (.refl s)) (.ite (State.finishDesc_keeps (.refl s))
      (State.issueReads_keeps (State.beginDesc_keeps (State.updMem_keeps (.refl s) rfl))))

theorem execReadCompletion_keeps {tag : Nat} {cpl : Completion} : AnswerKeeps s (execReadCompletion port tag cpl s) := by
  refine .next ?_
  split
  · exact .refl s
  · split
    · exact .refl s
    · split
      · exact State.useTags_keeps (State.failRead_keeps (.refl s))
      · exact State.useTags_keeps (State.readArrives_keeps (.ite (State.updFn_keeps (.refl s)) (.refl s)))

theorem execCompletionTimeout_keeps {tag : Nat} : AnswerKeeps s (execCompletionTimeout port tag s) := by
  refine .next ?_
  split
  · exact .refl s
  · split
    · exact .refl s
    · exact State.useTags_keeps (State.failRead_keeps (State.updFn_keeps (.refl s)))

theorem execLoadGo_keeps {value : Nat} : AnswerKeeps s (execLoadGo port value s) := by
  refine .next ?_
  split
  · exact .refl s
  · exact .ite (.refl s) (.ite (State.updFn_keeps (.refl s))
      (State.streamDone_keeps (State.updMem_keeps (State.updFn_keeps (State.updFn_keeps (.refl s))) rfl)))

/-! Power, clocks and the emergency input. -/

theorem execTelemetryRound_keeps {lobby : Nat} : AnswerKeeps s (execTelemetryRound lobby s) :=
  .next (.ite (.refl s) (State.moveStage_keeps (State.thermal_keeps
    (.foldl (State.updPw_keeps (State.takePower_keeps (State.settleBuckets_keeps (.refl s)))) fun _ _ h => State.roundWing_keeps h))))

theorem execPmbusPoll_keeps {rails : List RailReading} : AnswerKeeps s (execPmbusPoll rails s) :=
  .next (.ite (.refl s) (.foldl (.foldl (.refl s) fun _ _ h => State.readRail_keeps h)
    fun _ _ h => .ite (State.railFault_keeps h) (State.railFault_keeps (State.draw_keeps h))))

theorem execTelemetryLost_keeps : AnswerKeeps s (execTelemetryLost die s) := by
  refine .next ?_
  split
  · exact .refl s
  · refine .ite (.refl s) ?_
    dsimp only
    split
    · exact State.updDie_keeps (State.setVdd_keeps (State.event_keeps (State.updDie_keeps (.refl s))))
    · exact State.event_keeps (State.updDie_keeps (.refl s))

theorem execTelemetryIsolationTimeout_keeps : AnswerKeeps s (execTelemetryIsolationTimeout wing s) := by
  refine .next ?_
  split
  · exact .refl s
  · exact .ite (State.isolateWing_keeps (.refl s)) (.refl s)

theorem execPaceComparatorAlert_keeps {ring : PaceRing} {pace : Nat} : AnswerKeeps s (execPaceComparatorAlert ring pace s) := by
  refine .next ?_
  split
  · exact .refl s
  · exact .ite (.refl s) (.ite (State.slowWing_keeps (State.setVdd_keeps (State.updDie_keeps (.refl s))))
      (State.setVdd_keeps (State.updDie_keeps (.refl s))))

theorem execThermtrip_keeps : AnswerKeeps s (execThermtrip die s) := by
  refine .next ?_
  split
  · exact .refl s
  · exact .ite (.refl s) (State.emergency_keeps (State.updPkg_keeps (.refl s) rfl rfl rfl rfl rfl))

theorem execPllLockLoss_keeps {domain : Nat} : AnswerKeeps s (execPllLockLoss die domain s) := by
  refine .next ?_
  split
  · exact .refl s
  · exact .ite (.refl s) (.ite (State.retrainDie_keeps (State.updPw_keeps (.refl s)))
      (.ite (State.holdover_keeps (State.updPw_keeps (.refl s))) (State.updPw_keeps (.refl s))))

theorem execPllRelock_keeps {domain : Nat} : AnswerKeeps s (execPllRelock die domain s) :=
  .next (.ite (State.relock_keeps (.refl s)) (.foldl (State.relock_keeps (.refl s)) fun _ _ h => State.pump_keeps h))

theorem execRefclkReturn_keeps : AnswerKeeps s (execRefclkReturn s) :=
  .next (.ite (.ite (State.updPw_keeps (.refl s)) (.foldl (State.updPw_keeps (.refl s))
    fun _ _ h => State.holdover_keeps (State.retrainDie_keeps h))) (.refl s))

theorem execEpdFault_keeps {channel : Nat} : AnswerKeeps s (execEpdFault channel s) :=
  .next (.ite (State.emergency_keeps (State.event_keeps (State.oneChannel_keeps (.refl s)))) (.refl s))

/-! Power-up and resets. -/

theorem execFirmwareSlotVerified_keeps {slot : Nat} : AnswerKeeps s (execFirmwareSlotVerified slot s) :=
  .next (.ite (.refl s) (.ite (State.runFirmware_keeps (.refl s)) (.ite (.refl s)
    (State.updPkg_keeps (.refl s) rfl rfl rfl rfl rfl))))

theorem execVddAonLoss_keeps : AnswerKeeps s (execVddAonLoss s) := by
  have h (ds : List Die) : Keeps s { s with dies := ds } := .of_eq (.refl s) rfl rfl rfl
  have hk (ds : List Die) := State.updPkg_keeps (f := fun p => { p with aon := false, aonKept := false })
    (State.updMem_keeps (f := fun m => { m with keys := [] }) (h ds) rfl) rfl rfl rfl rfl rfl
  exact .next (.ite (State.railFault_keeps (State.draw_keeps (hk _))) (hk _))

theorem execMainPowerRemoval_keeps : AnswerKeeps s (execMainPowerRemoval s) :=
  .next (.ite (State.coldReset_keeps (State.updPkg_keeps (.refl s) rfl rfl rfl rfl rfl)) (.refl s))

/-! Storage protection and the channels. -/

theorem execCorrectedRateWindowEnd_keeps : AnswerKeeps s (execCorrectedRateWindowEnd wing sel s) := by
  refine .next ?_
  split
  · exact .refl s
  · have h := fun (f : Chan → Chan) => State.updChan_keeps (x1 := wing) (x2 := sel) (x3 := f) (.refl s)
    exact .ite (.refl s) (.ite (State.watermark_keeps (h _)) (.ite (State.watermark_keeps (h _)) (h _)))

theorem execReadRaw_keeps : AnswerKeeps s (execReadRaw wing s) := by
  refine .next (State.runSplit_keeps (.refl s) fun x t h => ?_)
  split
  · exact State.splitResult_keeps h
  · exact State.updSplit_keeps h
  · exact State.updSplit_keeps h

theorem execWriteData_keeps : AnswerKeeps s (execWriteData wing s) := by
  refine .next (State.runSplit_keeps (.refl s) fun x t h => ?_)
  split
  · exact State.splitResult_keeps h
  · exact State.splitResult_keeps (State.docStore_keeps h)
  · exact State.updSplit_keeps h

theorem execWriteCheck_keeps : AnswerKeeps s (execWriteCheck wing s) := by
  refine .next (State.runSplit_keeps (.refl s) fun x t h => ?_)
  split
  · exact State.splitResult_keeps h
  · exact State.splitResult_keeps (State.splitStore_keeps h)
  · exact State.updSplit_keeps h

theorem execWriteBoth_keeps : AnswerKeeps s (execWriteBoth wing s) := by
  refine .next (State.runSplit_keeps (.refl s) fun x t h => ?_)
  split
  · exact State.splitResult_keeps h
  · exact State.splitResult_keeps (State.splitStore_keeps h)
  · exact State.updSplit_keeps h

theorem execCompute_keeps : AnswerKeeps s (execCompute wing s) := by
  refine .next (State.runSplit_keeps (.refl s) fun x t h => ?_)
  split
  · exact State.splitResult_keeps h
  · exact State.updSplit_keeps h
  · exact State.updSplit_keeps h

theorem execDepotRefreshDue_keeps {dimm cs : Nat} : AnswerKeeps s (execDepotRefreshDue wing sel dimm cs s) := by
  refine .next ?_
  split
  · exact .refl s
  · exact .ite (.refl s) (.ite (State.bump_keeps (State.updChan_keeps (.refl s)))
      (.ite (State.updChan_keeps (.refl s)) (State.updChan_keeps (.refl s))))

theorem execGalleryRefreshDue_keeps {bank : Nat} : AnswerKeeps s (execGalleryRefreshDue wing sel bank s) := by
  refine .next ?_
  split
  · exact .refl s
  · exact .ite (.refl s) (State.updChan_keeps (.refl s))

theorem execRankPowerDown_keeps {rank : Nat} : AnswerKeeps s (execRankPowerDown wing sel rank s) := by
  refine .next ?_
  split
  · exact .refl s
  · exact .ite (.refl s) (State.updChan_keeps (.refl s))

theorem execGalleryParityError_keeps : AnswerKeeps s (execGalleryParityError wing sel s) := by
  refine .next ?_
  split
  · exact .refl s
  · exact .ite (.refl s) (State.freeze_keeps (.refl s))

theorem execChannelFlip_keeps : AnswerKeeps s (execChannelFlip wing sel s) := by
  refine .next ?_
  split
  · exact .refl s
  · exact .ite (State.resumeForks_keeps (State.flipChannel_keeps (.refl s))) (.refl s)

theorem execEvacuationComplete_keeps : AnswerKeeps s (execEvacuationComplete wing sel s) := by
  refine .next ?_
  split
  · exact .refl s
  · exact .ite (State.resumeForks_keeps (State.endEvacuation_keeps (.refl s))) (.refl s)

theorem execDepotFrequencyChangeDone_keeps : AnswerKeeps s (execDepotFrequencyChangeDone wing s) := by
  refine .next ?_
  split
  · exact .refl s
  · have h := State.endFreq_keeps (x1 := wing) (State.settleBuckets_keeps (.refl s))
    exact .ite (.refl s) (State.rederive_keeps (.foldl (.of_eq h rfl rfl rfl) fun _ _ k => State.pump_keeps k))

/-! The Workbench. -/

theorem execJobAdmission_keeps : AnswerKeeps s (execJobAdmission coll src s) := by
  refine .next ?_
  split
  · exact State.decideJob_keeps (.refl s)
  · exact .refl s

theorem execTileClearDone_keeps : AnswerKeeps s (execTileClearDone job s) := by
  refine .next ?_
  split
  · exact .ite (State.startJob_keeps (.refl s)) (.refl s)
  · exact .refl s

theorem execJobStreamRead_keeps {operand offset : Nat} : AnswerKeeps s (execJobStreamRead job operand offset s) := by
  refine .next ?_
  split
  · exact .refl s
  · dsimp only
    split
    · exact .refl s
    · exact .ite (.refl s) (.ite (.ite (State.streamBlock_keeps (.refl s)) (.refl s)) (State.streamLine_keeps (.refl s)))

theorem execJobStreamWrite_keeps {operand offset : Nat} : AnswerKeeps s (execJobStreamWrite job operand offset s) := by
  refine .next ?_
  split
  · exact .refl s
  · have h := fun j => State.checkBuffers_keeps (x1 := j) (.refl s)
    refine .ite (h _) ?_
    split
    · exact h _
    · exact .ite (h _) (State.updJob_keeps (State.serveWrite_keeps (State.touchVectors_keeps (h _))))

theorem execJobCompletion_keeps : AnswerKeeps s (execJobCompletion job s) := by
  have h := State.endStopped_keeps (.refl s)
  refine .next ?_
  dsimp only
  split
  · exact .ite (State.endJob_keeps h) h
  · exact h

theorem execJobFault_keeps : AnswerKeeps s (execJobFault job s) := by
  refine .next ?_
  split
  · exact .ite (State.endJob_keeps (.refl s)) (.refl s)
  · exact .refl s

theorem execJobTimeout_keeps : AnswerKeeps s (execJobTimeout job s) := by
  refine .next ?_
  split
  · exact .ite (State.stopJob_keeps (.refl s)) (.refl s)
  · exact .refl s

/-! The mailbox of a function. -/

theorem execBackgroundOperationStatus_keeps : AnswerKeeps s (execBackgroundOperationStatus port s) := by
  refine .next (State.mail_keeps (.refl s) fun t h => ?_)
  dsimp only
  split
  · exact .ite_fst h (.ite_fst (State.draw_keeps h) h)
  · exact h

theorem execClearEventRecords_keeps {log : Nat} {handles : List Nat} : AnswerKeeps s (execClearEventRecords port log handles s) :=
  .next (State.mail_keeps (.refl s) fun _ h =>
    .ite_fst h (.ite_fst h (State.tryPort_keeps (State.updMem_keeps h rfl))))

theorem execAddDynamicCapacityResponse_keeps {extents : List (Nat × Nat)} :
    AnswerKeeps s (execAddDynamicCapacityResponse port extents s) := by
  refine .next (State.mail_keeps (.refl s) fun t h => ?_)
  split
  · exact h
  · exact .foldl h fun _ _ k => State.updExtent_keeps k

theorem execReleaseDynamicCapacity_keeps {extents : List (Nat × Nat)} :
    AnswerKeeps s (execReleaseDynamicCapacity port extents s) := by
  refine .next (State.mail_keeps (.refl s) fun t h => ?_)
  split
  · exact h
  · exact .foldl h fun _ _ k =>
      .ite (State.dcEvent_keeps (State.updExtent_keeps k)) (State.tryPort_keeps (State.removeExtent_keeps k))

theorem execReleaseTimeout_keeps {view : Bool} : AnswerKeeps s (execReleaseTimeout port coll view s) := by
  refine .next ?_
  split
  · exact .refl s
  · exact .ite (State.tryPort_keeps (State.removeExtent_keeps (State.event_keeps (.refl s)))) (.refl s)

theorem execScanMedia_keeps {start length : Nat} : AnswerKeeps s (execScanMedia port start length s) :=
  .next (State.mail_keeps (.refl s) fun _ h =>
    .ite_fst h (.ite_fst h (.ite_fst h (State.updFn_keeps (State.restartWalks_keeps h)))))

theorem execHdmDecoderCommit_keeps {decoder base size ways : Nat} :
    AnswerKeeps s (execHdmDecoderCommit port decoder base size ways s) := by
  refine .next ?_
  split
  · exact .refl s
  · exact .ite (.refl s) (State.send_keeps (State.updFn_keeps (.refl s)))

/-! The Field port, sessions and records. -/

theorem execGetMeasurements_keeps {via : SpdmVia} {index : Nat} {nonce : Bytes} :
    AnswerKeeps s (execGetMeasurements via index nonce s) :=
  .next (State.serveSpdm_keeps (.refl s) fun _ h => .ite (State.spdmAnswer_keeps h) (State.spdmAnswer_keeps h))

theorem execKeyExchange_keeps {via : SpdmVia} {message : Bytes} : AnswerKeeps s (execKeyExchange via message s) := by
  refine .next (State.serveSpdm_keeps (.refl s) fun t h => ?_)
  split
  · exact State.spdmAnswer_keeps h
  · exact State.spdmAnswer_keeps h
  · refine .ite (State.spdmAnswer_keeps h) ?_
    split
    · exact State.spdmAnswer_keeps h
    · exact .ite (State.spdmAnswer_keeps (State.draw_keeps h)) (State.spdmAnswer_keeps (State.updEd_keeps (State.draw_keeps h)))

theorem execFinish_keeps {via : SpdmVia} {message : Bytes} : AnswerKeeps s (execFinish via message s) := by
  refine .next (State.serveSpdm_keeps (.refl s) fun t h => ?_)
  split
  · exact State.spdmAnswer_keeps h
  · exact State.spdmAnswer_keeps h
  · split
    · exact State.spdmAnswer_keeps h
    · exact State.spdmAnswer_keeps (State.updSession_keeps h)

theorem execSessionIdleTimeout_keeps {session : Nat} : AnswerKeeps s (execSessionIdleTimeout session s) := by
  refine .next ?_
  split
  · exact .ite (State.endSession_keeps (.refl s)) (.refl s)
  · exact .refl s

theorem execFieldLinkLoss_keeps : AnswerKeeps s (execFieldLinkLoss s) :=
  .next (.foldl (State.updPkg_keeps (.refl s) rfl rfl rfl rfl rfl) fun _ _ h => State.endSession_keeps h)

theorem execRecordHoldExpiry_keeps : AnswerKeeps s (execRecordHoldExpiry s) := by
  refine .next ?_
  split
  · exact .refl s
  · exact .ite (.foldl (.of_eq (.refl s) rfl rfl rfl) fun _ _ h => State.writeTo_keeps h) (.refl s)

theorem execFlashOpDone_keeps {ok : Bool} : AnswerKeeps s (execFlashOpDone ok s) := by
  refine .next ?_
  split
  · exact .refl s
  · exact State.updId_keeps (.of_eq (.refl s) rfl rfl rfl)

theorem execDebugSignatureChecked_keeps : AnswerKeeps s (execDebugSignatureChecked s) :=
  .next (.ite (.refl s) (.ite (State.updId_keeps (State.breakKey_keeps (State.eraseKeys_keeps (.refl s))))
    (State.updId_keeps (State.refuseDebug_keeps (.refl s)))))

theorem execDbgChal_keeps {via : DbgVia} : AnswerKeeps s (execDbgChal via s) := by
  refine .next ?_
  split
  · exact State.tap_keeps (.refl s) fun _ h => State.send_keeps (State.makeNonce_keeps h)
  · exact State.dictRead_keeps (.refl s)

theorem execDbgResp_keeps {via : DbgVia} {response : Bytes} : AnswerKeeps s (execDbgResp via response s) := by
  refine .next ?_
  split
  · exact State.tap_keeps (.refl s) fun _ h => State.debugResponse_keeps h
  · exact State.dictWrite_keeps (.refl s)

/-! Editions. -/

theorem execCommitHashQuery_keeps {answers : List (Nat × HashAnswer)} : AnswerKeeps s (execCommitHashQuery answers s) := by
  refine .next ?_
  split
  · exact .refl s
  · refine .ite (.refl s) ?_
    split
    · exact State.updEd_keeps (.refl s)
    · exact .ite (State.failCommit_keeps (.refl s)) (State.updEd_keeps (.refl s))

theorem execCommitDecision_keeps : AnswerKeeps s (execCommitDecision s) :=
  .next (.ite (.refl s) (.ite (State.updEd_keeps (.refl s)) (State.failCommit_keeps (.refl s))))

theorem execCommitInstant_keeps : AnswerKeeps s (execCommitInstant s) := by
  refine .next ?_
  split
  · exact .refl s
  · refine .ite (.refl s) ?_
    split
    · exact State.failCommit_keeps (.refl s)
    · exact State.reachInstant_keeps (.refl s)

theorem execQuiesceComplete_keeps : AnswerKeeps s (execQuiesceComplete s) := by
  refine .next ?_
  split
  · exact .refl s
  · exact .ite (.refl s) (State.releaseHeldReqs_keeps
      (.ite (State.swapWhole_keeps (.refl s)) (State.updEd_keeps (State.applySlow_keeps (.refl s)))))

theorem execQuiescedSwap_keeps : AnswerKeeps s (execQuiescedSwap s) := by
  refine .next ?_
  split
  · exact .refl s
  · refine .ite (.refl s) ?_
    split
    · exact State.releaseHeldReqs_keeps (State.failCommit_keeps (.refl s))
    · exact State.releaseHeldReqs_keeps (State.swapWhole_keeps (.refl s))

theorem execConfirmDeadline_keeps : AnswerKeeps s (execConfirmDeadline s) := by
  refine .next ?_
  split
  · exact .refl s
  · exact .ite (.refl s) (.ite (State.updEd_keeps (.refl s)) (State.reachInstant_keeps (.refl s)))

/-! The test access port. -/

theorem execLoopback_keeps {value : Nat} : AnswerKeeps s (execLoopback die value s) := by
  refine .next (State.tap_keeps (.refl s) fun t h => ?_)
  split
  · exact State.send_keeps h
  · exact .ite (State.send_keeps h) (State.updCport_keeps (State.send_keeps h))

theorem execLoopbackDone_keeps {errors lanes : Nat} : AnswerKeeps s (execLoopbackDone die cport errors lanes s) := by
  refine .next ?_
  split
  · exact .refl s
  · exact .ite (.refl s) (State.updCport_keeps (.refl s))

/-! Register writes: a word of a port's function, of a Wing's diagnostic window, of BAR0, of the configuration space. -/

theorem writeFnBlock_keeps {o v : Nat} : AnswerKeeps s (writeFnBlock s port o v) := by
  have slot {e r : Nat} : AnswerKeeps s (s.writeSlot port e r v) :=
    .ite (.next (State.updEngine_keeps (.refl s))) (.ite (.next (State.writeMovCtl_keeps (.refl s)))
      (.ite execMoverDoorbell_keeps (.next (.refl s))))
  have queue {q r : Nat} : AnswerKeeps s (writeQueueReg s port q r v) :=
    .ite execFnEqCtlWrite_keeps (.ite execFnEqCtlWrite_keeps (.ite execFnEqHeadWrite_keeps
      (.ite (.next (State.updFn_keeps (.refl s))) (.ite execFnEqFilterWrite_keeps (.next (.refl s))))))
  have load : AnswerKeeps s (writeLoadCtl s port v) := .ite execLoadGo_keeps (.next (State.updFn_keeps (.refl s)))
  exact .ite execIntStatClear_keeps (.ite load (.ite slot (.ite queue
    (.ite (.next (State.updFn_keeps (.refl s))) (.next (.refl s))))))

theorem writeDiag_keeps {o v : Nat} : AnswerKeeps s (writeDiag s wing o v) := by
  have put {g : Split → Split} : AnswerKeeps s (.next (if s.splitOpen wing then s.updSplit wing g else s)) :=
    .next (.ite (State.updSplit_keeps (.refl s)) (.refl s))
  refine .ite put (.ite ?_ (.ite put (.ite put (.ite put (.ite put (.next (.refl s)))))))
  split
  · exact execReadRaw_keeps
  · exact execWriteData_keeps
  · exact execWriteCheck_keeps
  · exact execWriteBoth_keeps
  · exact execCompute_keeps
  · exact .next (.refl s)

theorem writeBar0_keeps {o v : Nat} : AnswerKeeps s (writeBar0 s port o v) := by
  have die : ∀ {d a : Nat} {key : Bool}, AnswerKeeps s (.next (s.writeDieReg d a v key)) := .next (State.writeDieReg_keeps (.refl s))
  have same : AnswerKeeps s (.next s) := .next (.refl s)
  exact .ite writeFnBlock_keeps (.ite (.next (State.writeWindow_keeps (.refl s))) (.ite same (.ite die (.ite die
    (.ite same (.ite die (.ite writeDiag_keeps same)))))))

theorem writeCfg_keeps {o v : Nat} : AnswerKeeps s (writeCfg s port o v) := by
  unfold writeCfg
  split
  · exact .next (.refl s)
  · have fn : ∀ f, Keeps s (s.updFn port f) := fun _ => State.updFn_keeps (.refl s)
    have intx : ∀ b, Keeps s (s.intxChange port b) := fun _ => State.intxChange_keeps (.refl s)
    exact .ite (.ite (.next (intx _)) (.ite (.trans (intx _) execBusMasterEnableSet_keeps)
        (.next (State.updFn_keeps (intx _))))) <|
      .ite (.ite (.trans (fn _) execD0Return_keeps) (.ite (.next (State.updFn_keeps (fn _))) (.next (fn _)))) <|
      .ite (.next (State.sendMsiPending_keeps (fn _))) <|
      .ite (.next (State.sendMsiPending_keeps (fn _))) <|
      .ite (.ite (.trans (fn _) execFlr_keeps) (.next (fn _))) <|
      .ite (.next (fn _)) <|
      .ite (.next (.foldl (fn _) fun _ _ h => State.sendPending_keeps h)) <|
      .ite (.next (fn _)) <| .ite (.next (fn _)) <| .ite (.next (.refl s)) (.next (fn _))

theorem execRegisterWrite_keeps {offset value : Nat} {poison : Bool} :
    AnswerKeeps s (execRegisterWrite port offset value poison s) := by
  unfold execRegisterWrite
  split
  · exact .next (.refl s)
  · exact .ite (.next (.refl s)) (.ite (.next (State.poisonedWrite_keeps (.refl s))) (.ite writeCfg_keeps
      (.ite (.next (.refl s)) (.ite (.next (State.writeTable_keeps (.refl s))) writeBar0_keeps))))

end Commands

/-- Every command but the wake frame and the return of main power leaves the queue, the assembly and WAKE_N as they were, and memory
canonical. -/
theorem exec_keeps (c : Instr) (s : State) (hw : ∀ mac ty port, c ≠ .wakeFrame mac ty port) (hr : c ≠ .mainPowerReturn) :
    AnswerKeeps s (exec c s) := by
  cases c with
  | cxlMemRead _ _ => exact .next (State.orHold_keeps (.refl s) fun _ h => State.isolateTags_keeps (State.linkRead_keeps h))
  | cxlMemWrite _ _ _ _ _ =>
    exact .next (State.orHold_keeps (.refl s) fun _ h => State.isolateTags_keeps (State.linkWrite_keeps h))
  | memSpecRd _ _ => exact .next (.refl s)
  | memInv _ _ => exact .next (.ite (State.completeWrite_keeps (.refl s)) (.refl s))
  | coalesceWindowEnd _ _ => exact .next (.ite (State.closeWindow_keeps (.refl s)) (.refl s))
  | channelReadComplete _ => exact execChannelReadComplete_keeps
  | actBlockExpanded _ _ _ => exact .next (State.blockExpanded_keeps (.refl s))
  | lineLeavesCache _ _ _ => exact execLineLeavesCache_keeps
  | depotWriteThroughComplete _ => exact .next (State.depotWritten_keeps (.refl s))
  | deferredRunFree _ _ _ _ => exact .next (.ite (.refl s) (State.updMem_keeps (.refl s) rfl))
  | compressedViewRead _ _ => exact execCompressedViewRead_keeps
  | fork _ _ => exact .next (State.runCmd_keeps (.refl s) fun _ _ => State.startFork_keeps)
  | forkInstant _ _ _ => exact execForkInstant_keeps
  | truncate _ _ => exact .next (State.runCmd_keeps (.refl s) fun _ _ => State.truncate_keeps)
  | releaseSequence _ _ => exact .next (.ite (State.runCmd_keeps (.refl s) fun _ _ => State.releaseSeq_keeps) (.refl s))
  | releaseBlockRange _ _ => exact .next (.ite (.refl s) (State.runCmd_keeps (.refl s) fun _ _ => State.releaseRange_keeps))
  | create _ _ => exact .next (State.runCmd_keeps (.refl s) fun _ _ => State.create_keeps)
  | fence _ _ => exact .next (State.runCmd_keeps (.refl s) fun _ _ => State.putCmd_keeps)
  | fenceComplete _ _ => exact execFenceComplete_keeps
  | pin _ _ => exact .next (State.runCmd_keeps (.refl s) fun _ _ => State.pin_keeps)
  | unpin _ _ => exact .next (State.runCmd_keeps (.refl s) fun _ _ => State.unpin_keeps)
  | pinMoveDone _ _ => exact execPinMoveDone_keeps
  | undefinedCommandOpcode _ _ => exact execUndefinedCommandOpcode_keeps
  | ingestRecord _ => exact .next (.ite (State.streamDone_keeps (State.ingestOne_keeps (.refl s))) (.refl s))
  | heatPeriodEnd => exact execHeatPeriodEnd_keeps
  | jobLaunch _ _ => exact .next (State.runCmd_keeps (.refl s) fun _ _ => State.launchJob_keeps)
  | jobAdmission _ _ => exact execJobAdmission_keeps
  | tileClearDone _ => exact execTileClearDone_keeps
  | jobStreamRead _ _ _ => exact execJobStreamRead_keeps
  | jobStreamWrite _ _ _ => exact execJobStreamWrite_keeps
  | jobCompletion _ => exact execJobCompletion_keeps
  | jobFault _ => exact execJobFault_keeps
  | jobTimeout _ => exact execJobTimeout_keeps
  | jobAbort _ _ | verifyRequest _ _ | customerTrigger _ _ | roleRestart _ _ | writeBackCollection _ _ | freezeOrder _
  | reenterOrder _ | evacuateOrder _ | prepareD3cold _ | endD3coldPreparation _ | write _ _ _ _ _ | keyTake _ | keyRelease _
  | beginFromActive _ | beginFromPrevious _ | validate _ | discard _ | confirm _ | commit _ _ | counterWrite _ _ | flashErase _
  | flashProgram _ | raiseMinSvn _ | provisionControlRoot _ _ | provisionKey _ _ | wingIsolate _ _ | wingReturn _ _ =>
    exact .next (State.dictWrite_keeps (.refl s))
  | triggerDispatch _ => exact execTriggerDispatch_keeps
  | nop _ _ | movk _ _ | movz _ _ | jmp _ _ | param _ _ | stb _ _ | cwait _ _ => exact .next (State.docPure_keeps (.refl s))
  | add _ _ | sub _ _ | andR _ _ | orR _ _ | xor _ _ | shl _ _ | shr _ _ | sra _ _ | mul _ _ | minu _ _ | maxu _ _ =>
    exact .next (State.docAlu_keeps (.refl s))
  | addi _ _ | andi _ _ | ori _ _ | xori _ _ | shli _ _ | shri _ _ | srai _ _ => exact .next (State.docImm_keeps (.refl s))
  | beq _ _ | bne _ _ | bltu _ _ | bgeu _ _ => exact .next (State.docBranch_keeps (.refl s))
  | tsc _ _ | wait _ _ | halt _ _ => exact .next (State.docRun_keeps (.refl s) fun _ _ _ h => h)
  | waitExpiry _ _ => exact execWaitExpiry_keeps
  | evt _ _ => exact .next (State.docRun_keeps (.refl s) fun _ _ _ h => State.event_keeps h)
  | rdreg _ _ | catrd _ _ => exact .next (State.docRun_keeps (.refl s) fun _ _ _ h => .ite_fst h h)
  | wrreg _ _ =>
    exact .next (State.docRun_keeps (.refl s) fun _ _ _ h => .ite_fst h (.ite_fst h (.ite_fst h (State.writeDieReg_keeps h))))
  | ldb _ _ => exact .next (State.docRun_keeps (.refl s) fun _ _ _ h => .ite_fst h (State.readBuf_keeps h))
  | lread _ _ => exact .next (State.docChan_keeps (.refl s) fun _ _ _ _ _ _ h => State.readLines_keeps h)
  | lwrite _ _ => exact execLwrite_keeps
  | lfill _ _ => exact execLfill_keeps
  | lscrub _ _ =>
    exact .next (State.docChan_keeps (.refl s) fun _ _ _ _ _ _ h =>
      .ite (State.walkTo_keeps (State.scrubLines_keeps h)) (State.scrubLines_keeps h))
  | ltest _ _ => exact execLtest_keeps
  | docentChannelOpDone _ _ => exact execDocentChannelOpDone_keeps
  | catflip _ _ => exact execCatflip_keeps
  | salloc _ _ => exact execSalloc_keeps
  | sfree _ _ => exact execSfree_keeps
  | runcopy _ _ => exact execRuncopy_keeps
  | copyComplete _ _ _ => exact execCopyComplete_keeps
  | bverify _ _ => exact .next (State.docRun_keeps (.refl s) fun _ _ _ h => .ite_fst h (State.docVerify_keeps h))
  | watchdog _ _ => exact execWatchdog_keeps
  | correctedRateWindowEnd _ _ => exact execCorrectedRateWindowEnd_keeps
  | readRaw _ => exact execReadRaw_keeps
  | writeData _ => exact execWriteData_keeps
  | writeCheck _ => exact execWriteCheck_keeps
  | writeBoth _ => exact execWriteBoth_keeps
  | compute _ => exact execCompute_keeps
  | depotRefreshDue _ _ _ _ => exact execDepotRefreshDue_keeps
  | galleryRefreshDue _ _ _ => exact execGalleryRefreshDue_keeps
  | thermalSensorPoll _ => exact .next (.ite (.refl s) (.of_eq (.refl s) rfl rfl rfl))
  | rankPowerDown _ _ _ => exact execRankPowerDown_keeps
  | caParityAlert _ _ _ | writeCrcAlert _ _ _ => exact .next (State.alert_keeps (.refl s))
  | galleryParityError _ _ => exact execGalleryParityError_keeps
  | channelFlip _ _ => exact execChannelFlip_keeps
  | evacuationComplete _ _ => exact execEvacuationComplete_keeps
  | dataFlit _ _ _ => exact execDataFlit_keeps
  | linkFlit _ _ _ => exact execLinkFlit_keeps
  | hello _ _ _ => exact execHello_keeps
  | flitCrcFailure _ _ _ => exact execFlitCrcFailure_keeps
  | ackTimer _ _ => exact execAckTimer_keeps
  | nakHoldoffExpiry _ _ => exact execNakHoldoffExpiry_keeps
  | replayTimer _ _ => exact execReplayTimer_keeps
  | retrainDone _ _ _ => exact execRetrainDone_keeps
  | receiverLockLoss _ _ => exact execReceiverLockLoss_keeps
  | lockLossTimeout _ _ => exact execLockLossTimeout_keeps
  | loanFillRequest _ _ _ => exact execLoanFillRequest_keeps
  | loanFillReply _ _ _ => exact execLoanFillReply_keeps
  | loanRecall _ _ _ => exact execLoanRecall_keeps
  | recallAck _ _ _ => exact execRecallAck_keeps
  | lobby0Heartbeat => exact execLobby0Heartbeat_keeps
  | heartbeatTimeout _ => exact execHeartbeatTimeout_keeps
  | timeSyncSend => exact execTimeSyncSend_keeps
  | timeSyncReceive _ _ _ => exact execTimeSyncReceive_keeps
  | timeSyncTimeout _ => exact execTimeSyncTimeout_keeps
  | telemetryMessage _ _ => exact execTelemetryMessage_keeps
  | identify _ | getSupportedLogs _ | identifyMemoryDevice _ | getHealthInfo _ | getEventInterruptPolicy _
  | getDynamicCapacityConfiguration _ | getDynamicCapacityExtentList _ | getScanMediaCapabilities _ | getScanMediaResults _
  | getTimestamp _ | unsupportedMailboxCommand _ _ => exact .next (State.mail_keeps (.refl s) fun _ h => h)
  | backgroundOperationStatus _ => exact execBackgroundOperationStatus_keeps
  | getLog _ _ => exact .next (State.mail_keeps (.refl s) fun _ h => .ite_fst h h)
  | getEventRecords _ _ => exact .next (State.mail_keeps (.refl s) fun _ h => .ite_fst h (.ite_fst h h))
  | clearEventRecords _ _ _ => exact execClearEventRecords_keeps
  | setEventInterruptPolicy _ _ => exact .next (State.mail_keeps (.refl s) fun _ h => .ite_fst (State.updFn_keeps h) h)
  | addDynamicCapacityResponse _ _ => exact execAddDynamicCapacityResponse_keeps
  | releaseDynamicCapacity _ _ => exact execReleaseDynamicCapacity_keeps
  | releaseTimeout _ _ _ => exact execReleaseTimeout_keeps
  | scanMedia _ _ _ => exact execScanMedia_keeps
  | scanMediaComplete => exact .next (.of_eq (.refl s) rfl rfl rfl)
  | hdmDecoderCommit _ _ _ _ _ => exact execHdmDecoderCommit_keeps
  | busMasterEnableClear _ | flrReady _ | perstNDeassert _ | d3hotEntry _ | functionReady _ =>
    exact .next (State.updFn_keeps (.refl s))
  | busMasterEnableSet _ => exact execBusMasterEnableSet_keeps
  | flr _ => exact execFlr_keeps
  | hotReset _ => exact execHotReset_keeps
  | perstNAssert _ => exact .next (State.updFn_keeps (State.linkDown_keeps (.refl s)))
  | portLinkUp _ _ _ _ _ => exact execPortLinkUp_keeps
  | d0Return _ => exact execD0Return_keeps
  | idleSelfRefresh => exact .next (.ite (.of_eq (.refl s) rfl rfl rfl) (.refl s))
  | pmeTurnOff _ => exact execPmeTurnOff_keeps
  | d3coldFlushComplete => exact execD3coldFlushComplete_keeps
  | wakeFrame mac ty port => exact absurd rfl (hw mac ty port)
  | msixUnmask _ _ => exact execMsixUnmask_keeps
  | moderationExpiry _ _ => exact execModerationExpiry_keeps
  | intStatClear _ _ => exact execIntStatClear_keeps
  | fnEqHeadWrite _ _ _ => exact execFnEqHeadWrite_keeps
  | fnEqCtlWrite _ _ _ _ => exact execFnEqCtlWrite_keeps
  | fnEqFilterWrite _ _ _ => exact execFnEqFilterWrite_keeps
  | moverDoorbell _ _ _ => exact execMoverDoorbell_keeps
  | moverRestart _ _ _ => exact .next (.ite (State.writeMovCtl_keeps (.refl s)) (.refl s))
  | descriptorNop _ _ => exact execDescriptorNop_keeps
  | toDevice _ _ => exact execToDevice_keeps
  | toHost _ _ => exact execToHost_keeps
  | ingest _ _ => exact execIngest_keeps
  | undefinedDescriptorOpcode _ _ => exact execUndefinedDescriptorOpcode_keeps
  | readCompletion _ _ _ => exact execReadCompletion_keeps
  | completionTimeout _ _ => exact execCompletionTimeout_keeps
  | loadGo _ _ => exact execLoadGo_keeps
  | read _ _ _ _ _ | sessionQueueRead _ => exact .next (State.dictRead_keeps (.refl s))
  | readStaged _ _ _ _ _ => exact .next (State.dictReadStaged_keeps (.refl s))
  | writeStaged _ _ _ _ _ => exact .next (State.dictWriteStaged_keeps (.refl s))
  | describe _ _ _ => exact .next (State.dictDescribe_keeps (.refl s))
  | nextEntry _ _ _ => exact .next (State.dictNext_keeps (.refl s))
  | badOp _ _ => exact .next (.ite (.refl s) (State.dictBad_keeps (.refl s)))
  | dapFrameDrop _ => exact .next (.ite (State.bump_keeps (.refl s)) (.refl s))
  | neighborSolicitation _ _ | icmpv6Echo _ _ => exact .next (.ite (State.send_keeps (.refl s)) (.refl s))
  | getVersion _ _ | getCapabilities _ _ | negotiateAlgorithms _ _ | getDigests _ _ | getCertificate _ _ _ | challenge _ _ =>
    exact .next (State.plainSpdm_keeps (.refl s))
  | getMeasurements _ _ _ => exact execGetMeasurements_keeps
  | keyExchange _ _ => exact execKeyExchange_keeps
  | finish _ _ => exact execFinish_keeps
  | endSession _ => exact .next (State.serveSpdm_keeps (.refl s) fun _ h => State.endSession_keeps (State.spdmAnswer_keeps h))
  | heartbeat _ => exact .next (State.serveSpdm_keeps (.refl s) fun _ h => State.spdmAnswer_keeps h)
  | sessionIdleTimeout _ => exact execSessionIdleTimeout_keeps
  | fieldLinkLoss => exact execFieldLinkLoss_keeps
  | leaseExpiry => exact .next (.ite (State.expireLease_keeps (.refl s)) (.refl s))
  | validationDone => exact .next (.ite (State.endValidation_keeps (.refl s)) (.refl s))
  | commitHashQuery _ => exact execCommitHashQuery_keeps
  | commitDecision => exact execCommitDecision_keeps
  | commitInstant => exact execCommitInstant_keeps
  | quiesceComplete => exact execQuiesceComplete_keeps
  | quiescedSwap => exact execQuiescedSwap_keeps
  | confirmDeadline => exact execConfirmDeadline_keeps
  | recordHoldExpiry => exact execRecordHoldExpiry_keeps
  | telemetryRound _ => exact execTelemetryRound_keeps
  | pmbusPoll _ => exact execPmbusPoll_keeps
  | pmbAlert _ _ => exact .next (.ite (State.railFault_keeps (.refl s)) (.refl s))
  | telemetryLost _ => exact execTelemetryLost_keeps
  | telemetryIsolationTimeout _ => exact execTelemetryIsolationTimeout_keeps
  | stewardWatchdog => exact .next (.ite (State.stewardFallback_keeps (.refl s)) (.refl s))
  | stewardRestartDone => exact .next (.ite (State.resume_keeps (State.updPw_keeps (.refl s))) (.refl s))
  | paceComparatorAlert _ _ => exact execPaceComparatorAlert_keeps
  | thermtrip _ => exact execThermtrip_keeps
  | pllLockLoss _ _ => exact execPllLockLoss_keeps
  | pllRelock _ _ => exact execPllRelock_keeps
  | pllRelockTimeout _ _ => exact .next (.ite (State.relock_keeps (State.pllFails_keeps (.refl s))) (.refl s))
  | refclkLoss => exact .next (.ite (State.updPw_keeps (.refl s)) (.refl s))
  | refclkReturn => exact execRefclkReturn_keeps
  | refclkAbsenceTimeout => exact .next (.ite (State.emergency_keeps (State.suspend_keeps (.refl s))) (.refl s))
  | epdEmergency => exact .next (.ite (State.emergency_keeps (State.updPw_keeps (.refl s))) (.refl s))
  | epdFault _ => exact execEpdFault_keeps
  | epdDiscrepancy => exact .next (.ite (State.bump_keeps (State.event_keeps (State.updPw_keeps (.refl s)))) (.refl s))
  | vddAonLoss => exact execVddAonLoss_keeps
  | pkgResetAssert => exact .next (State.coldReset_keeps (.refl s))
  | pkgResetDeassert _ _ => exact .next (.ite (State.startUp_keeps (.refl s)) (.refl s))
  | wingRelease => exact .next (.ite (State.releaseWings_keeps (.refl s)) (.refl s))
  | flashOpDone _ => exact execFlashOpDone_keeps
  | tapReset => exact .next (State.updId_keeps (.refl s))
  | idcode _ | samplePreload _ | extest _ | clamp _ | highz _ | diestat _ | frzread _ _ | intscan _ | mbist _ | gal1500 _ _ =>
    exact .next (State.tap_keeps (.refl s) fun _ h => State.send_keeps h)
  | chainSel _ => exact .next (State.tap_keeps (.refl s) fun _ h => State.updId_keeps (State.send_keeps h))
  | loopback _ _ => exact execLoopback_keeps
  | loopbackDone _ _ _ _ => exact execLoopbackDone_keeps
  | bypass _ _ => exact .next (.ite (.refl s) (State.tap_keeps (.refl s) fun _ h => h))
  | dbgChal _ => exact execDbgChal_keeps
  | dbgResp _ _ => exact execDbgResp_keeps
  | debugSignatureChecked => exact execDebugSignatureChecked_keeps
  | keyEraseAckTimeout _ =>
    exact .next (.ite (State.updId_keeps (State.eraseKeys_keeps (State.draw_keeps (.refl s)))) (.refl s))
  | registerWrite _ _ _ _ => exact execRegisterWrite_keeps
  | epdDone => exact .next (.ite (State.endEmergency_keeps (.refl s)) (.refl s))
  | depotFrequencyChangeDone _ => exact execDepotFrequencyChangeDone_keeps
  | firmwareSlotVerified _ => exact execFirmwareSlotVerified_keeps
  | fieldLinkUp => exact .next (.ite (State.updPkg_keeps (.refl s) rfl rfl rfl rfl rfl) (.refl s))
  | epdSample _ => exact .next (.ite (State.oneChannel_keeps (.refl s)) (.refl s))
  | mainPowerRemoval => exact execMainPowerRemoval_keeps
  | mainPowerReturn => exact absurd rfl hr

end Sys2Proof.Machine
end

section
/-! PROOF. The start of the emergency sequence (R392), the cold reset (R416), the loss of VDD_AON (R242, R372), WAKE_N (R323), and the
statement about them. -/

namespace Sys2Proof.Machine

open Sys2Proof.Claims

/-! The start of the emergency sequence. -/

theorem OnlyRecords.stagedState {s t : State} (h : OnlyRecords s t) : t.ed.stagedState = s.ed.stagedState := by
  rw [← h.ed]

theorem OnlyRecords.staged {s t : State} (h : OnlyRecords s t) : t.ed.staged = s.ed.staged := by
  rw [← h.ed]

@[simp] theorem State.event_stagedState (s : State) (sc : Scope) (t u c : Nat) (b : Bytes) :
    (s.event sc t u c b).ed.stagedState = s.ed.stagedState := (State.event_onlyRecords (.refl s)).stagedState

@[simp] theorem State.event_staged (s : State) (sc : Scope) (t u c : Nat) (b : Bytes) :
    (s.event sc t u c b).ed.staged = s.ed.staged := (State.event_onlyRecords (.refl s)).staged

/-- A failed commit leaves memory and the package as they were, and no commit under way. -/
theorem State.failCommit_ends {s : State} (failure die : Nat) (h : stagedIsThere s) :
    (s.failCommit failure die).mem = s.mem ∧ (s.failCommit failure die).pkg = s.pkg ∧
      (s.failCommit failure die).ed.stagedState ≠ 5 := by
  unfold State.failCommit
  split
  · split
    · simp
    · exact ⟨rfl, rfl, ‹_›⟩
  · next hn => exact ⟨rfl, rfl, fun h5 => h h5 hn⟩

theorem State.abandonCommit_ends {s : State} (h : stagedIsThere s) :
    s.abandonCommit.mem = s.mem ∧ s.abandonCommit.pkg = s.pkg ∧ s.abandonCommit.ed.stagedState ≠ 5 := by
  unfold State.abandonCommit
  split
  · exact State.failCommit_ends (s := s.draw.2) _ _ h
  · exact ⟨rfl, rfl, ‹_›⟩

/-- A record raised ends no commit and takes no staged edition away. -/
theorem stagedIsThere_event {s : State} {sc : Scope} {t u c : Nat} {b : Bytes} (h : stagedIsThere s) :
    stagedIsThere (s.event sc t u c b) := by
  simpa [stagedIsThere] using h

/-- A running package without an emergency begins the sequence (R392): memory loses its moves and nothing else. -/
theorem State.emergency_begins {s : State} (cause die : Nat) (hr : s.running = true) (he : s.pw.emergency = false)
    (hs : stagedIsThere s) :
    emergencyBegun s (s.emergency cause die) cause ∧ (s.emergency cause die).mem = { s.mem with moves := [] } ∧
      (s.emergency cause die).pkg.aon = s.pkg.aon := by
  obtain ⟨hmem, hpkg, hed⟩ := State.abandonCommit_ends (stagedIsThere_event (sc := .d) (t := 0x87) (u := src die 0) (c := 0xFFFF)
    (b := leBytes 1 cause) hs)
  rw [State.event_mem] at hmem
  rw [State.event_pkg] at hpkg
  have hgo : ¬ (s.pw.emergency || !s.running) = true := by simp [hr, he]
  unfold State.emergency
  rw [if_neg hgo]
  refine ⟨⟨rfl, rfl, rfl, rfl, ?_, ?_, ?_, hed⟩, ?_, ?_⟩ <;> simp [State.stopTiles, hmem, hpkg]

/-- A fault of a rail that is no Wing's begins the sequence (R372). -/
theorem State.railFault_begins_emergency {s : State} {rail : Nat} (status : Nat) (hrail : 4 ≤ rail) (hr : s.running = true)
    (he : s.pw.emergency = false) (hs : stagedIsThere s) :
    emergencyBegun s (s.railFault rail status) 4 ∧ (s.railFault rail status).mem = { s.mem with moves := [] } ∧
      (s.railFault rail status).pkg.aon = s.pkg.aon := by
  have h := State.emergency_begins (s := s.event .d 0x83 s.stewardSrc 0xFFFF (pack [(1, rail), (2, status)])) 4 s.pkg.primary
    (by simpa [State.running] using hr) (by simpa using he) (stagedIsThere_event hs)
  unfold State.railFault
  rw [if_neg (by omega)]
  simpa [emergencyBegun] using h

/-! The cold reset: what it stops, and what it keeps. -/

@[simp] theorem State.coldReset_inReset (s : State) : s.coldReset.pkg.inReset = true := rfl
@[simp] theorem State.coldReset_fwRunning (s : State) : s.coldReset.pkg.fwRunning = false := rfl
@[simp] theorem State.coldReset_mainPower (s : State) : s.coldReset.pkg.mainPower = s.pkg.mainPower := rfl
@[simp] theorem State.coldReset_thermtrip (s : State) : s.coldReset.pkg.thermtrip = (s.pkg.thermtrip && s.pkg.mainPower) := rfl
@[simp] theorem State.coldReset_tsc (s : State) : s.coldReset.tsc = 0 := rfl
@[simp] theorem State.coldReset_jobs (s : State) : s.coldReset.wb.jobs = [] := rfl
@[simp] theorem State.coldReset_reads (s : State) : s.coldReset.mem.reads = [] := rfl
@[simp] theorem State.coldReset_cache (s : State) : s.coldReset.mem.cache = [] := rfl
@[simp] theorem State.coldReset_sessions (s : State) : s.coldReset.ed.sessions = [] := rfl
@[simp] theorem State.coldReset_staged (s : State) : s.coldReset.ed.staged = none := rfl
@[simp] theorem State.coldReset_holder (s : State) : s.coldReset.ed.holder = .free := rfl
@[simp] theorem State.coldReset_debugState (s : State) : s.coldReset.id.debugState = 0 := rfl
@[simp] theorem State.coldReset_dram (s : State) : s.coldReset.mem.dram = s.mem.dram := rfl
@[simp] theorem State.coldReset_cat (s : State) : s.coldReset.mem.cat = s.mem.cat := rfl
@[simp] theorem State.coldReset_memKeys (s : State) : s.coldReset.mem.keys = s.mem.keys := rfl
@[simp] theorem State.coldReset_flash (s : State) : s.coldReset.id.flash = s.id.flash := rfl
@[simp] theorem State.coldReset_minSvn (s : State) : s.coldReset.id.minSvn = s.id.minSvn := rfl
@[simp] theorem State.coldReset_controlBanks (s : State) : s.coldReset.id.controlBanks = s.id.controlBanks := rfl
@[simp] theorem State.coldReset_pending (s : State) : s.coldReset.pending = s.pending := rfl

theorem exec_mainPowerRemoval_on {s : State} (h : s.pkg.mainPower = true) :
    exec .mainPowerRemoval s = .next (s.updPkg fun p => { p with mainPower := false }).coldReset :=
  congrArg Host.Outcome.next (if_pos h)

theorem exec_mainPowerRemoval_off {s : State} (h : s.pkg.mainPower = false) : exec .mainPowerRemoval s = .next s :=
  congrArg Host.Outcome.next (if_neg (by simp [h]))

/-! The loss of VDD_AON. -/

/-- The package as its always-on domain loses power: no key, no seal. -/
def State.loseAon (s : State) : State :=
  (({ s with dies := s.dies.map fun d => { d with sealWord := none } } : State).updMem fun m => { m with keys := [] }).updPkg
    fun p => { p with aon := false, aonKept := false }

theorem exec_vddAonLoss_off {s : State} (h : s.running = false) : exec .vddAonLoss s = .next s.loseAon :=
  congrArg Host.Outcome.next (if_neg (by simp [h]))

theorem exec_vddAonLoss_on {s : State} (h : s.running = true) :
    exec .vddAonLoss s = .next (s.loseAon.draw.2.railFault 6 (Config.freeNat s.fresh % 65536)) :=
  congrArg Host.Outcome.next (if_pos h)

theorem State.loseAon_sealWord {s : State} {d : Die} (h : d ∈ s.loseAon.dies) : d.sealWord = none := by
  obtain ⟨e, -, rfl⟩ := List.mem_map.mp h
  rfl

/-! WAKE_N. -/

theorem exec_wakeFrame_due {s : State} (hp : s.pkg.mainPower = false) (ha : s.pkg.aon = true) :
    exec (.wakeFrame Config.macAddress.toNat 0x86DD 45223) s = .next { s with pkg := { s.pkg with wake := true } } :=
  congrArg Host.Outcome.next (if_pos (by simp [hp, ha]))

theorem exec_wakeFrame_not_due {s : State} {mac ty port : Nat}
    (h : s.pkg.mainPower = true ∨ s.pkg.aon = false ∨ mac ≠ Config.macAddress.toNat ∨ ty ≠ 0x86DD ∨ port ≠ 45223) :
    exec (.wakeFrame mac ty port) s = .next s := by
  refine congrArg Host.Outcome.next (if_neg fun due => ?_)
  simp only [Bool.and_eq_true, Bool.not_eq_true', beq_iff_eq] at due
  obtain ⟨⟨⟨⟨hp, ha⟩, hmac⟩, hty⟩, hport⟩ := due
  simp [hp, ha, hmac, hty, hport] at h

theorem exec_mainPowerReturn (s : State) :
    exec .mainPowerReturn s = .next { s with pkg := { s.pkg with mainPower := true, wake := false } } := rfl

/-- No command but a wake frame asserts WAKE_N (R323). -/
theorem exec_wake_of_ne_wakeFrame {c : Instr} {s t : State} (h : exec c s = .next t) (hw : ∀ mac ty port, c ≠ .wakeFrame mac ty port)
    (ht : t.pkg.wake = true) : s.pkg.wake = true := by
  by_cases hr : c = .mainPowerReturn
  · subst hr
    cases h
    cases ht
  · rw [← (exec_keeps c s hw hr t h).wake]
    exact ht

/-- A wake frame releases nothing. -/
theorem exec_wakeFrame_keeps_wake {mac ty port : Nat} {s t : State} (h : exec (.wakeFrame mac ty port) s = .next t)
    (hs : s.pkg.wake = true) : t.pkg.wake = true := by
  cases h
  split
  · rfl
  · exact hs

/-- No command but the return of main power releases WAKE_N (R323). -/
theorem exec_wake_of_ne_mainPowerReturn {c : Instr} {s t : State} (h : exec c s = .next t) (hr : c ≠ .mainPowerReturn)
    (hs : s.pkg.wake = true) : t.pkg.wake = true := by
  by_cases hw : ∃ mac ty port, c = .wakeFrame mac ty port
  · obtain ⟨mac, ty, port, rfl⟩ := hw
    exact exec_wakeFrame_keeps_wake h hs
  · have hk := exec_keeps c s (fun mac ty port e => hw ⟨mac, ty, port, e⟩) hr t h
    rw [hk.wake]
    exact hs

/-! The statement. -/

theorem resetsKeepStores : ResetsKeepStores := by
  intro s
  refine ⟨⟨s.coldReset, rfl, by simp⟩, fun hp => ⟨_, exec_mainPowerRemoval_on hp, by simp⟩, exec_mainPowerRemoval_off,
    fun hr => ⟨s.loseAon, exec_vddAonLoss_off hr, rfl, rfl, rfl, fun d => State.loseAon_sealWord⟩, fun hr he hs => ?_⟩
  obtain ⟨hb, hmem, haon⟩ := State.railFault_begins_emergency (s := s.loseAon.draw.2) (rail := 6) (Config.freeNat s.fresh % 65536)
    (by decide) hr he hs
  refine ⟨_, exec_vddAonLoss_on hr, ?_, haon, hb⟩
  rw [hmem]
  rfl

theorem wakeOnFrame : WakeOnFrame := fun s =>
  ⟨exec_wakeFrame_due, fun _ _ _ => exec_wakeFrame_not_due, exec_mainPowerReturn s,
    fun _ _ => exec_wake_of_ne_wakeFrame, fun _ _ => exec_wake_of_ne_mainPowerReturn⟩

/-- Settles O53: what the cold reset keeps and stops is read off its definition, the loss of VDD_AON is a rail fault that begins the
emergency sequence, and WAKE_N is left alone by every command but two (`exec_keeps`). -/
theorem packageResets : Obligations.PackageResets := ⟨resetsKeepStores, wakeOnFrame⟩

end Sys2Proof.Machine
end

section
/-! PROOF. The emergency input (R389-R391), the end of the emergency sequence (R392-R394), and the statement about them. -/

namespace Sys2Proof.Machine

open Sys2Proof.Claims

/-! What raising a record leaves of the counters, the records held before it, and the links of the ports. -/

/-- The link of a port. -/
def State.linkOf (s : State) (p : Nat) : Option Nat := (s.fn? p).map (·.link)

theorem State.linkOf_updFn {s : State} {p : Nat} {f : Fn → Fn} (h : ∀ x, (f x).port = x.port ∧ (f x).link = x.link) (q : Nat) :
    (s.updFn p f).linkOf q = s.linkOf q := by
  unfold State.linkOf
  by_cases hq : q = p
  · rw [hq, State.fn?_updFn fun x => (h x).1, Option.map_map]
    exact congrArg (Option.map · _) (funext fun x => (h x).2)
  · rw [State.fn?_updFn_ne (fun x => (h x).1) hq]

theorem State.linkOf_updFn_link {s : State} {p st : Nat} {f : Fn → Fn} (hport : ∀ x, (f x).port = x.port)
    (hlink : ∀ x, (f x).link = st) (q : Nat) :
    (s.updFn p f).linkOf q = if q = p then (s.linkOf p).map fun _ => st else s.linkOf q := by
  unfold State.linkOf
  split
  · next hq =>
    rw [hq, State.fn?_updFn hport, Option.map_map, Option.map_map]
    exact congrArg (Option.map · _) (funext hlink)
  · next hq => rw [State.fn?_updFn_ne hport hq]

/-- `t` has the counters and links of `s`, and holds at least its records. -/
structure OnlyAddsRecords (s t : State) : Prop where
  counters : t.ev.counters = s.ev.counters
  heldRecs : s.ev.heldRecs ⊆ t.ev.heldRecs
  links : ∀ p, t.linkOf p = s.linkOf p

theorem OnlyAddsRecords.refl (s : State) : OnlyAddsRecords s s := ⟨rfl, List.Subset.refl _, fun _ => rfl⟩

theorem OnlyAddsRecords.trans {a b c : State} (h : OnlyAddsRecords a b) (k : OnlyAddsRecords b c) : OnlyAddsRecords a c :=
  ⟨k.counters.trans h.counters, List.Subset.trans h.heldRecs k.heldRecs, fun p => (k.links p).trans (h.links p)⟩

theorem OnlyAddsRecords.foldl {α : Type} {a s : State} {f : State → α → State} {l : List α} (h : OnlyAddsRecords a s)
    (hf : ∀ t x, OnlyAddsRecords a t → OnlyAddsRecords a (f t x)) : OnlyAddsRecords a (l.foldl f s) := by
  induction l generalizing s with
  | nil => exact h
  | cons x l ih => exact ih (hf s x h)

theorem OnlyAddsRecords.ite {p : Prop} [Decidable p] {a s t : State} (hs : OnlyAddsRecords a s) (ht : OnlyAddsRecords a t) :
    OnlyAddsRecords a (if p then s else t) := by
  split <;> assumption

theorem State.send_onlyAdds {a s : State} {m : Msg} (h : OnlyAddsRecords a s) : OnlyAddsRecords a (s.send m) :=
  h.trans ⟨rfl, List.Subset.refl _, fun _ => rfl⟩

theorem State.updFn_onlyAdds {a s : State} {p : Nat} {f : Fn → Fn} (h : OnlyAddsRecords a s)
    (hf : ∀ x, (f x).port = x.port ∧ (f x).link = x.link) : OnlyAddsRecords a (s.updFn p f) :=
  h.trans ⟨rfl, List.Subset.refl _, State.linkOf_updFn hf⟩

theorem State.updQueue_onlyAdds {a s : State} {p q : Nat} {g : EventQueue → EventQueue} (h : OnlyAddsRecords a s) :
    OnlyAddsRecords a (s.updFn p fun f => f.updQueue q g) := State.updFn_onlyAdds h fun _ => ⟨rfl, rfl⟩

theorem State.pme_onlyAdds {a s : State} {p : Nat} (h : OnlyAddsRecords a s) : OnlyAddsRecords a (s.pme p) := by
  unfold State.pme
  split
  · split
    · exact State.send_onlyAdds (State.updFn_onlyAdds h fun _ => ⟨rfl, rfl⟩)
    · exact h
  · exact h

theorem State.signal_onlyAdds {a s : State} {p b v : Nat} (h : OnlyAddsRecords a s) : OnlyAddsRecords a (s.signal p b v) := by
  unfold State.signal
  split
  · exact h
  · have stat : OnlyAddsRecords a (s.updFn p fun f => { f with intStat := putBit f.intStat b true }) :=
      State.updFn_onlyAdds h fun _ => ⟨rfl, rfl⟩
    have sent (m : Msg) : OnlyAddsRecords a ((s.updFn p fun f => { f with intStat := putBit f.intStat b true }).send m) :=
      State.send_onlyAdds stat
    exact .ite stat (.ite (.ite (State.updFn_onlyAdds stat fun _ => ⟨rfl, rfl⟩) (sent _))
      (.ite (.ite (State.updFn_onlyAdds stat fun _ => ⟨rfl, rfl⟩) (sent _)) (.ite (sent _) stat)))

theorem State.pushRecord_onlyAdds {a s : State} {p q : Nat} {r : Rec} (h : OnlyAddsRecords a s) :
    OnlyAddsRecords a (s.pushRecord p q r) := by
  unfold State.pushRecord
  split
  · exact h
  · exact State.updQueue_onlyAdds (State.send_onlyAdds h)

theorem State.endBatch_onlyAdds {a s : State} {p q : Nat} (h : OnlyAddsRecords a s) : OnlyAddsRecords a (s.endBatch p q) := by
  unfold State.endBatch
  split
  · exact h
  · refine .ite (State.signal_onlyAdds (State.updQueue_onlyAdds ?shadow)) (State.updQueue_onlyAdds ?shadow)
    exact .ite h (State.send_onlyAdds h)

theorem State.writeTo_onlyAdds {a s : State} {r : Rec} {x : Recv} (h : OnlyAddsRecords a s) : OnlyAddsRecords a (s.writeTo r x) := by
  unfold State.writeTo
  split
  · split
    · exact h
    · split
      · exact State.endBatch_onlyAdds (State.pushRecord_onlyAdds h)
      · exact State.pme_onlyAdds (State.updQueue_onlyAdds h)
  · exact h.trans ⟨rfl, List.Subset.refl _, fun _ => rfl⟩

theorem mem_insertBy {α : Type} {le : α → α → Bool} {x y : α} {l : List α} : y ∈ insertBy le x l ↔ y = x ∨ y ∈ l := by
  induction l with
  | nil => simp [insertBy]
  | cons z l ih =>
    unfold insertBy
    split
    · rw [List.mem_cons, ih, List.mem_cons, or_left_comm]
    · exact List.mem_cons

theorem State.raiseRec_onlyAdds {a s : State} {sc : Scope} {r : Rec} (h : OnlyAddsRecords a s) :
    OnlyAddsRecords a (s.raiseRec sc r) := by
  unfold State.raiseRec State.raiseAs
  split
  · exact h
  · split
    · exact .foldl h fun _ _ k => State.writeTo_onlyAdds k
    · exact h.trans ⟨rfl, fun _ hx => mem_insertBy.mpr (.inr hx), fun _ => rfl⟩

theorem State.event_onlyAdds {a s : State} {sc : Scope} {t u c : Nat} {b : Bytes} (h : OnlyAddsRecords a s) :
    OnlyAddsRecords a (s.event sc t u c b) := State.raiseRec_onlyAdds h

/-- A record of scope D raised in time for its receivers is held for them (R355). -/
theorem recordHeld_event (s : State) (type source : Nat) (payload : Bytes) :
    recordHeld s (s.event .d type source 0xFFFF payload) type source payload := by
  intro hrs hlate
  refine ⟨⟨s.mkRec type source 0xFFFF false payload, s.receivers .d 0xFFFF, source⟩, ?_, rfl, rfl, rfl, rfl, rfl⟩
  have hheld : s.event .d type source 0xFFFF payload = { s with ev := { s.ev with
      heldRecs := insertBy HeldRec.le ⟨s.mkRec type source 0xFFFF false payload, s.receivers .d 0xFFFF, source⟩ s.ev.heldRecs } } := by
    unfold State.event State.raiseRec State.raiseAs
    split
    · next h => exact absurd h hrs
    · exact if_neg (Nat.not_lt.mpr hlate)
  rw [hheld]
  exact mem_insertBy.mpr (.inl rfl)

theorem recordHeld_mono {s t u : State} {type source : Nat} {payload : Bytes} (h : recordHeld s t type source payload)
    (hu : t.ev.heldRecs ⊆ u.ev.heldRecs) : recordHeld s u type source payload := fun hrs hlate =>
  let ⟨r, hr, hbody⟩ := h hrs hlate
  ⟨r, hu hr, hbody⟩

/-! A counter after it is counted up. -/

theorem find?_upsert {α : Type} {p : α → Bool} {f : α → α} {dflt : α} {l : List α} (hf : ∀ x, p (f x) = p x) (hd : p dflt = true) :
    (upsert p f dflt l).find? p = some (f ((l.find? p).getD dflt)) := by
  unfold upsert
  split
  · next h =>
    obtain ⟨x, hx⟩ := Option.isSome_iff_exists.mp (List.find?_isSome.mpr (List.any_eq_true.mp h))
    rw [find?_updWhere hf, hx]
    rfl
  · next h =>
    have hnone : l.find? p = none := List.find?_eq_none.mpr fun x hx hp => h (List.any_eq_true.mpr ⟨x, hx, hp⟩)
    rw [List.find?_append, hnone, Option.none_or, List.find?_singleton, hf, if_pos hd]
    rfl

theorem State.counter_bump (s : State) (i j k n : Nat) (hn : n ≠ 0) :
    (s.bump i j k n).counter i j k = (s.counter i j k + n) % 2 ^ 64 := by
  unfold State.bump State.counter
  rw [if_neg hn]
  dsimp only
  rw [find?_upsert (by intro; rfl) (by simp)]
  cases s.ev.counters.find? fun c => c.idx == i && c.sub == j && c.obj == k <;> rfl

theorem State.bump_heldRecs (s : State) (i j k n : Nat) : (s.bump i j k n).ev.heldRecs = s.ev.heldRecs := by
  unfold State.bump
  split <;> rfl

theorem State.linkOf_bump (s : State) (i j k n p : Nat) : (s.bump i j k n).linkOf p = s.linkOf p := by
  unfold State.bump
  split <;> rfl

/-! What the start of the sequence leaves of the Steward's state and the records. -/

theorem State.failCommit_keeps_pw (s : State) (failure die : Nat) :
    (s.failCommit failure die).pw = s.pw ∧ s.ev.heldRecs ⊆ (s.failCommit failure die).ev.heldRecs := by
  unfold State.failCommit
  split
  · split
    · refine ⟨State.event_pw .., ?_⟩
      exact (State.event_onlyAdds (.refl (s.updEd _))).heldRecs
    · exact ⟨rfl, fun _ h => h⟩
  · exact ⟨rfl, fun _ h => h⟩

theorem State.abandonCommit_keeps_pw (s : State) :
    s.abandonCommit.pw = s.pw ∧ s.ev.heldRecs ⊆ s.abandonCommit.ev.heldRecs := by
  unfold State.abandonCommit
  split
  · exact s.draw.2.failCommit_keeps_pw _ _
  · exact ⟨rfl, fun _ h => h⟩

theorem State.emergency_pw {s : State} (cause die : Nat) (hr : s.running = true) (he : s.pw.emergency = false) :
    (s.emergency cause die).pw = { s.pw with emergency := true, emergencyCause := cause, flushing := false } := by
  unfold State.emergency
  rw [if_neg (by simp [hr, he])]
  simp [State.stopTiles, (State.abandonCommit_keeps_pw _).1]

theorem State.emergency_heldRecs (s : State) (cause die : Nat) : s.ev.heldRecs ⊆ (s.emergency cause die).ev.heldRecs := by
  unfold State.emergency
  split
  · exact fun _ h => h
  · have abandoned := (State.abandonCommit_keeps_pw (s.event .d 0x87 (src die 0) 0xFFFF (leBytes 1 cause))).2
    exact List.Subset.trans (State.event_onlyAdds (.refl s)).heldRecs abandoned

/-! The samples of the emergency input. -/

theorem State.sampling_begins {s : State} (h : s.sampling = true) : s.running = true ∧ s.pw.emergency = false := by
  unfold State.sampling State.accepting at h
  simp only [Bool.and_eq_true, Bool.not_eq_true'] at h
  exact h.1

theorem exec_epdEmergency_sampling {s : State} (h : s.sampling = true) :
    exec .epdEmergency s = .next ((s.updPw fun p => { p with epdA := true, epdB := true }).emergency 1 s.pkg.primary) :=
  congrArg Host.Outcome.next (if_pos h)

theorem exec_epdSample_below_limit {s : State} (ch : Nat) (h : s.sampling = true) (hn : s.pw.epdCount + 1 < s.epdLimit) :
    exec (.epdSample ch) s = .next (s.oneChannel ch) :=
  congrArg Host.Outcome.next (if_pos (by simp [h, hn]))

theorem exec_epdSample_at_limit {s : State} (ch : Nat) (hn : s.epdLimit ≤ s.pw.epdCount + 1) : exec (.epdSample ch) s = .next s :=
  congrArg Host.Outcome.next (if_neg (by simp [Nat.not_lt.mpr hn]))

theorem exec_epdFault_at_limit {s : State} (ch : Nat) (h : s.sampling = true) (hn : s.epdLimit ≤ s.pw.epdCount + 1) :
    exec (.epdFault ch) s =
      .next (((s.oneChannel ch).event .d 0x86 s.primarySrc 0xFFFF (leBytes 1 ch)).emergency 2 s.pkg.primary) :=
  congrArg Host.Outcome.next (if_pos (by simp [h, hn]))

/-- Neither channel is asserted: the count is over (R390). -/
def State.noChannel (s : State) : State := s.updPw fun p => { p with epdA := false, epdB := false, epdCount := 0 }

theorem exec_epdDiscrepancy_counted {s : State} (h : s.sampling = true) (hn : s.pw.epdCount ≠ 0) :
    exec .epdDiscrepancy s = .next ((s.noChannel.event .d 0x85 s.primarySrc 0xFFFF
      (pack [(1, s.pw.epdLast), (4, 100 * s.pw.epdCount)])).bump 0x2135 2 0 1) :=
  congrArg Host.Outcome.next (if_pos (by simp [h, hn]))

theorem exec_epdDiscrepancy_uncounted {s : State} (hn : s.pw.epdCount = 0) : exec .epdDiscrepancy s = .next s :=
  congrArg Host.Outcome.next (if_neg (by simp [hn]))

/-- Between samples the emergency input has no effect (R389). -/
theorem exec_epd_not_sampling {s : State} (ch : Nat) (h : s.sampling = false) :
    exec .epdEmergency s = .next s ∧ exec (.epdSample ch) s = .next s ∧ exec (.epdFault ch) s = .next s ∧
      exec .epdDiscrepancy s = .next s :=
  ⟨congrArg Host.Outcome.next (if_neg (by simp [h])), congrArg Host.Outcome.next (if_neg (by simp [h])),
    congrArg Host.Outcome.next (if_neg (by simp [h])), congrArg Host.Outcome.next (if_neg (by simp [h]))⟩

theorem epdEmergency_begins {s : State} (h : s.sampling = true) (hs : stagedIsThere s) :
    ∃ t, exec .epdEmergency s = .next t ∧ emergencyBegun s t 1 ∧ t.pw.epdA = true ∧ t.pw.epdB = true := by
  obtain ⟨hr, he⟩ := State.sampling_begins h
  have hbegun := (State.emergency_begins (s := s.updPw fun p => { p with epdA := true, epdB := true }) 1 s.pkg.primary hr he hs).1
  have hpw := State.emergency_pw (s := s.updPw fun p => { p with epdA := true, epdB := true }) 1 s.pkg.primary hr he
  exact ⟨_, exec_epdEmergency_sampling h, hbegun, by rw [hpw]; rfl, by rw [hpw]; rfl⟩

theorem epdFault_begins {s : State} (ch : Nat) (h : s.sampling = true) (hs : stagedIsThere s) (hn : s.epdLimit ≤ s.pw.epdCount + 1) :
    ∃ t, exec (.epdFault ch) s = .next t ∧ emergencyBegun s t 2 ∧ recordHeld s t 0x86 s.primarySrc (leBytes 1 ch) := by
  obtain ⟨hr, he⟩ := State.sampling_begins h
  have hbegun := (State.emergency_begins (s := (s.oneChannel ch).event .d 0x86 s.primarySrc 0xFFFF (leBytes 1 ch)) 2 s.pkg.primary
    (by simpa [State.running, State.oneChannel] using hr) (by simpa [State.oneChannel] using he)
    (stagedIsThere_event (s := s.oneChannel ch) hs)).1
  refine ⟨_, exec_epdFault_at_limit ch h hn, by simpa [emergencyBegun, State.oneChannel] using hbegun, ?_⟩
  exact recordHeld_mono (recordHeld_event (s.oneChannel ch) 0x86 s.primarySrc (leBytes 1 ch)) (State.emergency_heldRecs _ _ _)

theorem epdDiscrepancy_recorded {s : State} (h : s.sampling = true) (hn : s.pw.epdCount ≠ 0) :
    ∃ t, exec .epdDiscrepancy s = .next t ∧ t.pw.epdCount = 0 ∧ t.pw.epdA = false ∧ t.pw.epdB = false ∧
      t.pw.emergency = false ∧ t.counter 0x2135 2 0 = (s.counter 0x2135 2 0 + 1) % 2 ^ 64 ∧ t.mem = s.mem ∧
      recordHeld s t 0x85 s.primarySrc (pack [(1, s.pw.epdLast), (4, 100 * s.pw.epdCount)]) := by
  refine ⟨_, exec_epdDiscrepancy_counted h hn, ?_⟩
  generalize hpay : pack [(1, s.pw.epdLast), (4, 100 * s.pw.epdCount)] = payload
  have hcount : (s.noChannel.event .d 0x85 s.primarySrc 0xFFFF payload).counter 0x2135 2 0 = s.counter 0x2135 2 0 := by
    unfold State.counter
    rw [(State.event_onlyAdds (.refl _)).counters]
    rfl
  refine ⟨by simp [State.noChannel], by simp [State.noChannel], by simp [State.noChannel],
    by simpa [State.noChannel] using (State.sampling_begins h).2, ?_, by simp [State.noChannel], ?_⟩
  · rw [State.counter_bump _ _ _ _ _ Nat.one_ne_zero, hcount]
  · exact recordHeld_mono (recordHeld_event s.noChannel 0x85 s.primarySrc payload) (by rw [State.bump_heldRecs]; exact List.Subset.refl _)

/-! A link port that goes down, and the ports the sequence takes down. -/

/-- The link of a port, where there is one, is down. -/
def State.linkIsDown (s : State) (p : Nat) : Prop := ∀ f, s.fn? p = some f → f.link = 0

theorem State.linkIsDown_iff {s : State} {p : Nat} : s.linkIsDown p ↔ ∀ l ∈ s.linkOf p, l = 0 := by
  simp [State.linkIsDown, State.linkOf]

theorem State.linkIsDown_of_linkOf {s t : State} {p : Nat} (h : t.linkOf p = s.linkOf p) (hs : s.linkIsDown p) : t.linkIsDown p := by
  rw [State.linkIsDown_iff] at hs ⊢
  rwa [h]

/-- A broken key changes no link and no channel. -/
theorem State.breakKey_links_chans (s : State) (cause : Nat) :
    (∀ p, (s.breakKey cause).linkOf p = s.linkOf p) ∧ (s.breakKey cause).chans = s.chans := by
  unfold State.breakKey
  split
  · exact ⟨fun _ => rfl, rfl⟩
  · have released (b : Bytes) (p : Nat) : (((s.updEd fun e => { e with holder := .free, lease := 0 }).bump 0x1020 4 0 1).event .d 0x60
        s.primarySrc 0xFFFF b).linkOf p = s.linkOf p :=
      ((State.event_onlyAdds (.refl _)).links p).trans (State.linkOf_bump ..)
    dsimp only
    split
    · split
      · exact ⟨released _, by simp⟩
      · exact ⟨fun p => ((State.event_onlyAdds (.refl _)).links p).trans (released _ p), by simp⟩
    · exact ⟨released _, by simp⟩

theorem State.portBreaksKey_links_chans (s : State) (q : Nat) :
    (∀ p, (s.portBreaksKey q).linkOf p = s.linkOf p) ∧ (s.portBreaksKey q).chans = s.chans := by
  unfold State.portBreaksKey
  split
  · exact s.breakKey_links_chans 3
  · exact ⟨fun _ => rfl, rfl⟩

theorem State.linkOf_resetFn (s : State) (p q : Nat) (sticky : Bool) : (s.resetFn p sticky).linkOf q = s.linkOf q := by
  change (s.updFn p fun f => f.cleared sticky).linkOf q = _
  rw [State.linkOf_updFn]
  exact fun _ => ⟨rfl, rfl⟩

theorem State.linkOf_dropDecoders (s : State) (p q : Nat) : (s.dropDecoders p).linkOf q = s.linkOf q := by
  unfold State.dropDecoders
  rw [State.linkOf_updFn]
  exact fun _ => ⟨rfl, rfl⟩

theorem State.linkOf_linkDown (s : State) (p q st : Nat) (sticky : Bool) :
    (s.linkDown p st sticky).linkOf q = if q = p then (s.linkOf p).map fun _ => st else s.linkOf q := by
  have kept (r : Nat) : ((((s.portBreaksKey p).resetFn p sticky).dropDecoders p).shutExtents p).linkOf r = s.linkOf r :=
    calc ((((s.portBreaksKey p).resetFn p sticky).dropDecoders p).shutExtents p).linkOf r
      _ = (((s.portBreaksKey p).resetFn p sticky).dropDecoders p).linkOf r := rfl
      _ = s.linkOf r := by rw [State.linkOf_dropDecoders, State.linkOf_resetFn, (s.portBreaksKey_links_chans p).1]
  rw [← kept p, ← kept q]
  exact State.linkOf_updFn_link (f := fun f => { f with link := st, ready := false }) (fun _ => rfl) (fun _ => rfl) q

theorem State.linkDown_chans (s : State) (p st : Nat) (sticky : Bool) : (s.linkDown p st sticky).chans = s.chans := by
  rw [← (s.portBreaksKey_links_chans p).2]
  unfold State.linkDown
  generalize s.portBreaksKey p = b
  rfl

theorem State.linkDown_linkIsDown (s : State) (p q : Nat) (sticky : Bool) (h : q = p ∨ s.linkIsDown q) :
    (s.linkDown p 0 sticky).linkIsDown q := by
  rw [State.linkIsDown_iff] at h ⊢
  rw [State.linkOf_linkDown]
  split
  · simp
  · next hq => exact h.resolve_left hq

theorem State.portsDown_cons (s : State) (p : Nat) (ps : List Nat) : s.portsDown (p :: ps) = (s.portsDown [p]).portsDown ps := rfl

theorem State.portsDown_singleton (s : State) (p : Nat) :
    s.portsDown [p] = s ∧ s.linkIsDown p ∨ s.portsDown [p] = s.linkDown p 0 true := by
  unfold State.portsDown
  simp only [List.foldl_cons, List.foldl_nil]
  split
  · next f hf =>
    split
    · next h0 => exact .inl ⟨rfl, fun g hg => by rw [hf] at hg; cases hg; exact h0⟩
    · exact .inr rfl
  · next hnone => exact .inl ⟨rfl, fun g hg => by rw [hnone] at hg; cases hg⟩

/-- Ports taken down are down, and those that were down stay so. -/
theorem State.portsDown_linkIsDown (s : State) (ps : List Nat) (q : Nat) (h : q ∈ ps ∨ s.linkIsDown q) :
    (s.portsDown ps).linkIsDown q := by
  induction ps generalizing s with
  | nil => exact h.resolve_left List.not_mem_nil
  | cons p ps ih =>
    rw [State.portsDown_cons]
    refine ih _ ?_
    rw [List.mem_cons, or_right_comm] at h
    refine h.symm.imp_right fun hq => ?_
    obtain ⟨heq, hp⟩ | heq := s.portsDown_singleton p <;> rw [heq]
    · exact hq.elim (fun e => e ▸ hp) fun h => h
    · exact s.linkDown_linkIsDown p q true hq

theorem State.portsDown_chans (s : State) (ps : List Nat) : (s.portsDown ps).chans = s.chans := by
  induction ps generalizing s with
  | nil => rfl
  | cons p ps ih =>
    rw [State.portsDown_cons, ih]
    obtain ⟨heq, -⟩ | heq := s.portsDown_singleton p <;> rw [heq]
    exact s.linkDown_chans p 0 true

theorem State.portsDown_all (s : State) (p : Nat) : (s.portsDown (s.fn.map (·.port))).linkIsDown p := by
  refine s.portsDown_linkIsDown _ p ?_
  by_cases hp : p ∈ s.fn.map (·.port)
  · exact .inl hp
  · refine .inr fun f hf => absurd (List.mem_map.mpr ⟨f, List.mem_of_find?_eq_some hf, ?_⟩) hp
    simpa using List.find?_some hf

/-! The Depot ranks. -/

/-- A Depot channel in use is in self-refresh and not in service as state 2 (R264, R392 step 4). -/
def Chan.asleep (c : Chan) : Prop := isDepot c.sel = true → c.st ≠ 0 → c.selfRefresh = true ∧ c.st ≠ 2

theorem State.sleepDepot_asleep (s : State) : ∀ c ∈ s.sleepDepot.chans, c.asleep := by
  intro c hc
  obtain ⟨d, -, rfl⟩ := List.mem_map.mp hc
  split
  · refine fun _ _ => ⟨rfl, ?_⟩
    dsimp only
    split
    · decide
    · next h2 =>
      split
      · decide
      · simpa using h2
  · next h => exact fun hd h0 => absurd (by simp [hd, h0]) h

/-- An update that wakes no channel leaves every channel of a list asleep. -/
theorem asleep_updWhere {p : Chan → Bool} {f : Chan → Chan} {l : List Chan} (hf : ∀ c, c.asleep → (f c).asleep)
    (h : ∀ c ∈ l, c.asleep) : ∀ c ∈ updWhere p f l, c.asleep := by
  intro c hc
  obtain ⟨d, hd, rfl⟩ := List.mem_map.mp hc
  split
  · exact hf d (h d hd)
  · exact h d hd

theorem State.writeSeals_asleep {s : State} (h : ∀ c ∈ s.chans, c.asleep) : ∀ c ∈ s.writeSeals.chans, c.asleep := by
  unfold State.writeSeals
  split
  · exact h
  · refine List.foldlRecOn (motive := fun t : State => ∀ c ∈ t.chans, c.asleep) _ _ h fun t ht d _ => ?_
    exact asleep_updWhere (fun _ hc => hc) ht

theorem State.writeSeals_fn (s : State) : s.writeSeals.fn = s.fn := by
  unfold State.writeSeals
  split
  · rfl
  · exact List.foldlRecOn (motive := fun t : State => t.fn = s.fn) _ _ rfl fun t ht d _ => ht

theorem State.suspend_links_chans (s : State) (cause wing : Nat) :
    (∀ p, (s.suspend cause wing).linkOf p = s.linkOf p) ∧ (s.suspend cause wing).chans = s.chans := by
  unfold State.suspend
  split
  · exact ⟨fun _ => rfl, rfl⟩
  · exact ⟨(State.raiseRec_onlyAdds (.refl _)).links, State.watermark_chans ..⟩

/-! The end of the sequence. -/

/-- What the sequence does last: the ranks to sleep, the seals, the links down, the guarantee suspended, EPD_DONE_N (R392-R394). -/
def State.shutDown (s : State) : State :=
  (((s.sleepDepot.writeSeals).portsDown (s.fn.map (·.port))).suspend 5 0xFF).updPkg fun p => { p with epdDone := true }

theorem State.endEmergency_shutDown (s : State) : ∃ u : State, s.endEmergency = u.shutDown := ⟨_, rfl⟩

theorem State.shutDown_linkIsDown (s : State) (p : Nat) : s.shutDown.linkIsDown p := by
  refine State.linkIsDown_of_linkOf ((State.suspend_links_chans ..).1 p) ?_
  have hfn : s.fn = s.sleepDepot.writeSeals.fn := (State.writeSeals_fn s.sleepDepot).symm
  rw [hfn]
  exact State.portsDown_all _ p

theorem State.shutDown_asleep (s : State) : ∀ c ∈ s.shutDown.chans, c.asleep := by
  have hchans : s.shutDown.chans = s.sleepDepot.writeSeals.chans :=
    (State.suspend_links_chans ..).2.trans (State.portsDown_chans ..)
  rw [hchans]
  exact State.writeSeals_asleep s.sleepDepot_asleep

theorem exec_epdDone {s : State} (hr : s.running = true) (he : s.pw.emergency = true) (hd : s.pkg.epdDone = false) :
    exec .epdDone s = .next s.endEmergency :=
  congrArg Host.Outcome.next (if_pos (by simp [hr, he, hd]))

theorem epdDone_shuts_down {s : State} (hr : s.running = true) (he : s.pw.emergency = true) (hd : s.pkg.epdDone = false) :
    ∃ t, exec .epdDone s = .next t ∧ t.pkg.epdDone = true ∧ (∀ p f, t.fn? p = some f → f.link = 0) ∧
      ∀ c ∈ t.chans, isDepot c.sel = true → c.st ≠ 0 → c.selfRefresh = true ∧ c.st ≠ 2 := by
  obtain ⟨u, hu⟩ := s.endEmergency_shutDown
  exact ⟨u.shutDown, hu ▸ exec_epdDone hr he hd, rfl, u.shutDown_linkIsDown, u.shutDown_asleep⟩

/-- Settles O51: a sample begins the sequence, counts, or raises its record, which stays held through the sequence's start
(`OnlyAddsRecords`); the end of the sequence takes down every port it finds and puts every Depot rank to sleep. -/
theorem emergencyInput : Obligations.EmergencyInput := fun _ ch hs =>
  ⟨fun h => ⟨epdEmergency_begins h hs, exec_epdSample_below_limit ch h,
      fun hn => by
        obtain ⟨t, ht⟩ := epdFault_begins ch h hs hn
        exact ⟨⟨t, ht⟩, exec_epdSample_at_limit ch hn⟩,
      epdDiscrepancy_recorded h, exec_epdDiscrepancy_uncounted⟩,
    exec_epd_not_sampling ch, epdDone_shuts_down⟩

end Sys2Proof.Machine
end

section
/-! PROOF. The queue and the step: what a step runs, that every command answers, what every step keeps (`exec_keeps`), and the state
after reset. -/

namespace Sys2Proof.Machine

open Sys2Proof.Claims

/-- Settles O1. -/
theorem stepRunsFront : Obligations.StepRunsFront := by
  intro c rest s h
  unfold step
  rw [h]

theorem step_of_empty {s : State} (h : s.pending = []) : step s = .next s.tick := by
  unfold step
  rw [h]

theorem State.tick_off {s : State} (h : s.running = false) : s.tick = s := if_pos (by simp [h])

/-- A tick moves the TSC and the offsets that slew (R351, R352), and nothing else. -/
theorem State.tick_on {s : State} (h : s.running = true) :
    s.tick = { s with tsc := (s.tsc + 1) % 2 ^ 64, dies := s.tick.dies } := by
  unfold State.tick
  simp [h]

/-- Settles O2. -/
theorem emptyQueueTicks : Obligations.EmptyQueueTicks := by
  intro s h
  refine ⟨s.tick, step_of_empty h, ?_⟩
  cases hr : s.running with
  | false => simp [State.tick_off hr, h]
  | true =>
    rw [State.tick_on hr]
    simp [h]

theorem State.tick_sound {s : State} (h : s.sound = true) : s.tick.sound = true := by
  cases hr : s.running with
  | false => rwa [State.tick_off hr]
  | true => rwa [State.tick_on hr]

/-- Every command leaves the queue, the assembly and sound memory: the two that move WAKE_N change the package's power facts alone. -/
theorem exec_keeps_store {c : Instr} {s t : State} (h : exec c s = .next t) :
    t.pending = s.pending ∧
      (t.pkg.asm = s.pkg.asm ∧ t.pkg.mark = s.pkg.mark ∧ t.pkg.dimms = s.pkg.dimms ∧ t.pkg.dimmCode = s.pkg.dimmCode) ∧
      (s.sound = true → t.sound = true) := by
  by_cases hr : c = .mainPowerReturn
  · subst hr
    cases h
    exact ⟨rfl, ⟨rfl, rfl, rfl, rfl⟩, id⟩
  by_cases hw : ∃ mac ty port, c = .wakeFrame mac ty port
  · obtain ⟨mac, ty, port, rfl⟩ := hw
    cases h
    split
    · exact ⟨rfl, ⟨rfl, rfl, rfl, rfl⟩, id⟩
    · exact ⟨rfl, ⟨rfl, rfl, rfl, rfl⟩, id⟩
  · have k := exec_keeps c s (fun mac ty port e => hw ⟨mac, ty, port, e⟩) hr t h
    exact ⟨k.pending, ⟨k.asm, k.mark, k.dimms, k.dimmCode⟩, k.sound⟩

/-- Settles O57: a step is a tick, which leaves memory alone, or a command, which keeps it canonical (`exec_keeps`). -/
theorem everyStepKeepsMemorySound : Obligations.EveryStepKeepsMemorySound := by
  intro s t hs h
  cases hp : s.pending with
  | nil =>
    rw [step_of_empty hp] at h
    cases h
    exact State.tick_sound hs
  | cons c rest =>
    rw [stepRunsFront c rest s hp] at h
    exact (exec_keeps_store h).2.2 hs

/-- Settles O59. -/
theorem queueAndAssemblyKept : Obligations.QueueAndAssemblyKept :=
  ⟨fun _ _ _ h => (exec_keeps_store h).1, fun _ _ _ h => (exec_keeps_store h).2.1⟩

/-- Settles O52. -/
theorem stateAfterReset : Obligations.StateAfterReset := by
  unfold Obligations.StateAfterReset
  decide

/-! Every command answers: all but the register write are written as a next state; the register write hands on to parts that are. -/

def Answers (r : Res) : Prop := ∃ t, r = .next t

theorem Answers.next (t : State) : Answers (.next t) := ⟨t, rfl⟩

theorem Answers.ite {p : Prop} [Decidable p] {q r : Res} (hq : Answers q) (hr : Answers r) : Answers (if p then q else r) := by
  split <;> assumption

theorem writeFnBlock_answers (s : State) (p o v : Nat) : Answers (writeFnBlock s p o v) :=
  have load : Answers (writeLoadCtl s p v) := .ite (.next _) (.next _)
  have slot (e r : Nat) : Answers (s.writeSlot p e r v) := .ite (.next _) (.ite (.next _) (.ite (.next _) (.next _)))
  have queue (q r : Nat) : Answers (writeQueueReg s p q r v) :=
    .ite (.next _) (.ite (.next _) (.ite (.next _) (.ite (.next _) (.ite (.next _) (.next _)))))
  .ite (.next _) (.ite load (.ite (slot ..) (.ite (queue ..) (.ite (.next _) (.next _)))))

theorem writeDiag_answers (s : State) (w o v : Nat) : Answers (writeDiag s w o v) := by
  have put (g : Split → Split) : Answers (.next (if s.splitOpen w then s.updSplit w g else s)) := .next _
  refine .ite (put _) (.ite ?command (.ite (put _) (.ite (put _) (.ite (put _) (.ite (put _) (.next _))))))
  split
  · exact .next _
  · exact .next _
  · exact .next _
  · exact .next _
  · exact .next _
  · exact .next _

theorem writeBar0_answers (s : State) (p o v : Nat) : Answers (writeBar0 s p o v) :=
  .ite (writeFnBlock_answers ..) (.ite (.next _) (.ite (.next _) (.ite (.next _) (.ite (.next _) (.ite (.next _)
    (.ite (.next _) (.ite (writeDiag_answers ..) (.next _))))))))

theorem writeCfg_answers (s : State) (p o v : Nat) : Answers (writeCfg s p o v) := by
  unfold writeCfg
  split
  · exact .next _
  · exact .ite (.ite (.next _) (.ite (.next _) (.next _))) <|
      .ite (.ite (.next _) (.ite (.next _) (.next _))) <|
      .ite (.next _) <| .ite (.next _) <| .ite (.ite (.next _) (.next _)) <| .ite (.next _) <| .ite (.next _) <| .ite (.next _) <|
      .ite (.next _) <| .ite (.next _) (.next _)

theorem execRegisterWrite_answers (p o v : Nat) (poison : Bool) (s : State) : Answers (execRegisterWrite p o v poison s) := by
  unfold execRegisterWrite
  split
  · exact .next _
  · exact .ite (.next _) (.ite (.next _) (.ite (writeCfg_answers ..) (.ite (.next _) (.ite (.next _) (writeBar0_answers ..)))))

/-- Settles O58. -/
theorem everyCommandAnswers : Obligations.EveryCommandAnswers := by
  intro c s
  cases c with
  | registerWrite p o v poison => exact execRegisterWrite_answers p o v poison s
  | _ => exact ⟨_, rfl⟩

end Sys2Proof.Machine
end

section
/-! PROOF. How a docent's instruction runs (R195-R197), and the statement about its arithmetic, move and branch instructions. -/

namespace Sys2Proof.Machine

open Sys2Proof.Claims

/-! A context, replaced and read back. -/

theorem updWhere_updWhere {α : Type} {p : α → Bool} {f g : α → α} {l : List α} (h : ∀ x, p (f x) = p x) :
    updWhere p g (updWhere p f l) = updWhere p (fun x => g (f x)) l := by
  unfold updWhere
  rw [List.map_map]
  refine List.map_congr_left fun x _ => ?_
  cases hx : p x <;> simp [h, hx]

@[simp] theorem Docent.setCtx_id (x : Docent) (c : Ctx) (y : CtxState) : (x.setCtx c y).id = x.id := by cases c <;> rfl
@[simp] theorem Docent.setCtx_ctx (x : Docent) (c : Ctx) (y : CtxState) : (x.setCtx c y).ctx c = y := by cases c <;> rfl
@[simp] theorem Docent.setCtx_setCtx (x : Docent) (c : Ctx) (y z : CtxState) : (x.setCtx c y).setCtx c z = x.setCtx c z := by
  cases c <;> rfl
theorem Docent.setCtx_self (x : Docent) (c : Ctx) : x.setCtx c (x.ctx c) = x := by cases c <;> rfl

theorem State.docent?_updDocent {s : State} {d : Nat} {f : Docent → Docent} (h : ∀ x, (f x).id = x.id) :
    (s.updDocent d f).docent? d = (s.docent? d).map f :=
  find?_updWhere fun x => by rw [h x]

theorem State.docent?_updDocent_ne {s : State} {d e : Nat} {f : Docent → Docent} (h : ∀ x, (f x).id = x.id) (hne : e ≠ d) :
    (s.updDocent d f).docent? e = s.docent? e :=
  find?_updWhere_ne fun x hx => by
    have hd : x.id = d := by simpa using hx
    simp [h, hd, Ne.symm hne]

theorem State.docent?_setCtx (s : State) (d : Nat) (c : Ctx) (y : CtxState) :
    (s.setCtx d c y).docent? d = (s.docent? d).map (·.setCtx c y) := State.docent?_updDocent fun _ => Docent.setCtx_id ..

theorem State.docent?_setCtx_ne (s : State) {d e : Nat} (c : Ctx) (y : CtxState) (hne : e ≠ d) :
    (s.setCtx d c y).docent? e = s.docent? e := State.docent?_updDocent_ne (fun _ => Docent.setCtx_id ..) hne

theorem State.docent?_congr {s t : State} (h : t.doc = s.doc) (d : Nat) : t.docent? d = s.docent? d := by
  unfold State.docent?
  rw [h]

theorem State.setCtx_setCtx (s : State) (d : Nat) (c : Ctx) (y z : CtxState) :
    (s.setCtx d c y).setCtx d c z = s.setCtx d c z := by
  unfold State.setCtx State.updDocent
  dsimp only
  rw [updWhere_updWhere fun _ => by rw [Docent.setCtx_id]]
  simp only [Docent.setCtx_setCtx]

/-! The context that may run an instruction. -/

/-- What a context at an instruction is (R195, R197): running, not suspended, waiting for nothing, of no default program. -/
theorem State.docReady_spec {s : State} {d op : Nat} {c : Ctx} {y : CtxState} (h : s.docReady d c op = some y) :
    ∃ x, s.docent? d = some x ∧ x.ctx c = y ∧ y.running = true ∧ y.suspended = false ∧ y.native = none ∧
      s.dieRuns (docDie d) = true := by
  unfold State.docReady at h
  split at h
  · cases h
  · next x hx =>
    dsimp only at h
    split at h
    · next hc =>
      cases h
      simp only [Bool.and_eq_true, Bool.not_eq_true', Option.isNone_iff_eq_none] at hc
      obtain ⟨⟨⟨⟨⟨⟨⟨⟨⟨hdie, hrun⟩, hsus⟩, -⟩, -⟩, -⟩, -⟩, hnat⟩, -⟩, -⟩ := hc
      exact ⟨x, hx, rfl, hrun, hsus, hnat, hdie⟩
    · cases h

theorem State.docReady_native {s : State} {d op : Nat} {c : Ctx} {y : CtxState} (h : s.docReady d c op = some y) : y.native = none :=
  let ⟨_, _, _, _, _, hn, _⟩ := State.docReady_spec h
  hn

/-- A context whose instruction issues: the count of those since a waiting one goes on (R200). -/
def CtxState.counted (y : CtxState) (op : Nat) : CtxState := { y with sinceWait := if waiting op then 0 else y.sinceWait + 1 }

/-- The state in which an instruction of docent `d` acts: counted, in the die's count and in the context's. -/
def State.issued (s : State) (d : Nat) (c : Ctx) (y : CtxState) (op : Nat) : State :=
  (s.bump 0x4110 6 d 1).setCtx d c (y.counted op)

theorem State.docRun_ready {s : State} {d op : Nat} {c : Ctx} {y : CtxState} {f : Nat → CtxState → State → State × Flow}
    (h : s.docReady d c op = some y) (held : s.docHeld d op = false) :
    s.docRun d c op f = (f (wordOf y) (y.counted op) (s.issued d c y op)).1.docFlow d c (y.counted op)
      (f (wordOf y) (y.counted op) (s.issued d c y op)).2 := by
  unfold State.docRun
  rw [if_neg (by simp [held]), h]
  rfl

theorem State.docPure_ready {s : State} {d op : Nat} {c : Ctx} {y : CtxState} {f : Nat → CtxState → Flow}
    (h : s.docReady d c op = some y) (held : s.docHeld d op = false) :
    s.docPure d c op f = (s.issued d c y op).docFlow d c (y.counted op) (f (wordOf y) (y.counted op)) :=
  State.docRun_ready h held

/-- Only instructions that act on the DRAM wait for a Depot frequency change (R261). -/
theorem State.docHeld_of_lt {s : State} {d op : Nat} (h : op < 0x34) : s.docHeld d op = false := by
  unfold State.docHeld
  simp only [Bool.and_eq_false_iff, Bool.or_eq_false_iff, beq_eq_false_iff_ne]
  omega

theorem State.docNext_notLast (s : State) (d : Nat) (c : Ctx) {y : CtxState} (hn : y.native = none) (hl : notLast y) :
    s.docNext d c y = s.setCtx d c { y with pc := y.pc + 1 } := by
  unfold State.docNext
  rw [if_neg (by simp [hn]), if_neg (Nat.not_le.mpr hl)]

/-! What an instruction that touches its context only leaves. -/

theorem State.bump_docent? (s : State) (i j k n d : Nat) : (s.bump i j k n).docent? d = s.docent? d :=
  State.docent?_congr (State.bump_doc ..) d

theorem State.bump_eq (s : State) (i j k n : Nat) : s.bump i j k n = { s with ev := (s.bump i j k n).ev } := by
  unfold State.bump
  split <;> rfl

theorem State.issued_docent? {s : State} {d op : Nat} {c : Ctx} {y : CtxState} {x : Docent} (h : s.docent? d = some x) :
    (s.issued d c y op).docent? d = some (x.setCtx c (y.counted op)) := by
  unfold State.issued
  rw [State.docent?_setCtx, State.bump_docent?, h]
  rfl

theorem State.issued_setCtx (s : State) (d : Nat) (c : Ctx) (y z : CtxState) (op : Nat) :
    (s.issued d c y op).setCtx d c z = (s.bump 0x4110 6 d 1).setCtx d c z := State.setCtx_setCtx ..

/-- The state `s` with one instruction counted and one context replaced. -/
theorem docChanged_setCtx (s : State) (d : Nat) (c : Ctx) (z : CtxState) :
    docChanged d c z s ((s.bump 0x4110 6 d 1).setCtx d c z) := by
  refine ⟨?_, ?_, ?_, fun e he => ?_⟩
  · rw [State.bump_eq]
    rfl
  · rw [State.setCtx_eq, State.updDocent_doc, State.bump_doc]
  · rw [State.docent?_setCtx, State.bump_docent?]
  · rw [State.docent?_setCtx_ne _ _ _ he, State.bump_docent?]

theorem docChanged_next {s : State} {d op : Nat} {c : Ctx} {y z : CtxState} (hn : z.native = none) (hl : notLast z) :
    docChanged d c { z with pc := z.pc + 1 } s ((s.issued d c y op).docFlow d c (y.counted op) (.next z)) := by
  change docChanged d c _ s ((s.issued d c y op).docNext d c z)
  rw [State.docNext_notLast _ _ _ hn hl, State.issued_setCtx]
  exact docChanged_setCtx ..

theorem docChanged_jump (s : State) (d op : Nat) (c : Ctx) (y z : CtxState) (target : Nat) :
    docChanged d c { z with pc := target } s ((s.issued d c y op).docFlow d c (y.counted op) (.jump z target)) := by
  change docChanged d c _ s ((s.issued d c y op).setCtx d c { z with pc := target })
  rw [State.issued_setCtx]
  exact docChanged_setCtx ..

theorem docChanged_stay (s : State) (d op : Nat) (c : Ctx) (y z : CtxState) :
    docChanged d c z s ((s.issued d c y op).docFlow d c (y.counted op) (.stay z)) := by
  change docChanged d c _ s ((s.issued d c y op).setCtx d c z)
  rw [State.issued_setCtx]
  exact docChanged_setCtx ..

/-- An instruction that does not wait and sets one register: the context goes on to its next word. -/
theorem docPure_sets {s : State} {d op : Nat} {c : Ctx} {y : CtxState} {i : Nat → Nat} {v : Nat → CtxState → Word64}
    (h : s.docReady d c op = some y) (hl : notLast y) (hop : op < 0x2A) :
    docChanged d c (wentOn y (y.regs.set (i (wordOf y)) (v (wordOf y) (y.counted op)))) s
      (s.docPure d c op fun w y => .next (y.put (i w) (v w y))) := by
  have hw : waiting op = false := by
    simp only [waiting, Bool.or_eq_false_iff, beq_eq_false_iff_ne, decide_eq_false_iff_not]
    omega
  have hn : y.native = none := State.docReady_native h
  rw [State.docPure_ready h (State.docHeld_of_lt (by omega))]
  have := docChanged_next (s := s) (d := d) (op := op) (c := c) (y := y)
    (z := (y.counted op).put (i (wordOf y)) (v (wordOf y) (y.counted op))) hn hl
  simpa [wentOn, CtxState.counted, CtxState.put, hw] using this

/-! Arithmetic. -/

theorem exec_aluTable : ∀ k ∈ aluTable, k.1 < 0x2A ∧
    ∀ (d : Nat) (c : Ctx) (s : State), exec (k.2.1 d c) s = .next (s.docAlu d c k.1 k.2.2) := by
  have minu (a b : Word64) : (if a.toNat ≤ b.toNat then a else b) = if b.toNat < a.toNat then b else a := by
    split <;> split <;> first | rfl | omega
  have maxu (a b : Word64) : (if a.toNat ≤ b.toNat then b else a) = if a.toNat < b.toNat then b else a := by
    split <;> split
    · rfl
    · exact BitVec.eq_of_toNat_eq (by omega)
    · omega
    · rfl
  simp only [aluTable, List.forall_mem_cons, List.not_mem_nil, false_implies, implies_true, and_true]
  refine ⟨?_, ?_, ?_, ?_, ?_, ?_, ?_, ?_, ?_, ⟨by omega, fun d c s => ?_⟩, ⟨by omega, fun d c s => ?_⟩⟩
  case refine_10 => simp only [← minu]; rfl
  case refine_11 => simp only [← maxu]; rfl
  all_goals exact ⟨by omega, fun _ _ _ => rfl⟩

theorem exec_immediateTable : ∀ k ∈ immediateTable, k.1 < 0x2A ∧
    ∀ (d : Nat) (c : Ctx) (s : State), exec (k.2.1 d c) s = .next (s.docImm d c k.1 k.2.2) := by
  simp only [immediateTable, List.forall_mem_cons, List.not_mem_nil, false_implies, implies_true, and_true]
  refine ⟨?_, ?_, ?_, ?_, ?_, ?_, ?_⟩
  all_goals exact ⟨by omega, fun _ _ _ => rfl⟩

theorem docentAlu : DocentAlu := fun k hk _ d c _ h hl =>
  ⟨_, (exec_aluTable k hk).2 d c _, docPure_sets (i := wD) (v := fun w y => k.2.2 (y.get (wA w)) (y.get (wB w))) h hl
    (exec_aluTable k hk).1⟩

theorem docentImmediate : DocentImmediate := fun k hk _ d c _ h hl =>
  ⟨_, (exec_immediateTable k hk).2 d c _, docPure_sets (i := wD) (v := fun w y => k.2.2 (y.get (wA w)) (wImm w)) h hl
    (exec_immediateTable k hk).1⟩

/-! Moves. -/

theorem bits_eq (v lo w : Nat) : bits v lo w = v / 2 ^ lo % 2 ^ w := by
  unfold bits
  rw [Nat.shiftRight_eq_div_pow]

theorem bits_lt (v lo w : Nat) : bits v lo w < 2 ^ w := Nat.mod_lt _ (Nat.two_pow_pos w)

/-- A number with bits `lo + w - 1 : lo` replaced: the bits above, the new ones, and the bits below. -/
theorem setBits_eq (v lo w x : Nat) :
    setBits v lo w x = 2 ^ lo * (2 ^ w * (v / 2 ^ lo / 2 ^ w) + x % 2 ^ w) + v % 2 ^ lo := by
  have split : v = 2 ^ lo * (2 ^ w * (v / 2 ^ lo / 2 ^ w) + bits v lo w) + v % 2 ^ lo := by
    rw [bits_eq, Nat.div_add_mod, Nat.div_add_mod]
  unfold setBits
  generalize bits v lo w = old at split ⊢
  generalize v / 2 ^ lo / 2 ^ w = high at split ⊢
  generalize v % 2 ^ lo = low at split ⊢
  rw [split, Nat.mul_add, Nat.mul_add, Nat.mul_comm (2 ^ lo) old, Nat.mul_comm (2 ^ lo) (x % 2 ^ w)]
  omega

/-- A bit of a number whose bits `lo + w - 1 : lo` were replaced. -/
theorem testBit_setBits (v lo w x i : Nat) :
    (setBits v lo w x).testBit i = if lo ≤ i ∧ i < lo + w then x.testBit (i - lo) else v.testBit i := by
  rw [setBits_eq, Nat.testBit_two_pow_mul_add _ (Nat.mod_lt _ (Nat.two_pow_pos lo))]
  by_cases hlo : i < lo
  · rw [if_pos hlo, if_neg (by omega), Nat.testBit_mod_two_pow]
    simp [hlo]
  · rw [if_neg hlo, Nat.testBit_two_pow_mul_add _ (Nat.mod_lt _ (Nat.two_pow_pos w))]
    by_cases hw : i < lo + w
    · rw [if_pos (by omega), if_pos (by omega), Nat.testBit_mod_two_pow]
      simp [show i - lo < w by omega]
    · rw [if_neg (by omega), if_neg (by omega), Nat.testBit_div_two_pow, Nat.testBit_div_two_pow]
      congr 1
      omega

/-- MOVK replaces the 16-bit field that its word names. -/
theorem movk_getLsbD {r w i : Nat} (hi : i < 64) :
    (BitVec.ofNat 64 (setBits r (16 * wK w) 16 (wImm16 w))).getLsbD i = if i / 16 = wK w then w.testBit (i % 16) else r.testBit i := by
  rw [BitVec.getLsbD_ofNat, testBit_setBits, decide_eq_true hi, Bool.true_and]
  by_cases hk : i / 16 = wK w
  · rw [if_pos hk, if_pos (by omega), wImm16, bits_eq, Nat.testBit_mod_two_pow, Nat.testBit_div_two_pow, decide_eq_true (by omega),
      Bool.true_and]
    congr 1
    omega
  · rw [if_neg hk, if_neg (by omega)]

theorem State.dieTsc_congr {s t : State} (htsc : t.tsc = s.tsc) (hdies : t.dies = s.dies) (c : Nat) : t.dieTsc c = s.dieTsc c := by
  unfold State.dieTsc State.die?
  rw [htsc, hdies]

/-- An instruction leaves the time alone. -/
theorem State.issued_dieTsc (s : State) (d : Nat) (c : Ctx) (y : CtxState) (op e : Nat) :
    (s.issued d c y op).dieTsc e = s.dieTsc e := by
  refine State.dieTsc_congr ?_ ?_ e
  · exact State.bump_tsc ..
  · exact State.bump_dies ..

theorem execTsc_ready {s : State} {d : Nat} {c : Ctx} {y : CtxState} (h : s.docReady d c 0x29 = some y) :
    exec (.tsc d c) s =
      .next (s.docPure d c 0x29 fun w y => .next (y.put (wD w) (BitVec.ofNat 64 (s.dieTsc (docDie d))))) := by
  have held : s.docHeld d 0x29 = false := State.docHeld_of_lt (by omega)
  refine congrArg Host.Outcome.next ?_
  rw [State.docPure_ready h held, State.docRun_ready h held]
  dsimp only
  rw [State.issued_dieTsc]

theorem docentMoves : DocentMoves := by
  intro s d c y hl
  refine ⟨fun h => ⟨_, rfl, ?movz⟩,
    fun h => ⟨_, BitVec.ofNat 64 (setBits (y.get (wD (wordOf y))).toNat (16 * wK (wordOf y)) 16 (wImm16 (wordOf y))), rfl, ?movk,
      fun i hi => movk_getLsbD hi⟩,
    fun h => ⟨_, rfl, ?param⟩, fun h => ⟨_, execTsc_ready h, ?tsc⟩, fun h => ⟨_, rfl, ?nop⟩⟩
  case movz => exact docPure_sets (i := wD) (v := fun w _ => BitVec.ofNat 64 (wImm16 w * 2 ^ (16 * wK w))) h hl (by omega)
  case movk =>
    exact docPure_sets (i := wD) (v := fun w y => BitVec.ofNat 64 (setBits (y.get (wD w)).toNat (16 * wK w) 16 (wImm16 w))) h hl
      (by omega)
  case param => exact docPure_sets (i := wD) (v := fun w y => y.params.getD (wImm w).toNat 0) h hl (by omega)
  case tsc => exact docPure_sets (i := wD) (v := fun _ _ => BitVec.ofNat 64 (s.dieTsc (docDie d))) h hl (by omega)
  case nop =>
    rw [State.docPure_ready h (State.docHeld_of_lt (by omega))]
    have hn : y.native = none := State.docReady_native h
    exact docChanged_next (z := y.counted 0x00) hn hl

/-! Branches. -/

theorem docBranch_ready {s : State} {d op : Nat} {c : Ctx} {y : CtxState} {p : Word64 → Word64 → Bool}
    (h : s.docReady d c op = some y) (hl : notLast y) (hop : op < 0x2A) :
    docChanged d c { y with sinceWait := y.sinceWait + 1,
                            pc := if p (y.get (wBranchA (wordOf y))) (y.get (wBranchB (wordOf y)))
                                  then wTarget (wordOf y) else y.pc + 1 } s (s.docBranch d c op p) := by
  have hw : waiting op = false := by
    simp only [waiting, Bool.or_eq_false_iff, beq_eq_false_iff_ne, decide_eq_false_iff_not]
    omega
  have hc : y.counted op = { y with sinceWait := y.sinceWait + 1 } := by simp [CtxState.counted, hw]
  have hn : y.native = none := State.docReady_native h
  have hreg (i : Nat) : (y.counted op).get i = y.get i := rfl
  unfold State.docBranch
  rw [State.docPure_ready h (State.docHeld_of_lt (by omega)), hreg, hreg]
  split
  · rw [hc]
    exact docChanged_jump (z := { y with sinceWait := y.sinceWait + 1 }) ..
  · rw [hc]
    exact docChanged_next (z := { y with sinceWait := y.sinceWait + 1 }) hn hl

theorem exec_branchTable : ∀ k ∈ branchTable, k.1 < 0x2A ∧
    ∀ (d : Nat) (c : Ctx) (s : State), exec (k.2.1 d c) s = .next (s.docBranch d c k.1 k.2.2) := by
  simp only [branchTable, List.forall_mem_cons, List.not_mem_nil, false_implies, implies_true, and_true]
  refine ⟨?_, ?_, ?_, ?_, ?_⟩
  all_goals exact ⟨by omega, fun _ _ _ => rfl⟩

theorem docentBranches : DocentBranches := fun k hk _ d c _ h hl =>
  ⟨_, (exec_branchTable k hk).2 d c _, docBranch_ready h hl (exec_branchTable k hk).1⟩

/-- Settles O3: each instruction acts on its context alone (`docPure_sets`, `docBranch_ready`). -/
theorem docentArithmetic : Obligations.DocentArithmetic := ⟨docentAlu, docentImmediate, docentMoves, docentBranches⟩

end Sys2Proof.Machine
end

section
/-! PROOF. Docent programs start, wait, raise notices and end (R192, R193, R197, R200), and the statement about them. -/

namespace Sys2Proof.Machine

open Sys2Proof.Claims

/-! Records, as the statements' frame says it. -/

theorem OnlyRecords.onlyNoted {s t : State} (h : OnlyRecords s t) : onlyNoted s t := by
  obtain ⟨h1, h2, h3, h4, h5, h6, h7, h8, h9, h10, h11, h12, h13, hed⟩ := h
  have hed' : t.ed = { s.ed with sessions := t.ed.sessions } := by rw [← hed]
  unfold Claims.onlyNoted
  rw [← h1, ← h2, ← h3, ← h4, ← h5, ← h6, ← h7, ← h8, ← h9, ← h10, ← h11, ← h12, ← h13, ← hed']

theorem event_onlyNoted (s : State) (sc : Scope) (t u c : Nat) (b : Bytes) : onlyNoted s (s.event sc t u c b) :=
  (State.event_onlyRecords (.refl s)).onlyNoted

/-- `t` is `s` but for its docents and its counters. -/
def DocentsMoved (s t : State) : Prop := t = { s with doc := t.doc, ev := t.ev }

theorem DocentsMoved.refl (s : State) : DocentsMoved s s := rfl

theorem DocentsMoved.updDocent {s t : State} (h : DocentsMoved s t) (d : Nat) (f : Docent → Docent) :
    DocentsMoved s (t.updDocent d f) := by
  unfold DocentsMoved at h ⊢
  rw [h]
  rfl

theorem DocentsMoved.bump {s t : State} (h : DocentsMoved s t) (i j k n : Nat) : DocentsMoved s (t.bump i j k n) := by
  unfold DocentsMoved at h ⊢
  rw [State.bump_eq, h]

theorem DocentsMoved.issued {s : State} {d : Nat} {c : Ctx} {y : CtxState} {op : Nat} : DocentsMoved s (s.issued d c y op) :=
  ((DocentsMoved.refl s).bump ..).updDocent ..

theorem DocentsMoved.onlyNoted {s t u : State} (h : DocentsMoved s t) (k : OnlyRecords t u) : onlyNoted { s with doc := u.doc } u := by
  have hu := k.onlyNoted
  have hd := k.doc
  unfold Claims.onlyNoted at hu ⊢
  unfold DocentsMoved at h
  rw [hd]
  rw [h] at hu
  exact hu

/-! The end of a program. -/

theorem State.endProgram_p (s : State) (d : Nat) :
    s.endProgram d .p = s.updDocent d fun x => { x with p := .idle, a := { x.a with suspended := false } } := by
  unfold State.endProgram
  rfl

/-- With no role waiting for context A, its end frees it (R193). -/
theorem State.endProgram_a {s : State} {d : Nat} {x : Docent} (h : s.docent? d = some x) (hr : x.roleDue = false) :
    s.endProgram d .a = s.updDocent d fun x => { x with a := { CtxState.idle with suspended := x.a.suspended } } := by
  unfold State.endProgram
  dsimp only
  rw [State.docent?_updDocent (by intro; rfl), h]
  simp [hr]

/-- A docent whose context ended. -/
def Docent.ended (x : Docent) : Ctx → Docent
  | .p => { x with p := .idle, a := { x.a with suspended := false } }
  | .a => { x with a := { CtxState.idle with suspended := x.a.suspended } }

theorem Docent.ended_id (x : Docent) (c : Ctx) : (x.ended c).id = x.id := by cases c <;> rfl

theorem State.endProgram_ended {s : State} {d : Nat} {x : Docent} (c : Ctx) (h : s.docent? d = some x) (hr : x.roleDue = false) :
    s.endProgram d c = s.updDocent d fun x => x.ended c := by
  cases c with
  | p => exact s.endProgram_p d
  | a => exact State.endProgram_a h hr

/-- A program that faults ends, and leaves its cause and whether its role did (R200). -/
theorem State.docFault_spec {s : State} {d : Nat} {x : Docent} (c : Ctx) (cause : Nat) (h : s.docent? d = some x)
    (hr : x.roleDue = false) :
    (s.docFault d c cause).docent? d =
        some { x.ended c with fault := cause, roleFaulted := x.roleFaulted || (x.ctx c).isRole } ∧
      ∃ t, DocentsMoved s t ∧ OnlyRecords t (s.docFault d c cause) := by
  have hend := State.endProgram_ended c h hr
  unfold State.docFault
  rw [h]
  dsimp only
  rw [hend]
  refine ⟨?_, _, ((DocentsMoved.refl s).updDocent ..).updDocent .., State.event_onlyRecords (.refl _)⟩
  rw [State.docent?_congr (State.event_doc ..), State.docent?_updDocent (by intro; rfl),
    State.docent?_updDocent (fun x => x.ended_id c), h]
  cases c <;> rfl

theorem State.docNext_last (s : State) (d : Nat) (c : Ctx) {y : CtxState} (hn : y.native = none) (hl : y.pc + 1 = progCount y.image) :
    s.docNext d c y = (s.setCtx d c y).docFault d c 7 := by
  unfold State.docNext
  rw [if_neg (by simp [hn]), if_pos (Nat.le_of_eq hl.symm)]

theorem docentRunsOff : DocentRunsOff := by
  intro s d y x h hl hx hr
  obtain ⟨x', hx', hy, -, -, hn, -⟩ := State.docReady_spec h
  obtain rfl : x = x' := Option.some.inj (hx.symm.trans hx')
  have hrun : s.docPure d .a 0x00 (fun _ y => .next y) = ((s.issued d .a y 0x00).setCtx d .a (y.counted 0x00)).docFault d .a 7 := by
    rw [State.docPure_ready h (State.docHeld_of_lt (by omega))]
    exact State.docNext_last _ d .a (y := y.counted 0x00) hn hl
  have hat : ((s.issued d .a y 0x00).setCtx d .a (y.counted 0x00)).docent? d = some (x.setCtx .a (y.counted 0x00)) := by
    rw [State.issued_setCtx, State.docent?_setCtx, State.bump_docent?, hx]
    rfl
  obtain ⟨hdoc, t, ht, hrec⟩ := State.docFault_spec .a 7 hat hr
  refine ⟨_, congrArg Host.Outcome.next hrun, ?_, ?_⟩
  · rw [hdoc]
    subst hy
    rfl
  · have moved : DocentsMoved s ((s.issued d .a y 0x00).setCtx d .a (y.counted 0x00)) := DocentsMoved.issued.updDocent ..
    refine DocentsMoved.onlyNoted ?_ hrec
    unfold DocentsMoved at moved ht ⊢
    rw [ht, moved]

/-! Waiting. -/

theorem State.docHalt_zero {s : State} {d : Nat} {c : Ctx} {y : CtxState} (ht : y.trig ≠ 3) :
    s.docHalt d c y 0 = s.endProgram d c := by
  unfold State.docHalt
  simp [ht]

theorem execWait_ready {s : State} {d : Nat} {c : Ctx} {y : CtxState} (h : s.docReady d c 0x2A = some y) :
    exec (.wait d c) s = .next ((s.issued d c y 0x2A).docFlow d c (y.counted 0x2A)
      (if (y.ea (wordOf y)).toNat ≤ s.dieTsc (docDie d) then .next (y.counted 0x2A)
        else .stay { y.counted 0x2A with waitUntil := some (y.ea (wordOf y)).toNat })) := by
  refine congrArg Host.Outcome.next ?_
  rw [State.docRun_ready h (State.docHeld_of_lt (by omega))]
  dsimp only
  rw [State.issued_dieTsc]
  rfl

theorem waitExpiry_resumes {s : State} {d n : Nat} {c : Ctx} {y : CtxState} {x : Docent} (hx : s.docent? d = some x)
    (hy : x.ctx c = y) (hw : y.waitUntil = some n) (hn : n ≤ s.dieTsc (docDie d)) (hs : y.suspended = false) (hnat : y.native = none)
    (hl : notLast y) : exec (.waitExpiry d c) s = .next (s.setCtx d c { y with waitUntil := none, pc := y.pc + 1 }) := by
  have hnext : s.docNext d c { y with waitUntil := none } = s.setCtx d c { y with waitUntil := none, pc := y.pc + 1 } :=
    State.docNext_notLast s d c (y := { y with waitUntil := none }) hnat hl
  refine congrArg Host.Outcome.next ?_
  rw [hx]
  subst hy
  dsimp only
  rw [hw]
  dsimp only
  rw [if_pos (by simp [hs, hn]), hnext]

theorem watchdog_faults {s : State} {d : Nat} {c : Ctx} {x : Docent} (hx : s.docent? d = some x) (hrun : (x.ctx c).running = true)
    (hlim : 1048576 ≤ (x.ctx c).sinceWait) : exec (.watchdog d c) s = .next (s.docFault d c 1) := by
  refine congrArg Host.Outcome.next ?_
  rw [hx]
  exact if_pos (by simp [hrun, watchdogLimit, hlim])

theorem halt_p_frees {s : State} {d : Nat} {y : CtxState} {x : Docent} (h : s.docReady d .p 0x2C = some y) (hx : s.docent? d = some x)
    (himm : wImm16 (wordOf y) = 0) (ht : y.trig ≠ 3) :
    ∃ t, exec (.halt d .p) s = .next t ∧ t = { s with doc := t.doc, ev := (s.bump 0x4110 6 d 1).ev } ∧
      t.docent? d = some { x with p := .idle, a := { x.a with suspended := false } } := by
  have hrun : exec (.halt d .p) s = .next ((s.issued d .p y 0x2C).endProgram d .p) := by
    refine congrArg Host.Outcome.next ?_
    rw [State.docRun_ready h (State.docHeld_of_lt (by omega))]
    change State.docHalt _ d .p (y.counted 0x2C) (wImm16 (wordOf y)) = _
    rw [himm, State.docHalt_zero (show (y.counted 0x2C).trig ≠ 3 from ht)]
  rw [State.endProgram_p] at hrun
  refine ⟨_, hrun, ?_, ?_⟩
  · unfold State.issued
    rw [State.bump_eq]
    rfl
  · rw [State.docent?_updDocent (by intro; rfl), State.issued_docent? hx]
    rfl

theorem docentWaits : DocentWaits := by
  intro s d c y x
  refine ⟨fun h hlt => ⟨_, execWait_ready h, ?_⟩, fun h hle hl => ⟨_, execWait_ready h, ?_⟩, fun n hx hy hw hn hs hnat hl =>
    ⟨_, waitExpiry_resumes hx hy hw hn hs hnat hl, rfl, ?_⟩, halt_p_frees, fun hx hy hrun hlim hr => ?_⟩
  · rw [if_neg (Nat.not_le.mpr hlt)]
    exact docChanged_stay (z := { y.counted 0x2A with waitUntil := some (y.ea (wordOf y)).toNat }) ..
  · have hn : y.native = none := State.docReady_native h
    rw [if_pos hle]
    exact docChanged_next (z := y.counted 0x2A) hn hl
  · rw [State.docent?_setCtx, hx]
    rfl
  · subst hy
    obtain ⟨hdoc, t, ht, hrec⟩ := State.docFault_spec c 1 hx hr
    exact ⟨_, _, watchdog_faults hx hrun hlim, hdoc, rfl, by cases c <;> rfl, ht.onlyNoted hrec⟩

/-! EVT. -/

theorem DocentsMoved.receivers {s t : State} (h : DocentsMoved s t) (sc : Scope) (c : Nat) : t.receivers sc c = s.receivers sc c := by
  unfold DocentsMoved at h
  rw [h]
  rfl

theorem DocentsMoved.dieTsc {s t : State} (h : DocentsMoved s t) (c : Nat) : t.dieTsc c = s.dieTsc c := by
  unfold DocentsMoved at h
  rw [h]
  rfl

theorem DocentsMoved.tsc {s t : State} (h : DocentsMoved s t) : t.tsc = s.tsc := by
  unfold DocentsMoved at h
  rw [h]

theorem execEvt_ready {s : State} {d : Nat} {c : Ctx} {y : CtxState} (h : s.docReady d c 0x2B = some y) (hl : notLast y) :
    exec (.evt d c) s = .next (((s.issued d c y 0x2B).event .d 0x32 (docSrc d) 0xFFFF
      (pack [(1, d), (2, wImm16 (wordOf y)), (8, (y.get (wA (wordOf y))).toNat)])).setCtx d c (wentOn y y.regs)) := by
  have hn : y.native = none := State.docReady_native h
  refine congrArg Host.Outcome.next ?_
  rw [State.docRun_ready h (State.docHeld_of_lt (by omega))]
  exact State.docNext_notLast _ d c (y := y.counted 0x2B) hn hl

theorem docentNotice : DocentNotice := by
  intro s d c y x h hl hx
  refine ⟨_, execEvt_ready h hl, ?_, ?_, fun hrs hlate => ?_⟩
  · rw [State.docent?_setCtx, State.docent?_congr (State.event_doc ..), State.issued_docent? hx]
    simp
  · have noted := DocentsMoved.issued.onlyNoted (State.event_onlyRecords (sc := .d) (t := 0x32) (u := docSrc d) (c := 0xFFFF)
      (b := pack [(1, d), (2, wImm16 (wordOf y)), (8, (y.get (wA (wordOf y))).toNat)]) (.refl (s.issued d c y 0x2B)))
    unfold onlyNoted at noted ⊢
    generalize (s.issued d c y 0x2B).event .d 0x32 (docSrc d) 0xFFFF _ = t at noted ⊢
    rw [noted]
    rfl
  · have moved : DocentsMoved s (s.issued d c y 0x2B) := DocentsMoved.issued
    obtain ⟨r, hr, htype, hsrc, -, hdest, hpay⟩ := recordHeld_event (s.issued d c y 0x2B) 0x32 (docSrc d)
      (pack [(1, d), (2, wImm16 (wordOf y)), (8, (y.get (wA (wordOf y))).toNat)])
      (by rwa [moved.receivers]) (by rwa [moved.tsc, moved.dieTsc])
    exact ⟨r, hr, htype, hsrc, by rw [hdest, moved.receivers], hpay⟩

/-! Triggers. -/

/-- The context a handler starts in (R192, R193). -/
theorem State.startHandler_context {s : State} {g : Trigger} {x : Docent} {z : Docent} (hz : s.docent? x.id = some z)
    (hp : s.act.hasProgram (s.act.handler (trigIndex g.code)) = true) :
    ∃ y, ((s.startHandler g x).docent? x.id).map (·.ctx g.ctx) = some y ∧ y.running = true ∧
      y.prog = s.act.handler (trigIndex g.code) ∧ y.pc = 0 ∧ y.get 0 = BitVec.ofNat 64 g.code ∧ y.get 1 = BitVec.ofNat 64 g.arg := by
  unfold State.startHandler
  dsimp only
  rw [if_neg (by simp [hp]), State.docent?_updDocent (by intro w; cases g.ctx <;> rfl), hz]
  cases g.ctx <;> exact ⟨_, rfl, rfl, rfl, rfl, rfl, rfl⟩

theorem State.startHandler_moves (s : State) (g : Trigger) (x : Docent) :
    s.startHandler g x = { s with doc := (s.startHandler g x).doc } ∧ (s.startHandler g x).doc.triggers = s.doc.triggers := by
  unfold State.startHandler
  dsimp only
  by_cases hp : (!s.act.hasProgram (s.act.handler (trigIndex g.code))) = true
  · rw [if_pos hp]
    exact ⟨rfl, rfl⟩
  · rw [if_neg hp]
    exact ⟨rfl, rfl⟩

/-- A docent that takes a trigger is a docent of the package. -/
theorem State.takerOf_docent? {s : State} {g : Trigger} {x : Docent} (h : s.takerOf g = some x) : ∃ z, s.docent? x.id = some z :=
  Option.isSome_iff_exists.mp (List.find?_isSome.mpr ⟨x, List.mem_of_find?_eq_some h, by simp⟩)

theorem triggerStartsHandler : TriggerStartsHandler := by
  intro s die g x hdie hfind htake hcode hprog
  obtain ⟨w, hw⟩ := State.takerOf_docent? htake
  have hrun : exec (.triggerDispatch die) s =
      .next (({ s with doc := { s.doc with triggers := s.doc.triggers.erase g } } : State).startHandler g x) := by
    refine congrArg Host.Outcome.next ?_
    rw [if_neg (by simp [hdie]), hfind]
    dsimp only
    rw [htake]
    simp [hcode]
  obtain ⟨y, hy, hrunning, hprogno, hpc, hg0, hg1⟩ :=
    State.startHandler_context (s := { s with doc := { s.doc with triggers := s.doc.triggers.erase g } }) (g := g) (x := x) hw
      (by rw [hcode]; exact hprog)
  obtain ⟨hframe, htr⟩ := State.startHandler_moves { s with doc := { s.doc with triggers := s.doc.triggers.erase g } } g x
  rw [hcode] at hprogno hg0
  exact ⟨_, y, hrun, hframe, htr, hy, hrunning, hprogno, hpc, hg0, hg1⟩

/-- Settles O6. -/
theorem docentProgramsWaitAndEnd : Obligations.DocentProgramsWaitAndEnd :=
  ⟨docentRunsOff, docentWaits, docentNotice, triggerStartsHandler⟩

end Sys2Proof.Machine
end

section
/-! PROOF. How a request of a link port is taken (R26, R31, R46, R145), what raising a notice leaves alone, and the statements about
unmapped addresses and windows without a sequence. -/

namespace Sys2Proof.Machine

open Sys2Proof.Claims

/-! What coalescing a notice leaves (R35). -/

/-- `t` is `s` but for what raising records changes and for the coalescing windows; the links of the ports stand. -/
structure OnlyNotices (s t : State) : Prop where
  records : OnlyRecords { s with mem := { s.mem with windows := t.mem.windows } } t
  links : ∀ p, t.linkOf p = s.linkOf p

theorem OnlyNotices.refl (s : State) : OnlyNotices s s := ⟨.refl s, fun _ => rfl⟩

theorem OnlyNotices.trans {a b c : State} (h : OnlyNotices a b) (k : OnlyNotices b c) : OnlyNotices a c := by
  refine ⟨?_, fun p => (k.links p).trans (h.links p)⟩
  have hm : { b.mem with windows := c.mem.windows } = { a.mem with windows := c.mem.windows } :=
    congrArg (fun m : MemState => { m with windows := c.mem.windows }) h.records.mem
  obtain ⟨h1, h2, h3, h4, h5, h6, h7, h8, h9, h10, h11, h12, h13, hed⟩ := h.records
  refine OnlyRecords.trans (b := { b with mem := { b.mem with windows := c.mem.windows } }) ?_ k.records
  exact ⟨h1, h2, h3, h4, h5, hm, h7, h8, h9, h10, h11, h12, h13, hed⟩

theorem OnlyNotices.mem {s t : State} (h : OnlyNotices s t) : t.mem = { s.mem with windows := t.mem.windows } := h.records.mem

theorem State.bump_onlyNotices (s : State) (i j k n : Nat) : OnlyNotices s (s.bump i j k n) := by
  refine ⟨?_, State.linkOf_bump s i j k n⟩
  have h : OnlyRecords s (s.bump i j k n) := State.bump_onlyRecords (.refl s)
  rwa [show { s with mem := { s.mem with windows := (s.bump i j k n).mem.windows } } = s by rw [h.mem]]

theorem State.raiseAs_onlyAdds {a s : State} {sc : Scope} {n : Nat} {r : Rec} (h : OnlyAddsRecords a s) :
    OnlyAddsRecords a (s.raiseAs sc n r) := by
  unfold State.raiseAs
  split
  · exact h
  · split
    · exact .foldl h fun _ _ k => State.writeTo_onlyAdds k
    · exact h.trans ⟨rfl, fun _ hx => mem_insertBy.mpr (.inr hx), fun _ => rfl⟩

theorem State.raiseAs_onlyNotices (s : State) (sc : Scope) (n : Nat) (r : Rec) : OnlyNotices s (s.raiseAs sc n r) := by
  refine ⟨?_, (State.raiseAs_onlyAdds (.refl s)).links⟩
  have h : OnlyRecords s (s.raiseAs sc n r) := State.raiseAs_onlyRecords (.refl s)
  rwa [show { s with mem := { s.mem with windows := (s.raiseAs sc n r).mem.windows } } = s by rw [h.mem]]

theorem State.setWindows_onlyNotices (s : State) (f : List Window → List Window) :
    OnlyNotices s (s.updMem fun m => { m with windows := f m.windows }) :=
  ⟨⟨rfl, rfl, rfl, rfl, rfl, rfl, rfl, rfl, rfl, rfl, rfl, rfl, rfl, rfl⟩, fun _ => rfl⟩

theorem State.closeWindow_onlyNotices (s : State) (kind obj : Nat) : OnlyNotices s (s.closeWindow kind obj) := by
  have hs := s.setWindows_onlyNotices fun l => l.filter fun w => !(w.kind == kind && w.obj == obj)
  unfold State.closeWindow
  split
  · exact .refl s
  · dsimp only
    split
    · exact hs
    · exact hs.trans (State.raiseAs_onlyNotices ..)

theorem State.coalesce_onlyNotices (s : State) (kind obj source coll scope : Nat) (b : Bytes) :
    OnlyNotices s (s.coalesce kind obj source coll scope b) := by
  have opens (a : State) (sc : Scope) (n : Nat) (r : Rec) (w : Window) :
      OnlyNotices a ((a.raiseAs sc n r).updMem fun m => { m with windows := m.windows ++ [w] }) :=
    (a.raiseAs_onlyNotices sc n r).trans (State.setWindows_onlyNotices _ fun l => l ++ [w])
  unfold State.coalesce
  dsimp only
  split
  · split
    · exact s.setWindows_onlyNotices fun l => updWhere _ _ l
    · exact (s.closeWindow_onlyNotices kind obj).trans (opens ..)
  · exact opens ..

/-- The window of a notice is open once it has been raised. -/
theorem State.coalesce_window (s : State) (kind obj source coll scope : Nat) (b : Bytes) :
    ∃ y ∈ (s.coalesce kind obj source coll scope b).mem.windows, y.kind = kind ∧ y.obj = obj := by
  unfold State.coalesce
  dsimp only
  split
  · next w hw =>
    have hk : w.kind = kind ∧ w.obj = obj := by simpa using List.find?_some hw
    split
    · refine ⟨_, List.mem_map.mpr ⟨w, List.mem_of_find?_eq_some hw, rfl⟩, ?_⟩
      simp [hk]
    · exact ⟨_, List.mem_append_right _ (List.mem_singleton.mpr rfl), rfl, rfl⟩
  · exact ⟨_, List.mem_append_right _ (List.mem_singleton.mpr rfl), rfl, rfl⟩

/-- A notice raised while its window runs is counted in it (R35). -/
theorem State.coalesce_counted {s : State} {kind obj source coll scope : Nat} {b : Bytes} {x : Window}
    (h : s.mem.windows.find? (fun w => w.kind == kind && w.obj == obj) = some x) (ht : s.dieTsc (source / 512) < x.start + 1000000) :
    ∃ y ∈ (s.coalesce kind obj source coll scope b).mem.windows, y.kind = kind ∧ y.obj = obj ∧ y.count = x.count + 1 ∧
      y.start = x.start := by
  have hk : x.kind = kind ∧ x.obj = obj := by simpa using List.find?_some h
  have hr : (s.mkRec kind source coll false b).tsc < x.start + ms := ht
  unfold State.coalesce
  dsimp only
  rw [h]
  dsimp only
  rw [if_pos hr]
  refine ⟨_, List.mem_map.mpr ⟨x, List.mem_of_find?_eq_some h, rfl⟩, ?_⟩
  simp [hk]

/-- The first notice opens its window at the TSC of its die (R35). -/
theorem State.coalesce_opens {s : State} {kind obj source coll scope : Nat} {b : Bytes}
    (h : s.mem.windows.find? (fun w => w.kind == kind && w.obj == obj) = none) :
    ∃ y ∈ (s.coalesce kind obj source coll scope b).mem.windows, y.kind = kind ∧ y.obj = obj ∧ y.count = 0 ∧
      y.start = s.dieTsc (source / 512) := by
  unfold State.coalesce
  dsimp only
  rw [h]
  exact ⟨_, List.mem_append_right _ (List.mem_singleton.mpr rfl), rfl, rfl, rfl, rfl⟩

/-! A link that is up, and the load a response reports. -/

theorem State.linkUp_iff {s : State} {p : Nat} : s.linkUp p = true ↔ s.linkOf p = some 2 := by
  unfold State.linkUp State.linkOf
  cases s.fn? p <;> simp

theorem State.linkUp_congr {s t : State} {p : Nat} (h : t.linkOf p = s.linkOf p) : t.linkUp p = s.linkUp p := by
  rw [Bool.eq_iff_iff, State.linkUp_iff, State.linkUp_iff, h]

theorem State.devLoad_congr {s t : State} (hr : t.mem.reads = s.mem.reads) (hw : t.mem.writes = s.mem.writes) (p : Nat) :
    t.devLoad p = s.devLoad p := by
  unfold State.devLoad State.tracked
  rw [hr, hw]

theorem OnlyNotices.linkUp {s t : State} (h : OnlyNotices s t) (p : Nat) : t.linkUp p = s.linkUp p := State.linkUp_congr (h.links p)

theorem OnlyNotices.devLoad {s t : State} (h : OnlyNotices s t) (p : Nat) : t.devLoad p = s.devLoad p :=
  State.devLoad_congr (by rw [h.mem]) (by rw [h.mem]) p

/-- A port's read is answered by one data response (R26, R318). -/
theorem State.answer_port {s : State} {p : Nat} (h : s.linkUp p = true) (c line : Nat) (data : Bytes) (poison : Bool) :
    s.answer (.port p) c line data poison = (s.send (.memData p data poison (s.devLoad p))).bump 0x1101 9 p (bit1 poison) :=
  if_pos h

theorem State.completeWrite_port {s : State} {p : Nat} (h : s.linkUp p = true) :
    s.completeWrite (.port p) = s.send (.memCmp p (s.devLoad p)) := if_pos h

theorem State.bump_out (s : State) (i j k n : Nat) : (s.bump i j k n).out = s.out := by
  rw [State.bump_eq]

theorem State.answer_port_out {s : State} {p : Nat} (h : s.linkUp p = true) (c line : Nat) (data : Bytes) (poison : Bool) :
    (s.answer (.port p) c line data poison).out = s.out ++ [.memData p data poison (s.devLoad p)] := by
  rw [State.answer_port h, State.bump_out]
  rfl

theorem State.answer_port_mem {s : State} {p : Nat} (h : s.linkUp p = true) (c line : Nat) (data : Bytes) (poison : Bool) :
    (s.answer (.port p) c line data poison).mem = s.mem := by
  rw [State.answer_port h, State.bump_mem]
  rfl

/-! A request that is taken. -/

theorem State.isolateTags_none {s : State} (h : s.dies.any (·.tagFault) = false) : s.isolateTags = s := by
  have hnil : s.dies.filter (·.tagFault) = [] := List.filter_eq_nil_iff.mpr fun d hd hf => by
    rw [List.any_eq_false] at h
    exact h d hd hf
  unfold State.isolateTags
  rw [hnil]
  rfl

theorem State.orHold_taken {s : State} {p hpa : Nat} (h : Claims.taken s p hpa) (i : Instr) (f : State → State) : s.orHold p hpa i f = f s := by
  obtain ⟨hacc, hlink, hquiet, -⟩ := h
  unfold State.orHold
  rw [if_neg (by simp [hacc, hlink])]
  split
  · next c hc =>
    rw [hc] at hquiet
    exact if_neg (by simpa using hquiet)
  · rfl

theorem exec_cxlMemRead_taken {s : State} {p hpa : Nat} (h : taken s p hpa) :
    exec (.cxlMemRead p hpa) s = .next (s.linkRead p hpa).isolateTags := congrArg Host.Outcome.next (State.orHold_taken h _ _)

theorem exec_cxlMemWrite_taken {s : State} {p hpa be : Nat} {data : Bytes} {poison : Bool} (h : taken s p hpa) :
    exec (.cxlMemWrite p hpa data be poison) s = .next (s.linkWrite p hpa data be poison).isolateTags :=
  congrArg Host.Outcome.next (State.orHold_taken h _ _)

/-- The state in which a taken request is served: the idle channels awake, the request counted (R320, R367). -/
def State.arrived (s : State) (sub p : Nat) : State := s.wakeChannels.bump 0x1101 sub p 1

theorem State.arrived_eq (s : State) (sub p : Nat) : s.arrived sub p = { s.wakeChannels with ev := (s.arrived sub p).ev } :=
  State.bump_eq ..

theorem State.wakeChannels_eq (s : State) : s.wakeChannels = { s with pw := s.wakeChannels.pw, chans := s.wakeChannels.chans } := by
  unfold State.wakeChannels
  split <;> rfl

/-- What is served of a request is the state but for the channels awake, the power state and the counters. -/
theorem State.arrived_frame (s : State) (sub p : Nat) :
    s.arrived sub p = { s with pw := s.wakeChannels.pw, chans := s.wakeChannels.chans, ev := (s.arrived sub p).ev } := by
  have h := s.arrived_eq sub p
  rw [State.wakeChannels_eq] at h
  exact h

section Arrived

variable (s : State) (sub p : Nat)

@[simp] theorem State.arrived_mem : (s.arrived sub p).mem = s.mem := by rw [State.arrived_frame]
@[simp] theorem State.arrived_out : (s.arrived sub p).out = s.out := by rw [State.arrived_frame]
@[simp] theorem State.arrived_chans : (s.arrived sub p).chans = s.wakeChannels.chans := by rw [State.arrived_frame]
@[simp] theorem State.arrived_doc : (s.arrived sub p).doc = s.doc := by rw [State.arrived_frame]
@[simp] theorem State.arrived_wb : (s.arrived sub p).wb = s.wb := by rw [State.arrived_frame]
@[simp] theorem State.arrived_dies : (s.arrived sub p).dies = s.dies := by rw [State.arrived_frame]
@[simp] theorem State.arrived_tsc : (s.arrived sub p).tsc = s.tsc := by rw [State.arrived_frame]
@[simp] theorem State.arrived_fresh : (s.arrived sub p).fresh = s.fresh := by rw [State.arrived_frame]
@[simp] theorem State.arrived_ed : (s.arrived sub p).ed = s.ed := by rw [State.arrived_frame]
@[simp] theorem State.arrived_pkg : (s.arrived sub p).pkg = s.pkg := by rw [State.arrived_frame]

@[simp] theorem State.arrived_target (q hpa : Nat) : (s.arrived sub p).target q hpa = s.target q hpa := by
  rw [State.arrived_frame]
  rfl

@[simp] theorem State.arrived_linkOf (q : Nat) : (s.arrived sub p).linkOf q = s.linkOf q := by
  rw [State.arrived_frame]
  rfl

@[simp] theorem State.arrived_linkUp (q : Nat) : (s.arrived sub p).linkUp q = s.linkUp q := State.linkUp_congr (s.arrived_linkOf sub p q)

@[simp] theorem State.arrived_devLoad (q : Nat) : (s.arrived sub p).devLoad q = s.devLoad q :=
  State.devLoad_congr (by simp) (by simp) q

@[simp] theorem State.arrived_dieTsc (c : Nat) : (s.arrived sub p).dieTsc c = s.dieTsc c := State.dieTsc_congr (by simp) (by simp) c

end Arrived

/-! Addresses outside every mapped extent. -/

theorem portSrc_die (p : Nat) : portSrc p / 512 = p / 8 := by
  unfold portSrc src
  omega

theorem State.answer_port_eq {s : State} {p : Nat} (h : s.linkUp p = true) (c line : Nat) (data : Bytes) (poison : Bool) :
    s.answer (.port p) c line data poison = { s with out := s.out ++ [.memData p data poison (s.devLoad p)],
                                                     ev := (s.answer (.port p) c line data poison).ev } := by
  rw [State.answer_port h]
  exact State.bump_eq ..

theorem State.linkRead_unmapped {s : State} {p hpa : Nat} (ht : s.target p hpa = .unmapped) :
    s.linkRead p hpa = (s.arrived 7 p).answer (.port p) 0 0 (zeros 64) true := by
  have h := s.arrived_target 7 p p hpa
  rw [ht] at h
  unfold State.linkRead
  dsimp only
  rw [show s.wakeChannels.bump 0x1101 7 p 1 = s.arrived 7 p from rfl, h]

theorem State.linkWrite_unmapped {s : State} {p hpa be : Nat} {data : Bytes} {poison : Bool} (ht : s.target p hpa = .unmapped) :
    s.linkWrite p hpa data be poison = ((s.arrived 8 p).unmapped p hpa).completeWrite (.port p) := by
  have h := s.arrived_target 8 p p hpa
  rw [ht] at h
  unfold State.linkWrite
  dsimp only
  rw [show s.wakeChannels.bump 0x1101 8 p 1 = s.arrived 8 p from rfl, h]

theorem unmappedRead {s : State} {p hpa : Nat} (h : taken s p hpa) (ht : s.target p hpa = .unmapped) :
    ∃ t, exec (.cxlMemRead p hpa) s = .next t ∧
      t = { s.wakeChannels with out := s.out ++ [.memData p (zeros 64) true (s.devLoad p)], ev := t.ev } := by
  have htag : s.dies.any (·.tagFault) = false := h.2.2.2
  have hans := State.answer_port_eq (s := s.arrived 7 p) (p := p) (by simpa using h.2.1) 0 0 (zeros 64) true
  have hrun := exec_cxlMemRead_taken h
  rw [State.linkRead_unmapped ht, State.isolateTags_none (by rw [hans]; simpa using htag)] at hrun
  refine ⟨_, hrun, ?_⟩
  rw [State.arrived_devLoad, State.arrived_out] at hans
  generalize (s.arrived 7 p).answer (.port p) 0 0 (zeros 64) true = t at hans ⊢
  rw [hans, State.arrived_eq]

theorem unmappedWrite {s : State} {p hpa be : Nat} {data : Bytes} {poison : Bool} (h : taken s p hpa)
    (ht : s.target p hpa = .unmapped) :
    exec (.cxlMemWrite p hpa data be poison) s =
      .next (((s.arrived 8 p).unmapped p hpa).send (.memCmp p (s.devLoad p))) := by
  have htag : s.dies.any (·.tagFault) = false := h.2.2.2
  have hn : OnlyNotices (s.arrived 8 p) ((s.arrived 8 p).unmapped p hpa) := State.coalesce_onlyNotices ..
  rw [exec_cxlMemWrite_taken h, State.linkWrite_unmapped ht, State.completeWrite_port (by rw [hn.linkUp]; simpa using h.2.1), hn.devLoad,
    State.arrived_devLoad, State.isolateTags_none]
  rw [State.send_dies, hn.records.dies]
  simpa using htag

/-- Settles O7. -/
theorem unmappedAccess : Obligations.UnmappedAccess := by
  intro s p hpa be data poison h ht
  have hn : OnlyNotices (s.arrived 8 p) ((s.arrived 8 p).unmapped p hpa) := State.coalesce_onlyNotices ..
  refine ⟨unmappedRead h ht, _, unmappedWrite h ht, ?_, ?_, ?_, ?_, ?_, fun x hx hlt => ?_, fun hx => ?_⟩
  · simpa using hn.mem
  · simpa using hn.records.chans
  · simpa using hn.records.doc
  · simpa using hn.records.wb
  · simp
  · exact State.coalesce_counted (s := s.arrived 8 p) (by simpa using hx) (by simpa [portSrc_die] using hlt)
  · have := State.coalesce_opens (s := s.arrived 8 p) (kind := 0x11) (obj := p) (source := portSrc p) (coll := 0xFFFF) (scope := p)
      (b := pack [(8, hpa), (1, p)]) (by simpa using hx)
    simpa [portSrc_die, State.unmapped] using this

/-! What metering a request and discarding a write leave (R31, R35, R398). -/

/-- `t` holds the storage, the channels and the dies of `s`: only messages, records, token buckets and coalescing windows differ. -/
structure StorageKept (s t : State) : Prop where
  mem : storageKept s t
  act : t.act = s.act
  dies : t.dies = s.dies
  chans : t.chans = s.chans
  pkg : t.pkg = s.pkg
  tsc : t.tsc = s.tsc
  fresh : t.fresh = s.fresh
  pw : t.pw = s.pw
  links : ∀ p, t.linkOf p = s.linkOf p

theorem StorageKept.refl (s : State) : StorageKept s s := ⟨rfl, rfl, rfl, rfl, rfl, rfl, rfl, rfl, fun _ => rfl⟩

theorem storageKept_trans {a b c : State} (h : storageKept a b) (k : storageKept b c) : storageKept a c := by
  unfold storageKept at h k ⊢
  rw [k, h]

theorem StorageKept.trans {a b c : State} (h : StorageKept a b) (k : StorageKept b c) : StorageKept a c :=
  ⟨storageKept_trans h.mem k.mem, k.act.trans h.act, k.dies.trans h.dies, k.chans.trans h.chans, k.pkg.trans h.pkg, k.tsc.trans h.tsc,
    k.fresh.trans h.fresh, k.pw.trans h.pw, fun p => (k.links p).trans (h.links p)⟩

theorem OnlyRecords.act {s t : State} (h : OnlyRecords s t) : t.act = s.act := by
  unfold State.act
  rw [← h.ed]

theorem OnlyNotices.storageKept {s t : State} (h : OnlyNotices s t) : StorageKept s t where
  mem := by
    have hm := h.mem
    unfold Claims.storageKept
    rw [hm]
  act := h.records.act
  dies := h.records.dies
  chans := h.records.chans
  pkg := h.records.pkg
  tsc := h.records.tsc
  fresh := h.records.fresh
  pw := h.records.pw
  links := h.links

theorem State.coalesce_storageKept (s : State) (kind obj source coll scope : Nat) (b : Bytes) :
    StorageKept s (s.coalesce kind obj source coll scope b) := (State.coalesce_onlyNotices ..).storageKept

theorem State.discard_storageKept (s : State) (c w off port : Nat) (lobby : Bool) : StorageKept s (s.discard c w off port lobby) :=
  State.coalesce_storageKept ..

theorem State.setTokens_storageKept (s : State) (c w : Nat) (read : Bool) (t : Rat) : StorageKept s (s.setTokens c w read t) :=
  ⟨rfl, rfl, rfl, rfl, rfl, rfl, rfl, rfl, fun _ => rfl⟩

theorem State.meter_storageKept (s : State) (c w port : Nat) (read : Bool) : StorageKept s (s.meter c w port read).1 := by
  unfold State.meter
  dsimp only
  split
  · exact State.setTokens_storageKept ..
  · split
    · exact (State.bump_onlyNotices ..).storageKept.trans (State.coalesce_storageKept ..)
    · exact .refl s

theorem State.meterFor_storageKept (s : State) (who : Waiter) (c w : Nat) (read : Bool) : StorageKept s (s.meterFor who c w read).1 := by
  cases who with
  | port p => exact State.meter_storageKept ..
  | mover p e a => exact State.meter_storageKept ..
  | job n o off => exact .refl s
  | loan b => exact .refl s

namespace StorageKept

variable {s t : State} (h : StorageKept s t)

include h

theorem coll? (c : Nat) : t.coll? c = s.coll? c := by
  unfold State.coll?
  rw [h.mem]

theorem wingsOf (c : Nat) : t.wingsOf c = s.wingsOf c := by
  unfold State.wingsOf
  rw [h.coll?]

theorem place (c a : Nat) : t.place c a = s.place c a := by
  unfold State.place
  rw [h.act, h.wingsOf]

theorem windowAt (c a : Nat) : t.windowAt c a = s.windowAt c a := by
  unfold State.windowAt State.pool
  rw [h.act, h.wingsOf]

theorem noData (c a : Nat) : t.noData c a = s.noData c a := by
  unfold State.noData State.seq?
  rw [h.windowAt, h.mem]

theorem wingUp (w : Nat) : t.wingUp w = s.wingUp w := by
  unfold State.wingUp State.die?
  rw [h.dies]

theorem linkUp (p : Nat) : t.linkUp p = s.linkUp p := State.linkUp_congr (h.links p)

theorem devLoad (p : Nat) : t.devLoad p = s.devLoad p := State.devLoad_congr (by rw [h.mem]) (by rw [h.mem]) p

theorem entry (c w b : Nat) : t.entry c w b = s.entry c w b := by
  unfold State.entry
  rw [h.mem]

theorem cached? (c w line : Nat) : t.cached? c w line = s.cached? c w line := by
  unfold State.cached?
  rw [h.mem]

theorem merge? (c w line : Nat) : t.merge? c w line = s.merge? c w line := by
  unfold State.merge?
  rw [h.mem]

theorem overfull (c : Nat) : t.overfull c = s.overfull c := by
  unfold State.overfull
  rw [h.coll?]

end StorageKept

theorem State.arrived_place (s : State) (sub p c a : Nat) : (s.arrived sub p).place c a = s.place c a := by
  rw [State.arrived_frame]
  rfl

theorem State.arrived_noData (s : State) (sub p c a : Nat) : (s.arrived sub p).noData c a = s.noData c a := by
  rw [State.arrived_frame]
  rfl

theorem State.arrived_wingUp (s : State) (sub p w : Nat) : (s.arrived sub p).wingUp w = s.wingUp w := by
  rw [State.arrived_frame]
  rfl

theorem State.linkRead_data {s : State} {p hpa c off : Nat} (ht : s.target p hpa = .data c off) :
    s.linkRead p hpa = (s.arrived 7 p).serveRead c (off / 64 * 64) (.port p) := by
  have h := s.arrived_target 7 p p hpa
  rw [ht] at h
  unfold State.linkRead
  dsimp only
  rw [show s.wakeChannels.bump 0x1101 7 p 1 = s.arrived 7 p from rfl, h]

theorem State.linkWrite_data {s : State} {p hpa be c off : Nat} {data : Bytes} {poison : Bool} (ht : s.target p hpa = .data c off) :
    s.linkWrite p hpa data be poison = (s.arrived 8 p).serveWrite c (off / 64 * 64) data be poison (.port p) p := by
  have h := s.arrived_target 8 p p hpa
  rw [ht] at h
  unfold State.linkWrite
  dsimp only
  rw [show s.wakeChannels.bump 0x1101 8 p 1 = s.arrived 8 p from rfl, h]

/-! Windows without a sequence, and padding. -/

theorem State.serveRead_noData {s : State} {c off : Nat} (who : Waiter) (hw : s.wingUp (s.place c off).wing = true)
    (hn : s.noData c off = true) :
    s.serveRead c off who = (s.meterFor who c (s.place c off).wing true).1.answer who c
      (64 * (s.place c off).blk + (s.place c off).line) (zeros 64) false := by
  unfold State.serveRead
  dsimp only
  rw [if_neg (by simp [hw]), (State.meterFor_storageKept ..).noData, if_pos hn]

theorem State.serveWrite_noData {s : State} {c off be port : Nat} {data : Bytes} {poison : Bool} (who : Waiter)
    (hw : s.wingUp (s.place c off).wing = true) (hn : s.noData c off = true) :
    s.serveWrite c off data be poison who port =
      ((s.meterFor who c (s.place c off).wing false).1.discard c (s.place c off).wing off port false).completeWrite who := by
  unfold State.serveWrite
  dsimp only
  rw [if_neg (by simp [hw]), (State.meterFor_storageKept ..).noData, if_pos (by simp [hn])]

/-- A state that keeps the storage of an arrived request keeps that of the state it arrived in. -/
theorem StorageKept.of_arrived {s t : State} {sub p : Nat} (h : StorageKept (s.arrived sub p) t) : storageKept s t := by
  have hm := h.mem
  unfold Claims.storageKept at hm ⊢
  rwa [State.arrived_mem] at hm

theorem readWithoutSequence {s : State} {p hpa c off : Nat} (h : taken s p hpa) (ht : s.target p hpa = .data c off)
    (hn : s.noData c (off / 64 * 64) = true) (hw : s.wingUp (s.place c (off / 64 * 64)).wing = true) :
    ∃ t, exec (.cxlMemRead p hpa) s = .next t ∧ storageKept s t ∧ t.chans = s.wakeChannels.chans ∧
      t.out.getLast? = some (.memData p (zeros 64) false (s.devLoad p)) := by
  have htag : s.dies.any (·.tagFault) = false := h.2.2.2
  have hk : StorageKept (s.arrived 7 p) ((s.arrived 7 p).meterFor (.port p) c (s.place c (off / 64 * 64)).wing true).1 :=
    State.meterFor_storageKept ..
  have hlink : ((s.arrived 7 p).meterFor (.port p) c (s.place c (off / 64 * 64)).wing true).1.linkUp p = true := by
    rw [hk.linkUp]
    simpa using h.2.1
  have hrun := exec_cxlMemRead_taken h
  rw [State.linkRead_data ht, State.serveRead_noData _ (by rwa [State.arrived_place, State.arrived_wingUp])
    (by rwa [State.arrived_noData]), State.arrived_place, State.answer_port_eq hlink, State.isolateTags_none
    (by simpa [hk.dies] using htag)] at hrun
  refine ⟨_, hrun, hk.of_arrived, ?_, ?_⟩
  · simpa using hk.chans
  · simp [hk.devLoad]

theorem writeWithoutSequence {s : State} {p hpa c off be : Nat} {data : Bytes} {poison : Bool} (h : taken s p hpa)
    (ht : s.target p hpa = .data c off) (hn : s.noData c (off / 64 * 64) = true)
    (hw : s.wingUp (s.place c (off / 64 * 64)).wing = true) :
    ∃ t, exec (.cxlMemWrite p hpa data be poison) s = .next t ∧ storageKept s t ∧ t.chans = s.wakeChannels.chans ∧
      t.out.getLast? = some (.memCmp p (s.devLoad p)) ∧ ∃ y ∈ t.mem.windows, y.kind = 0x10 ∧ y.obj = c := by
  have htag : s.dies.any (·.tagFault) = false := h.2.2.2
  generalize hwing : (s.place c (off / 64 * 64)).wing = w at hw
  generalize hd : ((s.arrived 8 p).meterFor (.port p) c w false).1.discard c w (off / 64 * 64) p false = d
  have hk : StorageKept (s.arrived 8 p) d := hd ▸ (State.meterFor_storageKept ..).trans (State.discard_storageKept ..)
  have hwin : ∃ y ∈ d.mem.windows, y.kind = 0x10 ∧ y.obj = c := hd ▸ State.coalesce_window ..
  have hrun := exec_cxlMemWrite_taken (be := be) (data := data) (poison := poison) h
  rw [State.linkWrite_data ht, State.serveWrite_noData _ (by rwa [State.arrived_place, State.arrived_wingUp, hwing])
    (by rwa [State.arrived_noData]), State.arrived_place, hwing, hd, State.completeWrite_port (by rw [hk.linkUp]; simpa using h.2.1),
    State.isolateTags_none (by simpa [hk.dies] using htag)] at hrun
  refine ⟨_, hrun, hk.of_arrived, ?_, ?_, hwin⟩
  · simpa using hk.chans
  · simp [hk.devLoad]

/-- Settles O8. -/
theorem windowsWithoutSequence : Obligations.WindowsWithoutSequence := fun _ _ _ _ _ _ _ _ h ht hn hw =>
  ⟨readWithoutSequence h ht hn hw, writeWithoutSequence h ht hn hw⟩

end Sys2Proof.Machine
end

section
/-! PROOF. Lines and merge entries in the partitions of the cache, what a write that lands leaves (R31, R32, R214-R216), and the
statement about writes by the kind of their collection. -/

namespace Sys2Proof.Machine

open Sys2Proof.Claims

/-! The code of the SRAM reads back what was stored (R213). -/

theorem sramRead_sramCheck : ∀ b : Byte, sramRead b (sramCheck b) = (.clean, b) := by decide +kernel

theorem zipWith_sramRead_store (bs : Bytes) : List.zipWith sramRead bs (sramStore false bs) = bs.map fun b => (.clean, b) := by
  induction bs with
  | nil => rfl
  | cons b bs ih =>
    change sramRead b (sramCheck b) :: List.zipWith sramRead bs (sramStore false bs) = _
    rw [ih, sramRead_sramCheck]
    rfl

theorem Sram.store_reads (bs : Bytes) :
    (List.zipWith sramRead (Sram.store false bs).data (Sram.store false bs).check).map (·.1) = List.replicate bs.length .clean := by
  change (List.zipWith sramRead bs (sramStore false bs)).map (·.1) = _
  rw [zipWith_sramRead_store, List.map_map, ← List.map_const']
  rfl

theorem State.bump_zero (s : State) (i j k : Nat) : s.bump i j k 0 = s := by
  unfold State.bump
  exact if_pos rfl

/-! A cached line, by its tag. -/

/-- The place of a cached line. -/
theorem State.cached?_spec {s : State} {c w line : Nat} {l : CacheLine} (h : s.cached? c w line = some l) :
    l.hdr = false ∧ l.coll = c ∧ l.wing = w ∧ l.line = line := by
  have := List.find?_some h
  simpa [and_assoc] using this

theorem State.lookup_miss {s : State} {c w line : Nat} (h : s.cached? c w line = none) : s.lookup c w line = (s, none) := by
  unfold State.lookup
  rw [h]

/-- A line whose tag stands under its check bits in both copies is found, and nothing changes (R216). -/
theorem State.lookup_hit {s : State} {c w line : Nat} {l : CacheLine} (h : s.cached? c w line = some l)
    (ha : l.tagA = Sram.store false l.tag) (hb : l.tagB = Sram.store false l.tag) : s.lookup c w line = (s, some l) := by
  have none_of {f : Found} (hf : Found.clean ≠ f) (n : Nat) : ((List.replicate n Found.clean).filter (· == f)).length = 0 := by
    simp [hf]
  have hz (n : Nat) : ((List.zip (List.replicate n Found.clean) (List.replicate n Found.clean)).any
      fun x => x.1 == .uncorrectable && x.2 == .uncorrectable) = false := by
    rw [List.any_eq_false]
    intro x hx
    simp [(List.mem_replicate.mp (List.of_mem_zip hx).1).2]
  unfold State.lookup
  rw [h]
  dsimp only
  rw [ha, hb, Sram.store_reads]
  simp only [none_of (f := .corrected) (by decide), none_of (f := .uncorrectable) (by decide), hz]
  rfl

theorem State.cached?_putLine {s : State} {l : CacheLine} {c w line : Nat} (hh : l.hdr = false) (hc : l.coll = c) (hw : l.wing = w)
    (hl : l.line = line) : (s.putLine l).cached? c w line = some (placed s l) := by
  subst hc hw hl
  unfold State.cached? State.putLine
  dsimp only [State.updMem_mem]
  rw [List.find?_append, List.find?_eq_none.mpr]
  · simp [hh, Claims.placed]
  · intro x hx
    have hne := (List.mem_filter.mp hx).2
    simp only [CacheLine.sameAs, hh] at hne
    simp only [Bool.not_eq_true', Bool.eq_false_iff] at hne ⊢
    simpa using hne

theorem CacheLine.write_place (l : CacheLine) (data : Bytes) (be : Nat) (poison whole : Bool) :
    (l.write data be poison whole).hdr = l.hdr ∧ (l.write data be poison whole).coll = l.coll ∧
      (l.write data be poison whole).wing = l.wing ∧ (l.write data be poison whole).line = l.line := by
  unfold CacheLine.write
  dsimp only
  split
  · exact ⟨rfl, rfl, rfl, rfl⟩
  · split
    · exact ⟨rfl, rfl, rfl, rfl⟩
    · exact ⟨rfl, rfl, rfl, rfl⟩

/-- A written line is the one its partition then holds. -/
theorem State.cached?_putLine_write {s : State} {l : CacheLine} {c w line be : Nat} {data : Bytes} {poison whole : Bool}
    (hh : l.hdr = false) (hc : l.coll = c) (hw : l.wing = w) (hl : l.line = line) :
    (s.putLine (l.write data be poison whole)).cached? c w line = some (placed s (l.write data be poison whole)) := by
  obtain ⟨hhdr, hcoll, hwing, hline⟩ := l.write_place data be poison whole
  exact State.cached?_putLine (hhdr.trans hh) (hcoll.trans hc) (hwing.trans hw) (hline.trans hl)

/-! Room in a partition. -/

theorem State.makeRoom_of_room {s : State} {c w n : Nat} (h : s.partUsed c w + n ≤ s.partLines c) : s.makeRoom c w n = (s, true) := by
  unfold State.makeRoom
  cases 2 * s.partUsed c w with
  | zero => simp [State.makeRoomAux, h]
  | succ fuel => simp [State.makeRoomAux, h]

/-! A write that has landed, with nothing lent and no Depot copy to wait for. -/

theorem State.recall_nothing {s : State} (h : s.mem.loanDir = []) (c : Nat) (p : Nat → Bool) : s.recall c p = s := by
  unfold State.recall
  simp [h, State.bump_zero]

theorem State.landed_at_once {s : State} {c w line : Nat} (who : Waiter) (hl : s.mem.loanDir = []) (hd : s.act.durable c = false)
    (hf : s.pw.flushing = false) : s.landed c w line who = s.completeWrite who := by
  unfold State.landed
  rw [State.recall_nothing hl]
  simp [hd, hf, State.lent, hl]

theorem State.append_eq (s : State) (c a : Nat) :
    s.append c a = { s with mem := { s.mem with seqs := (s.append c a).mem.seqs } } := by
  unfold State.append
  split <;> rfl

/-! A write of a port, up to its completion. -/

/-- `u` differs from `s` in cached lines, merge entries, messages, records, token buckets, coalescing windows and channels awake. -/
structure LinesOnly (s u : State) : Prop where
  mem : u.mem = { s.mem with cache := u.mem.cache, wmb := u.mem.wmb, buckets := u.mem.buckets, windows := u.mem.windows }
  act : u.act = s.act
  dies : u.dies = s.dies
  flushing : u.pw.flushing = s.pw.flushing
  links : ∀ p, u.linkOf p = s.linkOf p

theorem LinesOnly.updMem {s u : State} {f : MemState → MemState} (h : LinesOnly s u)
    (hf : ∀ m, f m = { m with cache := (f m).cache, wmb := (f m).wmb }) : LinesOnly s (u.updMem f) := by
  refine ⟨?_, h.act, h.dies, h.flushing, h.links⟩
  change f u.mem = { s.mem with cache := (f u.mem).cache, wmb := (f u.mem).wmb, buckets := (f u.mem).buckets, windows := (f u.mem).windows }
  rw [hf u.mem]
  exact congrArg (fun m : MemState => { m with cache := (f u.mem).cache, wmb := (f u.mem).wmb }) h.mem

theorem State.wakeChannels_flushing (s : State) : s.wakeChannels.pw.flushing = s.pw.flushing := by
  unfold State.wakeChannels
  split <;> rfl

theorem StorageKept.linesOnly {s t : State} {sub p : Nat} (h : StorageKept (s.arrived sub p) t) : LinesOnly s t where
  mem := by
    have hm := h.mem
    unfold Claims.storageKept at hm
    rw [State.arrived_mem] at hm
    rw [hm]
  act := by
    rw [h.act]
    unfold State.act
    rw [State.arrived_ed]
  dies := by rw [h.dies, State.arrived_dies]
  flushing := by
    rw [h.pw, State.arrived_frame]
    exact s.wakeChannels_flushing
  links q := by rw [h.links, State.arrived_linkOf]

/-- A write that its collection takes completes at once when no loan and no Depot copy holds it (R31, R32, R286). -/
theorem LinesOnly.landed {s u : State} {p hpa c off a w line be : Nat} {data : Bytes} {poison : Bool} (h : LinesOnly s u)
    (ht : taken s p hpa) (hd : s.target p hpa = .data c off) (hl : s.mem.loanDir = []) (hdur : s.act.durable c = false)
    (hf : s.pw.flushing = false) (hserve : (s.arrived 8 p).serveWrite c (off / 64 * 64) data be poison (.port p) p =
      (u.append c a).landed c w line (.port p)) :
    exec (.cxlMemWrite p hpa data be poison) s = .next ((u.append c a).send (.memCmp p (s.devLoad p))) := by
  obtain ⟨seqs, hseqs⟩ : ∃ q, u.append c a = { u with mem := { u.mem with seqs := q } } := ⟨_, State.append_eq ..⟩
  have hload : (u.append c a).devLoad p = s.devLoad p := State.devLoad_congr (by rw [hseqs, h.mem]) (by rw [hseqs, h.mem]) p
  have hup : (u.append c a).linkUp p = true := (State.linkUp_congr (by rw [hseqs]; exact h.links p)).trans ht.2.1
  have hland : (u.append c a).landed c w line (.port p) = (u.append c a).send (.memCmp p (s.devLoad p)) := by
    rw [State.landed_at_once (.port p) (by rw [hseqs, h.mem]; exact hl) (by rw [hseqs]; exact h.act ▸ hdur)
      (by rw [hseqs]; exact h.flushing.trans hf), State.completeWrite_port hup, hload]
  rw [exec_cxlMemWrite_taken ht, State.linkWrite_data hd, hserve, hland, State.isolateTags_none]
  rw [State.send_dies, hseqs]
  exact h.dies ▸ ht.2.2.2

/-! What a write of the expanded view does, by the state it is metered in. -/

section ServeWrite

variable {s : State} {c off be port : Nat} {data : Bytes} {poison : Bool} {who : Waiter}

/-- The state a write of collection `c` is served in. -/
def State.metered (s : State) (who : Waiter) (c off : Nat) (read : Bool) : State := (s.meterFor who c (s.place c off).wing read).1

theorem State.metered_storageKept : StorageKept s (s.metered who c off false) := State.meterFor_storageKept ..

theorem State.serveWrite_refused (hw : s.wingUp (s.place c off).wing = true) (h : s.act.kind c = 3 ∨ s.act.exhibit c = true) :
    s.serveWrite c off data be poison who port =
      ((s.metered who c off false).discard c (s.place c off).wing off port false).completeWrite who := by
  have hact : (s.meterFor who c (s.place c off).wing false).1.act = s.act := (State.meterFor_storageKept ..).act
  unfold State.serveWrite
  dsimp only
  rw [if_neg (by simp [hw]), hact, if_pos (by simp [h])]
  rfl

/-- A write that its collection takes is served by what its partition holds of the line. -/
theorem State.serveWrite_taken (hw : s.wingUp (s.place c off).wing = true) (hk : s.act.kind c ≠ 3) (hx : s.act.exhibit c = false)
    (hn : s.noData c off = false) (hlost : ¬((s.entry c (s.place c off).wing (s.place c off).blk).tier = .lost ∧ s.overfull c = true)) :
    s.serveWrite c off data be poison who port =
      match (s.metered who c off false).lookup c (s.place c off).wing (64 * (s.place c off).blk + (s.place c off).line) with
      | (t, some l) =>
        if t.act.kind c = 1 || l.expanded || t.stuck (s.entry c (s.place c off).wing (s.place c off).blk) then
          ((t.putLine (l.write data be poison (be == fullMask))).append c off).landed c (s.place c off).wing
            (64 * (s.place c off).blk + (s.place c off).line) who
        else ((t.mergeWrite c (s.place c off).wing (64 * (s.place c off).blk + (s.place c off).line) data be poison).append c off).landed c
          (s.place c off).wing (64 * (s.place c off).blk + (s.place c off).line) who
      | (t, none) =>
        if t.stuck (s.entry c (s.place c off).wing (s.place c off).blk) then
          (t.discard c (s.place c off).wing off port false).completeWrite who
        else if t.act.kind c = 1 then
          ((t.placeWrite ((CacheLine.empty c (s.place c off).wing (64 * (s.place c off).blk + (s.place c off).line)).write data be poison
            (be == fullMask))).append c off).landed c (s.place c off).wing (64 * (s.place c off).blk + (s.place c off).line) who
        else ((t.mergeWrite c (s.place c off).wing (64 * (s.place c off).blk + (s.place c off).line) data be poison).append c off).landed c
          (s.place c off).wing (64 * (s.place c off).blk + (s.place c off).line) who := by
  have hm : StorageKept s (s.meterFor who c (s.place c off).wing false).1 := State.meterFor_storageKept ..
  have hgo : ((s.entry c (s.place c off).wing (s.place c off).blk).tier == .lost && s.overfull c) = false := by
    rw [Bool.eq_false_iff]
    simpa using hlost
  unfold State.serveWrite
  dsimp only
  rw [if_neg (by simp [hw]), hm.act, if_neg (by simp [hk, hx, hm.noData, hn]), hm.entry, hm.overfull, if_neg (by simp [hgo])]
  rfl

end ServeWrite

/-! What stands in the way of a write is not changed by its arrival. -/

theorem find?_updWhere_if {α : Type} {p q : α → Bool} {f : α → α} {l : List α} (h : ∀ x, p (f x) = p x) :
    (updWhere q f l).find? p = (l.find? p).map fun x => if q x then f x else x := by
  have hp : (p ∘ fun x => if q x then f x else x) = p := funext fun x => by
    dsimp only [Function.comp]
    split
    · exact h x
    · rfl
  unfold updWhere
  rw [List.find?_map, hp]

theorem State.wakeChannels_serves (s : State) (w sel : Nat) : s.wakeChannels.serves w sel = s.serves w sel := by
  unfold State.wakeChannels
  split
  · unfold State.serves State.chan?
    dsimp only
    rw [find?_updWhere_if (f := fun c : Chan => { c with st := 2, selfRefresh := false }) fun _ => rfl]
    cases s.chans.find? (fun c => c.wing == w && c.sel == sel) with
    | none => rfl
    | some c =>
      by_cases h : c.st = 8
      · simp [h]
      · simp [h]
  · rfl

theorem StorageKept.serves {s t : State} {sub p : Nat} (h : StorageKept (s.arrived sub p) t) (w sel : Nat) :
    t.serves w sel = s.serves w sel := by
  have hc : t.chans = s.wakeChannels.chans := by rw [h.chans, State.arrived_chans]
  rw [← s.wakeChannels_serves]
  unfold State.serves State.chan?
  rw [hc]

theorem StorageKept.stuck {s t : State} {sub p : Nat} (h : StorageKept (s.arrived sub p) t) (e : CatEntry) :
    t.stuck e = s.stuck e := by
  have hloc (r : Run) : t.runSel r = s.runSel r := by
    unfold State.runSel State.locate State.chanSlots State.depotBytes
    rw [h.pkg, State.arrived_pkg]
  unfold State.stuck
  simp only [hloc, h.serves]

theorem StorageKept.partLines {s t : State} {sub p : Nat} (h : StorageKept (s.arrived sub p) t) (c : Nat) :
    t.partLines c = s.partLines c := by
  unfold State.partLines
  rw [h.linesOnly.act]

theorem StorageKept.partUsed {s t : State} {sub p : Nat} (h : StorageKept (s.arrived sub p) t) (c w : Nat) :
    t.partUsed c w = s.partUsed c w := by
  have hm := h.of_arrived
  unfold State.partUsed
  rw [hm]

/-! Writes by the kind of their collection. -/

section ByKind

/-- A write of a port to line `line` of a collection that may take it, with nothing to hold its completion: what every clause of
WriteByKind is under. -/
structure Writable (s : State) (p hpa c off w blk line : Nat) : Prop where
  taken : Claims.taken s p hpa
  target : s.target p hpa = .data c off
  noData : s.noData c (off / 64 * 64) = false
  wing : (s.place c (off / 64 * 64)).wing = w
  block : (s.place c (off / 64 * 64)).blk = blk
  line : 64 * (s.place c (off / 64 * 64)).blk + (s.place c (off / 64 * 64)).line = line
  wingUp : s.wingUp w = true
  loanDir : s.mem.loanDir = []
  durable : s.act.durable c = false
  flushing : s.pw.flushing = false
  held : ¬((s.entry c w blk).tier = .lost ∧ s.overfull c = true)

variable {s : State} {p hpa c off w blk line be : Nat} {data : Bytes} {poison : Bool}

/-- The state in which a write of a port has arrived and been metered. -/
def State.admitted (s : State) (p c w : Nat) : State := ((s.arrived 8 p).meterFor (.port p) c w false).1

theorem State.admitted_storageKept (s : State) (p c w : Nat) : StorageKept (s.arrived 8 p) (s.admitted p c w) :=
  State.meterFor_storageKept ..

theorem State.arrived_act (s : State) (sub p : Nat) : (s.arrived sub p).act = s.act := by
  unfold State.act
  rw [State.arrived_ed]

theorem StorageKept.tsc_arrived {s t : State} {sub p : Nat} (h : StorageKept (s.arrived sub p) t) : t.tsc = s.tsc := by
  rw [h.tsc, State.arrived_tsc]

theorem Writable.serve (h : Writable s p hpa c off w blk line) (hk : s.act.kind c ≠ 3) (hx : s.act.exhibit c = false) : 
    (s.arrived 8 p).serveWrite c (off / 64 * 64) data be poison (.port p) p = 
      match (s.admitted p c w).lookup c w line with
      | (t, some l) =>
        if t.act.kind c = 1 || l.expanded || t.stuck (s.entry c w blk) then
          ((t.putLine (l.write data be poison (be == fullMask))).append c (off / 64 * 64)).landed c w line (.port p)
        else ((t.mergeWrite c w line data be poison).append c (off / 64 * 64)).landed c w line (.port p)
      | (t, none) =>
        if t.stuck (s.entry c w blk) then (t.discard c w (off / 64 * 64) p false).completeWrite (.port p)
        else if t.act.kind c = 1 then
          ((t.placeWrite ((CacheLine.empty c w line).write data be poison (be == fullMask))).append c (off / 64 * 64)).landed c w line
            (.port p)
        else ((t.mergeWrite c w line data be poison).append c (off / 64 * 64)).landed c w line (.port p) := by
  have he : (s.arrived 8 p).entry c w blk = s.entry c w blk := by
    rw [State.arrived_frame]
    rfl
  have ho : (s.arrived 8 p).overfull c = s.overfull c := by
    rw [State.arrived_frame]
    rfl
  have hs := State.serveWrite_taken (s := s.arrived 8 p) (c := c) (off := off / 64 * 64) (be := be) (port := p) (data := data) (poison := poison)
    (who := .port p) (by rw [State.arrived_place, h.wing, State.arrived_wingUp]; exact h.wingUp) (by rwa [State.arrived_act])
    (by rwa [State.arrived_act]) (by rw [State.arrived_noData]; exact h.noData)
    (by rw [State.arrived_place, h.wing, h.block, he, ho]; exact h.held)
  rw [State.arrived_place, h.line, h.wing, h.block, he] at hs
  unfold State.metered at hs
  rw [State.arrived_place, h.wing] at hs
  exact hs

/-- A landed write that leaves a line in its partition: the answer, and what stands. -/
theorem Writable.lands {u : State} (h : Writable s p hpa c off w blk line) (hu : LinesOnly s u)
    (hs : (s.arrived 8 p).serveWrite c (off / 64 * 64) data be poison (.port p) p =
      (u.append c (off / 64 * 64)).landed c w line (.port p)) :
    ∃ t, exec (.cxlMemWrite p hpa data be poison) s = .next t ∧ t.mem.dram = s.mem.dram ∧ t.mem.cat = s.mem.cat ∧
      t.mem.cache = u.mem.cache ∧ t.mem.wmb = u.mem.wmb ∧ t.out.getLast? = some (.memCmp p (s.devLoad p)) := by
  obtain ⟨seqs, hseqs⟩ : ∃ q, u.append c (off / 64 * 64) = { u with mem := { u.mem with seqs := q } } := ⟨_, State.append_eq ..⟩
  refine ⟨_, hu.landed h.taken h.target h.loanDir h.durable h.flushing hs, ?_, ?_, ?_, ?_, ?_⟩
  · rw [State.send_mem, hseqs, hu.mem]
  · rw [State.send_mem, hseqs, hu.mem]
  · rw [State.send_mem, hseqs]
  · rw [State.send_mem, hseqs]
  · simp

theorem State.cached?_congr {s t : State} (h : t.mem.cache = s.mem.cache) (c w line : Nat) : t.cached? c w line = s.cached? c w line := by
  unfold State.cached?
  rw [h]

theorem LinesOnly.putLine {s u : State} (h : LinesOnly s u) (l : CacheLine) : LinesOnly s (u.putLine l) := by
  unfold State.putLine
  exact h.updMem fun _ => rfl

theorem placed_congr {s t : State} (h : t.tsc = s.tsc) (l : CacheLine) : placed t l = placed s l := by
  unfold Claims.placed
  rw [h]

theorem StorageKept.of_arrived_cache {s t : State} {sub p : Nat} (h : StorageKept (s.arrived sub p) t) : t.mem.cache = s.mem.cache := by
  rw [h.of_arrived]

theorem State.putLine_wmb (s : State) (l : CacheLine) : (s.putLine l).mem.wmb = s.mem.wmb := rfl

/-- A write on a cached line lands in it. -/
theorem Writable.cached (h : Writable s p hpa c off w blk line) {l : CacheLine}
    (hk : s.act.kind c = 1 ∨ (s.act.kind c = 2 ∧ l.expanded = true)) (hx : s.act.exhibit c = false) (hl : s.cached? c w line = some l)
    (ha : l.tagA = Sram.store false l.tag) (hb : l.tagB = Sram.store false l.tag) :
    ∃ t, exec (.cxlMemWrite p hpa data be poison) s = .next t ∧ t.mem.dram = s.mem.dram ∧ t.mem.cat = s.mem.cat ∧
      t.cached? c w line = some (placed s (l.write data be poison (be == fullMask))) ∧ t.mem.wmb = s.mem.wmb ∧
      t.out.getLast? = some (.memCmp p (s.devLoad p)) := by
  have hm := s.admitted_storageKept p c w
  have hlook := State.lookup_hit ((State.cached?_congr hm.of_arrived_cache ..).trans hl) ha hb
  obtain ⟨hh, hc, hw, hline⟩ := State.cached?_spec hl
  have hk3 : s.act.kind c ≠ 3 := by rcases hk with hk | ⟨hk, -⟩ <;> simp [hk]
  have hs := h.serve (be := be) (data := data) (poison := poison) hk3 hx
  rw [hlook] at hs
  dsimp only at hs
  rw [if_pos (by rcases hk with hk | ⟨-, hk⟩ <;> simp [hk, hm.linesOnly.act])] at hs
  obtain ⟨t, hrun, hdram, hcat, hcache, hwmb, hout⟩ := h.lands (hm.linesOnly.putLine _) hs
  refine ⟨t, hrun, hdram, hcat, ?_, ?_, hout⟩
  · rw [State.cached?_congr hcache, State.cached?_putLine_write hh hc hw hline, placed_congr hm.tsc_arrived]
  · rw [hwmb, State.putLine_wmb, hm.of_arrived]

/-- A line of a RAW collection that is not cached takes a place of its partition when there is one. -/
theorem Writable.raw (h : Writable s p hpa c off w blk line) (hk : s.act.kind c = 1) (hx : s.act.exhibit c = false)
    (hl : s.cached? c w line = none) (hstuck : s.stuck (s.entry c w blk) = false) (hroom : s.partUsed c w + 1 ≤ s.partLines c) :
    ∃ t, exec (.cxlMemWrite p hpa data be poison) s = .next t ∧ t.mem.dram = s.mem.dram ∧ t.mem.cat = s.mem.cat ∧
      t.cached? c w line = some (placed s ((CacheLine.empty c w line).write data be poison (be == fullMask))) ∧
      t.mem.wmb = s.mem.wmb ∧ t.out.getLast? = some (.memCmp p (s.devLoad p)) := by
  have hm := s.admitted_storageKept p c w
  have hmiss : (s.admitted p c w).cached? c w line = none := (State.cached?_congr hm.of_arrived_cache ..).trans hl
  obtain ⟨-, hpc, hpw, hpl⟩ := (CacheLine.empty c w line).write_place data be poison (be == fullMask)
  have hs := h.serve (be := be) (data := data) (poison := poison) (by simp [hk]) hx
  rw [State.lookup_miss hmiss] at hs
  dsimp only at hs
  rw [if_neg (by simp [hm.stuck, hstuck]), if_pos (by rw [hm.linesOnly.act]; exact hk)] at hs
  have hplace : (s.admitted p c w).placeWrite ((CacheLine.empty c w line).write data be poison (be == fullMask)) =
      (s.admitted p c w).putLine ((CacheLine.empty c w line).write data be poison (be == fullMask)) := by
    unfold State.placeWrite
    rw [hpc, hpw, hpl]
    change (if ((s.admitted p c w).cached? c w line).isSome then _ else
      match (s.admitted p c w).makeRoom c w 1 with | (s1, true) => _ | (s1, false) => _) = _
    rw [hmiss, State.makeRoom_of_room (by rw [hm.partUsed, hm.partLines]; exact hroom)]
    rfl
  rw [hplace] at hs
  obtain ⟨t, hrun, hdram, hcat, hcache, hwmb, hout⟩ := h.lands (hm.linesOnly.putLine _) hs
  refine ⟨t, hrun, hdram, hcat, ?_, ?_, hout⟩
  · rw [State.cached?_congr hcache, State.cached?_putLine_write (l := .empty c w line) (c := c) (w := w) (line := line) rfl rfl rfl rfl, placed_congr hm.tsc_arrived]
  · rw [hwmb, State.putLine_wmb, hm.of_arrived]

/-- An entry of the write-merge buffer that holds no byte yet. -/
def MergeEntry.empty (c w line : Nat) : MergeEntry := ⟨c, w, line, zeros 64, sramStore false (zeros 64), 0, false, false⟩

/-- A write that joins no entry of the write-merge buffer makes one. -/
theorem State.mergeWrite_new {u : State} (hm : u.merge? c w line = none) (hroom : u.partUsed c w + 1 ≤ u.partLines c) :
    u.mergeWrite c w line data be poison =
      u.updMem fun m => { m with wmb := (upsert (fun x => x.coll == c && x.wing == w && x.line == line) (·.write data be poison)
        (.empty c w line) u.mem.wmb) } := by
  unfold State.mergeWrite
  rw [hm, State.makeRoom_of_room hroom]
  rfl

theorem MergeEntry.write_place (x : MergeEntry) (data : Bytes) (be : Nat) (poison : Bool) :
    (x.write data be poison).coll = x.coll ∧ (x.write data be poison).wing = x.wing ∧ (x.write data be poison).line = x.line := by
  unfold MergeEntry.write
  dsimp only
  split
  · exact ⟨rfl, rfl, rfl⟩
  · split
    · exact ⟨rfl, rfl, rfl⟩
    · exact ⟨rfl, rfl, rfl⟩

theorem getD_mergeMask {old : Bytes} {mask i : Nat} (new : Bytes) (hi : i < old.length) (hb : bitSet mask i = true) :
    (mergeMask mask old new).getD i 0 = new.getD i 0 := by
  unfold mergeMask
  rw [List.getD_eq_getElem?_getD, List.getElem?_map, List.getElem?_range hi]
  simp [hb]

theorem MergeEntry.write_bytes (x : MergeEntry) (data : Bytes) (be : Nat) :
    (x.write data be false).data = mergeMask be x.data data := by
  unfold MergeEntry.write
  dsimp only
  rw [if_neg (by decide)]
  split
  · rfl
  · rfl

theorem MergeEntry.write_mask {x : MergeEntry} (hx : x.mask = 0) (data : Bytes) (be : Nat) : (x.write data be false).mask = be := by
  unfold MergeEntry.write
  dsimp only
  rw [if_neg (by decide)]
  split
  · next h => exact h.symm
  · exact hx ▸ Nat.zero_or be

/-- A write of an ACT block that is not expanded waits in the write-merge buffer. -/
theorem Writable.merged (h : Writable s p hpa c off w blk line) (hk : s.act.kind c = 2) (hx : s.act.exhibit c = false)
    (hl : s.cached? c w line = none) (hstuck : s.stuck (s.entry c w blk) = false) (hmerge : s.merge? c w line = none)
    (hroom : s.partUsed c w + 1 ≤ s.partLines c) :
    ∃ t m, exec (.cxlMemWrite p hpa data be false) s = .next t ∧ t.mem.dram = s.mem.dram ∧ t.mem.cat = s.mem.cat ∧
      t.mem.cache = s.mem.cache ∧ t.merge? c w line = some m ∧ m.mask = be ∧
      (∀ i, i < 64 → bitSet be i = true → m.data.getD i 0 = data.getD i 0) ∧ t.out.getLast? = some (.memCmp p (s.devLoad p)) := by
  have hm := s.admitted_storageKept p c w
  have hmiss : (s.admitted p c w).cached? c w line = none := (State.cached?_congr hm.of_arrived_cache ..).trans hl
  have hnone : (s.admitted p c w).merge? c w line = none := by
    unfold State.merge? at hmerge ⊢
    rwa [hm.of_arrived]
  have hs := h.serve (be := be) (data := data) (poison := false) (by simp [hk]) hx
  rw [State.lookup_miss hmiss] at hs
  dsimp only at hs
  rw [if_neg (by simp [hm.stuck, hstuck]), if_neg (by simp [hm.linesOnly.act, hk]),
    State.mergeWrite_new hnone (by rw [hm.partUsed, hm.partLines]; exact hroom)] at hs
  obtain ⟨t, hrun, hdram, hcat, hcache, hwmb, hout⟩ := h.lands (hm.linesOnly.updMem fun _ => rfl) hs
  refine ⟨t, _, hrun, hdram, hcat, ?_, ?_, MergeEntry.write_mask (x := .empty c w line) rfl data be, fun i hi hb => ?_, hout⟩
  · rw [hcache]
    exact hm.of_arrived_cache
  · unfold State.merge? at hnone ⊢
    rw [hwmb]
    dsimp only [State.updMem_mem]
    rw [find?_upsert (fun x => ?_) (by simp [MergeEntry.empty]), hnone]
    · rfl
    · obtain ⟨hc, hw, hline⟩ := x.write_place data be false
      rw [hc, hw, hline]
  · rw [MergeEntry.write_bytes]
    exact getD_mergeMask data (by simpa [zeros, MergeEntry.empty] using hi) hb

/-- A write of a PACKED collection or of an exhibit is discarded with its notice. -/
theorem Writable.refused (h : Writable s p hpa c off w blk line) (hk : s.act.kind c = 3 ∨ s.act.exhibit c = true) :
    ∃ t, exec (.cxlMemWrite p hpa data be poison) s = .next t ∧ storageKept s t ∧
      (∃ y ∈ t.mem.windows, y.kind = 0x10 ∧ y.obj = c) ∧ t.out.getLast? = some (.memCmp p (s.devLoad p)) := by
  have hs := State.serveWrite_refused (s := s.arrived 8 p) (c := c) (off := off / 64 * 64) (be := be) (port := p) (data := data)
    (poison := poison) (who := .port p) (by rw [State.arrived_place, h.wing, State.arrived_wingUp]; exact h.wingUp)
    (by rwa [State.arrived_act])
  unfold State.metered at hs
  rw [State.arrived_place, h.wing, show ((s.arrived 8 p).meterFor (.port p) c w false).1 = s.admitted p c w from rfl] at hs
  have hk : StorageKept (s.arrived 8 p) ((s.admitted p c w).discard c w (off / 64 * 64) p false) :=
    (s.admitted_storageKept p c w).trans (State.discard_storageKept ..)
  have hrun := exec_cxlMemWrite_taken (be := be) (data := data) (poison := poison) h.taken
  rw [State.linkWrite_data h.target, hs, State.completeWrite_port (by rw [hk.linkUp]; simpa using h.taken.2.1),
    State.isolateTags_none (by simpa [hk.dies] using h.taken.2.2.2)] at hrun
  exact ⟨_, hrun, hk.of_arrived, State.coalesce_window .., by simp [hk.devLoad]⟩

end ByKind

/-- Settles O9. -/
theorem writeByKind : Obligations.WriteByKind := by
  intro s p hpa c off w line be data poison ht hd hn hw hup hline hl hdur hf hheld
  have h : Writable s p hpa c off w (s.place c (off / 64 * 64)).blk line := ⟨ht, hd, hn, hw, rfl, hline, hup, hl, hdur, hf, hheld⟩
  refine ⟨fun l => h.cached, h.raw, fun hk hx hc hs hm hp hr => ?_, h.refused⟩
  subst hp
  exact h.merged hk hx hc hs hm hr

end Sys2Proof.Machine
end

section
/-! PROOF. Concrete states of a package in service, in which the refutations below run the model, and the refutations of the statements
about a docent's storage and channels. -/

namespace Sys2Proof.Machine

open Sys2Proof.Claims

/-! A package in service. -/

/-- A value of an edition: entry, subindex, object. -/
def numericValue (idx sub obj v : Nat) : EdVal := ⟨idx, sub, obj, leBytes 8 v⟩

/-- Collection 5 is RAW, 1 MiB of data on every Wing, with quotas of 2 MiB in both tiers. -/
def rawCollection : List EdVal :=
  [numericValue 0x3001 1 5 1, numericValue 0x3001 3 5 0x100000, numericValue 0x3002 1 5 0x200000, numericValue 0x3002 2 5 0x200000]

/-- The package with every die in service and every channel serving, collection 5 live, at 10 s. -/
def serving : State :=
  let r := State.reset
  { r with
    tsc := 10000000000
    pkg := { r.pkg with inReset := false, fwRunning := true, phase := 4 }
    dies := r.dies.map fun d => { d with inService := true, lastBeat := 10000000000, lastSync := 10000000000, lastTelemetry := 10000000000 }
    chans := r.chans.map fun c => { c with st := 2 }
    pw := { r.pw with stewardUp := true, lastRound := 10000000000 }
    ed := { r.ed with active := { num := 0, vals := rawCollection } }
    mem := { r.mem with colls := [⟨5, 0xF, false, false, false⟩], keys := [⟨5, 0, 1⟩] } }

/-- The state a command leaves. -/
def ran (i : Instr) (s : State) : State := match exec i s with | .next t => t | _ => s

theorem ran_of_exec {i : Instr} {s t : State} (h : exec i s = .next t) : t = ran i s := by
  unfold ran
  rw [h]

/-- A docent's instruction word: opcode, rd, ra and rb (R196). -/
def docentWord (op rd ra rb : Nat) : Nat := op * 2 ^ 26 + rd * 2 ^ 22 + ra * 2 ^ 18 + rb * 2 ^ 14

/-- A program of two words, the second a NOP (R201). -/
def programOf (w : Nat) : Bytes := zeros 12 ++ leBytes 2 2 ++ zeros 50 ++ leBytes 4 w ++ leBytes 4 0

/-- A context at the first word of a program, `op r3, r1, r2`. -/
def contextAt (op : Nat) (g1 g2 : Word64) (buf : List (Nat × Sram)) : CtxState :=
  { CtxState.idle with running := true, image := programOf (docentWord op 3 1 2),
                       regs := [0, g1, g2, 0, 0, 0, 0, 0, 0, 0, 0, 0, 0, 0, 0, 0], buf := buf }

/-- The package in service with docent 32, of Wing 0, in this context A. -/
def servingAt (y : CtxState) : State := serving.updDocent 32 fun x => { x with a := y }

/-! CATFLIP of a ZERO block to an entry of tier code 0 (R84, R197): a ZERO entry is not listed, so that the slot named with it is not
kept. -/

/-- CATFLIP of block 0 of collection 5 from ZERO to an entry that is all zero bytes. -/
def flipToZeroBytes : CtxState := contextAt 0x39 5 0 [(0, Sram.store false (List.replicate 8 0xFF))]

theorem flipToZeroBytes_ready : (servingAt flipToZeroBytes).docReady 32 .a 0x39 = some flipToZeroBytes := by decide +kernel

/-- What the statement says of a CATFLIP that meets its old entry. -/
theorem catflip_of_claim {s : State} {d : Nat} {y : CtxState} {e : CatEntry} (h : DocentCatalogue) (h32 : 32 ≤ d) (h64 : d < 64)
    (hrest : s.changing (docDie d - 4) = false)
    (he : e = s.entry (catArg (y.get (wA (wordOf y)))).1 (docDie d - 4) (catArg (y.get (wA (wordOf y)))).2)
    (hy : s.docReady d .a 0x39 = some y) (hs : bufSound y)
    (hx : s.entryExists (docDie d - 4) (catArg (y.get (wA (wordOf y)))).1 (catArg (y.get (wA (wordOf y)))).2 = true)
    (hr : ∀ r ∈ e.runs ++ (e.ofBytes (y.bufBytes 2 2)).runs, s.runClosed r = false) (hold : e.bytes = y.bufBytes 0 2) :
    (ran (.catflip d .a) s).entry e.coll e.wing e.blk = e.ofBytes (y.bufBytes 2 2) := by
  obtain ⟨t, z, ht, -, -, -, hz⟩ := (h s d .a y e h32 h64 hrest he).2.1 hy hs hx hr
  rw [if_pos hold] at hz
  rw [← ran_of_exec ht]
  exact hz.2

/-- Refutes O5: a CATFLIP of a ZERO block to zero bytes leaves it unlisted, and a ZERO entry's slot is not that of the new entry. -/
theorem not_docentStorage : ¬ Obligations.DocentStorage := fun h =>
  absurd (catflip_of_claim (e := (servingAt flipToZeroBytes).entry 5 0 0) h.1 (by decide) (by decide) (by decide +kernel) (by decide +kernel)
    flipToZeroBytes_ready (by decide +kernel) (by decide +kernel) (by decide +kernel) (by decide +kernel)) (by decide +kernel)

/-! LWRITE over memory that is not listed in rising order (R197): a zero byte written is taken out of the list only where the order
finds it. -/

/-- What the statement says of the lines that an LWRITE stores. -/
theorem lwrite_of_claim {s : State} {d w sel a : Nat} {y : CtxState} (h : DocentChannels) (hd : s.depotBytes ≤ 2 ^ 40)
    (hrest : s.changing (docDie d - 4) = false) (hy : s.docReady d .a 0x35 = some y)
    (hc : s.chanArgs d (y.get (wA (wordOf y))) (y.get (wB (wordOf y))).toNat 64 = .ok (w, sel, a, false)) (hs : bufSound y) (i : Nat)
    (hi : i < (y.get (wB (wordOf y))).toNat) :
    (ran (.lwrite d .a) s).rawLine w sel (a + 64 * i) = freshLine (isDepot sel) (y.bufBytes (8 * i) 8) false := by
  obtain ⟨t, z, ht, -, -, -, -, hraw, -⟩ := (h s d .a y w sel a hd hrest).2.1 hy hc hs
  rw [← ran_of_exec ht]
  exact hraw i hi

/-- LWRITE of the empty line buffer to line 0 of Depot channel 0. -/
def writeZeros : CtxState := contextAt 0x35 0 1 []

/-- It runs over memory that lists bytes 1 and 0, in this order. -/
def unsortedMemory : State := (servingAt writeZeros).updMem fun m => { m with dram := [(1, 1), (0, 1)] }

theorem chanArgs_writeZeros : unsortedMemory.chanArgs 32 (writeZeros.get (wA (wordOf writeZeros))) (writeZeros.get (wB (wordOf writeZeros))).toNat
    64 = .ok (0, 0, 0, false) := by
  have h : (unsortedMemory.chanArgs 32 (writeZeros.get (wA (wordOf writeZeros))) (writeZeros.get (wB (wordOf writeZeros))).toNat
    64).toOption = some (0, 0, 0, false) := by decide +kernel
  revert h
  cases unsortedMemory.chanArgs 32 (writeZeros.get (wA (wordOf writeZeros))) (writeZeros.get (wB (wordOf writeZeros))).toNat 64 with
  | error e => exact fun h => nomatch h
  | ok x => exact fun h => congrArg Except.ok (Option.some.inj h)

/-- Refutes O4: the statement speaks of every state, and over memory that is not listed in rising order a byte 0 stays. -/
theorem not_docentStateAccess : ¬ Obligations.DocentStateAccess := fun h =>
  absurd (lwrite_of_claim (s := unsortedMemory) h.2 (by decide +kernel) (by decide +kernel) (by decide +kernel) chanArgs_writeZeros
    (by decide +kernel) 0 (by decide +kernel)) (by decide +kernel)

end Sys2Proof.Machine
end

section
/-! PROOF. Commands and their ends (R57-R62), blocks dropped from a range (R59, R147-R150), and the statements about CREATE, TRUNCATE,
RELEASE, FENCE and unknown opcodes. -/

namespace Sys2Proof.Machine

open Sys2Proof.Claims

/-! What a filter leaves to be found. -/

theorem find?_filter_imp {α : Type} {p q : α → Bool} {l : List α} (h : ∀ x, q x = true → p x = true) :
    (l.filter p).find? q = l.find? q := by
  rw [List.find?_filter]
  congr 1
  funext x
  cases hq : q x with
  | true => simp [h x hq]
  | false => simp

theorem find?_filter_not {α : Type} {p q : α → Bool} {l : List α} (h : ∀ x, q x = true → p x = false) : (l.filter p).find? q = none :=
  List.find?_eq_none.mpr fun x hx hq => by simpa [h x hq] using (List.mem_filter.mp hx).2

/-! The command at a place. -/

theorem State.cmd?_place {s : State} {c : Nat} {src : CmdSrc} {x : Cmd} (h : s.cmd? c src = some x) : x.coll = c ∧ x.src = src := by
  simpa using List.find?_some h

theorem State.cmd?_congr {s t : State} (h : t.mem.cmds = s.mem.cmds) (c : Nat) (src : CmdSrc) : t.cmd? c src = s.cmd? c src := by
  unfold State.cmd?
  rw [h]

theorem State.putCmd_frame (s : State) (x : Cmd) : s.putCmd x = { s with mem := { s.mem with cmds := (s.putCmd x).mem.cmds } } := rfl

/-- A command put at its place is the one there. -/
theorem State.cmd?_putCmd (s : State) (x : Cmd) : (s.putCmd x).cmd? x.coll x.src = some x := by
  unfold State.cmd? State.putCmd
  dsimp only [State.updMem_mem]
  rw [List.find?_append, find?_filter_not fun y hy => by rw [hy]; rfl]
  simp

/-- The commands of the other places stand. -/
theorem State.cmd?_putCmd_ne (s : State) (x : Cmd) {c : Nat} {src : CmdSrc} (h : ¬(c = x.coll ∧ src = x.src)) :
    (s.putCmd x).cmd? c src = s.cmd? c src := by
  have hne (y : Cmd) (hy : (y.coll == c && y.src == src) = true) : (y.coll == x.coll && y.src == x.src) = false := by
    rw [Bool.eq_false_iff]
    simp only [Bool.and_eq_true, beq_iff_eq, ne_eq] at hy ⊢
    obtain ⟨rfl, rfl⟩ := hy
    exact h
  have hx : (x.coll == c && x.src == src) = false := by
    rw [Bool.eq_false_iff]
    intro hx
    exact absurd (hne x hx) (by simp)
  unfold State.cmd? State.putCmd
  dsimp only [State.updMem_mem]
  rw [List.find?_append, List.find?_singleton, hx, find?_filter_imp fun y hy => by rw [hne y hy]; rfl]
  exact Option.or_none

/-! The end of a command (R58). -/

theorem State.endCmd_onlyNoted (s : State) (x : Cmd) (status detail result : Nat) :
    onlyNoted { s with mem := (s.endCmd x status detail result).mem } (s.endCmd x status detail result) := by
  unfold State.endCmd
  dsimp only
  split
  · have h (t : State) (ht : OnlyRecords s t) (y : Cmd) : onlyNoted { s with mem := (t.putCmd y).mem } (t.putCmd y) := by
      have hn := ht.onlyNoted
      unfold Claims.onlyNoted at hn ⊢
      rw [t.putCmd_frame, hn]
    exact h _ (State.event_onlyRecords (.refl s)) _
  · rfl

theorem State.endCmd_mem (s : State) (x : Cmd) (status detail result : Nat) :
    (s.endCmd x status detail result).mem = { s.mem with cmds := (s.endCmd x status detail result).mem.cmds } := by
  unfold State.endCmd
  dsimp only
  rw [State.putCmd_frame]
  split
  · rw [State.event_mem]
  · rfl

/-- An ended command, over a state with the commands of `s`. -/
theorem State.endCmd_ended {s t : State} (h : t.mem.cmds = s.mem.cmds) (x : Cmd) (status detail result : Nat) :
    ended s (t.endCmd x status detail result) x status detail result := by
  have hm (u : State) (hu : u.mem = t.mem) (y : Cmd) (hy : y = { x with status := status, detail := detail, result := result % 2 ^ 32 }) :
      ended s (u.putCmd y) x status detail result := by
    subst hy
    refine ⟨u.cmd?_putCmd _, fun c src hne => ?_⟩
    rw [State.cmd?_putCmd_ne u _ (c := c) (src := src) (by exact hne)]
    exact State.cmd?_congr (by rw [hu, h]) c src
  unfold State.endCmd
  dsimp only
  split
  · exact hm _ (State.event_mem ..) _ rfl
  · exact hm _ rfl _ rfl

/-! A command that is due. -/

theorem State.due_cmd? {s : State} {c op : Nat} {src : CmdSrc} {x : Cmd} (h : s.due c src op = some x) : s.cmd? c src = some x := by
  unfold State.due at h
  split at h
  · next y hy =>
    split at h
    · rwa [Option.some.inj h] at hy
    · exact nomatch h
  · exact nomatch h

/-- A due command past its first checks has its own meaning. -/
theorem State.runCmd_runs {s : State} {x : Cmd} {op : Nat} (h : runs s x op) (f : Cmd → State → State) :
    s.runCmd x.coll x.src op f = f x s := by
  unfold State.runCmd
  rw [h.1]
  dsimp only
  rw [h.2]

/-! An unknown opcode, and FENCE. -/

theorem unknownOpcodeEnds : UnknownOpcodeEnds := by
  intro s x hd hop
  have hrun : exec (.undefinedCommandOpcode x.coll x.src) s = .next (s.endCmd x stBadOpcode 0 0) := by
    change execUndefinedCommandOpcode x.coll x.src s = _
    unfold execUndefinedCommandOpcode
    rw [State.due_cmd? hd]
    dsimp only
    rw [if_neg (by simp [hop])]
    unfold State.runCmd State.firstCheck
    rw [hd]
    dsimp only
    rw [if_pos (by simp [hop])]
  exact ⟨_, hrun, State.endCmd_ended rfl .., State.endCmd_mem .., State.endCmd_onlyNoted ..⟩

theorem State.settled_iff {s : State} {x : Cmd} : s.settled x = true ↔
    (∀ y ∈ s.mem.cmds, y.coll = x.coll → isLine y.src = true → y.order < x.order → y.status ≠ 1) ∧
    (s.act.durable x.coll = false ∨ ∀ y ∈ s.mem.writes, y.coll = x.coll → y.depot = false) := by
  unfold State.settled stPending
  simp only [Bool.and_eq_true, Bool.not_eq_true', List.any_eq_false, Bool.and_eq_false_iff]
  constructor
  · rintro ⟨h1, h2⟩
    refine ⟨fun y hy hc hl ho hs => h1 y hy (by simp [hc, hl, ho, hs]), h2.imp_right fun h y hy hc => ?_⟩
    simpa [hc] using h y hy
  · rintro ⟨h1, h2⟩
    refine ⟨fun y hy h => ?_, h2.imp_right fun h y hy hb => ?_⟩
    · simp only [beq_iff_eq, decide_eq_true_eq] at h
      obtain ⟨⟨⟨hc, hl⟩, hs⟩, ho⟩ := h
      exact h1 y hy hc hl ho hs
    · simp only [beq_iff_eq] at hb
      simpa [h y hy hb.1] using hb.2

theorem exec_fenceComplete {s : State} {x : Cmd} (h : s.underWay x.coll x.src 4 = some x) :
    exec (.fenceComplete x.coll x.src) s = .next (if s.settled x then s.endCmd x stDone 0 0 else s) := by
  change execFenceComplete x.coll x.src s = _
  unfold execFenceComplete
  rw [h]

theorem fenceWaits : FenceWaits := by
  intro s x
  refine ⟨fun h => ?_, fun hu h1 h2 => ?_, fun y hy hc hl ho hs hu => ?_, fun y hy hc hd hdur hu => ?_⟩
  · have hrun : exec (.fence x.coll x.src) s = .next (s.putCmd { x with forwarded := true }) :=
      congrArg Host.Outcome.next (State.runCmd_runs h _)
    exact ⟨_, hrun, State.cmd?_putCmd s { x with forwarded := true }, rfl⟩
  · rw [exec_fenceComplete hu, if_pos (State.settled_iff.mpr ⟨h1, h2⟩)]
    exact ⟨_, rfl, State.endCmd_ended rfl .., State.endCmd_mem ..⟩
  · rw [exec_fenceComplete hu, if_neg fun hset => (State.settled_iff.mp hset).1 y hy hc hl ho hs]
  · rw [exec_fenceComplete hu, if_neg fun hset => ?_]
    rcases (State.settled_iff.mp hset).2 with h | h
    · exact absurd hdur (by simp [h])
    · exact absurd hd (by simp [h y hy hc])

/-- Settles O16. -/
theorem commandsWaitAndEnd : Obligations.CommandsWaitAndEnd := ⟨unknownOpcodeEnds, fenceWaits⟩

end Sys2Proof.Machine
end

section
/-! PROOF. Blocks dropped from a range of a collection (R59, R84, R148), and the statements about CREATE, TRUNCATE and RELEASE. -/

namespace Sys2Proof.Machine

open Sys2Proof.Claims

/-! What leaves blocks alone: the entries stand or are ZERO, no line comes in, and no byte, sequence, fork or command changes. -/

/-- From `s` to `t` blocks were dropped and nothing else of the storage changed that a sequence command reads. -/
structure BlocksDropped (s t : State) : Prop where
  dram : t.mem.dram = s.mem.dram
  seqs : t.mem.seqs = s.mem.seqs
  forks : t.mem.forks = s.mem.forks
  cmds : t.mem.cmds = s.mem.cmds
  lines : ∀ l ∈ t.mem.cache, l ∈ s.mem.cache
  entry : ∀ c w b, t.entry c w b = s.entry c w b ∨ (t.entry c w b).tier = .none

theorem BlocksDropped.refl (s : State) : BlocksDropped s s := ⟨rfl, rfl, rfl, rfl, fun _ => id, fun _ _ _ => .inl rfl⟩

theorem BlocksDropped.trans {a b c : State} (h : BlocksDropped a b) (k : BlocksDropped b c) : BlocksDropped a c where
  dram := k.dram.trans h.dram
  seqs := k.seqs.trans h.seqs
  forks := k.forks.trans h.forks
  cmds := k.cmds.trans h.cmds
  lines l hl := h.lines l (k.lines l hl)
  entry x w b := by
    rcases k.entry x w b with hk | hk
    · rw [hk]
      exact h.entry x w b
    · exact .inr hk

/-- A block that is ZERO with no line left. -/
def State.vacant (s : State) (c w b : Nat) : Prop := (s.entry c w b).tier = .none ∧ s.blockLines c w b = []

theorem BlocksDropped.vacant {s t : State} (h : BlocksDropped s t) {c w b : Nat} (hs : s.vacant c w b) : t.vacant c w b := by
  refine ⟨?_, ?_⟩
  · rcases h.entry c w b with he | he
    · rw [he]
      exact hs.1
    · exact he
  · refine List.filter_eq_nil_iff.mpr fun l hl => ?_
    exact List.filter_eq_nil_iff.mp hs.2 l (h.lines l hl)

/-- A state with the same entries, lines, bytes, sequences, forks and commands. -/
theorem BlocksDropped.of_mem {s t : State} (hd : t.mem.dram = s.mem.dram) (hs : t.mem.seqs = s.mem.seqs) (hf : t.mem.forks = s.mem.forks)
    (hc : t.mem.cmds = s.mem.cmds) (hl : t.mem.cache = s.mem.cache) (he : t.mem.cat = s.mem.cat) : BlocksDropped s t where
  dram := hd
  seqs := hs
  forks := hf
  cmds := hc
  lines l h := hl ▸ h
  entry c w b := .inl (by unfold State.entry; rw [he])

theorem BlocksDropped.foldl {α : Type} {a s : State} {f : State → α → State} {l : List α} (h : BlocksDropped a s)
    (hf : ∀ t x, BlocksDropped t (f t x)) : BlocksDropped a (l.foldl f s) := by
  induction l generalizing s with
  | nil => exact h
  | cons x l ih => exact ih (h.trans (hf s x))

theorem State.recall_drops (s : State) (c : Nat) (p : Nat → Bool) : BlocksDropped s (s.recall c p) := by
  unfold State.recall
  exact .foldl (.of_mem (by simp) (by simp) (by simp) (by simp) (by simp) (by simp)) fun t m => .of_mem rfl rfl rfl rfl rfl rfl

theorem State.watermark_drops {s t : State} (h : BlocksDropped s t) (sc : Scope) (a b c : Nat) (x : Bool) (y : Bytes) :
    BlocksDropped s (t.watermark sc a b c x y) := by
  have hm : (t.watermark sc a b c x y).mem = t.mem := (State.watermark_onlyRecords (.refl t)).mem
  exact h.trans (.of_mem (by rw [hm]) (by rw [hm]) (by rw [hm]) (by rw [hm]) (by rw [hm]) (by rw [hm]))

theorem State.updColl_drops (s : State) (c : Nat) (f : CollState → CollState) : BlocksDropped s (s.updColl c f) :=
  .of_mem rfl rfl rfl rfl rfl rfl

theorem State.settle_drops (s : State) (c : Nat) : BlocksDropped s (s.settle c) := by
  unfold State.settle
  split
  · exact .refl s
  · split
    · exact .refl s
    · dsimp only
      repeat' split
      · exact State.watermark_drops (State.watermark_drops (s.updColl_drops ..) ..) ..
      · exact State.watermark_drops (s.updColl_drops ..) ..
      · exact .refl s
      · exact State.watermark_drops (s.updColl_drops ..) ..
      · exact State.watermark_drops (s.updColl_drops ..) ..
      · exact .refl s

theorem State.freeRuns_drops (s : State) (rs : List Run) : BlocksDropped s (s.freeRuns rs) := .of_mem rfl rfl rfl rfl rfl rfl

theorem State.forgetBlock_drops (s : State) (c w b : Nat) : BlocksDropped s (s.forgetBlock c w b) where
  dram := rfl
  seqs := rfl
  forks := rfl
  cmds := rfl
  lines _ h := (List.mem_filter.mp h).1
  entry _ _ _ := .inl rfl

theorem CatEntry.isFor_iff {e : CatEntry} {c w b : Nat} : e.isFor c w b = true ↔ e.coll = c ∧ e.wing = w ∧ e.blk = b := by
  unfold CatEntry.isFor
  simp [and_assoc]

theorem State.putZero_cat (s : State) (c w b : Nat) :
    (s.putEntry (.zero c w b)).mem.cat = s.mem.cat.filter fun x => !x.isFor c w b := rfl

/-- A ZERO entry takes a block out of the catalogue. -/
theorem State.entry_putZero (s : State) (c w b : Nat) : ((s.putEntry (.zero c w b)).entry c w b).tier = .none := by
  unfold State.entry
  rw [State.putZero_cat, find?_filter_not fun e he => by rw [he]; rfl]
  rfl

/-- The other blocks keep their entries. -/
theorem State.entry_putZero_ne (s : State) {c w b c' w' b' : Nat} (h : ¬(c' = c ∧ w' = w ∧ b' = b)) :
    (s.putEntry (.zero c w b)).entry c' w' b' = s.entry c' w' b' := by
  have hne (e : CatEntry) (he : e.isFor c' w' b' = true) : (!e.isFor c w b) = true := by
    obtain ⟨hc, hw, hb⟩ := CatEntry.isFor_iff.mp he
    rw [Bool.not_eq_true', Bool.eq_false_iff, ne_eq, CatEntry.isFor_iff, hc, hw, hb]
    exact h
  unfold State.entry
  rw [State.putZero_cat, find?_filter_imp hne]

theorem State.putEntry_cache (s : State) (e : CatEntry) : ∀ l ∈ (s.putEntry e).mem.cache, l ∈ s.mem.cache := by
  intro l h
  unfold State.putEntry at h
  dsimp only [State.updMem_mem] at h
  split at h
  · exact h
  · exact (List.mem_filter.mp h).1

theorem State.putZero_drops (s : State) (c w b : Nat) : BlocksDropped s (s.putEntry (.zero c w b)) where
  dram := rfl
  seqs := rfl
  forks := rfl
  cmds := rfl
  lines := s.putEntry_cache _
  entry c' w' b' := by
    by_cases hsame : c' = c ∧ w' = w ∧ b' = b
    · obtain ⟨rfl, rfl, rfl⟩ := hsame
      exact .inr (s.entry_putZero ..)
    · exact .inl (s.entry_putZero_ne hsame)

/-! One block, and the blocks of a range. -/

theorem State.dropBlock_drops (s : State) (c w b : Nat) : BlocksDropped s (s.dropBlock c w b).1 :=
  (((s.forgetBlock_drops c w b).trans (State.recall_drops ..)).trans (State.putZero_drops ..)).trans (State.freeRuns_drops ..)

theorem State.dropBlock_vacant (s : State) (c w b : Nat) : (s.dropBlock c w b).1.vacant c w b := by
  have hlines : (s.forgetBlock c w b).blockLines c w b = [] := by
    refine List.filter_eq_nil_iff.mpr fun l hl hof => ?_
    have hl := (List.mem_filter.mp hl).2
    simp only [CacheLine.ofBlock, Bool.and_eq_true, beq_iff_eq] at hof
    simp [hof] at hl
  have hstep := ((State.recall_drops (s.forgetBlock c w b) c fun l => l / 64 == b).trans (State.putZero_drops _ c w b))
  refine BlocksDropped.vacant (State.freeRuns_drops ..) ⟨State.entry_putZero .., ?_⟩
  exact List.filter_eq_nil_iff.mpr fun l hl => List.filter_eq_nil_iff.mp hlines l (hstep.lines l hl)

/-- Blocks dropped one after another are all vacant in the end. -/
theorem State.dropBlocks_spec (c : Nat) (ks : List (Nat × Nat)) (z : State × Nat) :
    let r := ks.foldl (fun (acc : State × Nat) k => ((acc.1.dropBlock c k.1 k.2).1, acc.2 + (acc.1.dropBlock c k.1 k.2).2)) z
    BlocksDropped z.1 r.1 ∧ ∀ k ∈ ks, r.1.vacant c k.1 k.2 := by
  induction ks generalizing z with
  | nil => exact ⟨.refl _, fun k hk => nomatch hk⟩
  | cons x ks ih =>
    obtain ⟨hd, hv⟩ := ih ((z.1.dropBlock c x.1 x.2).1, z.2 + (z.1.dropBlock c x.1 x.2).2)
    refine ⟨(State.dropBlock_drops ..).trans hd, fun k hk => ?_⟩
    rcases List.mem_cons.mp hk with rfl | hk
    · exact hd.vacant (State.dropBlock_vacant ..)
    · exact hv k hk

/-- Every block that holds a byte of a dropped range is ZERO with no line left (R59, R148). -/
theorem State.dropRange_spec (s : State) (c lo hi : Nat) :
    BlocksDropped s (s.dropRange c lo hi).1 ∧ ∀ k ∈ s.blocksIn c lo hi, (s.dropRange c lo hi).1.vacant c k.1 k.2 := by
  obtain ⟨hd, hv⟩ := State.dropBlocks_spec c (s.blocksIn c lo hi) (s, 0)
  exact ⟨hd.trans (State.settle_drops ..), fun k hk => (State.settle_drops ..).vacant (hv k hk)⟩

/-- A state whose entries and lines are those a dropped range left holds nothing of the range. -/
theorem State.dropRange_zero {s t : State} {c lo hi : Nat} (hl : t.mem.cache = (s.dropRange c lo hi).1.mem.cache)
    (he : t.mem.cat = (s.dropRange c lo hi).1.mem.cat) : rangeZero s t c lo hi := by
  intro k hk
  obtain ⟨h1, h2⟩ := (s.dropRange_spec c lo hi).2 k hk
  unfold State.entry at h1 ⊢
  unfold State.blockLines at h2 ⊢
  rw [hl, he]
  exact ⟨h1, h2⟩

/-! CREATE (R147). -/

theorem exec_create {s : State} {x : Cmd} (h : runs s x 0x10) : exec (.create x.coll x.src) s = .next (State.create x s) :=
  congrArg Host.Outcome.next (State.runCmd_runs h _)

/-- CREATE past its operand checks. -/
theorem State.create_of_pool {s : State} {x : Cmd} {q : Pool} (hp : fieldAt x.bytes 8 1 < 8) (hq : s.pool x.coll (fieldAt x.bytes 8 1) = some q)
    (h1 : 1 ≤ fieldAt x.bytes 12 2) (h2 : fieldAt x.bytes 12 2 ≤ 1024) : State.create x s =
      match s.takeWindows x.coll (fieldAt x.bytes 8 1) q (fieldAt x.bytes 12 2) with
      | .error d => s.endCmd x stLimit d 0
      | .ok w =>
        ((s.dropRange x.coll (q.window w) (q.window (w + fieldAt x.bytes 12 2))).1.updMem fun m =>
          { m with seqs := m.seqs ++ (List.range (fieldAt x.bytes 12 2)).map fun i =>
            (⟨x.coll, fieldAt x.bytes 8 1 * 65536 + w + i, 0, none, 0⟩ : Seq) }).endCmd x stDone 0 (fieldAt x.bytes 8 1 * 65536 + w) := by
  unfold State.create
  dsimp only
  rw [if_pos hp, hq]
  dsimp only
  rw [if_neg (by omega)] <;> rfl

/-- Settles O12. -/
theorem createMakesRoots : Obligations.CreateMakesRoots := by
  intro s x q hr hp hq h1 h2
  refine ⟨fun w hw => ?_, fun n hn => ?_⟩
  · have hc := State.create_of_pool hp hq h1 h2
    rw [hw] at hc
    have hd := (s.dropRange_spec x.coll (q.window w) (q.window (w + fieldAt x.bytes 12 2))).1
    refine ⟨_, exec_create hr, ?_, ?_, ?_, ?_⟩
    · rw [hc]
      exact State.endCmd_ended (s := s) (by exact hd.cmds) ..
    · rw [hc, State.endCmd_mem]
      exact hd.dram
    · rw [hc]
      exact State.dropRange_zero (by rw [State.endCmd_mem]; rfl) (by rw [State.endCmd_mem]; rfl)
    · rw [hc, State.endCmd_mem]
      exact congrArg (· ++ _) hd.seqs
  · have hc := State.create_of_pool hp hq h1 h2
    rw [hn] at hc
    refine ⟨_, exec_create hr, ?_, ?_, ?_⟩
    · rw [hc]
      exact State.endCmd_ended rfl ..
    · rw [hc, State.endCmd_mem]
    · rw [hc, State.endCmd_mem]

/-! TRUNCATE (R150). -/

theorem exec_truncate {s : State} {x : Cmd} (h : runs s x 2) : exec (.truncate x.coll x.src) s = .next (State.truncate x s) :=
  congrArg Host.Outcome.next (State.runCmd_runs h _)

/-- The blocks of a window at or beyond a cut, and the tokens held. -/
def State.cutAt (s : State) (x : Cmd) (q : Pool) (w : Nat) : State :=
  (s.dropRange x.coll (q.window w + fieldAt x.bytes 12 4 * q.rec_) (q.window w + q.stride)).1

/-- TRUNCATE of a live sequence to no more than the pool's capacity, at a block boundary where it cuts. -/
theorem State.truncate_of_seq {s : State} {x : Cmd} {q : Pool} {p w : Nat} {sq : Seq}
    (hp : s.seqPlace x.coll (fieldAt x.bytes 8 4) = some (q, p, w)) (hs : s.seq? x.coll (fieldAt x.bytes 8 4) = some sq)
    (hcap : fieldAt x.bytes 12 4 ≤ q.cap) (hcut : fieldAt x.bytes 12 4 < sq.held → fieldAt x.bytes 12 4 * q.rec_ % 4096 = 0) :
    State.truncate x s =
      if sq.held ≤ fieldAt x.bytes 12 4 then s.endCmd x stDone 0 sq.held
      else ((s.cutAt x q w).updMem fun m => { m with
          seqs := (updWhere (fun y => y.coll == x.coll && y.num == fieldAt x.bytes 8 4) (fun y => { y with held := fieldAt x.bytes 12 4 })
            (s.cutAt x q w).mem.seqs) }).endCmd x stDone 0 (fieldAt x.bytes 12 4) := by
  unfold State.truncate
  dsimp only
  rw [hp]
  dsimp only
  rw [if_neg (by omega), hs]
  dsimp only
  split
  · rfl
  · next h =>
    have h0 := hcut (by omega)
    have hblocks : ceilDiv (fieldAt x.bytes 12 4 * q.rec_) 4096 * 4096 = fieldAt x.bytes 12 4 * q.rec_ := by
      unfold ceilDiv
      omega
    rw [if_pos h0, hblocks]
    rfl

theorem State.truncate_past_capacity {s : State} {x : Cmd} {q : Pool} {p w : Nat}
    (hp : s.seqPlace x.coll (fieldAt x.bytes 8 4) = some (q, p, w)) (hcap : q.cap < fieldAt x.bytes 12 4) :
    State.truncate x s = s.endCmd x stBadOperand 0 0 := by
  unfold State.truncate
  dsimp only
  rw [hp]
  dsimp only
  rw [if_pos hcap]

/-- Settles O14. -/
theorem truncateCutsTokens : Obligations.TruncateCutsTokens := by
  intro s x q p w sq hr hp hs
  refine ⟨fun hcap => ?_, fun hcap hheld => ?_, fun hcap hheld hcut => ?_⟩
  · rw [exec_truncate hr, State.truncate_past_capacity hp hcap]
    exact ⟨_, rfl, State.endCmd_ended rfl .., by rw [State.endCmd_mem]⟩
  · rw [exec_truncate hr, State.truncate_of_seq hp hs hcap (fun h => by omega), if_pos hheld]
    exact ⟨_, rfl, State.endCmd_ended rfl .., by rw [State.endCmd_mem], by rw [State.endCmd_mem], by rw [State.endCmd_mem]⟩
  · have hd : BlocksDropped s (s.cutAt x q w) := (s.dropRange_spec ..).1
    rw [exec_truncate hr, State.truncate_of_seq hp hs hcap (fun _ => hcut), if_neg (by omega)]
    refine ⟨_, { sq with held := fieldAt x.bytes 12 4 }, rfl, State.endCmd_ended (s := s) (by exact hd.cmds) .., ?_, rfl, ?_, ?_⟩
    · unfold State.seq? at hs ⊢
      rw [State.endCmd_mem]
      dsimp only [State.updMem_mem]
      rw [hd.seqs, find?_updWhere (f := fun y : Seq => { y with held := fieldAt x.bytes 12 4 }) fun _ => rfl, hs]
      rfl
    · rw [State.endCmd_mem]
      exact hd.dram
    · exact State.dropRange_zero (by rw [State.endCmd_mem]; rfl) (by rw [State.endCmd_mem]; rfl)

/-! RELEASE (R59, R148). -/

theorem State.releaseType_runs {s : State} {x : Cmd} {op : Nat} (h : runs s x op) : s.releaseType x.coll x.src = fieldAt x.bytes 8 1 := by
  unfold State.releaseType State.cmdAt
  rw [State.due_cmd? h.1]

theorem exec_releaseSequence {s : State} {x : Cmd} (h : runs s x 3) (ht : fieldAt x.bytes 8 1 = 0) :
    exec (.releaseSequence x.coll x.src) s = .next (State.releaseSeq x s) := by
  change execReleaseSequence x.coll x.src s = _
  unfold execReleaseSequence
  rw [if_pos (by rw [State.releaseType_runs h, ht]), State.runCmd_runs h]

theorem exec_releaseBlockRange {s : State} {x : Cmd} (h : runs s x 3) (ht : fieldAt x.bytes 8 1 = 1) :
    exec (.releaseBlockRange x.coll x.src) s = .next (State.releaseRange x s) := by
  change execReleaseBlockRange x.coll x.src s = _
  unfold execReleaseBlockRange
  rw [if_neg (by rw [State.releaseType_runs h, ht]; decide), State.runCmd_runs h]

theorem State.endPins_mem (s : State) (c a b : Nat) : (s.endPins c a b).mem = { s.mem with lots := (s.endPins c a b).mem.lots } := rfl

/-- The sequences that stay when one is released; its children lose their parent. -/
def seqsWithout (c n : Nat) (l : List Seq) : List Seq :=
  (l.filter fun y => !(y.coll == c && y.num == n)).map fun y =>
    if y.coll == c && y.parent == some n then { y with parent := none } else y

theorem find?_seqsWithout (c n : Nat) (l : List Seq) : (seqsWithout c n l).find? (fun y => y.coll == c && y.num == n) = none := by
  refine List.find?_eq_none.mpr fun y hy h => ?_
  obtain ⟨z, hz, rfl⟩ := List.mem_map.mp hy
  have hz := (List.mem_filter.mp hz).2
  have hsame : (z.coll == c && z.num == n) = true := by
    split at h
    · exact h
    · exact h
  rw [hsame] at hz
  exact absurd hz (by decide)

theorem State.releaseSeq_of_seq {s : State} {x : Cmd} {q : Pool} {p w : Nat} {sq : Seq} (h1 : fieldAt x.bytes 16 8 = 0)
    (h2 : fieldAt x.bytes 24 8 = 0) (hp : s.seqPlace x.coll (fieldAt x.bytes 12 4) = some (q, p, w))
    (hs : s.seq? x.coll (fieldAt x.bytes 12 4) = some sq) :
    State.releaseSeq x s = ((((s.dropRange x.coll (q.window w) (q.window (w + 1))).1.updMem fun m => { m with
      seqs := seqsWithout x.coll (fieldAt x.bytes 12 4) (s.dropRange x.coll (q.window w) (q.window (w + 1))).1.mem.seqs }).endPins x.coll
        (q.window w / 4096) (q.window (w + 1) / 4096)).endCmd x stDone 0 (s.dropRange x.coll (q.window w) (q.window (w + 1))).2) := by
  unfold State.releaseSeq
  dsimp only
  rw [if_neg (by omega), hp]
  dsimp only
  rw [hs]
  rfl

theorem State.releaseRange_within {s : State} {x : Cmd} (h1 : fieldAt x.bytes 8 1 = 1) (h2 : fieldAt x.bytes 12 4 = 0)
    (h3 : (fieldAt x.bytes 16 8 + fieldAt x.bytes 24 8) * 4096 ≤ s.act.size x.coll) :
    State.releaseRange x s =
      ((s.dropRange x.coll (4096 * fieldAt x.bytes 16 8) (4096 * (fieldAt x.bytes 16 8 + fieldAt x.bytes 24 8))).1.endPins x.coll
        (fieldAt x.bytes 16 8) (fieldAt x.bytes 16 8 + fieldAt x.bytes 24 8)).endCmd x stDone 0
          (s.dropRange x.coll (4096 * fieldAt x.bytes 16 8) (4096 * (fieldAt x.bytes 16 8 + fieldAt x.bytes 24 8))).2 := by
  unfold State.releaseRange
  dsimp only
  rw [if_neg (by omega)]

theorem State.releaseRange_past {s : State} {x : Cmd}
    (h3 : s.act.size x.coll < (fieldAt x.bytes 16 8 + fieldAt x.bytes 24 8) * 4096) :
    State.releaseRange x s = s.endCmd x stBadOperand 0 0 := by
  unfold State.releaseRange
  dsimp only
  rw [if_pos (.inr (.inr h3))]

/-- Settles O15. -/
theorem releaseFrees : Obligations.ReleaseFrees := by
  intro s x hr
  refine ⟨fun q p w sq ht h1 h2 hp hs => ?_, fun ht h2 h3 => ?_, fun ht h3 => ?_⟩
  · have hd := (s.dropRange_spec x.coll (q.window w) (q.window (w + 1))).1
    rw [exec_releaseSequence hr ht, State.releaseSeq_of_seq h1 h2 hp hs]
    refine ⟨_, _, rfl, State.endCmd_ended (s := s) (by rw [State.endPins_mem]; exact hd.cmds) .., ?_, ?_, ?_⟩
    · unfold State.seq?
      rw [State.endCmd_mem, State.endPins_mem]
      exact find?_seqsWithout ..
    · rw [State.endCmd_mem, State.endPins_mem]
      exact hd.dram
    · exact State.dropRange_zero (by rw [State.endCmd_mem, State.endPins_mem]; rfl) (by rw [State.endCmd_mem, State.endPins_mem]; rfl)
  · have hd := (s.dropRange_spec x.coll (4096 * fieldAt x.bytes 16 8) (4096 * (fieldAt x.bytes 16 8 + fieldAt x.bytes 24 8))).1
    rw [exec_releaseBlockRange hr ht, State.releaseRange_within ht h2 h3]
    refine ⟨_, _, rfl, State.endCmd_ended (s := s) (by rw [State.endPins_mem]; exact hd.cmds) .., ?_, ?_, ?_⟩
    · rw [State.endCmd_mem, State.endPins_mem]
      exact hd.dram
    · rw [State.endCmd_mem, State.endPins_mem]
      exact hd.seqs
    · exact State.dropRange_zero (by rw [State.endCmd_mem, State.endPins_mem]) (by rw [State.endCmd_mem, State.endPins_mem])
  · rw [exec_releaseBlockRange hr ht, State.releaseRange_past h3]
    exact ⟨_, rfl, State.endCmd_ended rfl .., by rw [State.endCmd_mem]⟩

end Sys2Proof.Machine
end

section
/-! PROOF. FORK: the reservation of its windows and its instant at the last Wing (R152-R156), and the statement about it. -/

namespace Sys2Proof.Machine

open Sys2Proof.Claims

/-! A block with nothing to write back, and entries put one after another. -/

theorem State.writeBackBlock_clean {s : State} {c w b : Nat} (hm : s.blockMerges c w b = [])
    (hl : ∀ l ∈ s.blockLines c w b, l.dirty = false ∧ l.queued = false) : s.writeBackBlock c w b = s := by
  have hbusy : (s.blockLines c w b).any (fun l => l.dirty || l.queued) = false := by
    rw [List.any_eq_false]
    intro l h
    simp [hl l h]
  unfold State.writeBackBlock
  dsimp only
  rw [hm, hbusy]
  rfl

/-- `t` is `s` but for its catalogue and its cached lines. -/
def OnlyEntries (s t : State) : Prop := t = { s with mem := { s.mem with cat := t.mem.cat, cache := t.mem.cache } }

theorem OnlyEntries.refl (s : State) : OnlyEntries s s := rfl

theorem OnlyEntries.putEntry {s t : State} (h : OnlyEntries s t) (e : CatEntry) : OnlyEntries s (t.putEntry e) := by
  unfold OnlyEntries at h ⊢
  rw [h]
  rfl

theorem OnlyEntries.foldl {α : Type} {a s : State} {f : State → α → State} {l : List α} (h : OnlyEntries a s)
    (hf : ∀ t x, OnlyEntries a t → OnlyEntries a (f t x)) : OnlyEntries a (l.foldl f s) := by
  induction l generalizing s with
  | nil => exact h
  | cons x l ih => exact ih (hf s x h)

/-! FORK reserves (R152). -/

theorem exec_fork {s : State} {x : Cmd} (h : runs s x 1) : exec (.fork x.coll x.src) s = .next (State.startFork x s) :=
  congrArg Host.Outcome.next (State.runCmd_runs h _)

theorem State.startFork_reserves {s : State} {x : Cmd} {q : Pool} {p pw w : Nat} {par : Seq}
    (hp : s.seqPlace x.coll (fieldAt x.bytes 8 4) = some (q, p, pw)) (h1 : 1 ≤ fieldAt x.bytes 12 2) (h2 : fieldAt x.bytes 12 2 ≤ 1024)
    (h3 : fieldAt x.bytes 14 4 ≤ q.cap) (hs : s.seq? x.coll (fieldAt x.bytes 8 4) = some par) (hd : par.depth < 16)
    (ht : s.takeWindows x.coll p q (fieldAt x.bytes 12 2) = .ok w) :
    State.startFork x s = (s.updMem fun m => { m with forks := m.forks ++ [⟨x.coll, x.src, fieldAt x.bytes 8 4, p * 65536 + w,
      fieldAt x.bytes 12 2, fieldAt x.bytes 14 4, s.wingsOf x.coll, []⟩] }).putCmd { x with forwarded := true } := by
  unfold State.startFork
  dsimp only
  rw [hp]
  dsimp only
  rw [if_neg (by omega), hs]
  dsimp only
  rw [if_neg (by omega), ht]

/-! The fork instant at the last Wing (R153-R156). -/

section Instant

variable {s : State} {x : Cmd} {f : ForkJob} {w p pw cw : Nat} {q r : Pool} {par : Seq}

/-- The children of a fork. -/
def forkChildren (f : ForkJob) (p cw depth : Nat) : List Seq :=
  (List.range f.count).map fun i => ⟨f.coll, p * 65536 + (cw + i), depth, some f.parent, f.token⟩

/-- The blocks of the parent's prefix that Wing `w` homes: their place in the window, and in the catalogue. -/
def State.prefixKeys (s : State) (f : ForkJob) (q : Pool) (pw w : Nat) : List (Nat × Nat) :=
  ((List.range (f.token * q.rec_ / 4096)).filter fun b => (s.windowBlock f.coll q pw b).1 == w).map fun b =>
    (b, (s.windowBlock f.coll q pw b).2)

theorem State.mem_prefixKeys {k : Nat × Nat} (h : k ∈ s.prefixKeys f q pw w) :
    k.1 < f.token * q.rec_ / 4096 ∧ s.windowBlock f.coll q pw k.1 = (w, k.2) := by
  obtain ⟨b, hb, rfl⟩ := List.mem_map.mp h
  obtain ⟨hlt, hw⟩ := List.mem_filter.mp hb
  exact ⟨List.mem_range.mp hlt, Prod.ext (beq_iff_eq.mp hw) rfl⟩

theorem foldl_fixed {α β : Type} {f : β → α → β} {l : List α} {z : β} (h : ∀ x ∈ l, f z x = z) : l.foldl f z = z := by
  induction l with
  | nil => rfl
  | cons x l ih => rw [List.foldl_cons, h x (List.mem_cons_self ..), ih fun y hy => h y (List.mem_cons_of_mem _ hy)]

/-- Each child names the stored form of every block of the parent's prefix (R153). -/
def State.sharePrefix (s : State) (c w : Nat) (q : Pool) (kids : List Nat) (keys : List (Nat × Nat)) : State :=
  keys.foldl (fun s k =>
    let e := s.entry c w k.2
    kids.foldl (fun s kid =>
      let kb := (s.windowBlock c q kid k.1).2
      if e.tier == .lost then s.putEntry (.asLost c w kb) else if e.stored then s.putEntry { e with blk := kb } else s) s) s

theorem State.sharePrefix_onlyEntries (s : State) (c w : Nat) (q : Pool) (kids : List Nat) (keys : List (Nat × Nat)) :
    OnlyEntries s (s.sharePrefix c w q kids keys) := by
  unfold State.sharePrefix
  refine (OnlyEntries.refl s).foldl fun t k ht => ht.foldl fun u kid hu => ?_
  dsimp only
  split
  · exact hu.putEntry _
  · split
    · exact hu.putEntry _
    · exact hu

theorem State.forkOn_last (hl : f.wingsLeft = [w]) (hpar : s.seqPlace f.coll f.parent = some (q, p, pw))
    (hfirst : s.seqPlace f.coll f.first = some (r, p, cw)) (hs : s.seq? f.coll f.parent = some par) (hp : f.first / 65536 = p)
    (hw : s.wingUp w = true) (hcut : f.token * q.rec_ % 4096 = 0)
    (hready : ∀ b k, b < f.token * q.rec_ / 4096 → s.windowBlock f.coll q pw b = (w, k) → s.stuck (s.entry f.coll w k) = false ∧
      s.blockMerges f.coll w k = [] ∧ ∀ l ∈ s.blockLines f.coll w k, l.dirty = false ∧ l.queued = false) :
    ∃ t, OnlyEntries s t ∧ s.forkOn x f w = ((t.updMem fun m =>
      { m with forks := m.forks.filter (· != f), seqs := m.seqs ++ forkChildren f p cw (par.depth + 1) }).settle f.coll).endCmd x stDone 0
        f.first := by
  have hkeys : ∀ k ∈ s.prefixKeys f q pw w, s.stuck (s.entry f.coll w k.2) = false ∧ s.writeBackBlock f.coll w k.2 = s := fun k hk =>
    have ⟨hlt, hwb⟩ := State.mem_prefixKeys hk
    have ⟨hstuck, hm, hl⟩ := hready k.1 k.2 hlt hwb
    ⟨hstuck, State.writeBackBlock_clean hm hl⟩
  have hall : (s.prefixKeys f q pw w).all (fun k => !s.stuck (s.entry f.coll w k.2)) = true :=
    List.all_eq_true.mpr fun k hk => by rw [(hkeys k hk).1]; rfl
  have hback : (s.prefixKeys f q pw w).foldl (fun s k => s.writeBackBlock f.coll w k.2) s = s := foldl_fixed fun k hk => (hkeys k hk).2
  have hlast : f.wingsLeft.filter (· != w) = [] := by simp [hl]
  refine ⟨_, s.sharePrefix_onlyEntries f.coll w q ((List.range f.count).map (cw + ·)) ((s.prefixKeys f q pw w).filter fun k =>
    decide (k.1 < f.token * q.rec_ / 4096)), ?_⟩
  unfold State.forkOn
  dsimp only
  rw [hpar, hfirst]
  dsimp only
  rw [hcut, show List.range (f.token * q.rec_ / 4096 + bit1 (0 != 0)) = List.range (f.token * q.rec_ / 4096) from rfl]
  rw [show List.map (fun b => (b, (s.windowBlock f.coll q pw b).2)) (List.filter (fun b => (s.windowBlock f.coll q pw b).1 == w)
    (List.range (f.token * q.rec_ / 4096))) = s.prefixKeys f q pw w from rfl]
  rw [hall, hw, if_neg (by decide), hback, if_pos (by rfl)]
  dsimp only
  rw [hlast, if_pos (by rfl), hs, hp]
  dsimp only
  rw [List.map_map]
  rfl

end Instant

theorem exec_forkInstant {s : State} {x : Cmd} {f : ForkJob} {w : Nat} (hu : s.underWay x.coll x.src 1 = some x)
    (hf : s.mem.forks.find? (fun f => f.coll == x.coll && f.src == x.src && f.wingsLeft.contains w) = some f) :
    exec (.forkInstant x.coll x.src w) s = .next (s.forkOn x f w) := by
  change execForkInstant x.coll x.src w s = _
  unfold execForkInstant
  rw [hu, hf]

/-- Settles O13. -/
theorem forkMakesChildren : Obligations.ForkMakesChildren := by
  intro s x
  refine ⟨fun q p pw par w hr hp h1 h2 h3 hs hd ht => ?_, fun f w q p pw r cw par hu hf hl hpar hfirst hs hp hw hcut hready => ?_⟩
  · rw [exec_fork hr, State.startFork_reserves hp h1 h2 h3 hs hd ht]
    exact ⟨_, _, rfl, rfl, rfl, rfl, rfl, rfl, rfl, rfl, rfl, rfl, State.cmd?_putCmd _ { x with forwarded := true }⟩
  · obtain ⟨t, ht, hfork⟩ := State.forkOn_last (x := x) hl hpar hfirst hs hp hw hcut hready
    rw [exec_forkInstant hu hf, hfork]
    have hset := State.settle_drops (t.updMem fun m =>
      { m with forks := m.forks.filter (· != f), seqs := m.seqs ++ forkChildren f p cw (par.depth + 1) }) f.coll
    refine ⟨_, rfl, State.endCmd_ended (s := s) ?_ .., ?_, ?_, ?_⟩
    · rw [hset.cmds, ht]
      rfl
    · rw [State.endCmd_mem, hset.forks]
      intro g hg
      simpa using (List.mem_filter.mp hg).2
    · rw [State.endCmd_mem, hset.dram, ht]
      rfl
    · rw [State.endCmd_mem, hset.seqs, ht]
      rfl

end Sys2Proof.Machine
end

section
/-! PROOF. Refutations of the statements about the split-write window and the retraining of a Corridor link: states that the
statements do not exclude, over unsorted memory and with a port listed twice. -/

namespace Sys2Proof.Machine

open Sys2Proof.Claims

/-! WRITE_DATA over memory that is not listed in rising order (R239). -/

/-- What the statement says of the line that WRITE_DATA stores. -/
theorem writeData_of_claim {s : State} {w sel a : Nat} {x : Split} (h : SplitWrite) (ho : s.splitOpen w = true)
    (hx : s.split.find? (·.wing == w) = some x) (hd : s.splitDest x = .chan sel a) (ha : a % 64 = 0) (hb : a < 2 ^ 40)
    (hl : x.data.length = 64) : (ran (.writeData w) s).rawLine w sel a = (x.data, lineCheck (isDepot sel) x.data) := by
  obtain ⟨-, ⟨t, ht, hraw, -⟩, -⟩ := h s w sel a x ho hx hd ha hb hl
  rw [← ran_of_exec ht]
  exact hraw

/-- Wing 0's window, all zero, open under a diagnostic edition and the Host port's key, over memory that lists bytes 1 and 0 in this
order. -/
def servingSplit : State :=
  { serving with
    ed := { serving.ed with holder := .host, lease := 20000000000
                            active := { serving.ed.active with vals := serving.ed.active.vals ++ [(⟨0x7003, 2, 0, [1]⟩ : EdVal)] } }
    mem := { serving.mem with dram := [(1, 1), (0, 1)] } }

/-- Refutes O21: over memory that is not listed in rising order the zeros that WRITE_DATA stores do not take out a listed byte. -/
theorem not_splitWriteWindow : ¬ Obligations.SplitWriteWindow := fun h =>
  absurd (writeData_of_claim (s := servingSplit) (w := 0) (sel := 0) (a := 0) (x := Split.reset 0) h.1 (by decide +kernel)
    (by decide +kernel) (by decide +kernel) (by decide +kernel) (by decide +kernel) (by decide +kernel)) (by decide +kernel)

/-! A failed retrain at a Corridor port that is listed twice (R280). -/

/-- What the statement says of a retrain that fails again. -/
theorem retrainFails_of_claim {s : State} {die i : Nat} {p : CPort} (h : LinkRetrains) (hp : s.cport? die i = some p) (hst : p.st = 3)
    (hpll : s.pllHolds die i = false) (hf : p.retrainFails < 2) :
    (ran (.retrainDone die i false) s).cor = (s.updCport die i fun q => { q with retrainFails := p.retrainFails + 1 }).cor := by
  obtain ⟨-, -, hfail, -⟩ := h s die i p hp
  rw [← ran_of_exec (hfail hst hpll hf)]

/-- A port that retrains, after so many failures. -/
def retrainingPort (n : Nat) : CPort := { CPort.reset 0 0 with st := 3, retrainFails := n }

/-- Port 0 of die 0, listed twice, with no failure and with one. -/
def portTwice : State := { serving with cor := [retrainingPort 0, retrainingPort 1] }

/-- Refutes O26: where a port is listed twice each count goes up by 1, and they need not be the same count. -/
theorem not_corridorLinks : ¬ Obligations.CorridorLinks := fun h =>
  absurd (retrainFails_of_claim (s := portTwice) (die := 0) (i := 0) (p := retrainingPort 0) h.2.1 (by decide +kernel) (by decide +kernel)
    (by decide +kernel) (by decide +kernel)) (by decide +kernel)

end Sys2Proof.Machine
end

section
/-! PROOF. The mailbox of a function: its queries, the event logs, dynamic capacity, Scan Media and the HDM decoders. -/

namespace Sys2Proof.Machine

open Sys2Proof.Claims

/-! What a mailbox command leaves (R295, R302). -/

theorem State.mail_open {s : State} {p : Nat} {f : State → State × Nat × Bytes} (h : s.mailOpen p = true) :
    s.mail p f = (f s).1.mailDone p (f s).2.1 (f s).2.2 := if_pos h

theorem State.mailDone_mem (s : State) (p c : Nat) (b : Bytes) : (s.mailDone p c b).mem = s.mem := by simp [State.mailDone]

theorem State.mailDone_chans (s : State) (p c : Nat) (b : Bytes) : (s.mailDone p c b).chans = s.chans := by simp [State.mailDone]

theorem State.updFn_fn? {s : State} {p : Nat} {f : Fn} {g : Fn → Fn} (h : s.fn? p = some f) (hg : ∀ x, (g x).port = x.port) :
    (s.updFn p g).fn? p = some (g f) := by
  rw [State.fn?_updFn hg, h]
  rfl

/-- A signal changes of a function the bits it holds, and nothing else. -/
theorem State.signal_fn? {s : State} {p b v : Nat} {f : Fn} (h : s.fn? p = some f) :
    ∃ g, (s.signal p b v).fn? p = some g ∧ g = { f with intStat := g.intStat, pba := g.pba, msiPending := g.msiPending } := by
  have h1 : (s.updFn p fun f => { f with intStat := putBit f.intStat b true }).fn? p = some { f with intStat := putBit f.intStat b true } :=
    State.updFn_fn? h fun _ => rfl
  unfold State.signal
  rw [h]
  dsimp only
  repeat' split
  any_goals exact ⟨_, h1, rfl⟩
  all_goals exact ⟨_, State.updFn_fn? h1 fun _ => rfl, rfl⟩

theorem State.signal_out {s : State} {p b v : Nat} {m : Msg} (h : m ∈ s.out) : m ∈ (s.signal p b v).out := by
  unfold State.signal
  dsimp only
  repeat' split
  all_goals simp [h]

theorem State.mailDone_fn? {s : State} {p c : Nat} {b : Bytes} {f : Fn} (h : s.fn? p = some f) :
    ∃ g, (s.mailDone p c b).fn? p = some g ∧ g = { f with intStat := g.intStat, pba := g.pba, msiPending := g.msiPending } :=
  State.signal_fn? (s := s.send _) h

/-- A field of two bytes at the front of a payload. -/
theorem fieldAt_leBytes (v : Nat) (b : Bytes) : fieldAt (leBytes 2 v ++ b) 0 2 = v % 65536 := by
  simp [fieldAt, slice, leBytes, leNat, byteOf, zeros]
  omega

/-- One step of a mailbox query that answers from the state. -/
theorem mailed_of_query {s : State} {p c : Nat} {b : Bytes} {f : State → State × Nat × Bytes} (h : s.mailOpen p = true) (hf : f s = (s, c, b)) :
    ∃ t, (.next (s.mail p f) : Res) = .next t ∧ mailed s t p c b :=
  ⟨_, rfl, by rw [State.mail_open h, hf]; rfl⟩

theorem mailboxQueries : MailboxQueries := by
  intro s p opcode h
  refine ⟨mailed_of_query h rfl, mailed_of_query h rfl, ?_, mailed_of_query h rfl, mailed_of_query h rfl, ?_, mailed_of_query h rfl,
    mailed_of_query h rfl, mailed_of_query h rfl, mailed_of_query h rfl, fun f hf => ⟨fun hb => mailed_of_query h ?_, fun hb => ?_⟩⟩
  · refine ⟨_, _, rfl, State.mail_open h, ?_⟩
    simp only [List.append_assoc]
    rw [fieldAt_leBytes]
  · refine ⟨_, _, rfl, State.mail_open h, ?_⟩
    simp only [List.append_assoc]
    have hbit : byteOf (bit1 (s.dies.any fun d => d.present && 4 ≤ d.code && !d.inService)) = 1 ↔
        (s.dies.any fun d => d.present && 4 ≤ d.code && !d.inService) = true := by
      cases s.dies.any fun d => d.present && 4 ≤ d.code && !d.inService <;> decide
    refine hbit.trans ?_
    simp [and_assoc]
  · rw [hf]
    exact if_pos hb
  · by_cases h1 : f.background = 1
    · refine ⟨_, _, rfl, ?_, fieldAt_leBytes 0x4304 (leBytes 6 (Config.freeNat s.draw.1 % 100)), ?_⟩
      · rw [State.mail_open h, hf]
        simp only [if_neg hb, if_pos h1]
        exact State.signal_out (by simp [mbOk])
      · rw [State.mail_open h, hf]
        simp only [if_neg hb, if_pos h1]
        exact State.mailDone_mem _ _ _ _
    · refine ⟨_, _, rfl, ?_, fieldAt_leBytes 0x4304 (leBytes 6 100), ?_⟩
      · rw [State.mail_open h, hf]
        simp only [if_neg hb, if_neg h1]
        exact State.signal_out (by simp [mbOk])
      · rw [State.mail_open h, hf]
        simp only [if_neg hb, if_neg h1]
        exact State.mailDone_mem _ _ _ _

/-! The Dynamic Capacity event log (R296, R297). -/

theorem State.enterDc_mem (s : State) (v : DcEvent) : (s.enterDc v).mem =
    { s.mem with
      dcLog := s.mem.dcLog ++ [v], dcWait := s.mem.dcWait.filter (fun y => y != v),
      extents := updWhere (·.handle == v.ext) (fun x =>
        if v.add then { x with st := .offered } else { x with st := .releasing, deadline := s.tsc + x.deadline * ms }) s.mem.extents } := by
  unfold State.enterDc
  dsimp only
  repeat' split
  all_goals simp

/-- What every event that enters the log keeps, entering all that may enter keeps. -/
theorem State.tryPort_maintains {P : MemState → Prop} {s : State} {p : Nat} (h : P s.mem)
    (hs : ∀ (t : State) v, v ∈ t.mem.dcWait → P t.mem → P (t.enterDc v).mem) : P (s.tryPort p).mem := by
  unfold State.tryPort
  generalize s.mem.dcWait.length = n
  induction n generalizing s with
  | zero => exact h
  | succ n ih =>
    unfold State.tryPortAux
    split
    case h_1 v hv => exact ih (hs s v (List.mem_of_find?_eq_some hv) h)
    case h_2 => exact h

theorem State.tryPort_dram (s : State) (p : Nat) : (s.tryPort p).mem.dram = s.mem.dram :=
  State.tryPort_maintains (P := fun m => m.dram = s.mem.dram) rfl fun t v _ h => by rw [State.enterDc_mem, h]

theorem State.tryPort_log {s : State} {p : Nat} {v : DcEvent} (h : v ∈ (s.tryPort p).mem.dcLog) : v ∈ s.mem.dcWait ∨ v ∈ s.mem.dcLog := by
  have hk : (∀ v ∈ (s.tryPort p).mem.dcWait, v ∈ s.mem.dcWait) ∧ ∀ v ∈ (s.tryPort p).mem.dcLog, v ∈ s.mem.dcWait ∨ v ∈ s.mem.dcLog := by
    refine State.tryPort_maintains (P := fun m => (∀ v ∈ m.dcWait, v ∈ s.mem.dcWait) ∧ ∀ v ∈ m.dcLog, v ∈ s.mem.dcWait ∨ v ∈ s.mem.dcLog)
      ⟨fun _ h => h, fun _ h => .inr h⟩ fun t v hv ⟨hw, hl⟩ => ?_
    rw [State.enterDc_mem]
    refine ⟨fun x hx => hw x (List.mem_filter.1 hx).1, fun x hx => ?_⟩
    rcases List.mem_append.1 hx with hx | hx
    · exact hl x hx
    · rw [List.mem_singleton.1 hx]
      exact .inl (hw v hv)
  exact hk.2 v h

/-- An event that enters the log makes no extent accepted, and keeps every handle. -/
theorem State.tryPort_extents {s : State} {p h : Nat} :
    ((∀ y ∈ s.mem.extents, y.handle ≠ h) → ∀ y ∈ (s.tryPort p).mem.extents, y.handle ≠ h) ∧
    ((∀ y ∈ s.mem.extents, y.handle = h → y.st ≠ .accepted) → ∀ y ∈ (s.tryPort p).mem.extents, y.handle = h → y.st ≠ .accepted) ∧
    ((∃ y ∈ s.mem.extents, y.handle = h) → ∃ y ∈ (s.tryPort p).mem.extents, y.handle = h) := by
  refine ⟨fun hs => ?_, fun hs => ?_, fun hs => ?_⟩
  · refine State.tryPort_maintains (P := fun m => ∀ y ∈ m.extents, y.handle ≠ h) hs fun t v _ ht => ?_
    rw [State.enterDc_mem]
    intro y hy
    obtain ⟨z, hz, rfl⟩ := List.mem_map.1 hy
    have := ht z hz
    repeat' split
    all_goals exact this
  · refine State.tryPort_maintains (P := fun m => ∀ y ∈ m.extents, y.handle = h → y.st ≠ .accepted) hs fun t v _ ht => ?_
    rw [State.enterDc_mem]
    intro y hy
    obtain ⟨z, hz, rfl⟩ := List.mem_map.1 hy
    have := ht z hz
    repeat' split
    · exact fun _ => nofun
    · exact fun _ => nofun
    · exact this
  · refine State.tryPort_maintains (P := fun m => ∃ y ∈ m.extents, y.handle = h) hs fun t v _ ht => ?_
    rw [State.enterDc_mem]
    obtain ⟨z, hz, hzh⟩ := ht
    refine ⟨_, List.mem_map_of_mem hz, ?_⟩
    repeat' split
    all_goals exact hzh

theorem eventLogs : EventLogs := by
  intro s p log f h hf
  refine ⟨fun hl => mailed_of_query h ?_, ?_, fun hs hall => ?_, ?_, fun l hlen hall => ?_⟩
  · rw [if_neg (by omega), if_pos hl]
    rfl
  · exact ⟨_, _, rfl, State.mail_open h, rfl⟩
  · refine ⟨_, rfl, ?_⟩
    rw [State.mail_open h]
    simp only [hall]
    simp only [State.mailDone_mem]
    refine ⟨State.tryPort_dram _ _, fun v hv => ?_⟩
    refine (State.tryPort_log hv).imp id fun hv => ?_
    simpa [imp_iff_not_or] using hv
  · refine mailed_of_query h ?_
    rw [hf]
    rfl
  · obtain ⟨g, hg, hgf⟩ := State.mailDone_fn? (c := mbOk) (b := []) (State.updFn_fn? (g := fun f => { f with policy := l }) hf fun _ => rfl)
    refine ⟨_, g, rfl, ?_⟩
    rw [State.mail_open h, if_pos ⟨hlen, hall⟩]
    exact ⟨hg, by rw [hgf], State.mailDone_mem _ _ _ _⟩

/-- Settles O29: each query answers from the state, and the log changes by what is cleared and what waited. -/
theorem mailboxAnswers : Obligations.MailboxAnswers := ⟨mailboxQueries, eventLogs⟩

/-! Dynamic capacity (R42-R45). -/

theorem leBytes_length (n v : Nat) : (leBytes n v).length = n := by
  induction n generalizing v with
  | zero => rfl
  | succ n ih => simp [leBytes, ih]

/-- The configuration lists 8 regions of 24 bytes. -/
theorem regions_length (s : State) (p : Nat) : (([8] : Bytes) ++ (List.range 8).flatMap fun r =>
    leBytes 8 (s.act.regionBase p r) ++ leBytes 8 (s.act.regionSize p r) ++ leBytes 8 65536).length = 1 + 8 * 24 := by
  simp [List.length_flatMap, leBytes_length]

theorem dynamicCapacity : DynamicCapacity := by
  intro s p x hp hx
  refine ⟨fun h => ?_, fun h => ?_, fun h hn => ?_, fun h hn => ?_, fun h hf hd => ?_⟩
  · exact ⟨_, _, rfl, State.mail_open h, rfl, regions_length s p⟩
  · exact ⟨_, _, rfl, State.mail_open h, List.take_left' (leBytes_length 4 _)⟩
  · refine ⟨_, rfl, ?_⟩
    rw [State.mail_open h, hn]
    simp only [State.mailDone_mem]
    refine ⟨rfl, fun y hy hyx => ?_⟩
    obtain ⟨z, hz, rfl⟩ := List.mem_map.1 hy
    by_cases hz : z.handle = x.handle
    · simp [hz, Extent.mapped]
    · simp [hz] at hyx
  · refine ⟨_, rfl, ?_⟩
    rw [State.mail_open h, hn]
    simp only [State.mailDone_mem, List.foldl]
    split
    case isTrue hst =>
      have hst : x.st = .accepted := by simpa using hst
      refine ⟨State.tryPort_dram _ _, fun hne => absurd hst hne, fun _ => ⟨State.tryPort_extents.2.2 ?_, State.tryPort_extents.2.1 ?_⟩⟩
      · exact ⟨_, List.mem_map_of_mem hx, by simp⟩
      · intro y hy
        obtain ⟨z, hz, rfl⟩ := List.mem_map.1 hy
        by_cases hz : z.handle = x.handle <;> simp [hz]
    case isFalse hst =>
      have hst : x.st ≠ .accepted := by simpa using hst
      exact ⟨State.tryPort_dram _ _, fun _ => State.tryPort_extents.1 fun y hy => by simpa using (List.mem_filter.1 hy).2,
        fun ha => absurd ha hst⟩
  · refine ⟨_, rfl, ?_⟩
    rw [hf]
    simp only [h, hd, decide_true, Bool.and_self, if_true]
    refine ⟨(State.tryPort_dram _ _).trans (by simp [State.removeExtent]), State.tryPort_extents.1 fun y hy => ?_⟩
    simpa using (List.mem_filter.1 hy).2

/-! Scan Media (R298). -/

theorem State.startRole_frame (s : State) (d : Nat) : s.startRole d = { s with doc := (s.startRole d).doc } := by
  unfold State.startRole
  dsimp only
  split <;> rfl

/-- A role that restarts changes its docent and the walks of its channels, which restart at line 0. -/
theorem State.restartRole_spec {s : State} {d : Nat} (h : ∀ c ∈ s.chans, c.walk = 0) :
    (s.restartRole d).mem = s.mem ∧ (s.restartRole d).fn = s.fn ∧ ∀ c ∈ (s.restartRole d).chans, c.walk = 0 := by
  unfold State.restartRole
  rw [State.startRole_frame]
  refine ⟨rfl, rfl, fun c hc => ?_⟩
  obtain ⟨z, hz, rfl⟩ := List.mem_map.1 hc
  split
  · rfl
  · exact h z hz

theorem State.restartRoles_spec (ds : List Nat) {s : State} (h : ∀ c ∈ s.chans, c.walk = 0) :
    (ds.foldl State.restartRole s).mem = s.mem ∧ (ds.foldl State.restartRole s).fn = s.fn ∧
      ∀ c ∈ (ds.foldl State.restartRole s).chans, c.walk = 0 := by
  induction ds generalizing s with
  | nil => exact ⟨rfl, rfl, h⟩
  | cons d ds ih =>
    obtain ⟨hm, hf, hw⟩ := State.restartRole_spec (d := d) h
    obtain ⟨km, kf, kw⟩ := ih hw
    exact ⟨km.trans hm, kf.trans hf, kw⟩

theorem State.restartWalks_spec (s : State) : s.restartWalks.mem = s.mem ∧ s.restartWalks.fn = s.fn ∧ ∀ c ∈ s.restartWalks.chans, c.walk = 0 :=
  State.restartRoles_spec _ (s := { s with chans := s.chans.map fun c => { c with walk := 0 } }) (by simp)

theorem State.mailOpen_fn? {s : State} {p : Nat} (h : s.mailOpen p = true) : ∃ f, s.fn? p = some f := by
  unfold State.mailOpen at h
  split at h
  case h_1 f hf => exact ⟨f, hf⟩
  case h_2 => cases h

theorem scanMedia : ScanMedia := by
  intro s p start len h
  refine ⟨fun hp => mailed_of_query h ?_, fun hp hr => mailed_of_query h ?_, fun hp hb => mailed_of_query h ?_, fun hp hb => ?_, _, rfl, rfl, ?_⟩
  · rw [if_pos (by simpa using hp)]
    rfl
  · rw [if_neg (by simpa using hp), if_pos (by simpa using hr)]
    rfl
  · rw [if_neg (by simpa using hp), if_neg (by simp), if_pos hb]
    rfl
  · obtain ⟨f, hf⟩ := State.mailOpen_fn? h
    obtain ⟨hm, hfn, hw⟩ := s.restartWalks_spec
    have hf' : s.restartWalks.fn? p = some f := by
      unfold State.fn?
      rw [hfn]
      exact hf
    obtain ⟨g, hg, hgf⟩ := State.mailDone_fn? (c := mbBackground) (b := [])
      (State.updFn_fn? (g := fun f => { f with scanning := true, background := 1 }) hf' fun _ => rfl)
    refine ⟨_, g, rfl, ?_⟩
    rw [State.mail_open h, if_neg (by simpa using hp), if_neg (by simp), if_neg (by simpa using hb)]
    refine ⟨hg, by rw [hgf], by rw [hgf], ?_, ?_⟩
    · rw [State.mailDone_chans]
      exact hw
    · rw [State.mailDone_mem]
      exact hm
  · intro f hf
    obtain ⟨g, -, rfl⟩ := List.mem_map.1 hf
    cases hg : g.scanning <;> simp [hg]

/-! The HDM decoders (R42). -/

/-- A decoder as a commit leaves it. -/
def Decoder.commit (base size : Nat) (ok : Bool) (d : Decoder) : Decoder :=
  { d with base := base, size := size, committed := ok, error := !ok }

theorem decoderCommit : DecoderCommit := by
  intro s p r base size ways f hs hf hr hn h8
  have hx : execHdmDecoderCommit p r base size ways s = .next ((s.updFn p fun f =>
      { f with decoders := updWhere (·.r == r) (Decoder.commit base size (ways == 1)) f.decoders }).send (.hdm p r (ways == 1))) := by
    unfold execHdmDecoderCommit
    rw [hf]
    simp only [hs, hr, hn, Nat.not_le.2 h8, Bool.not_true, Bool.or_self, decide_false, if_false, Bool.false_eq_true]
    rfl
  refine ⟨_, _, hx, State.updFn_fn? (s := s) hf fun _ => rfl, rfl, rfl, fun d hd hdr => ?_, ?_⟩
  · obtain ⟨z, hz, rfl⟩ := List.mem_map.1 hd
    cases hzr : z.r == r <;> simp_all [bne, Decoder.commit]
  · dsimp only
    unfold updWhere
    induction f.decoders with
    | nil => rfl
    | cons d l ih => cases hd : d.r == r <;> simp_all [bne, Decoder.commit]

/-- Settles O30: the extents change by the handle a command names, the walks restart, and a decoder takes its range at 1-way. -/
theorem dynamicCapacityAndDecoders : Obligations.DynamicCapacityAndDecoders := ⟨dynamicCapacity, scanMedia, decoderCommit⟩

end Sys2Proof.Machine
end

section
/-! PROOF. What the operations of one function of a link port leave unchanged, and the registers of its interrupts, event queues and
load window. -/

namespace Sys2Proof.Machine

open Sys2Proof.Claims

/-! Only one function and the messages sent differ. -/

/-- From `a` to `s` only the function of port `p` and the messages sent differ. -/
structure OnlyPort (p : Nat) (a s : State) : Prop where
  eq : s = { a with fn := s.fn, out := s.out }
  ne : ∀ q, q ≠ p → s.fn? q = a.fn? q

theorem OnlyPort.refl (p : Nat) (s : State) : OnlyPort p s s := ⟨rfl, fun _ _ => rfl⟩

theorem OnlyPort.onlyFn {p : Nat} {a s : State} (h : OnlyPort p a s) : onlyFn a s p := ⟨h.eq, h.ne⟩

theorem OnlyPort.trans {a s t : State} {p : Nat} (h : OnlyPort p a s) (k : OnlyPort p s t) : OnlyPort p a t :=
  ⟨by rw [k.eq, h.eq], fun q hq => (k.ne q hq).trans (h.ne q hq)⟩

theorem OnlyPort.foldl {α : Type} {f : State → α → State} {p : Nat} {l : List α} {a s : State} (h : OnlyPort p a s)
    (hf : ∀ t x, OnlyPort p a t → OnlyPort p a (f t x)) : OnlyPort p a (l.foldl f s) := by
  induction l generalizing s with
  | nil => exact h
  | cons x l ih => exact ih (hf s x h)

section
variable {a s : State} {p : Nat}

theorem State.updFn_onlyPort {g : Fn → Fn} (h : OnlyPort p a s) (hg : ∀ x, (g x).port = x.port) : OnlyPort p a (s.updFn p g) :=
  h.trans ⟨rfl, fun _ hq => State.fn?_updFn_ne hg hq⟩

theorem State.send_onlyPort {m : Msg} (h : OnlyPort p a s) : OnlyPort p a (s.send m) := h.trans ⟨rfl, fun _ _ => rfl⟩

theorem State.updEngine_onlyPort {i : Nat} {g : Engine → Engine} (h : OnlyPort p a s) : OnlyPort p a (s.updEngine p i g) :=
  State.updFn_onlyPort h fun _ => rfl

theorem State.signal_onlyPort {b v : Nat} (h : OnlyPort p a s) : OnlyPort p a (s.signal p b v) := by
  have h1 : OnlyPort p a (s.updFn p fun f => { f with intStat := putBit f.intStat b true }) := State.updFn_onlyPort h fun _ => rfl
  unfold State.signal
  split
  · exact h
  · dsimp only
    repeat' split
    any_goals exact h1
    any_goals exact State.send_onlyPort h1
    all_goals exact State.updFn_onlyPort h1 fun _ => rfl

theorem State.pushRecord_onlyPort {q : Nat} {r : Rec} (h : OnlyPort p a s) : OnlyPort p a (s.pushRecord p q r) := by
  unfold State.pushRecord
  split
  · exact h
  · exact State.updFn_onlyPort (State.send_onlyPort h) fun _ => rfl

theorem State.endBatch_onlyPort {q : Nat} (h : OnlyPort p a s) : OnlyPort p a (s.endBatch p q) := by
  unfold State.endBatch
  split
  · exact h
  · dsimp only
    repeat' split
    · exact State.signal_onlyPort (State.updFn_onlyPort h fun _ => rfl)
    · exact State.signal_onlyPort (State.updFn_onlyPort (State.send_onlyPort h) fun _ => rfl)
    · exact State.updFn_onlyPort h fun _ => rfl
    · exact State.updFn_onlyPort (State.send_onlyPort h) fun _ => rfl
    · exact State.signal_onlyPort (State.updFn_onlyPort h fun _ => rfl)
    · exact State.signal_onlyPort (State.updFn_onlyPort (State.send_onlyPort h) fun _ => rfl)
    · exact State.updFn_onlyPort h fun _ => rfl
    · exact State.updFn_onlyPort (State.send_onlyPort h) fun _ => rfl

theorem State.recheck_onlyPort {q : Nat} (h : OnlyPort p a s) : OnlyPort p a (s.recheck p q) := by
  unfold State.recheck
  split
  · exact h
  · dsimp only
    split
    · exact State.endBatch_onlyPort (State.pushRecord_onlyPort (State.updFn_onlyPort h fun _ => rfl))
    · exact h

theorem State.sendPending_onlyPort {v : Nat} (h : OnlyPort p a s) : OnlyPort p a (s.sendPending p v) := by
  unfold State.sendPending
  split
  · split
    · exact State.send_onlyPort (State.updFn_onlyPort h fun _ => rfl)
    · exact h
  · exact h

end

/-! What a record changes of a function (R303, R306, R320). -/

/-- A function after records: its queues and the bits that signal them may differ. -/
def Fn.recorded (f g : Fn) : Prop :=
  g = { f with intStat := g.intStat, pba := g.pba, msiPending := g.msiPending, queues := g.queues, pmeStatus := g.pmeStatus }

theorem Fn.recorded.trans {f g h : Fn} (hfg : f.recorded g) (hgh : g.recorded h) : f.recorded h := by
  unfold Fn.recorded at *
  rw [hgh, hfg]

/-- The functions differ by records alone, and no message sent is taken back. -/
structure RecordsMade (a s : State) : Prop where
  fns : ∀ q f, a.fn? q = some f → ∃ g, s.fn? q = some g ∧ f.recorded g
  out : a.out ⊆ s.out

theorem RecordsMade.refl (s : State) : RecordsMade s s := ⟨fun _ f h => ⟨f, h, rfl⟩, List.Subset.refl _⟩

theorem RecordsMade.trans {s t u : State} (h : RecordsMade s t) (k : RecordsMade t u) : RecordsMade s u where
  fns q f hf := by
    obtain ⟨g, hg, hfg⟩ := h.fns q f hf
    obtain ⟨x, hx, hgx⟩ := k.fns q g hg
    exact ⟨x, hx, hfg.trans hgx⟩
  out := List.Subset.trans h.out k.out

theorem RecordsMade.foldl {α : Type} {f : State → α → State} {l : List α} {a s : State} (h : RecordsMade a s)
    (hf : ∀ t x, RecordsMade a t → RecordsMade a (f t x)) : RecordsMade a (l.foldl f s) := by
  induction l generalizing s with
  | nil => exact h
  | cons x l ih => exact ih (hf s x h)

section
variable {a s : State}

theorem RecordsMade.of_fn {t : State} (h : RecordsMade a s) (ht : t.fn = s.fn) (ho : s.out ⊆ t.out) : RecordsMade a t where
  fns := by
    unfold State.fn?
    rw [ht]
    exact h.fns
  out := List.Subset.trans h.out ho

theorem State.send_recordsMade {m : Msg} (h : RecordsMade a s) : RecordsMade a (s.send m) := h.of_fn rfl (List.subset_append_left _ _)

theorem State.updFn_recordsMade {p : Nat} {g : Fn → Fn} (h : RecordsMade a s) (hg : ∀ x, (x : Fn).recorded (g x)) :
    RecordsMade a (s.updFn p g) := by
  refine h.trans ⟨fun q f hf => ?_, List.Subset.refl _⟩
  have hp (x : Fn) : (g x).port = x.port := by rw [hg x]
  by_cases hq : q = p
  · subst hq
    exact ⟨g f, State.updFn_fn? hf hp, hg f⟩
  · exact ⟨f, (State.fn?_updFn_ne hp hq).trans hf, rfl⟩

theorem State.signal_recordsMade {p b v : Nat} (h : RecordsMade a s) : RecordsMade a (s.signal p b v) := by
  have h1 : RecordsMade a (s.updFn p fun f => { f with intStat := putBit f.intStat b true }) := State.updFn_recordsMade h fun _ => rfl
  unfold State.signal
  split
  · exact h
  · dsimp only
    repeat' split
    any_goals exact h1
    any_goals exact State.send_recordsMade h1
    all_goals exact State.updFn_recordsMade h1 fun _ => rfl

theorem State.pushRecord_recordsMade {p q : Nat} {r : Rec} (h : RecordsMade a s) : RecordsMade a (s.pushRecord p q r) := by
  unfold State.pushRecord
  split
  · exact h
  · exact State.updFn_recordsMade (State.send_recordsMade h) fun _ => rfl

theorem State.endBatch_recordsMade {p q : Nat} (h : RecordsMade a s) : RecordsMade a (s.endBatch p q) := by
  unfold State.endBatch
  split
  · exact h
  · dsimp only
    repeat' split
    · exact State.signal_recordsMade (State.updFn_recordsMade h fun _ => rfl)
    · exact State.signal_recordsMade (State.updFn_recordsMade (State.send_recordsMade h) fun _ => rfl)
    · exact State.updFn_recordsMade h fun _ => rfl
    · exact State.updFn_recordsMade (State.send_recordsMade h) fun _ => rfl
    · exact State.signal_recordsMade (State.updFn_recordsMade h fun _ => rfl)
    · exact State.signal_recordsMade (State.updFn_recordsMade (State.send_recordsMade h) fun _ => rfl)
    · exact State.updFn_recordsMade h fun _ => rfl
    · exact State.updFn_recordsMade (State.send_recordsMade h) fun _ => rfl

theorem State.recheck_recordsMade {p q : Nat} (h : RecordsMade a s) : RecordsMade a (s.recheck p q) := by
  unfold State.recheck
  split
  · exact h
  · dsimp only
    split
    · exact State.endBatch_recordsMade (State.pushRecord_recordsMade (State.updFn_recordsMade h fun _ => rfl))
    · exact h

theorem State.pme_recordsMade {p : Nat} (h : RecordsMade a s) : RecordsMade a (s.pme p) := by
  unfold State.pme
  split
  · split
    · exact State.send_recordsMade (State.updFn_recordsMade h fun _ => rfl)
    · exact h
  · exact h

theorem State.writeTo_recordsMade {r : Rec} {x : Recv} (h : RecordsMade a s) : RecordsMade a (s.writeTo r x) := by
  unfold State.writeTo
  split
  · split
    · exact h
    · split
      · exact State.endBatch_recordsMade (State.pushRecord_recordsMade h)
      · exact State.pme_recordsMade (State.updFn_recordsMade h fun _ => rfl)
  · exact h.of_fn rfl (List.Subset.refl _)

theorem State.raiseAs_recordsMade {sc : Scope} {n : Nat} {r : Rec} (h : RecordsMade a s) : RecordsMade a (s.raiseAs sc n r) := by
  unfold State.raiseAs
  split
  · exact h
  · split
    · exact RecordsMade.foldl h fun t x => State.writeTo_recordsMade
    · exact h.of_fn rfl (List.Subset.refl _)

theorem State.event_recordsMade {sc : Scope} {t u c : Nat} {b : Bytes} (h : RecordsMade a s) : RecordsMade a (s.event sc t u c b) :=
  State.raiseAs_recordsMade h

theorem State.bump_recordsMade {i j k n : Nat} (h : RecordsMade a s) : RecordsMade a (s.bump i j k n) := by
  unfold State.bump
  dsimp only
  split
  · exact h
  · exact h.of_fn rfl (List.Subset.refl _)

theorem State.closeWindow_recordsMade {k o : Nat} (h : RecordsMade a s) : RecordsMade a (s.closeWindow k o) := by
  unfold State.closeWindow
  split
  · exact h
  · dsimp only
    split
    · exact h.of_fn rfl (List.Subset.refl _)
    · exact State.raiseAs_recordsMade (h.of_fn rfl (List.Subset.refl _))

theorem State.coalesce_recordsMade {k o u c n : Nat} {b : Bytes} (h : RecordsMade a s) : RecordsMade a (s.coalesce k o u c n b) := by
  unfold State.coalesce
  dsimp only
  split
  · split
    · exact h.of_fn rfl (List.Subset.refl _)
    · exact (State.raiseAs_recordsMade (State.closeWindow_recordsMade h)).of_fn rfl (List.Subset.refl _)
  · exact (State.raiseAs_recordsMade h).of_fn rfl (List.Subset.refl _)

end

/-! The bits of a register. -/

theorem bitSet_putBit_true (v i : Nat) : bitSet (putBit v i true) i = true := by
  have hb : bits v i 1 = if v.testBit i then 1 else 0 := by
    unfold bits Nat.testBit
    rcases Nat.mod_two_eq_zero_or_one (v >>> i) with h | h <;> simp [h]
  unfold bitSet putBit setBits
  rw [hb]
  cases h : v.testBit i
  · simp [Nat.add_comm v, Nat.testBit_two_pow_add_eq, h]
  · have := Nat.ge_two_pow_of_testBit h
    simp [Nat.sub_add_cancel this, h]

/-- A signal sets its bit of FN_INT_STAT. -/
theorem State.signal_bit {s : State} {p b v : Nat} {f g : Fn} (h : s.fn? p = some f) (hg : (s.signal p b v).fn? p = some g) :
    bitSet g.intStat b = true := by
  have h1 : (s.updFn p fun f => { f with intStat := putBit f.intStat b true }).fn? p = some { f with intStat := putBit f.intStat b true } :=
    State.updFn_fn? h fun _ => rfl
  have hk : ∃ g, (s.signal p b v).fn? p = some g ∧ g.intStat = putBit f.intStat b true := by
    unfold State.signal
    rw [h]
    dsimp only
    repeat' split
    any_goals exact ⟨_, h1, rfl⟩
    all_goals exact ⟨_, State.updFn_fn? h1 fun _ => rfl, rfl⟩
  obtain ⟨x, hx, hxb⟩ := hk
  rw [hg] at hx
  cases hx
  rw [hxb]
  exact bitSet_putBit_true _ _

/-! The queues of a function (R305). -/

theorem Fn.updQueue_get {f : Fn} {q : Nat} {e : EventQueue} {g : EventQueue → EventQueue} (h : f.queues[q]? = some e) :
    (f.updQueue q g).queues[q]? = some (g e) := by
  simp [Fn.updQueue, h]

theorem Fn.getD_queue {f : Fn} {q : Nat} {e : EventQueue} (h : f.queues[q]? = some e) : f.queues.getD q .reset = e := by
  rw [List.getD_eq_getElem?_getD, h]
  rfl

/-! Interrupts (R302-R306). -/

theorem State.sendPending_of_pending {s : State} {p v : Nat} {f : Fn} (h : s.fn? p = some f) (he : f.msixEn = true) (hm : f.msixMask = false)
    (hv : f.vectorMasked v = false) (hb : bitSet f.pba v = true) (hc : f.canMaster = true) :
    s.sendPending p v = (s.updFn p fun f => { f with pba := putBit f.pba v false }).send (.message p v true) := by
  unfold State.sendPending
  rw [h]
  simp [he, hm, hv, hb, hc]

/-- Sending what is pending changes the pending bits of the function alone. -/
theorem State.sendPending_fn? {s : State} {p v : Nat} {f : Fn} (h : s.fn? p = some f) :
    ∃ g, (s.sendPending p v).fn? p = some g ∧ g = { f with pba := g.pba } := by
  unfold State.sendPending
  rw [h]
  dsimp only
  split
  · exact ⟨_, State.updFn_fn? h fun _ => rfl, rfl⟩
  · exact ⟨f, h, rfl⟩

theorem State.sendPendings_fn? (l : List Nat) {s : State} {p : Nat} {f : Fn} (h : s.fn? p = some f) :
    ∃ g, (l.foldl (fun s v => s.sendPending p v) s).fn? p = some g ∧ g = { f with pba := g.pba } := by
  induction l generalizing s f with
  | nil => exact ⟨f, h, rfl⟩
  | cons v l ih =>
    obtain ⟨g, hg, e⟩ := State.sendPending_fn? (v := v) h
    obtain ⟨x, hx, ex⟩ := ih hg
    exact ⟨x, hx, by rw [ex, e]⟩

/-- An entry of a vector's table that is not masked, in front of the others for its vector. -/
theorem vectorMasked_upsert (f : Fn) (v : Nat) :
    ({ f with table := upsert (·.1 == v) (fun e => (e.1, e.2.1, e.2.2.1, false)) (v, 0, 0, false) f.table } : Fn).vectorMasked v = false := by
  have hu : (f.table.any (·.1 == v)) = true → ∃ e, (updWhere (·.1 == v) (fun e => (e.1, e.2.1, e.2.2.1, false)) f.table).find?
      (·.1 == v) = some e ∧ e.2.2.2 = false := by
    intro h
    rw [find?_updWhere (f := fun e : Nat × Nat × Nat × Bool => (e.1, e.2.1, e.2.2.1, false)) fun _ => rfl]
    obtain ⟨x, hx⟩ := Option.isSome_iff_exists.1 (List.find?_isSome.2 (List.any_eq_true.1 h))
    exact ⟨_, by rw [hx]; rfl, rfl⟩
  unfold Fn.vectorMasked upsert
  cases h : f.table.any (·.1 == v)
  · have hn : f.table.find? (·.1 == v) = none := List.find?_eq_none.2 fun x hx hxv => by
      simp only [List.any_eq_false] at h
      exact h x hx hxv
    simp [hn]
  · obtain ⟨e, he, hf⟩ := hu h
    simp only [if_true, he, hf]

theorem interrupts : Interrupts := by
  intro s p v f hf hp
  refine ⟨⟨_, { f with intStat := f.intStat - (f.intStat &&& v) }, rfl, ?_, ?_, rfl, rfl, fun hx h0 hv => ?_⟩, fun hv he hm hb hc => ?_, ?_,
    fun q eq hq heq hd ht => ?_⟩
  · rw [hf]
    dsimp only
    split
    · exact OnlyPort.onlyFn (State.send_onlyPort (State.updFn_onlyPort (OnlyPort.refl p s) fun _ => rfl))
    · exact OnlyPort.onlyFn (State.updFn_onlyPort (OnlyPort.refl p s) fun _ => rfl)
  · rw [hf]
    dsimp only
    split
    · exact State.updFn_fn? (s := s) hf fun _ => rfl
    · exact State.updFn_fn? hf fun _ => rfl
  · rw [hf]
    simp [hx, h0, hv]
  · have h1 : (s.updFn p fun f => { f with table := upsert (·.1 == v) (fun e => (e.1, e.2.1, e.2.2.1, false)) (v, 0, 0, false) f.table }).fn? p =
        some { f with table := upsert (·.1 == v) (fun e => (e.1, e.2.1, e.2.2.1, false)) (v, 0, 0, false) f.table } :=
      State.updFn_fn? hf fun _ => rfl
    refine ⟨_, _, congrArg Host.Outcome.next ((if_neg (by omega)).trans (State.sendPending_of_pending h1 he hm (vectorMasked_upsert f v) hb hc)),
      ?_, rfl, State.updFn_fn? h1 fun _ => rfl, rfl, vectorMasked_upsert f v⟩
    exact OnlyPort.onlyFn (State.send_onlyPort (State.updFn_onlyPort (State.updFn_onlyPort (OnlyPort.refl p s) fun _ => rfl) fun _ => rfl))
  · obtain ⟨h, hh, e⟩ := State.sendPendings_fn? (List.range 64) (State.updFn_fn? (g := fun f => { f with msixMask := false }) hf fun _ => rfl)
    refine ⟨_, h, rfl, OnlyPort.onlyFn ?_, hh, by rw [e], by rw [e]⟩
    exact OnlyPort.foldl (State.updFn_onlyPort (OnlyPort.refl p s) fun _ => rfl) fun _ _ => State.sendPending_onlyPort
  · have hdue : (match eq.lastMsg with | none => true | some t => decide (t + eq.moderation * 1000 ≤ s.tsc)) = true := by
      cases hl : eq.lastMsg with
      | none => rfl
      | some t => exact decide_eq_true (ht t hl)
    have h1 : (s.updFn p fun f => f.updQueue q fun eq => { eq with lastMsg := some s.tsc, deferred := false }).fn? p =
        some (f.updQueue q fun eq => { eq with lastMsg := some s.tsc, deferred := false }) := State.updFn_fn? hf fun _ => rfl
    have hx : execModerationExpiry p q s =
        .next ((s.updFn p fun f => f.updQueue q fun eq => { eq with lastMsg := some s.tsc, deferred := false }).signal p q eq.vector) := by
      unfold execModerationExpiry
      rw [hf]
      dsimp only
      rw [Fn.getD_queue heq, if_pos]
      rw [hd]
      simp only [hq, decide_true, Bool.and_self, Bool.true_and]
      exact hdue
    obtain ⟨h, hh, e⟩ := State.signal_fn? (b := q) (v := eq.vector) h1
    refine ⟨_, h, hx, OnlyPort.onlyFn (State.signal_onlyPort (State.updFn_onlyPort (OnlyPort.refl p s) fun _ => rfl)), hh, ?_, ?_⟩
    · exact State.signal_bit h1 hh
    · rw [Fn.getD_queue (e := { eq with lastMsg := some s.tsc, deferred := false })]
      rw [e]
      exact Fn.updQueue_get heq

/-! Event queue registers (R305, R361, R363). -/

theorem State.endBatch_out {s : State} {p q : Nat} {m : Msg} (h : m ∈ s.out) : m ∈ (s.endBatch p q).out := by
  unfold State.endBatch
  split
  · exact h
  · dsimp only
    repeat' split
    · exact State.signal_out h
    · exact State.signal_out (List.mem_append_left _ h)
    · exact h
    · exact List.mem_append_left _ h
    · exact State.signal_out h
    · exact State.signal_out (List.mem_append_left _ h)
    · exact h
    · exact List.mem_append_left _ h

/-- The end of a batch changes of its queue when it last signalled and what it defers. -/
theorem State.endBatch_queue {s : State} {p q : Nat} {f : Fn} {e : EventQueue} (h : s.fn? p = some f) (he : f.queues[q]? = some e) :
    ∃ g x, (s.endBatch p q).fn? p = some g ∧ g.queues[q]? = some x ∧ x = { e with lastMsg := x.lastMsg, deferred := x.deferred } := by
  have hs {t : State} (ht : t.fn? p = some f) : ∃ g x, ((t.updFn p fun f => f.updQueue q fun eq =>
      { eq with lastMsg := some s.tsc, deferred := false }).signal p q (f.queues.getD q .reset).vector).fn? p = some g ∧
      g.queues[q]? = some x ∧ x = { e with lastMsg := x.lastMsg, deferred := x.deferred } := by
    obtain ⟨g, hg, hgf⟩ := State.signal_fn? (b := q) (v := (f.queues.getD q .reset).vector)
      (State.updFn_fn? (g := fun f => f.updQueue q fun eq => { eq with lastMsg := some s.tsc, deferred := false }) ht fun _ => rfl)
    refine ⟨g, { e with lastMsg := some s.tsc, deferred := false }, hg, ?_, rfl⟩
    rw [hgf]
    exact Fn.updQueue_get he
  have hd {t : State} (ht : t.fn? p = some f) : ∃ g x, (t.updFn p fun f => f.updQueue q fun eq => { eq with deferred := true }).fn? p = some g ∧
      g.queues[q]? = some x ∧ x = { e with lastMsg := x.lastMsg, deferred := x.deferred } :=
    ⟨_, _, State.updFn_fn? ht fun _ => rfl, Fn.updQueue_get he, rfl⟩
  unfold State.endBatch
  rw [h]
  dsimp only
  repeat' split
  · exact hs h
  · exact hs (t := s.send _) h
  · exact hd h
  · exact hd (t := s.send _) h
  · exact hs h
  · exact hs (t := s.send _) h
  · exact hd h
  · exact hd (t := s.send _) h

/-- A record is written at the tail of its queue. -/
theorem State.pushRecord_spec {s : State} {p q : Nat} {f : Fn} {e : EventQueue} {r : Rec} (h : s.fn? p = some f) (he : f.queues[q]? = some e) :
    (s.pushRecord p q r).fn? p = some (f.updQueue q fun eq => { eq with tail := (eq.tail + 1) % 2 ^ eq.size }) ∧
    .hostWrite p (e.base + 32 * e.tail) r.bytes false false ∈ (s.pushRecord p q r).out := by
  unfold State.pushRecord
  rw [h]
  dsimp only
  rw [Fn.getD_queue he]
  exact ⟨State.updFn_fn? (s := s.send _) h fun _ => rfl, List.mem_append_right _ (List.mem_singleton.2 rfl)⟩

theorem State.recheck_of_none_lost {s : State} {p q : Nat} {f : Fn} {e : EventQueue} (h : s.fn? p = some f) (he : f.queues[q]? = some e)
    (hl : e.lost = 0) : s.recheck p q = s := by
  unfold State.recheck
  rw [h]
  dsimp only
  rw [Fn.getD_queue he, hl]
  simp

/-- A queue that can be written and has lost records takes one LOST_RECORDS record at its tail (R363). -/
theorem State.recheck_of_lost {s : State} {p q : Nat} {f : Fn} {e : EventQueue} (h : s.fn? p = some f) (he : f.queues[q]? = some e)
    (hl : e.lost ≠ 0) (hw : f.canWrite e = true) :
    (∃ g x, (s.recheck p q).fn? p = some g ∧ g.queues[q]? = some x ∧ x.head = e.head ∧ x.lost = 0 ∧ x.tail = (e.tail + 1) % 2 ^ e.size) ∧
    .hostWrite p (e.base + 32 * e.tail) (lostRecord (portSrc p) (s.dieTsc (p / 8)) e.lost).bytes false false ∈ (s.recheck p q).out := by
  have h1 : (s.updFn p fun f => f.updQueue q fun eq => { eq with lost := 0 }).fn? p = some (f.updQueue q fun eq => { eq with lost := 0 }) :=
    State.updFn_fn? h fun _ => rfl
  have hq1 : (f.updQueue q fun eq => { eq with lost := 0 }).queues[q]? = some { e with lost := 0 } := Fn.updQueue_get he
  have hr : s.recheck p q = ((s.updFn p fun f => f.updQueue q fun eq => { eq with lost := 0 }).pushRecord p q
      (lostRecord (portSrc p) (s.dieTsc (p / 8)) e.lost)).endBatch p q := by
    conv_lhs => unfold State.recheck
    rw [h]
    dsimp only
    rw [Fn.getD_queue he, if_pos (by simp [hw, hl])]
  rw [hr]
  obtain ⟨hp, hm⟩ := State.pushRecord_spec (r := lostRecord (portSrc p) (s.dieTsc (p / 8)) e.lost) h1 hq1
  obtain ⟨g, x, hg, hgq, hx⟩ := State.endBatch_queue hp (Fn.updQueue_get hq1)
  exact ⟨⟨g, x, hg, hgq, by rw [hx], by rw [hx], by rw [hx]⟩, State.endBatch_out hm⟩

/-- The size a write of FN_EQ_CTL leaves: its own only while disabled and within 4 to 16. -/
theorem EventQueue.setCtl_spec (e : EventQueue) (v : Nat) :
    (e.setCtl v).enable = bitSet v 8 ∧ (e.setCtl v).vector = bits v 16 6 ∧ (e.setCtl v).moderation = bits v 24 8 ∧
    (e.setCtl v).base = e.base ∧ (e.lost = 0 → (e.setCtl v).lost = 0) ∧
    (e.enable = true ∨ bits v 0 5 < 4 ∨ 16 < bits v 0 5 →
      (e.setCtl v).size = e.size ∧ (e.setCtl v).head = e.head ∧ (e.setCtl v).tail = e.tail) ∧
    (e.enable = false → 4 ≤ bits v 0 5 → bits v 0 5 ≤ 16 → bits v 0 5 ≠ e.size →
      (e.setCtl v).size = bits v 0 5 ∧ (e.setCtl v).head = 0 ∧ (e.setCtl v).tail = 0) := by
  unfold EventQueue.setCtl
  dsimp only
  split
  case isTrue h =>
    refine ⟨rfl, rfl, rfl, rfl, id, fun _ => ⟨rfl, rfl, rfl⟩, fun h1 h2 h3 h4 => ?_⟩
    simp [h1, h4] at h
    omega
  case isFalse h =>
    refine ⟨rfl, rfl, rfl, rfl, fun _ => rfl, fun h1 => ?_, fun _ _ _ _ => ⟨rfl, rfl, rfl⟩⟩
    simp only [Bool.or_eq_true, decide_eq_true_eq, not_or] at h
    obtain ⟨⟨⟨he, -⟩, h4⟩, h16⟩ := h
    rcases h1 with h1 | h1 | h1
    · exact absurd h1 he
    · exact absurd h1 h4
    · exact absurd h1 h16

theorem EventQueue.setBase_spec (e : EventQueue) (v : Nat) : (e.setBase v).size = e.size ∧
    (e.setBase v).base % 4096 = (if e.enable then e.base % 4096 else 0) ∧
    (e.setBase v).base = if e.enable then e.base else bits v 12 52 * 4096 := by
  unfold EventQueue.setBase
  dsimp only
  cases he : e.enable
  · by_cases hb : bits v 12 52 * 4096 = e.base
    · simp [hb.symm]
    · simp [hb]
  · simp

theorem eventQueueRegisters : EventQueueRegisters := by
  intro s p q v f eq hf hp hq heq
  have hupd (g : EventQueue → EventQueue) : (s.updFn p fun f => f.updQueue q g).fn? p = some (f.updQueue q g) := State.updFn_fn? hf fun _ => rfl
  have honly (g : EventQueue → EventQueue) : OnlyPort p s (s.updFn p fun f => f.updQueue q g) :=
    State.updFn_onlyPort (OnlyPort.refl p s) fun _ => rfl
  refine ⟨⟨_, _, congrArg Host.Outcome.next (if_pos hq), (honly _).onlyFn, hupd _, Fn.updQueue_get heq⟩, fun hl => ?_, fun hl hw => ?_,
    fun hl => ?_, ?_⟩
  · refine ⟨_, _, congrArg Host.Outcome.next ((if_pos hq).trans (State.recheck_of_none_lost (hupd _) (Fn.updQueue_get heq) hl)), (honly _).onlyFn,
      hupd _, Fn.updQueue_get heq⟩
  · obtain ⟨⟨g, x, hg, hgq, hx⟩, hm⟩ := State.recheck_of_lost (hupd fun eq => { eq with head := v % 2 ^ 64 }) (Fn.updQueue_get heq) hl hw
    exact ⟨_, g, x, congrArg Host.Outcome.next (if_pos hq), (State.recheck_onlyPort (honly _)).onlyFn, hg, hgq, hx.1, hx.2.1, hx.2.2, hm⟩
  · obtain ⟨henable, hvector, hmod, hbase, hlost, hkeep, hset⟩ := eq.setCtl_spec v
    have hx : execFnEqCtlWrite p q false v s = .next (s.updFn p fun f => f.updQueue q fun eq => eq.setCtl v) := by
      unfold execFnEqCtlWrite
      rw [if_neg (by omega)]
      dsimp only
      rw [State.recheck_of_none_lost (hupd _) (Fn.updQueue_get heq) (hlost hl)]
      simp
    exact ⟨_, _, _, hx, (honly _).onlyFn, hupd _, Fn.updQueue_get heq, henable, hvector, hmod, hbase, hkeep, hset⟩
  · obtain ⟨hsize, hmod, hbase⟩ := eq.setBase_spec v
    exact ⟨_, _, _, congrArg Host.Outcome.next (if_neg (by omega)), (honly _).onlyFn, hupd _, Fn.updQueue_get heq, hsize, hmod, hbase⟩

/-- Settles O33: each register changes its own fields, and a recheck writes at most the record of what was lost. -/
theorem interruptsAndQueues : Obligations.InterruptsAndQueues := ⟨interrupts, eventQueueRegisters⟩

/-! The load window (R314). -/

/-- A stream put in place of the one its carrier had. -/
theorem find?_replaced {l : List IngestStream} {x : IngestStream} :
    ((l.filter fun y => y.carrier != x.carrier) ++ [x]).find? (·.carrier == x.carrier) = some x := by
  rw [List.find?_append, List.find?_eq_none.2]
  · simp
  · intro y hy
    simpa using (List.mem_filter.1 hy).2

/-- The stream that go opens. -/
def Fn.loadStream (f : Fn) (p v : Nat) : IngestStream :=
  ⟨.loadWindow p, bits v 0 12, f.loadImage (loadLength v), 0, f.loadBad, 0, 0, true, false⟩

/-- The state in which the window's stream is in place. -/
def State.loadStarts (s : State) (p v : Nat) (x : IngestStream) : State :=
  ((s.updFn p fun f => { f with loadColl := bits v 0 12, loadLen := loadLength v }).updFn p fun f =>
    { f with loadBusy := true }).updMem fun m => { m with ingest := (m.ingest.filter (·.carrier != .loadWindow p)) ++ [x] }

/-- Settles O32: go on an idle window puts its stream in place, which has bytes and so does not end at once. -/
theorem loadWindow : Obligations.LoadWindow := by
  intro s p v f hf hp hgo
  refine ⟨fun hb hr ha hm h0 hle => ?_, fun hb hm => ?_, fun hb => ?_⟩
  · have hx : (s.loadStarts p v (f.loadStream p v)).stream? (.loadWindow p) = some (f.loadStream p v) :=
      find?_replaced (x := f.loadStream p v)
    have hne : (f.loadStream p v).bytes.isEmpty = false := by
      have : (f.loadStream p v).bytes.length = loadLength v := by simp [Fn.loadStream, Fn.loadImage]
      cases hbs : (f.loadStream p v).bytes with
      | nil => rw [hbs] at this; simp at this; omega
      | cons b l => rfl
    have hrun : execLoadGo p v s = .next (s.loadStarts p v (f.loadStream p v)) := by
      unfold execLoadGo
      rw [hf]
      simp only [hb, hr, hgo, ha, Bool.not_true, Bool.or_self, Bool.false_eq_true, if_false]
      rw [if_neg (by simp; omega)]
      change Host.Outcome.next ((s.loadStarts p v (f.loadStream p v)).streamDone (.loadWindow p)) = _
      unfold State.streamDone
      rw [hx]
      simp [hne]
    exact ⟨_, _, _, hrun, State.updFn_fn? (State.updFn_fn? hf fun _ => rfl) fun _ => rfl, rfl, rfl, hx, rfl, rfl, rfl, rfl⟩
  · by_cases hrun : f.resetting = true ∨ s.accepting = false
    · refine ⟨s, f, ?_, OnlyPort.onlyFn (OnlyPort.refl p s), hf, hb⟩
      change execLoadGo p v s = _
      unfold execLoadGo
      rw [hf]
      dsimp only
      rw [if_pos]
      rcases hrun with h | h <;> simp [h]
    · have hr : f.resetting = false ∧ s.accepting = true := by simpa using hrun
      have hx : execLoadGo p v s = .next (s.updFn p fun f => { f with loadColl := bits v 0 12, loadLen := loadLength v }) := by
        unfold execLoadGo
        rw [hf]
        simp [hb, hr.1, hr.2, hgo, hm]
      exact ⟨_, _, hx, OnlyPort.onlyFn (State.updFn_onlyPort (OnlyPort.refl p s) fun _ => rfl), State.updFn_fn? hf fun _ => rfl, hb⟩
  · change execLoadGo p v s = _
    unfold execLoadGo
    rw [hf]
    simp [hb]

end Sys2Proof.Machine
end

section
/-! PROOF. The Mover: what its engines do to the function they belong to, and its ring, descriptors and completions. -/

namespace Sys2Proof.Machine

open Sys2Proof.Claims

/-! An engine of a port (R307). -/

theorem State.engine?_iff {s : State} {p i : Nat} {g : Engine} : s.engine? p i = some g ↔
    s.act.enginePort (s.pkg.asm.lobbies.length == 1) (p / 8) i = p ∧ ∃ f, s.fn? p = some f ∧ f.engines.find? (·.e == i) = some g := by
  unfold State.engine?
  split
  case isTrue h =>
    cases hf : s.fn? p <;> simp [h]
  case isFalse h => simp [h]

theorem State.engine?_fn? {s : State} {p i : Nat} {f : Fn} {g : Engine} (h : s.engine? p i = some g) (hf : s.fn? p = some f) :
    f.engines.find? (·.e == i) = some g := by
  obtain ⟨-, x, hx, hg⟩ := State.engine?_iff.1 h
  rw [hf] at hx
  cases hx
  exact hg

theorem State.engine?_of_fn? {s t : State} {p i : Nat} {f : Fn} {g k : Engine} (h : s.engine? p i = some g) (ha : t.act = s.act)
    (hp : t.pkg = s.pkg) (hf : t.fn? p = some f) (hk : f.engines.find? (·.e == i) = some k) : t.engine? p i = some k := by
  obtain ⟨hport, -⟩ := State.engine?_iff.1 h
  exact State.engine?_iff.2 ⟨by rw [ha, hp]; exact hport, f, hf, hk⟩

theorem State.engine?_updEngine {s : State} {p i : Nat} {g : Engine} {k : Engine → Engine} (h : s.engine? p i = some g)
    (hk : ∀ x, (k x).e = x.e) : (s.updEngine p i k).engine? p i = some (k g) := by
  obtain ⟨-, f, hf, hg⟩ := State.engine?_iff.1 h
  refine State.engine?_of_fn? h rfl rfl (State.updFn_fn? hf fun _ => rfl) ?_
  rw [find?_updWhere fun x => by rw [hk x], hg]
  rfl

theorem State.updEngine_fn? {s : State} {p i : Nat} {f : Fn} {k : Engine → Engine} (h : s.fn? p = some f) :
    (s.updEngine p i k).fn? p = some { f with engines := updWhere (·.e == i) k f.engines } := State.updFn_fn? h fun _ => rfl

theorem State.engine?_updEngine_ne {s : State} {p i j : Nat} {g : Engine} {k : Engine → Engine} (h : s.engine? p i = some g) (hj : j ≠ i)
    (hk : ∀ x, (k x).e = x.e) : (s.updEngine p j k).engine? p i = some g := by
  obtain ⟨-, f, hf, hg⟩ := State.engine?_iff.1 h
  refine State.engine?_of_fn? h rfl rfl (State.updFn_fn? hf fun _ => rfl) ?_
  rw [find?_updWhere_ne fun x hx => ?_, hg]
  have : x.e = j := by simpa using hx
  simp [hk, this, hj]

theorem State.engine?_updFn {s : State} {p i : Nat} {g : Engine} {k : Fn → Fn} (h : s.engine? p i = some g)
    (hk : ∀ x, (k x).port = x.port ∧ (k x).engines = x.engines) : (s.updFn p k).engine? p i = some g := by
  obtain ⟨-, f, hf, hg⟩ := State.engine?_iff.1 h
  exact State.engine?_of_fn? h rfl rfl (State.updFn_fn? hf fun x => (hk x).1) (by rw [(hk f).2]; exact hg)

theorem State.engine?_records {s t : State} {p i : Nat} {g : Engine} (h : s.engine? p i = some g) (hr : RecordsMade s t) (ha : t.act = s.act)
    (hp : t.pkg = s.pkg) : t.engine? p i = some g := by
  obtain ⟨-, f, hf, hg⟩ := State.engine?_iff.1 h
  obtain ⟨x, hx, hfx⟩ := hr.fns p f hf
  exact State.engine?_of_fn? h ha hp hx (by rw [hfx]; exact hg)

theorem State.event_act (s : State) (sc : Scope) (t u c : Nat) (b : Bytes) : (s.event sc t u c b).act = s.act :=
  (State.event_onlyRecords (OnlyRecords.refl s)).act

theorem State.engine?_event {s : State} {p i : Nat} {g : Engine} {sc : Scope} {t u c : Nat} {b : Bytes} (h : s.engine? p i = some g) :
    (s.event sc t u c b).engine? p i = some g :=
  State.engine?_records h (State.event_recordsMade (RecordsMade.refl s)) (State.event_act ..) (State.event_pkg ..)

/-! What the engines of a port do between descriptors (R308, R311). -/

/-- From `a` to `s` only the function of port `p` differs, and messages are added. -/
structure PortRuns (p : Nat) (a s : State) : Prop where
  only : OnlyPort p a s
  out : a.out ⊆ s.out

theorem PortRuns.refl (p : Nat) (s : State) : PortRuns p s s := ⟨OnlyPort.refl p s, List.Subset.refl _⟩

theorem PortRuns.trans {p : Nat} {a s t : State} (h : PortRuns p a s) (k : PortRuns p s t) : PortRuns p a t :=
  ⟨h.only.trans k.only, List.Subset.trans h.out k.out⟩

theorem PortRuns.mem {p : Nat} {a s : State} (h : PortRuns p a s) : s.mem = a.mem := by rw [h.only.eq]

theorem PortRuns.foldl {α : Type} {f : State → α → State} {p : Nat} {l : List α} {s : State} (h : ∀ t x, PortRuns p t (f t x)) :
    PortRuns p s (l.foldl f s) := by
  induction l generalizing s with
  | nil => exact PortRuns.refl p s
  | cons x l ih => exact (h s x).trans ih

theorem State.updEngine_portRuns (s : State) (p i : Nat) (k : Engine → Engine) : PortRuns p s (s.updEngine p i k) :=
  ⟨State.updEngine_onlyPort (OnlyPort.refl p s), List.Subset.refl _⟩

theorem State.hostReadReq_portRuns (s : State) (p i : Nat) (fetch : Bool) (a n d : Nat) (ro : Bool) :
    PortRuns p s (s.hostReadReq p i fetch a n d ro) := by
  unfold State.hostReadReq
  split
  · exact PortRuns.refl p s
  · exact ⟨State.updFn_onlyPort (State.send_onlyPort (OnlyPort.refl p s)) fun _ => rfl, List.subset_append_left _ _⟩

theorem State.hostReadReq_engine? {s : State} {p i j : Nat} {g : Engine} {fetch : Bool} {a n d : Nat} {ro : Bool} (h : s.engine? p i = some g) :
    (s.hostReadReq p j fetch a n d ro).engine? p i = some g := by
  unfold State.hostReadReq
  split
  · exact h
  · exact State.engine?_updFn (s := s.send _) h fun _ => ⟨rfl, rfl⟩

theorem State.issueReadsAux_portRuns (p i n : Nat) (s : State) : PortRuns p s (State.issueReadsAux p i n s) := by
  induction n generalizing s with
  | zero => exact PortRuns.refl p s
  | succ n ih =>
    unfold State.issueReadsAux
    split
    · split
      · exact PortRuns.refl p s
      · split
        · exact PortRuns.refl p s
        · exact ((State.hostReadReq_portRuns ..).trans (State.updEngine_portRuns ..)).trans (ih _)
    · exact PortRuns.refl p s

/-- Issuing reads changes of an engine how many bytes it has asked for. -/
theorem State.issueReadsAux_engine? (p j n : Nat) {s : State} {i : Nat} {g : Engine} (h : s.engine? p i = some g) :
    ∃ k, (State.issueReadsAux p j n s).engine? p i = some k ∧ k = { g with issued := k.issued } := by
  induction n generalizing s g with
  | zero => exact ⟨g, h, rfl⟩
  | succ n ih =>
    unfold State.issueReadsAux
    split
    · split
      · exact ⟨g, h, rfl⟩
      · split
        · exact ⟨g, h, rfl⟩
        · by_cases hj : j = i
          · subst hj
            obtain ⟨k, hk, e⟩ := ih (State.engine?_updEngine (k := fun g => { g with issued := g.issued + _ }) (State.hostReadReq_engine? h)
              fun _ => rfl)
            exact ⟨k, hk, by rw [e]⟩
          · exact ih (State.engine?_updEngine_ne (State.hostReadReq_engine? h) hj fun _ => rfl)
    · exact ⟨g, h, rfl⟩

theorem State.issueReads_portRuns (s : State) (p i : Nat) : PortRuns p s (s.issueReads p i) := State.issueReadsAux_portRuns p i 1024 s

theorem State.fetchNext_portRuns (s : State) (p i : Nat) : PortRuns p s (s.fetchNext p i) := by
  unfold State.fetchNext
  split
  · split
    · exact (State.hostReadReq_portRuns ..).trans (State.updEngine_portRuns ..)
    · exact PortRuns.refl p s
  · exact PortRuns.refl p s

/-- An engine as the fetch of a descriptor leaves it. -/
def Engine.fetches (g : Engine) : Engine :=
  { g with st := 2, fetching := true, begun := false, desc := none, issued := 0, moved := 0, poisonLines := 0 }

theorem State.fetchNext_engine? {s : State} {p i : Nat} {g : Engine} (h : s.engine? p i = some g) :
    (s.fetchNext p i).engine? p i = some g ∨ (g.enable = true ∧ (s.fetchNext p i).engine? p i = some g.fetches) := by
  obtain ⟨-, f, hf, -⟩ := State.engine?_iff.1 h
  unfold State.fetchNext
  rw [hf, h]
  dsimp only
  split
  case isTrue hc =>
    refine .inr ⟨?_, State.engine?_updEngine (State.hostReadReq_engine? h) fun _ => rfl⟩
    simp only [Bool.and_eq_true] at hc
    exact hc.1.1.1.1.1
  case isFalse => exact .inl h

/-- The fetch of another engine, or of one that is not idle, leaves an engine as it is. -/
theorem State.fetchNext_engine?_busy {s : State} {p i j : Nat} {g : Engine} (h : s.engine? p i = some g) (hst : g.st ≠ 1) :
    (s.fetchNext p j).engine? p i = some g := by
  obtain ⟨-, f, hf, -⟩ := State.engine?_iff.1 h
  unfold State.fetchNext
  split
  · next x y hx hy =>
    split
    · next hc =>
      by_cases hj : j = i
      · subst hj
        rw [h] at hy
        cases hy
        simp [hst] at hc
      · exact State.engine?_updEngine_ne (State.hostReadReq_engine? h) hj fun _ => rfl
    · exact h
  · exact h

theorem State.useTags_portRuns (s : State) (p : Nat) : PortRuns p s (s.useTags p) :=
  PortRuns.foldl fun t i => (State.issueReads_portRuns t p i).trans (State.fetchNext_portRuns _ p i)

/-- Tags that come free change of an engine that is not idle how many bytes it has asked for. -/
theorem State.useTags_engine? {s : State} {p i : Nat} {g : Engine} (h : s.engine? p i = some g) (hst : g.st ≠ 1) :
    ∃ k, (s.useTags p).engine? p i = some k ∧ k = { g with issued := k.issued } := by
  unfold State.useTags
  generalize List.range 16 = l
  induction l generalizing s g with
  | nil => exact ⟨g, h, rfl⟩
  | cons j l ih =>
    obtain ⟨k, hk, e⟩ := State.issueReadsAux_engine? p j 1024 h
    have hkst : k.st ≠ 1 := by rw [e]; exact hst
    obtain ⟨x, hx, ex⟩ := ih (State.fetchNext_engine?_busy (j := j) hk hkst) hkst
    exact ⟨x, hx, by rw [ex, e]⟩

/-! The end of a descriptor (R309, R310). -/

/-- An engine past the descriptor it has ended. -/
def Engine.passes (g : Engine) : Engine :=
  { g with st := 1, head := (g.head + 1) % 2 ^ g.size, desc := none, begun := false, issued := 0, moved := 0, poisonLines := 0 }

theorem State.send_engine? (s : State) (m : Msg) (p i : Nat) : (s.send m).engine? p i = s.engine? p i := rfl

/-- The write of a descriptor's status. -/
theorem State.statusAt_send {s t : State} {p n status count moved : Nat} {g : Engine} (hst : status < 65536)
    (ht : (s.send (.hostWrite p (g.base + 64 * n + 48) (leBytes 2 status ++ leBytes 2 0 ++ leBytes 4 count ++ leBytes 8 moved) false
      false)).out ⊆ t.out) : statusAt t p g n status := by
  refine ⟨_, ht (List.mem_append_right _ (List.mem_singleton.2 rfl)), ?_⟩
  simp only [List.append_assoc]
  rw [fieldAt_leBytes]
  exact Nat.mod_eq_of_lt hst

/-- What the end of a descriptor leaves: its status, and an engine past it or stopped at it. -/
theorem State.finishDesc_spec {s : State} {p i status count : Nat} {g : Engine} {d : Bytes} (h : s.engine? p i = some g) (hd : g.desc = some d)
    (hst : status < 65536) :
    statusAt (s.finishDesc p i status count) p g g.head status ∧ (s.finishDesc p i status count).mem = s.mem ∧
    s.out ⊆ (s.finishDesc p i status count).out ∧
    ∃ k, (s.finishDesc p i status count).engine? p i = some k ∧
      (status ≠ 0x800E → status ≠ 0x800F → k.head = (g.head + 1) % 2 ^ g.size) ∧
      (status = 0x800E ∨ status = 0x800F → k.st = 3 ∧ k.stopIdx = g.head) := by
  have hs2 (c : Bool) (sc : Scope) (a b e : Nat) (x : Bytes) (m : Msg) :
      (if c then (s.send m).event sc a b e x else s.send m).mem = s.mem ∧
      (s.send m).out ⊆ (if c then (s.send m).event sc a b e x else s.send m).out ∧
      (if c then (s.send m).event sc a b e x else s.send m).engine? p i = some g := by
    split
    · exact ⟨State.event_mem .., (State.event_recordsMade (RecordsMade.refl _)).out, State.engine?_event h⟩
    · exact ⟨rfl, List.Subset.refl _, h⟩
  unfold State.finishDesc
  rw [h]
  dsimp only
  rw [hd]
  dsimp only
  by_cases hstop : (status == 0x800E || status == 0x800F) = true
  · simp only [hstop, if_true]
    obtain ⟨hm, ho, he⟩ := hs2 _ _ _ _ _ _ _
    have hor : status = 0x800E ∨ status = 0x800F := by simpa using hstop
    refine ⟨State.statusAt_send hst ho, hm, List.Subset.trans (List.subset_append_left _ _) ho, _,
      State.engine?_updEngine he fun _ => rfl, fun h1 h2 => ?_, fun _ => ⟨rfl, rfl⟩⟩
    rcases hor with h | h
    · exact absurd h h1
    · exact absurd h h2
  · simp only [hstop, if_false, Bool.false_eq_true]
    obtain ⟨hm, ho, he⟩ := hs2 _ _ _ _ _ _ _
    have hrun (t : State) : PortRuns p t ((t.updEngine p i Engine.passes).fetchNext p i) :=
      (State.updEngine_portRuns t p i _).trans (State.fetchNext_portRuns _ p i)
    refine ⟨State.statusAt_send hst (List.Subset.trans ho (hrun _).out), (hrun _).mem.trans hm,
      List.Subset.trans (List.subset_append_left _ _) (List.Subset.trans ho (hrun _).out), ?_⟩
    have hnot : ¬(status = 0x800E ∨ status = 0x800F) := by simpa using hstop
    have he2 := State.engine?_updEngine (k := Engine.passes) he fun _ => rfl
    rcases State.fetchNext_engine? he2 with hk | ⟨-, hk⟩
    · exact ⟨_, hk, fun _ _ => rfl, fun h => absurd h hnot⟩
    · exact ⟨_, hk, fun _ _ => rfl, fun h => absurd h hnot⟩

theorem statusAt_mono {s t : State} {p n status : Nat} {g : Engine} (h : statusAt s p g n status) (ho : s.out ⊆ t.out) :
    statusAt t p g n status := by
  obtain ⟨b, hb, hs⟩ := h
  exact ⟨b, ho hb, hs⟩

/-! Ring registers (R308). -/

theorem State.moverDoorbell_eq {s : State} {p i v : Nat} {g : Engine} (h : s.engine? p i = some g) :
    execMoverDoorbell p i v s = .next ((s.updEngine p i fun g => { g with tail := v % 2 ^ 64 }).fetchNext p i) := by
  unfold execMoverDoorbell
  rw [h]

theorem State.fetchNext_ready {s : State} {p i : Nat} {f : Fn} {g : Engine} (hf : s.fn? p = some f) (h : s.engine? p i = some g)
    (he : g.enable = true) (hst : g.st = 1) (hfe : g.fetching = false) (hh : g.head ≠ g.tail % 2 ^ g.size) (hm : f.canMaster = true)
    (ht : f.hostReads.length < f.tagLimit) :
    (s.fetchNext p i).engine? p i = some g.fetches ∧
    (s.fetchNext p i).out = s.out ++ [.hostRead p f.freeTag (g.base + 64 * g.head) 64 false] := by
  have hx : s.fetchNext p i = (s.hostReadReq p i true (g.base + 64 * g.head) 64 0 false).updEngine p i Engine.fetches := by
    unfold State.fetchNext
    rw [hf, h]
    dsimp only
    rw [if_pos (by simp [he, hst, hfe, hh, hm, ht])]
    rfl
  rw [hx]
  refine ⟨State.engine?_updEngine (State.hostReadReq_engine? h) fun _ => rfl, ?_⟩
  unfold State.hostReadReq
  rw [hf]
  rfl

/-- What a restart leaves of a stopped engine (R308). -/
theorem Engine.setCtl_restart {g : Engine} {v : Nat} (hb : bitSet v 9 = true) (hst : g.st = 3 ∨ g.st = 4) :
    (g.setCtl v).head = (g.stopIdx + 1) % 2 ^ (g.setCtl v).size ∧ (g.setCtl v).enable = bitSet v 8 ∧ (g.setCtl v).st = 1 ∧
    (g.enable = true → (g.setCtl v).size = g.size) := by
  have hc : (bitSet v 9 && (g.st == 3 || g.st == 4)) = true := by
    rcases hst with h | h <;> simp [hb, h]
  unfold Engine.setCtl
  dsimp only
  rw [if_pos hc]
  refine ⟨rfl, rfl, rfl, fun he => ?_⟩
  simp [he]

theorem Engine.setCtl_e (g : Engine) (v : Nat) : (g.setCtl v).e = g.e := by
  unfold Engine.setCtl
  dsimp only
  repeat' split
  all_goals rfl

theorem moverRing : MoverRing := by
  rintro s p i v f g ⟨hf, hg, -, -⟩
  have htail : (s.updEngine p i fun g => { g with tail := v % 2 ^ 64 }).engine? p i = some { g with tail := v % 2 ^ 64 } :=
    State.engine?_updEngine hg fun _ => rfl
  have honly : OnlyPort p s ((s.updEngine p i fun g => { g with tail := v % 2 ^ 64 }).fetchNext p i) :=
    ((State.updEngine_portRuns ..).trans (State.fetchNext_portRuns ..)).only
  refine ⟨?_, fun he hst hfe hh hm ht => ?_, fun hb hst => ?_⟩
  · rcases State.fetchNext_engine? htail with hk | ⟨-, hk⟩
    · exact ⟨_, _, State.moverDoorbell_eq hg, honly.onlyFn, hk, rfl, rfl, rfl, rfl⟩
    · exact ⟨_, _, State.moverDoorbell_eq hg, honly.onlyFn, hk, rfl, rfl, rfl, rfl⟩
  · obtain ⟨hk, ho⟩ := State.fetchNext_ready (State.updEngine_fn? hf) htail he hst hfe hh hm ht
    exact ⟨_, _, _, State.moverDoorbell_eq hg, hk, rfl, rfl, ho⟩
  · have hc : (bitSet v 9 && (g.st == 3 || g.st == 4)) = true := by
      rcases hst with h | h <;> simp [hb, h]
    have hx : execMoverRestart p i v s = .next (((s.updEngine p i fun g => g.setCtl v).updFn p fun f =>
        { f with hostReads := f.hostReads.filter (·.engine != i) }).fetchNext p i) := by
      unfold execMoverRestart State.writeMovCtl
      rw [if_pos hb, hg]
      dsimp only
      rw [if_pos hc]
    obtain ⟨hhead, henable, hidle, hsize⟩ := Engine.setCtl_restart hb hst
    have hk : ((s.updEngine p i fun g => g.setCtl v).updFn p fun f =>
        { f with hostReads := f.hostReads.filter (·.engine != i) }).engine? p i = some (g.setCtl v) :=
      State.engine?_updFn (State.engine?_updEngine hg fun x => x.setCtl_e v) fun _ => ⟨rfl, rfl⟩
    have honly : OnlyPort p s (((s.updEngine p i fun g => g.setCtl v).updFn p fun f =>
        { f with hostReads := f.hostReads.filter (·.engine != i) }).fetchNext p i) := by
      refine OnlyPort.trans ?_ (State.fetchNext_portRuns _ p i).only
      exact State.updFn_onlyPort (State.updEngine_onlyPort (OnlyPort.refl p s)) fun _ => rfl
    rcases State.fetchNext_engine? hk with h | ⟨he, h⟩
    · exact ⟨_, _, hx, honly.onlyFn, h, hhead, henable, hsize, fun _ => hidle⟩
    · refine ⟨_, _, hx, honly.onlyFn, h, hhead, henable, hsize, fun h8 => ?_⟩
      rw [henable, h8] at he
      cases he

/-! Descriptors (R309, R310, R312). -/

/-- A descriptor fetched and not begun, of an engine that may act. -/
theorem State.fetched_spec {s : State} {p i : Nat} {f : Fn} {g : Engine} {q : Nat → Bool} {d : Bytes} (hf : s.fn? p = some f)
    (hg : s.engine? p i = some g) : s.fetched p i q = some d ↔
      s.accepting = true ∧ f.canMaster = true ∧ g.st = 2 ∧ g.fetching = false ∧ g.begun = false ∧ g.desc = some d ∧ q (descOp d) = true ∧
        s.quiet (descColl d) = false ∧ s.engineHeld p i = false := by
  unfold State.fetched
  rw [hf, hg]
  dsimp only
  cases hd : g.desc with
  | none => simp
  | some x =>
    by_cases hx : x = d
    · subst hx
      simp [and_assoc]
    · simp [hx]

theorem copyCheck_status {s : State} {p : Nat} {d : Bytes} {st : Nat} (h : s.copyCheck p d = some st) :
    st < 65536 ∧ st ≠ 0x800E ∧ st ≠ 0x800F := by
  unfold State.copyCheck at h
  dsimp only at h
  repeat' split at h
  all_goals cases h
  all_goals decide

theorem copyCheck_length {s : State} {p : Nat} {d : Bytes} (h : s.copyCheck p d = none) : descLen d ≠ 0 := by
  intro h0
  unfold State.copyCheck at h
  rw [if_pos (by simp [h0])] at h
  cases h

theorem State.issueReads_full {s : State} {p i : Nat} {f : Fn} (hf : s.fn? p = some f) (h : f.tagLimit ≤ f.hostReads.length) :
    s.issueReads p i = s := by
  unfold State.issueReads State.issueReadsAux
  rw [hf]
  split
  case h_1 x g hx hg =>
    cases hx
    split
    · rfl
    · rw [if_pos (by simp [h])]
  case h_2 => rfl

/-- The first read of a descriptor that has issued none (R311). -/
theorem State.issueReads_first {s : State} {p i : Nat} {f : Fn} {g : Engine} {d : Bytes} (hf : s.fn? p = some f) (hg : s.engine? p i = some g)
    (hd : g.desc = some d) (hm : f.canMaster = true) (hst : g.st = 2) (hb : g.begun = true) (h0 : g.issued = 0) (hl : descLen d ≠ 0)
    (ht : f.hostReads.length < f.tagLimit) :
    .hostRead p f.freeTag (descHost d) (min (min f.maxRead (4096 - descHost d % 4096)) (descLen d)) (bitSet (descFlags d) 0 && f.relaxed) ∈
      (s.issueReads p i).out := by
  unfold State.issueReads State.issueReadsAux
  rw [hf, hg]
  dsimp only
  rw [hd]
  dsimp only
  rw [if_neg (by simp [hm, hst, hb, h0]; omega), h0]
  refine (State.issueReadsAux_portRuns p i 1023 _).out ?_
  unfold State.hostReadReq
  rw [hf]
  exact List.mem_append_right _ (List.mem_singleton.2 rfl)

theorem State.beginDesc_engine? {s : State} {p i : Nat} {g : Engine} (h : s.engine? p i = some g) :
    (s.beginDesc p i).engine? p i = some { g with begun := true } := State.engine?_updEngine h fun _ => rfl

theorem State.beginDesc_fn? {s : State} {p i : Nat} {f : Fn} (h : s.fn? p = some f) :
    (s.beginDesc p i).fn? p = some { f with engines := updWhere (·.e == i) (fun g => { g with begun := true }) f.engines } :=
  State.updEngine_fn? h

/-- A descriptor that ends at once, with a status that does not stop its engine. -/
theorem State.finishDesc_passes {s : State} {p i status : Nat} {g : Engine} {d : Bytes} (h : s.engine? p i = some g) (hd : g.desc = some d)
    (hst : status < 65536 ∧ status ≠ 0x800E ∧ status ≠ 0x800F) :
    ∃ k, (s.finishDesc p i status 0).engine? p i = some k ∧ k.head = (g.head + 1) % 2 ^ g.size ∧
      statusAt (s.finishDesc p i status 0) p g g.head status ∧ (s.finishDesc p i status 0).mem = s.mem := by
  obtain ⟨hs, hm, -, k, hk, hhead, -⟩ := State.finishDesc_spec (count := 0) h hd hst.1
  exact ⟨k, hk, hhead hst.2.1 hst.2.2, hs, hm⟩

theorem State.engine?_bump {s : State} {p i a b c n : Nat} {g : Engine} (h : s.engine? p i = some g) :
    (s.bump a b c n).engine? p i = some g :=
  State.engine?_records h (State.bump_recordsMade (RecordsMade.refl s)) (State.bump_onlyRecords (OnlyRecords.refl s)).act (State.bump_pkg ..)

/-- A line that has moved is counted, and may end its descriptor; no byte is stored. -/
theorem State.lineMoved_spec {s : State} {p i : Nat} {g : Engine} {poison : Bool} (h : s.engine? p i = some g) :
    (s.lineMoved p i poison).mem = s.mem ∧ s.out ⊆ (s.lineMoved p i poison).out := by
  have h1 : ((s.updEngine p i fun g => { g with moved := g.moved + 64, poisonLines := g.poisonLines + bit1 poison }).bump 0x1101 10 p
      64).engine? p i = some { g with moved := g.moved + 64, poisonLines := g.poisonLines + bit1 poison } :=
    State.engine?_bump (State.engine?_updEngine h fun _ => rfl)
  have hm : ((s.updEngine p i fun g => { g with moved := g.moved + 64, poisonLines := g.poisonLines + bit1 poison }).bump 0x1101 10 p
      64).mem = s.mem := State.bump_mem ..
  have ho : s.out ⊆ ((s.updEngine p i fun g => { g with moved := g.moved + 64, poisonLines := g.poisonLines + bit1 poison }).bump 0x1101 10 p
      64).out := by rw [State.bump_out]; exact List.Subset.refl _
  unfold State.lineMoved
  dsimp only
  rw [h1]
  dsimp only
  split
  · exact ⟨hm, ho⟩
  · next d hd =>
    split
    · obtain ⟨-, hm2, ho2, -⟩ := State.finishDesc_spec (status := if g.poisonLines + bit1 poison = 0 then 2 else 3)
        (count := g.poisonLines + bit1 poison) h1 hd (by split <;> decide)
      exact ⟨hm2.trans hm, List.Subset.trans ho ho2⟩
    · exact ⟨hm, ho⟩

theorem State.meterFor_recordsMade (s : State) (who : Waiter) (c w : Nat) (read : Bool) : RecordsMade s (s.meterFor who c w read).1 := by
  have hm (port : Nat) : RecordsMade s (s.meter c w port read).1 := by
    unfold State.meter
    dsimp only
    split
    · exact (RecordsMade.refl s).of_fn rfl (List.Subset.refl _)
    · split
      · exact State.coalesce_recordsMade (State.bump_recordsMade (RecordsMade.refl s))
      · exact RecordsMade.refl s
  cases who with
  | port p => exact hm p
  | mover p e a => exact hm p
  | job n o off => exact RecordsMade.refl s
  | loan b => exact RecordsMade.refl s

/-- A line read for a TO_HOST is written to the host (R312). -/
theorem State.answer_mover {s : State} {p i a c line : Nat} {f : Fn} {g : Engine} {d data : Bytes} (hf : s.fn? p = some f)
    (hg : s.engine? p i = some g) (hd : g.desc = some d) (hst : g.st = 2) (hb : g.begun = true) (hop : descOp d = 2) (hm : f.canMaster = true) :
    s.answer (.mover p i a) c line data false =
      (s.send (.hostWrite p a data false (bitSet (descFlags d) 0 && f.relaxed))).lineMoved p i false := by
  unfold State.answer
  dsimp only
  rw [hf, hg]
  dsimp only
  rw [hd]
  dsimp only
  rw [if_pos (by simp [hst, hb, hop, hm])]

theorem storageKept_dram {s t : State} (h : storageKept s t) : t.mem.dram = s.mem.dram := by
  unfold storageKept at h
  rw [h]

theorem State.toHost_zeros {s : State} {p i : Nat} {f : Fn} {g : Engine} {d : Bytes} (hf : s.fn? p = some f) (hg : s.engine? p i = some g)
    (hd : g.desc = some d) (hst : g.st = 2) (hb : g.begun = true) (hop : descOp d = 2) (hm : f.canMaster = true)
    (hw : s.wingUp (s.place (descColl d) (descOff d)).wing = true) (hn : s.noData (descColl d) (descOff d) = true) (a : Nat) :
    (s.serveRead (descColl d) (descOff d) (.mover p i a)).mem.dram = s.mem.dram ∧
    .hostWrite p a (zeros 64) false (bitSet (descFlags d) 0 && f.relaxed) ∈ (s.serveRead (descColl d) (descOff d) (.mover p i a)).out := by
  rw [State.serveRead_noData _ hw hn]
  have hk := State.meterFor_storageKept s (.mover p i a) (descColl d) (s.place (descColl d) (descOff d)).wing true
  have hr := State.meterFor_recordsMade s (.mover p i a) (descColl d) (s.place (descColl d) (descOff d)).wing true
  revert hk hr
  generalize (s.meterFor (.mover p i a) (descColl d) (s.place (descColl d) (descOff d)).wing true).1 = t
  intro hk hr
  obtain ⟨x, hx, hfx⟩ := hr.fns p f hf
  have hgt : t.engine? p i = some g := State.engine?_records hg hr hk.act hk.pkg
  rw [State.answer_mover hx hgt hd hst hb hop (by rw [hfx]; exact hm)]
  obtain ⟨hmem, hout⟩ := State.lineMoved_spec (s := t.send (.hostWrite p a (zeros 64) false (bitSet (descFlags d) 0 && x.relaxed))) (poison := false) hgt
  refine ⟨by rw [hmem]; exact storageKept_dram hk.mem, ?_⟩
  rw [show f.relaxed = x.relaxed by rw [hfx]]
  exact hout (List.mem_append_right _ (List.mem_singleton.2 rfl))

theorem moverDescriptors : MoverDescriptors := by
  rintro s p i f g d ⟨hf, hg, -, -⟩
  refine ⟨fun ⟨hd, h0⟩ => ?_, fun ⟨hd, _⟩ h3 => ?_, fun ⟨hd, h1⟩ hc ht => ?_, fun ⟨hd, h1⟩ hc hi ht hmax => ?_, fun st ⟨hd, h1⟩ hc => ?_,
    fun st ⟨hd, h2⟩ hc => ?_, fun ⟨hd, h2⟩ hc hl hn hw => ?_, fun ⟨hd, h3⟩ hs hh hl16 hl hoff hlive hacc => ?_⟩
  all_goals obtain ⟨ha, hm, hst, hfe, hb, hdesc, hop, hq, hheld⟩ := (State.fetched_spec hf hg).1 hd
  · obtain ⟨k, hk, hhead, hstat, hmem⟩ := State.finishDesc_passes (status := if descSound d then 2 else 0x8002) hg hdesc (by split <;> decide)
    refine ⟨_, k, ?_, hk, hhead, hstat, hmem⟩
    change execDescriptorNop p i s = _
    unfold execDescriptorNop
    rw [hd]
  · obtain ⟨k, hk, hhead, hstat, hmem⟩ := State.finishDesc_passes (status := 0x8001) hg hdesc (by decide)
    refine ⟨_, k, ?_, hk, hhead, hstat, hmem⟩
    change execUndefinedDescriptorOpcode p i s = _
    unfold execUndefinedDescriptorOpcode
    rw [(State.fetched_spec hf hg).2 ⟨ha, hm, hst, hfe, hb, hdesc, decide_eq_true h3, hq, hheld⟩]
  · refine ⟨s.beginDesc p i, _, ?_, (State.updEngine_onlyPort (OnlyPort.refl p s)).onlyFn, State.beginDesc_engine? hg, rfl, rfl⟩
    change execToDevice p i s = _
    unfold execToDevice
    rw [hd]
    dsimp only
    rw [hc]
    dsimp only
    have hbegun := State.beginDesc_fn? (i := i) hf
    rw [State.issueReads_full hbegun ht]
  · have hx : execToDevice p i s = .next ((s.beginDesc p i).issueReads p i) := by
      unfold execToDevice
      rw [hd]
      dsimp only
      rw [hc]
    have hbegun := State.beginDesc_fn? (i := i) hf
    have hfirst := State.issueReads_first hbegun (State.beginDesc_engine? hg) hdesc hm hst rfl hi (copyCheck_length hc) ht
    refine ⟨_, _, _, hx, (State.issueReads_portRuns ..).mem, hfirst, ?_, ?_⟩
    · exact Nat.le_trans (Nat.min_le_left _ _) (Nat.min_le_left _ _)
    · have := copyCheck_length hc
      have := Nat.mod_lt (descHost d) (show 0 < 4096 by decide)
      change 0 < f.maxRead at hmax
      change 0 < min (min f.maxRead (4096 - descHost d % 4096)) (descLen d)
      omega
  · obtain ⟨k, hk, hhead, hstat, hmem⟩ := State.finishDesc_passes hg hdesc (copyCheck_status hc)
    refine ⟨_, k, ?_, hmem, hstat, hk, hhead⟩
    change execToDevice p i s = _
    unfold execToDevice
    rw [hd]
    dsimp only
    rw [hc]
  · obtain ⟨k, hk, hhead, hstat, hmem⟩ := State.finishDesc_passes hg hdesc (copyCheck_status hc)
    refine ⟨_, k, ?_, hmem, hstat, hk, hhead⟩
    change execToHost p i s = _
    unfold execToHost
    rw [hd]
    dsimp only
    rw [hc]
  · have hx : execToHost p i s = .next ((s.beginDesc p i).serveRead (descColl d) (descOff d) (.mover p i (descHost d))) := by
      unfold execToHost
      rw [hd]
      dsimp only
      rw [hc, hl]
      rfl
    have hbegun := State.beginDesc_fn? (i := i) hf
    obtain ⟨hdram, hout⟩ := State.toHost_zeros hbegun (State.beginDesc_engine? hg) hdesc hst rfl h2 hm hw hn (descHost d)
    exact ⟨_, hx, hdram, hout⟩
  · have hx : execIngest p i s = .next (((s.updMem fun m => { m with ingest := (m.ingest.filter (·.carrier != .engine (p / 8) i)) ++
        [⟨.engine (p / 8) i, descColl d, [], descHost d, [], 0, 0, false, false⟩] }).beginDesc p i).issueReads p i) := by
      unfold execIngest
      rw [hd]
      dsimp only
      rw [if_neg (by simp [hs, hh, hl16, hl, hoff]), if_neg (by simp [hlive, hacc])]
    refine ⟨_, ⟨.engine (p / 8) i, descColl d, [], descHost d, [], 0, 0, false, false⟩, hx, ?_, rfl, rfl, ?_, ?_⟩
    · unfold State.stream?
      rw [(State.issueReads_portRuns ..).mem]
      exact find?_replaced (x := ⟨.engine (p / 8) i, descColl d, [], descHost d, [], 0, 0, false, false⟩)
    · rw [(State.issueReads_portRuns ..).mem]
      rfl
    · rw [(State.issueReads_portRuns ..).mem]
      rfl

/-! Completions of reads (R310, R311). -/

theorem State.readSram_clean (s : State) (die unit c : Nat) (bs : Bytes) :
    s.readSram die unit c (Sram.store false bs) = (s, bs, false, Sram.store false bs) := by
  unfold State.readSram
  simp only [Sram.store, zipWith_sramRead_store, List.map_map, List.filter_map]
  simp [Function.comp_def, show (Found.clean == Found.corrected) = false from rfl, show (Found.clean == Found.uncorrectable) = false from rfl,
    show (Found.clean == Found.poison) = false from rfl, State.bump_zero]

/-- A read that a completion of all its bytes fills. -/
theorem HostRead.part?_fill {r : HostRead} {bs : Bytes} (hg : r.got.length = 64) (hb : bs.length = 64) :
    (r.fill 0 bs false).part? 0 64 = some (Sram.store false bs) := by
  have hgot : (r.fill 0 bs false).got = (List.zip bs (sramStore false bs)).map some := by
    refine List.ext_getElem ?_ fun n h1 h2 => ?_
    · simp [HostRead.fill, hg, hb, sramStore]
    · have hn : n < 64 := by simpa [HostRead.fill, hg] using h1
      have hk : n < (sramStore false bs).length := by simp [sramStore, hb, hn]
      simp [HostRead.fill, hb, hn, hk]
  have htake : ((r.fill 0 bs false).got.drop 0).take 64 = (List.zip bs (sramStore false bs)).map some := by
    rw [List.drop_zero, hgot, List.take_of_length_le (by simp [hb])]
  unfold HostRead.part?
  rw [htake]
  have hlen : bs.length = (sramStore false bs).length := by simp [sramStore]
  dsimp only
  rw [if_pos (by simp [hb, sramStore])]
  simp [List.filterMap_map, Sram.store, List.map_fst_zip, List.map_snd_zip, hlen]

/-- An engine's reads and its stream are dropped, and it has a descriptor to end. -/
def State.dropReads (s : State) (p i : Nat) : State :=
  ((s.updFn p fun f => { f with hostReads := f.hostReads.filter (·.engine != i) }).updMem
    fun m => { m with ingest := m.ingest.filter (·.carrier != .engine (p / 8) i) }).updEngine p i fun g =>
      { g with fetching := false, desc := some (g.desc.getD (zeros 64)) }

/-- A read of an engine that fails stops its engine with the status (R310). -/
theorem State.failRead_spec {s : State} {p i status : Nat} {r : HostRead} {g : Engine} (hi : r.engine = i) (hg : s.engine? p i = some g)
    (hn : s.stream? (.engine (p / 8) i) = none) (hst : g.st = 2) (hs : status = 0x800E ∨ status = 0x800F) :
    ∃ k, ((s.failRead p r status).useTags p).engine? p i = some k ∧ k.st = 3 ∧ k.stopIdx = g.head ∧
      statusAt ((s.failRead p r status).useTags p) p g g.head status ∧ ((s.failRead p r status).useTags p).mem.dram = s.mem.dram := by
  subst hi
  have hg1 : (s.updFn p fun f => { f with hostReads := f.hostReads.filter (·.engine != r.engine) }).engine? p r.engine = some g :=
    State.engine?_updFn hg fun _ => ⟨rfl, rfl⟩
  have hx : s.failRead p r status = (s.dropReads p r.engine).finishDesc p r.engine status g.poisonLines := by
    unfold State.failRead
    dsimp only
    rw [hn]
    dsimp only [State.ingestAll]
    rw [hg1]
    dsimp only
    rw [show (s.updFn p fun f => { f with hostReads := f.hostReads.filter (·.engine != r.engine) }).stream? (.engine (p / 8) r.engine) = none
      from hn, if_neg (by simp [hst])]
    rfl
  have hg2 : (s.dropReads p r.engine).engine? p r.engine =
      some { g with fetching := false, desc := some (g.desc.getD (zeros 64)) } := State.engine?_updEngine hg1 fun _ => rfl
  obtain ⟨hstat, hmem, -, k, hk, -, hstop⟩ := State.finishDesc_spec (status := status) (count := g.poisonLines) hg2 rfl
    (by rcases hs with h | h <;> rw [h] <;> decide)
  obtain ⟨hk3, hkidx⟩ := hstop hs
  rw [hx]
  obtain ⟨k', hk', e⟩ := State.useTags_engine? hk (by rw [hk3]; decide)
  have hrun := State.useTags_portRuns ((s.dropReads p r.engine).finishDesc p r.engine status g.poisonLines) p
  refine ⟨k', hk', by rw [e]; exact hk3, by rw [e]; exact hkidx, statusAt_mono hstat hrun.out, ?_⟩
  rw [hrun.mem, hmem]
  rfl

/-- The descriptor that a fetch has read arrives at its engine. -/
def State.fetchArrives (s : State) (p i tag : Nat) (r : HostRead) (bs : Bytes) : State :=
  ((s.updRead p tag fun _ => r).dropRead p tag).updEngine p i fun g => { g with fetching := false, desc := some bs }

theorem State.fetchArrives_engine? {s : State} {p i tag : Nat} {r : HostRead} {bs : Bytes} {g : Engine} (hg : s.engine? p i = some g) :
    (s.fetchArrives p i tag r bs).engine? p i = some { g with fetching := false, desc := some bs } := by
  have h1 : (s.updRead p tag fun _ => r).engine? p i = some g := State.engine?_updFn hg fun _ => ⟨rfl, rfl⟩
  have h2 : ((s.updRead p tag fun _ => r).dropRead p tag).engine? p i = some g := State.engine?_updFn h1 fun _ => ⟨rfl, rfl⟩
  exact State.engine?_updEngine h2 fun _ => rfl

theorem State.readArrives_fetch {s : State} {p i : Nat} {r : HostRead} {bs : Bytes} {g : Engine} (hi : r.engine = i)
    (hg : s.engine? p i = some g) (hfe : r.fetch = true) (hgot : r.got.length = 64) (hb : bs.length = 64) (hst : g.st = 2)
    (hfetch : g.fetching = true) : s.readArrives p r 0 bs false = s.fetchArrives p i r.tag (r.fill 0 bs false) bs := by
  unfold State.readArrives State.takeBuffer
  simp only [Bool.false_and, Bool.false_eq_true, if_false, hi, hg, hfe, if_true, HostRead.part?_fill hgot hb]
  rw [State.readSram_clean]
  dsimp only
  rw [if_pos ⟨hst, hfetch⟩]
  rfl

theorem moverCompletions : MoverCompletions := by
  rintro s p i tag f g r bs c ⟨hf, hg, -, -⟩
  refine ⟨fun hn => ⟨?_, ?_⟩, fun hr hi hfe hl hgot hb hst hfetch => ?_, fun hr hi hn hst => ⟨?_, ?_⟩⟩
  · change execReadCompletion p tag c s = _
    unfold execReadCompletion
    rw [hf]
    dsimp only
    rw [hn]
  · change execCompletionTimeout p tag s = _
    unfold execCompletionTimeout
    rw [hf]
    dsimp only
    rw [hn]
  · obtain ⟨k, hk, e⟩ := State.useTags_engine? (State.fetchArrives_engine? (tag := tag) (r := r.fill 0 bs false) (bs := bs) hg)
      (by change g.st ≠ 1; rw [hst]; decide)
    have htag : r.tag = tag := by simpa using List.find?_some hr
    have hx : execReadCompletion p tag (.data 0 bs false) s = .next ((s.fetchArrives p i tag (r.fill 0 bs false) bs).useTags p) := by
      unfold execReadCompletion
      rw [hf]
      dsimp only
      rw [hr]
      simp only [Bool.false_eq_true, if_false]
      rw [State.readArrives_fetch hi hg hfe hgot hb hst hfetch, htag]
    refine ⟨_, k, hx, ?_, ?_, hk, by rw [e], by rw [e], by rw [e]⟩
    · rw [(State.useTags_portRuns ..).mem]
      rfl
    · rw [(State.useTags_portRuns ..).only.eq]
      rfl
  · have hx : execCompletionTimeout p tag s = .next (((s.updFn p fun f => { f with aerUnc := putBit f.aerUnc 14 true }).failRead p r
        0x800E).useTags p) := by
      unfold execCompletionTimeout
      rw [hf]
      dsimp only
      rw [hr]
    obtain ⟨k, hk, h3, hidx, hstat, hdram⟩ := State.failRead_spec (s := s.updFn p fun f => { f with aerUnc := putBit f.aerUnc 14 true })
      (status := 0x800E) hi (State.engine?_updFn hg fun _ => ⟨rfl, rfl⟩) hn hst (.inl rfl)
    exact ⟨_, k, hx, hk, h3, hidx, hstat, hdram⟩
  · have hx : execReadCompletion p tag .error s = .next ((s.failRead p r 0x800F).useTags p) := by
      unfold execReadCompletion
      rw [hf]
      dsimp only
      rw [hr]
    obtain ⟨k, hk, h3, hidx, hstat, hdram⟩ := State.failRead_spec (status := 0x800F) hi hg hn hst (.inr rfl)
    exact ⟨_, k, hx, hk, h3, hidx, hstat, hdram⟩

/-- Settles O31: each command changes one engine of the port and writes what its descriptor's end asks for. -/
theorem moverRuns : Obligations.MoverRuns := ⟨moverRing, moverDescriptors, moverCompletions⟩

end Sys2Proof.Machine
end

section
/-! PROOF. Resets of a function, Bus Master Enable, and its link and power states. -/

namespace Sys2Proof.Machine

open Sys2Proof.Claims

/-! What the engines and queues of a port do to its function. -/

/-- A function after records and Mover requests. -/
def Fn.served (f g : Fn) : Prop :=
  g = { f with intStat := g.intStat, pba := g.pba, msiPending := g.msiPending, queues := g.queues, pmeStatus := g.pmeStatus,
               engines := g.engines, hostReads := g.hostReads }

/-- From `a` to `s` memory is the same, no message is taken back, and the function of port `p` differs by records and requests. -/
structure PortServes (p : Nat) (a s : State) : Prop where
  mem : s.mem = a.mem
  out : a.out ⊆ s.out
  fn : ∀ f, a.fn? p = some f → ∃ g, s.fn? p = some g ∧ f.served g

theorem PortServes.refl (p : Nat) (s : State) : PortServes p s s := ⟨rfl, List.Subset.refl _, fun f h => ⟨f, h, rfl⟩⟩

theorem PortServes.trans {p : Nat} {a s t : State} (h : PortServes p a s) (k : PortServes p s t) : PortServes p a t where
  mem := k.mem.trans h.mem
  out := List.Subset.trans h.out k.out
  fn f hf := by
    obtain ⟨g, hg, e⟩ := h.fn f hf
    obtain ⟨x, hx, ex⟩ := k.fn g hg
    exact ⟨x, hx, by unfold Fn.served at *; rw [ex, e]⟩

theorem PortServes.foldl {α : Type} {f : State → α → State} {p : Nat} {l : List α} {s : State} (h : ∀ t x, PortServes p t (f t x)) :
    PortServes p s (l.foldl f s) := by
  induction l generalizing s with
  | nil => exact PortServes.refl p s
  | cons x l ih => exact (h s x).trans ih

theorem RecordsMade.portServes {a s : State} (h : RecordsMade a s) (hm : s.mem = a.mem) (p : Nat) : PortServes p a s where
  mem := hm
  out := h.out
  fn f hf := by
    obtain ⟨g, hg, e⟩ := h.fns p f hf
    exact ⟨g, hg, by unfold Fn.served Fn.recorded at *; rw [e]⟩

theorem State.updFn_portServes (s : State) (p : Nat) {k : Fn → Fn} (hk : ∀ f : Fn, f.served (k f)) : PortServes p s (s.updFn p k) :=
  ⟨rfl, List.Subset.refl _, fun f hf => ⟨k f, State.updFn_fn? hf fun x => by rw [hk x], hk f⟩⟩

theorem State.updEngine_portServes (s : State) (p i : Nat) (k : Engine → Engine) : PortServes p s (s.updEngine p i k) :=
  State.updFn_portServes s p fun _ => rfl

theorem State.hostReadReq_portServes (s : State) (p i : Nat) (fetch : Bool) (a n d : Nat) (ro : Bool) :
    PortServes p s (s.hostReadReq p i fetch a n d ro) := by
  unfold State.hostReadReq
  split
  · exact PortServes.refl p s
  · refine PortServes.trans (s := s.send _) ?_ (State.updFn_portServes _ p fun _ => rfl)
    exact ⟨rfl, List.subset_append_left _ _, fun f hf => ⟨f, hf, rfl⟩⟩

theorem State.issueReads_portServes (s : State) (p i : Nat) : PortServes p s (s.issueReads p i) := by
  have h (n : Nat) (t : State) : PortServes p t (State.issueReadsAux p i n t) := by
    induction n generalizing t with
    | zero => exact PortServes.refl p t
    | succ n ih =>
      unfold State.issueReadsAux
      split
      · split
        · exact PortServes.refl p t
        · split
          · exact PortServes.refl p t
          · exact ((State.hostReadReq_portServes ..).trans (State.updEngine_portServes ..)).trans (ih _)
      · exact PortServes.refl p t
  exact h 1024 s

theorem State.fetchNext_portServes (s : State) (p i : Nat) : PortServes p s (s.fetchNext p i) := by
  unfold State.fetchNext
  split
  · split
    · exact (State.hostReadReq_portServes ..).trans (State.updEngine_portServes ..)
    · exact PortServes.refl p s
  · exact PortServes.refl p s

theorem State.recheckAll_portServes (s : State) (p : Nat) : PortServes p s (s.recheckAll p) :=
  PortServes.foldl fun t q => (State.recheck_recordsMade (RecordsMade.refl t)).portServes (State.recheck_mem t p q) p

theorem State.releaseSignals_portServes (s : State) (p : Nat) : PortServes p s (s.releaseSignals p) := by
  unfold State.releaseSignals
  split
  · split
    · exact ⟨rfl, List.subset_append_left _ _, fun f hf => ⟨f, hf, rfl⟩⟩
    · exact PortServes.refl p s
  · exact PortServes.refl p s

theorem State.event_portServes (s : State) (p : Nat) (sc : Scope) (t u c : Nat) (b : Bytes) : PortServes p s (s.event sc t u c b) :=
  (State.event_recordsMade (RecordsMade.refl s)).portServes (State.event_mem ..) p

/-- The ABORTED status of a stopped engine's descriptor is written (R309, R315). -/
theorem State.writeAborted_spec (s : State) (p : Nat) (g : Engine) :
    PortServes p s (s.writeAborted p g) ∧ (g.aborted = true → statusAt (s.writeAborted p g) p g g.stopIdx 0x800A) := by
  unfold State.writeAborted
  cases ha : g.aborted
  · exact ⟨PortServes.refl p s, nofun⟩
  · have h1 (m : Msg) : PortServes p s (s.send m) := ⟨rfl, List.subset_append_left _ _, fun f hf => ⟨f, hf, rfl⟩⟩
    simp only [Bool.not_true, Bool.false_eq_true, if_false]
    repeat' split
    · refine ⟨((h1 _).trans (State.event_portServes ..)).trans (State.updEngine_portServes ..), fun _ => State.statusAt_send (s := s) (count := g.poisonLines) (moved := g.moved) (by decide) ?_⟩
      exact ((State.event_portServes _ p ..).trans (State.updEngine_portServes ..)).out
    · exact ⟨(h1 _).trans (State.updEngine_portServes ..), fun _ => State.statusAt_send (s := s) (count := g.poisonLines) (moved := g.moved) (by decide) (State.updEngine_portServes ..).out⟩
    · exact ⟨(h1 _).trans (State.updEngine_portServes ..), fun _ => State.statusAt_send (s := s) (count := g.poisonLines) (moved := g.moved) (by decide) (State.updEngine_portServes ..).out⟩

theorem State.writeAborteds_spec (l : List Engine) (s : State) (p : Nat) :
    PortServes p s (l.foldl (fun s g => s.writeAborted p g) s) ∧
    ∀ g ∈ l, g.aborted = true → statusAt (l.foldl (fun s g => s.writeAborted p g) s) p g g.stopIdx 0x800A := by
  induction l generalizing s with
  | nil => exact ⟨PortServes.refl p s, nofun⟩
  | cons x l ih =>
    obtain ⟨h1, hs⟩ := s.writeAborted_spec p x
    obtain ⟨h2, hl⟩ := ih (s.writeAborted p x)
    refine ⟨h1.trans h2, fun g hg ha => ?_⟩
    rcases List.mem_cons.1 hg with rfl | hg
    · exact statusAt_mono (hs ha) h2.out
    · exact hl g hg ha

/-! A key that breaks with a port (R317, R340). -/

theorem State.portBreaksKey_portServes (s : State) (p q : Nat) : PortServes q s (s.portBreaksKey p) ∧ RecordsMade s (s.portBreaksKey p) := by
  have hr : RecordsMade s (s.portBreaksKey p) ∧ (s.portBreaksKey p).mem = s.mem := by
    have hed {a t : State} {f : EdState → EdState} (h : RecordsMade a t) : RecordsMade a (t.updEd f) := h.of_fn rfl (List.Subset.refl _)
    have h1 : RecordsMade s ((s.updEd fun e => { e with holder := .free, lease := 0 }).bump 0x1020 4 0 1) :=
      State.bump_recordsMade (hed (RecordsMade.refl s))
    unfold State.portBreaksKey State.breakKey
    dsimp only
    repeat' split
    · exact ⟨RecordsMade.refl s, rfl⟩
    · exact ⟨State.event_recordsMade h1, by simp⟩
    · exact ⟨State.event_recordsMade (hed (State.event_recordsMade h1)), by simp⟩
    · exact ⟨State.event_recordsMade h1, by simp⟩
    · exact ⟨RecordsMade.refl s, rfl⟩
  exact ⟨hr.1.portServes hr.2 q, hr.1⟩

/-! Resets and Bus Master Enable (R315-R318). -/

theorem State.linkDown_spec {s : State} {p st : Nat} {sticky : Bool} {f : Fn} (hf : s.fn? p = some f) :
    ∃ h, (s.linkDown p st sticky).fn? p = some h ∧ h.link = st ∧ h.ready = false ∧ (sticky = false → h.pmeStatus = false) ∧
      (∀ d ∈ h.decoders, d.committed = false) ∧ (s.linkDown p st sticky).mem.dram = s.mem.dram ∧
      (s.linkDown p st sticky).mem.cat = s.mem.cat ∧
      ∀ x ∈ (s.linkDown p st sticky).mem.extents, x.port = p → x.st ≠ .accepted := by
  obtain ⟨hk, -⟩ := s.portBreaksKey_portServes p p
  obtain ⟨g, hg, -⟩ := hk.fn f hf
  have hmem := hk.mem
  unfold State.linkDown
  revert hg hmem
  clear hk
  generalize s.portBreaksKey p = u
  intro hg hmem
  have h1 : (u.resetFn p sticky).fn? p = some (g.cleared sticky) := State.updFn_fn? hg fun _ => rfl
  have h2 : ((u.resetFn p sticky).dropDecoders p).fn? p =
      some { g.cleared sticky with decoders := (List.range 8).map .reset } := State.updFn_fn? h1 fun _ => rfl
  refine ⟨{ g.cleared sticky with decoders := (List.range 8).map .reset, link := st, ready := false },
    State.updFn_fn? (s := ((u.resetFn p sticky).dropDecoders p).shutExtents p) h2 fun _ => rfl,
    rfl, rfl, fun h => by rw [h]; rfl, fun d hd => ?_, by rw [← hmem]; rfl, by rw [← hmem]; rfl, fun x hx hxp => ?_⟩
  · obtain ⟨r, -, rfl⟩ := List.mem_map.1 hd
    rfl
  · obtain ⟨y, -, rfl⟩ := List.mem_map.1 hx
    by_cases hy : y.port = p
    · cases hst : y.st <;> simp [hy, hst]
    · simp [hy] at hxp

theorem functionResets : FunctionResets := by
  intro s p f hf hp
  refine ⟨?_, fun hb => ?_, fun hb => ?_, fun hr => ?_, ?_, fun hl => ?_, ?_, fun hperst hrun hs => ?_⟩
  · exact ⟨_, _, rfl, OnlyPort.onlyFn (State.updFn_onlyPort (OnlyPort.refl p s) fun _ => rfl), State.updFn_fn? hf fun _ => rfl, rfl, rfl⟩
  · change execBusMasterEnableSet p s = _
    unfold execBusMasterEnableSet
    rw [hf]
    dsimp only
    rw [if_pos hb]
  · have hx : execBusMasterEnableSet p s = .next ((List.range 16).foldl (fun s i => s.fetchNext p i)
        (((f.engines.foldl (fun s g => s.writeAborted p g) (s.updFn p fun f => { f with bme := true })).recheckAll p).releaseSignals p)) := by
      unfold execBusMasterEnableSet
      rw [hf]
      dsimp only
      rw [if_neg (by simp [hb])]
    obtain ⟨hw, hstat⟩ := State.writeAborteds_spec f.engines (s.updFn p fun f => { f with bme := true }) p
    have hrest := ((State.recheckAll_portServes (f.engines.foldl (fun s g => s.writeAborted p g) (s.updFn p fun f => { f with bme := true }))
      p).trans (State.releaseSignals_portServes _ p)).trans (PortServes.foldl (l := List.range 16) fun t i => State.fetchNext_portServes t p i)
    obtain ⟨h, hh, e⟩ := (hw.trans hrest).fn _ (State.updFn_fn? (g := fun f => { f with bme := true }) hf fun _ => rfl)
    refine ⟨_, h, hx, hh, by rw [e], ?_, fun g hg ha => statusAt_mono (hstat g hg ha) hrest.out⟩
    rw [(hw.trans hrest).mem]
    rfl
  · obtain ⟨hk, -⟩ := s.portBreaksKey_portServes p p
    obtain ⟨g, hg, e⟩ := hk.fn f hf
    have h1 : ((s.portBreaksKey p).resetFn p true).fn? p = some (g.cleared true) := State.updFn_fn? hg fun _ => rfl
    have h2 : (((s.portBreaksKey p).resetFn p true).updFn p fun f => { f with resetting := true }).fn? p =
        some { g.cleared true with resetting := true } := State.updFn_fn? h1 fun _ => rfl
    obtain ⟨h, hh, eh⟩ := (State.bump_recordsMade (i := 0x1101) (j := 11) (k := p) (n := 1) (RecordsMade.refl _)).fns p _ h2
    have hx : execFlr p s = .next ((((s.portBreaksKey p).resetFn p true).updFn p fun f => { f with resetting := true }).bump 0x1101 11 p 1) := by
      unfold execFlr
      rw [hf]
      dsimp only
      rw [if_neg (by simp [hr])]
    have hfn : ((((s.portBreaksKey p).resetFn p true).updFn p fun f => { f with resetting := true }).bump 0x1101 11 p 1).fn? p =
        some { g.cleared true with resetting := true } := by
      unfold State.bump
      exact h2
    refine ⟨_, _, hx, hfn, rfl, rfl, rfl, rfl, ?_, ?_, ?_, ?_, ?_⟩
    · change g.decoders = f.decoders
      rw [e]
    · change g.link = f.link
      rw [e]
    · rw [State.bump_mem, ← hk.mem]
      rfl
    · rw [State.bump_mem, ← hk.mem]
      rfl
    · rw [State.bump_mem, ← hk.mem]
      rfl
  · exact ⟨_, _, rfl, OnlyPort.onlyFn (State.updFn_onlyPort (OnlyPort.refl p s) fun _ => rfl), State.updFn_fn? hf fun _ => rfl, rfl⟩
  · obtain ⟨h, hh, hlink, hready, -, hdec, hdram, hcat, hext⟩ := State.linkDown_spec (st := 1) (sticky := true) hf
    refine ⟨_, h, ?_, hh, hlink, hready, hdec, hdram, hcat, hext⟩
    change execHotReset p s = _
    unfold execHotReset
    rw [hf]
    dsimp only
    rw [if_pos hl]
  · obtain ⟨h, hh, hlink, -, hpme, hdec, hdram, hcat, -⟩ := State.linkDown_spec (st := 0) (sticky := false) hf
    exact ⟨_, _, rfl, State.updFn_fn? hh fun _ => rfl, hlink, rfl, hpme rfl, hdec, hdram, hcat⟩
  · refine ⟨_, { f with perst := false, link := 1 }, rfl, OnlyPort.onlyFn (State.updFn_onlyPort (OnlyPort.refl p s) fun x => ?_), ?_, rfl, rfl⟩
    · split <;> rfl
    · rw [State.updFn_fn? hf fun x => by split <;> rfl]
      simp [hperst, hrun, hs]

/-! Link and power states (R293, R318, R320-R322). -/

theorem State.updMem_recordsMade {a s : State} {f : MemState → MemState} (h : RecordsMade a s) : RecordsMade a (s.updMem f) :=
  h.of_fn rfl (List.Subset.refl _)

theorem State.enterDc_spec (s : State) (v : DcEvent) :
    RecordsMade s (s.enterDc v) ∧ (s.enterDc v).mem.dram = s.mem.dram ∧ (s.enterDc v).mem.cat = s.mem.cat := by
  refine ⟨?_, by rw [State.enterDc_mem], by rw [State.enterDc_mem]⟩
  unfold State.enterDc
  dsimp only
  cases s.fn? v.port with
  | none => exact State.pme_recordsMade (State.event_recordsMade (State.updMem_recordsMade (State.updMem_recordsMade (RecordsMade.refl s))))
  | some f =>
    dsimp only
    by_cases hc : ((!s.mem.dcLog.any fun x => x.port == v.port) && f.dcSignals) = true
    · rw [if_pos hc]
      exact State.signal_recordsMade (State.pme_recordsMade (State.event_recordsMade (State.updMem_recordsMade (State.updMem_recordsMade (RecordsMade.refl s)))))
    · rw [if_neg hc]
      exact State.pme_recordsMade (State.event_recordsMade (State.updMem_recordsMade (State.updMem_recordsMade (RecordsMade.refl s))))

theorem State.dcEvent_spec (s : State) (x : Extent) (add : Bool) :
    RecordsMade s (s.dcEvent x add) ∧ (s.dcEvent x add).mem.dram = s.mem.dram ∧ (s.dcEvent x add).mem.cat = s.mem.cat := by
  have ht (n : Nat) (t : State) : RecordsMade t (State.tryPortAux x.port n t) ∧ (State.tryPortAux x.port n t).mem.dram = t.mem.dram ∧
      (State.tryPortAux x.port n t).mem.cat = t.mem.cat := by
    induction n generalizing t with
    | zero => exact ⟨RecordsMade.refl t, rfl, rfl⟩
    | succ n ih =>
      unfold State.tryPortAux
      split
      · obtain ⟨h1, h2, h3⟩ := t.enterDc_spec ‹_›
        obtain ⟨k1, k2, k3⟩ := ih (t.enterDc ‹_›)
        exact ⟨h1.trans k1, k2.trans h2, k3.trans h3⟩
      · exact ⟨RecordsMade.refl t, rfl, rfl⟩
  obtain ⟨h1, h2, h3⟩ := ht _ (s.updMem fun m => { m with dcWait := m.dcWait ++ [⟨x.port, x.coll, x.view, add, x.handle, s.nextHandle x.port⟩] })
  exact ⟨(State.updMem_recordsMade (RecordsMade.refl s)).trans h1, h2, h3⟩

theorem State.dcEvents_spec (l : List Extent) (s : State) : RecordsMade s (l.foldl (fun s x => s.dcEvent x true) s) ∧
    (l.foldl (fun s x => s.dcEvent x true) s).mem.dram = s.mem.dram ∧ (l.foldl (fun s x => s.dcEvent x true) s).mem.cat = s.mem.cat := by
  induction l generalizing s with
  | nil => exact ⟨RecordsMade.refl s, rfl, rfl⟩
  | cons x l ih =>
    obtain ⟨h1, h2, h3⟩ := s.dcEvent_spec x true
    obtain ⟨k1, k2, k3⟩ := ih (s.dcEvent x true)
    exact ⟨h1.trans k1, k2.trans h2, k3.trans h3⟩

/-- The seals change no memory, no function, and of a channel its seal. -/
theorem State.writeSeals_spec (s : State) : s.writeSeals.mem = s.mem ∧ s.writeSeals.fn = s.fn ∧ s.writeSeals.out = s.out ∧
    ((∀ c ∈ s.chans, isDepot c.sel = true → c.st ≠ 2) → ∀ c ∈ s.writeSeals.chans, isDepot c.sel = true → c.st ≠ 2) := by
  unfold State.writeSeals
  split
  · exact ⟨rfl, rfl, rfl, fun h => h⟩
  · rename_i hawake
    clear hawake
    generalize s.dies.filter (fun d => 4 ≤ d.code && d.present && d.reachable) = l
    induction l generalizing s with
    | nil => exact ⟨rfl, rfl, rfl, fun h => h⟩
    | cons d l ih =>
      refine (ih _).imp_right fun h => h.imp_right fun h => h.imp_right fun h hs => h fun c hc hd => ?_
      obtain ⟨y, hy, rfl⟩ := List.mem_map.1 hc
      revert hd
      split
      · exact hs y hy
      · exact hs y hy

theorem State.acks_out (l : List Fn) (s : State) : (l.foldl (fun s f => s.send (.pmeToAck f.port)) s).mem = s.mem ∧
    (l.foldl (fun s f => s.send (.pmeToAck f.port)) s).chans = s.chans ∧
    s.out ⊆ (l.foldl (fun s f => s.send (.pmeToAck f.port)) s).out ∧
    ∀ f ∈ l, Msg.pmeToAck f.port ∈ (l.foldl (fun s f => s.send (.pmeToAck f.port)) s).out := by
  induction l generalizing s with
  | nil => exact ⟨rfl, rfl, List.Subset.refl _, by simp⟩
  | cons x l ih =>
    obtain ⟨h1, h2, h3, h4⟩ := ih (s.send (.pmeToAck x.port))
    have hout : (s.send (.pmeToAck x.port)).out = s.out ++ [.pmeToAck x.port] := rfl
    rw [hout] at h3
    rw [List.foldl_cons]
    refine ⟨h1, h2, fun m hm => h3 (List.mem_append_left _ hm), fun f hf => ?_⟩
    rcases List.mem_cons.1 hf with rfl | hf
    · exact h3 (List.mem_append_right _ (List.mem_singleton.2 rfl))
    · exact h4 f hf

/-- With nothing held in the caches there is nothing to write back. -/
theorem State.flushLines_empty {s : State} (hc : s.mem.cache = []) (hw : s.mem.wmb = []) : s.flushLines = s := by
  have h1 (c w : Nat) : s.writeBackAll c w = s := by simp [State.writeBackAll, hc, hw]
  have h2 (c : Nat) (l : List Nat) : l.foldl (fun s w => if s.wingUp w then s.writeBackAll c w else s) s = s := by
    induction l with
    | nil => rfl
    | cons w l ih =>
      rw [List.foldl_cons, h1, ite_self]
      exact ih
  unfold State.flushLines
  generalize s.act.colls = l
  induction l with
  | nil => rfl
  | cons c l ih =>
    rw [List.foldl_cons, h2]
    exact ih

theorem State.flushComplete_quiet {s : State} (ha : s.accepting = true) (hfl : s.pw.flushing = true) (hoff : s.allOff = true)
    (hw : s.mem.writes = []) (hc : s.mem.cache = []) (hb : s.mem.wmb = [])
    (hcat : ∀ e ∈ s.mem.cat, e.tier = .gallery → s.act.durable e.coll = true) :
    execD3coldFlushComplete s = .next ((s.sleepDepot.writeSeals.fn.filter fun f => f.link == 2).foldl (fun s f => s.send (.pmeToAck f.port))
      s.sleepDepot.writeSeals) := by
  have hnone : (s.mem.cat.filter fun e => e.tier == .gallery && !s.act.durable e.coll) = [] := by
    refine List.filter_eq_nil_iff.2 fun e he => ?_
    by_cases ht : e.tier = .gallery
    · simp [hcat e he ht]
    · simp [ht]
  unfold execD3coldFlushComplete
  rw [if_neg (by simp [ha, hfl, hoff]), State.flushLines_empty hc hb]
  dsimp only
  rw [hw]
  simp only [List.map_nil, List.foldl_nil]
  rw [hnone]
  rfl

theorem functionPower : FunctionPower := by
  intro s p rate width f hf hp
  refine ⟨fun fl cx hl hperst ha hs hmode => ?_, fun hr hfw hperst hl => ?_, fun hr hn => ?_, fun hd => ?_, fun ha hall hreads hwrites hjobs hbusy => ?_,
    fun ha hl => ?_, fun ha hfl hoff hw hc hb hcat hl => ?_⟩
  · have h1 : (s.updFn p fun f => { f with link := 2, rate := rate, width := width, flit256 := fl, cxl := cx }).fn? p =
        some { f with link := 2, rate := rate, width := width, flit256 := fl, cxl := cx } := State.updFn_fn? hf fun _ => rfl
    have hx : execPortLinkUp p rate width fl cx s =
        .next ((s.updFn p fun f => { f with link := 2, rate := rate, width := width, flit256 := fl, cxl := cx }).reoffer p) := by
      unfold execPortLinkUp
      rw [hf]
      dsimp only
      rw [if_neg (by simp [hl, hperst, ha, hs, hmode])]
    obtain ⟨hrec, hdram, hcat⟩ := State.dcEvents_spec
      ((s.updFn p fun f => { f with link := 2, rate := rate, width := width, flit256 := fl, cxl := cx }).mem.extents.filter fun x =>
        x.port == p && x.st == .offerWaiting && !(s.mem.dcWait.any (·.ext == x.handle)))
      (s.updFn p fun f => { f with link := 2, rate := rate, width := width, flit256 := fl, cxl := cx })
    obtain ⟨h, hh, e⟩ := hrec.fns p _ h1
    refine ⟨_, h, hx, hh, by rw [e], by rw [e], by rw [e], by rw [e], by rw [e], hdram, hcat, fun hnone => ?_⟩
    have hre : (s.updFn p fun f => { f with link := 2, rate := rate, width := width, flit256 := fl, cxl := cx }).reoffer p =
        s.updFn p fun f => { f with link := 2, rate := rate, width := width, flit256 := fl, cxl := cx } := by
      unfold State.reoffer
      rw [State.updFn_mem, hnone]
      rfl
    change (State.reoffer _ p).fn? p = some h at hh
    rw [hre, h1] at hh
    rw [hre]
    exact ⟨OnlyPort.onlyFn (State.updFn_onlyPort (OnlyPort.refl p s) fun _ => rfl), (Option.some.inj hh).symm⟩
  · refine ⟨_, rfl, OnlyPort.onlyFn (State.updFn_onlyPort (OnlyPort.refl p s) fun x => ?_), ?_⟩
    · split <;> rfl
    · rw [State.updFn_fn? hf fun x => by split <;> rfl]
      simp [hr, hfw, hperst, hl]
  · refine ⟨_, rfl, OnlyPort.onlyFn (State.updFn_onlyPort (OnlyPort.refl p s) fun x => ?_), ?_⟩
    · split <;> rfl
    · rw [State.updFn_fn? hf fun x => by split <;> rfl]
      simp [hr, hn]
  · have hx : execD0Return p s = .next ((List.range 16).foldl (fun s i => (s.issueReads p i).fetchNext p i)
        (((s.updFn p fun f => { f with dstate := 0 }).recheckAll p).releaseSignals p)) := by
      unfold execD0Return
      rw [hf]
      dsimp only
      rw [if_neg hd]
    have hrun := ((State.recheckAll_portServes (s.updFn p fun f => { f with dstate := 0 }) p).trans (State.releaseSignals_portServes _ p)).trans
      (PortServes.foldl (l := List.range 16) fun t i => (State.issueReads_portServes t p i).trans (State.fetchNext_portServes _ p i))
    obtain ⟨h, hh, e⟩ := hrun.fn _ (State.updFn_fn? (g := fun f => { f with dstate := 0 }) hf fun _ => rfl)
    exact ⟨_, h, hx, hh, by rw [e], hrun.mem⟩
  · refine ⟨_, congrArg Host.Outcome.next (if_pos ?_), rfl, ?_⟩
    · simp only [ha, hall, hreads, hwrites, hjobs, List.isEmpty_nil, Bool.and_self, Bool.true_and, decide_eq_true_eq]
      exact hbusy
    · unfold updWhere
      simp
  · have h1 : (s.updFn p fun f => { f with turnOff := true }).fn? p = some { f with turnOff := true } := State.updFn_fn? hf fun _ => rfl
    have hx : execPmeTurnOff p s = .next (if (s.updFn p fun f => { f with turnOff := true }).allOff then
        (s.updFn p fun f => { f with turnOff := true }).updPw fun p => { p with flushing := true }
        else s.updFn p fun f => { f with turnOff := true }) := by
      have hlink : s.linkUp p = true := by
        unfold State.linkUp
        rw [hf]
        simpa using hl
      unfold execPmeTurnOff
      rw [if_neg (by simp [ha, hlink])]
    refine ⟨_, { f with turnOff := true }, hx, ?_, rfl, ?_, fun hothers => ?_⟩
    · split
      · exact h1
      · exact h1
    · split <;> rfl
    · rw [if_pos]
      · rfl
      · refine List.all_eq_true.2 fun g hg => ?_
        obtain ⟨y, hy, rfl⟩ := List.mem_map.1 hg
        by_cases hyp : y.port = p
        · simp [hyp]
        · by_cases hy2 : y.link = 2
          · simp [hyp, hothers y hy hyp hy2]
          · simp [hyp, hy2]
  · obtain ⟨hmem, hfn, -, hst⟩ := s.sleepDepot.writeSeals_spec
    obtain ⟨kmem, kchans, -, kout⟩ := State.acks_out (s.sleepDepot.writeSeals.fn.filter fun f => f.link == 2) s.sleepDepot.writeSeals
    refine ⟨_, State.flushComplete_quiet ha hfl hoff hw hc hb hcat, ?_, kmem.trans hmem, ?_⟩
    · have hmemf : f ∈ s.sleepDepot.writeSeals.fn.filter fun f => f.link == 2 := by
        rw [hfn]
        exact List.mem_filter.2 ⟨List.mem_of_find?_eq_some hf, by simpa using hl⟩
      rw [← hp]
      exact kout f hmemf
    · rw [kchans]
      refine hst fun c hc hd => ?_
      obtain ⟨y, -, rfl⟩ := List.mem_map.1 hc
      revert hd
      by_cases hy : isDepot y.sel = true ∧ y.st ≠ 0
      · simp only [hy.1, Bool.true_and]
        rw [if_pos (by simpa using hy.2)]
        intro _
        dsimp only
        split
        · decide
        · split
          · decide
          · next h _ => simpa using h
      · rw [if_neg (by simpa using hy)]
        intro hd h2
        exact hy ⟨hd, by rw [h2]; decide⟩

/-- Settles O34: a reset changes one function and what waits on it, and a power state no memory. -/
theorem functionResetsAndPower : Obligations.FunctionResetsAndPower := ⟨functionResets, functionPower⟩

end Sys2Proof.Machine
end

section
/-! PROOF. The dictionary windows: what an operation changes besides its own effect, the key, and the edition commands. -/

namespace Sys2Proof.Machine

open Sys2Proof.Claims

/-! A value in little-endian bytes. -/

theorem leNat_leBytes_mod (n v : Nat) : leNat (leBytes n v) = v % 256 ^ n := by
  induction n generalizing v with
  | zero => simp [leBytes, leNat, Nat.mod_one]
  | succ n ih =>
    have hb : (byteOf v).toNat = v % 256 := by simp [byteOf]
    rw [leBytes, leNat, ih, hb, Nat.pow_succ', Nat.mod_mul]

theorem leNat_leBytes {n v : Nat} (h : v < 256 ^ n) : leNat (leBytes n v) = v := by
  rw [leNat_leBytes_mod, Nat.mod_eq_of_lt h]

/-! The window's registers, the reply and the lease. -/


theorem onlyWindow_refl (s : State) : onlyWindow s s := rfl

theorem onlyWindow_trans {a b c : State} (h : onlyWindow a b) (k : onlyWindow b c) : onlyWindow a c := by
  unfold onlyWindow at *
  rw [k, h]

theorem State.setWindow_onlyWindow (s : State) (p op idx sub off len : Nat) (rsvd : Bool) :
    onlyWindow s (s.setWindow p op idx sub off len rsvd) := rfl

theorem State.renewLease_onlyWindow (s : State) (h : Holder) : onlyWindow s (s.renewLease h) := by
  unfold State.renewLease
  split <;> rfl

theorem State.expireLease_of_valid {s : State} (h : s.ed.holder = .free ∨ s.tsc < s.ed.lease) : s.expireLease = s := by
  unfold State.expireLease
  refine if_neg ?_
  rcases h with h | h
  · simp [h]
  · simp only [Bool.and_eq_true, decide_eq_true_eq]
    omega

/-- The lease after an operation of a requester that leaves state `u`: a write of the key's holder renews it (R339). -/
def State.renewed (u s : State) (q : Requester) (op : Nat) : State :=
  if isWrite op && s.control q then u.renewLease q.holder else u

theorem State.renewed_onlyWindow (u s : State) (q : Requester) (op : Nat) : onlyWindow u (u.renewed s q op) := by
  unfold State.renewed
  split
  · exact u.renewLease_onlyWindow _
  · rfl

/-- The state in which the operation of port `p`'s window runs. -/
abbrev State.windowed (s : State) (q : Requester) (p op idx sub off len : Nat) : State :=
  s.setWindow p op idx sub off len q.rsvd

/-- A reply of the window: the last message answers the requester, and only the window's registers change besides. -/
structure Replies (u t : State) (q : Requester) (code : Nat) (data : Bytes) : Prop where
  answered : answered t q code data
  eq : t = { u with out := t.out, fn := t.fn }

theorem State.reply_replies (u : State) (p : Nat) (q : Requester) (code : Nat) (data : Bytes) :
    Replies u ((u.endWindow p code data).send (.reply q code data)) q code data :=
  ⟨by simp [Claims.answered, State.send], rfl⟩

theorem Replies.onlyWindow {s u t : State} {q : Requester} {code : Nat} {data : Bytes} (h : Replies u t q code data)
    (hu : onlyWindow s u) : onlyWindow s t :=
  onlyWindow_trans hu (by unfold Claims.onlyWindow; rw [h.eq])

/-- A request of port `p`'s dictionary window, its lease and quiesce as `servedAt` asks. -/
structure WindowOpen (s : State) (q : Requester) (p : Nat) : Prop where
  window : q = .window p ∨ q = .windowRsvd p
  held : s.windowHeld (.window p) = false
  opened : s.windowOpen p = true
  lease : s.ed.holder = .free ∨ s.tsc < s.ed.lease

theorem WindowOpen.orHoldOp {s : State} {q : Requester} {p : Nat} (h : WindowOpen s q p) (i : Instr) (f : State → State) :
    s.orHoldOp q i f = f s := by
  unfold State.orHoldOp
  refine if_neg ?_
  rcases h.window with rfl | rfl
  · simp [h.held]
  · have := h.held
    simp only [Bool.not_eq_true]
    exact this

/-- What an open window's operation answers: the operation runs on the state that the request leaves. -/
theorem WindowOpen.operate {s : State} {q : Requester} {p : Nat} (h : WindowOpen s q p) (op idx sub off len : Nat)
    (f : State → OpResult) :
    s.operate q op idx sub off len f =
      let r := (s.windowed q p op idx sub off len).perform q op idx f
      (r.1.endWindow p r.2.1 r.2.2).send (.reply q r.2.1 r.2.2) := by
  have he := State.expireLease_of_valid h.lease
  rcases h.window with rfl | rfl
  all_goals
    unfold State.operate
    dsimp only
    rw [h.opened, he]
    rfl

/-- An open window's operation replies what `perform` gives. -/
theorem WindowOpen.replies {s u : State} {q : Requester} {p op idx sub off len c : Nat} {v : Bytes} {f : State → OpResult}
    (h : WindowOpen s q p) (hf : (s.windowed q p op idx sub off len).perform q op idx f = (u, c, v)) :
    Replies u (s.operate q op idx sub off len f) q c v := by
  rw [h.operate, hf]
  exact State.reply_replies ..

/-- A request without rsvd bits that is served and succeeds. -/
theorem State.perform_ok {w u : State} {q : Requester} {op idx : Nat} {v : Bytes} {f : State → OpResult}
    (hs : w.opServed op idx = true) (hq : q.rsvd = false) (hf : f w = .ok (u, v)) :
    w.perform q op idx f = (u.renewed w q op, 0, v) := by
  unfold State.perform
  rw [hs, hq, hf]
  rfl

/-- A request without rsvd bits that is served and fails. -/
theorem State.perform_error {w : State} {q : Requester} {op idx c : Nat} {f : State → OpResult} (hs : w.opServed op idx = true)
    (hq : q.rsvd = false) (hf : f w = .error c) : w.perform q op idx f = (w.renewed w q op, c, []) := by
  unfold State.perform
  rw [hs, hq, hf]
  rfl

/-- A request with a rsvd bit set is MALFORMED when it is served. -/
theorem State.perform_malformed {w : State} {q : Requester} {op idx : Nat} {f : State → OpResult} (hs : w.opServed op idx = true)
    (hq : q.rsvd = true) (h1 : 1 ≤ op) (h6 : op ≤ 6) : w.perform q op idx f = (w.renewed w q op, 0xD, []) := by
  unfold State.perform
  rw [hs, hq, decide_eq_true h1, decide_eq_true h6]
  rfl

/-- A served operation that fails answers its code and changes nothing of its own. -/
theorem WindowOpen.fails {s : State} {p op idx sub off len c : Nat} {f : State → OpResult} (h : WindowOpen s (.window p) p)
    (hs : s.opServed op idx = true) (hf : f (s.windowed (.window p) p op idx sub off len) = .error c) :
    answered (s.operate (.window p) op idx sub off len f) (.window p) c [] ∧
      onlyWindow s (s.operate (.window p) op idx sub off len f) := by
  have hr := h.replies (State.perform_error hs rfl hf)
  exact ⟨hr.answered, hr.onlyWindow (State.renewed_onlyWindow ..)⟩

/-- A served operation that succeeds answers its data, and leaves its own effect with the lease renewed by the key's holder. -/
theorem WindowOpen.succeeds {s u : State} {p op idx sub off len : Nat} {v : Bytes} {f : State → OpResult}
    (h : WindowOpen s (.window p) p) (hs : s.opServed op idx = true)
    (hf : f (s.windowed (.window p) p op idx sub off len) = .ok (u, v)) :
    Replies (u.renewed s (.window p) op) (s.operate (.window p) op idx sub off len f) (.window p) 0 v :=
  h.replies (State.perform_ok hs rfl hf)

theorem windowOpen_of_servedAt {s : State} {p op idx : Nat} (h : servedAt s p op idx) : WindowOpen s (.window p) p :=
  ⟨.inl rfl, h.1, h.2.1, h.2.2.2⟩

/-! Writes of the Host port. -/

theorem State.visibleRow_host {s : State} {idx sub : Nat} {r : OdRow} (hsub : sub ≠ 0) (hr : odRow idx sub = some r)
    (hv : r.vis ≤ 1) : s.visibleRow (hostPort s) idx sub = some r := by
  have hs : s.seesVis (hostPort s) r.vis = true := by
    have hc : s.control (hostPort s) = true := by simp [State.control]
    interval_cases hv' : r.vis <;> simp [State.seesVis, hc]
  simp [State.visibleRow, hsub, hr, hs]

/-- What WRITE does with a numeric entry that is no cursor, once the requester may write it and the value fits (R329). -/
theorem State.writeOp_numeric {s : State} {q : Requester} {idx sub : Nat} {r : OdRow} {d : Bytes}
    (hr : s.visibleRow q idx sub = some r) (hcur : cursorScope idx sub = none)
    (hu : s.unavailable r ((s.cursors q).object r.scope) = false) (hq : s.control q = true) (h1 : r.acc ≠ 1) (h4 : r.acc ≠ 4)
    (h5 : r.acc = 5 → s.holds q = true) (hk : idx = 0x1020 → s.ed.holder = .free ∨ s.holds q = true) (hty : r.ty ≤ 8)
    (hlen : d.length = r.len) (hlo : r.lo ≤ leNat d) (hhi : leNat d ≤ r.hi) :
    s.writeOp q idx sub 0 d =
      (s.numEffect q idx sub ((s.cursors q).object r.scope) (leNat d)).map fun t => (t, []) := by
  have hkey : (r.acc == 5 && !s.holds q) = false := by
    by_cases h : r.acc = 5
    · simp [h5 h]
    · simp [h]
  have hheld : (idx == 0x1020 && s.ed.holder != .free && !s.holds q) = false := by
    by_cases h : idx = 0x1020
    · rcases hk h with h | h <;> simp [h]
    · simp [h]
  have hbad : ¬ (0 ≠ 0 ∨ leNat d < r.lo ∨ r.hi < leNat d) := by omega
  unfold State.writeOp
  rw [hr]
  simp [hcur, hu, hq, h1, h4, hkey, hheld, hty, hlen, Nat.not_lt.2 hlo, Nat.not_lt.2 hhi]

/-- A numeric RWK entry of no die, which the Host port sees. -/
structure KeyEntryRow (idx sub : Nat) (r : OdRow) : Prop where
  row : odRow idx sub = some r
  subOk : sub ≠ 0
  vis : r.vis ≤ 1
  acc : r.acc = 5
  ty : r.ty ≤ 8
  cursor : cursorScope idx sub = none

theorem holds_host {s : State} (h : s.ed.holder = .host) : s.holds (hostPort s) = true := by
  simp [State.holds, State.control, h, Requester.holder]

/-- A write of a numeric RWK entry under the key: what the entry's effect answers. -/
theorem State.writeOp_keyed {s : State} {idx sub : Nat} {r : OdRow} {d : Bytes} (h : KeyEntryRow idx sub r) (hidx : idx ≠ 0x1020)
    (hkey : s.ed.holder = .host) (hu : s.unavailable r ((s.cursors (hostPort s)).object r.scope) = false)
    (hlen : d.length = r.len) (hlo : r.lo ≤ leNat d) (hhi : leNat d ≤ r.hi) :
    s.writeOp (hostPort s) idx sub 0 d =
      (s.numEffect (hostPort s) idx sub ((s.cursors (hostPort s)).object r.scope) (leNat d)).map fun t => (t, []) :=
  State.writeOp_numeric (State.visibleRow_host h.subOk h.row h.vis) h.cursor hu (by simp [State.control])
    (by rw [h.acc]; decide) (by rw [h.acc]; decide) (fun _ => holds_host hkey) (fun e => absurd e hidx) h.ty hlen hlo hhi

/-- A write of an entry through the Host port's window. -/
theorem hostWrite_eq {s : State} (h : WindowOpen s (hostPort s) s.act.controlPort) (idx sub off : Nat) (d : Bytes) :
    s.dictWrite (hostPort s) idx sub off d =
      s.operate (hostPort s) 2 idx sub off d.length fun w => w.writeOp (hostPort s) idx sub off d :=
  h.orHoldOp (.write (hostPort s) idx sub off d) _

/-- The state in which the Host port's write runs. -/
abbrev hostWriting (s : State) (idx sub off n : Nat) : State := s.windowed (hostPort s) s.act.controlPort 2 idx sub off n

/-- A write of the Host port that has an effect. -/
theorem hostWrites {s u : State} {idx sub off : Nat} {d : Bytes} (h : servedAt s s.act.controlPort 2 idx)
    (hf : (hostWriting s idx sub off d.length).writeOp (hostPort s) idx sub off d = .ok (u, [])) :
    ∃ t, (.next (s.dictWrite (hostPort s) idx sub off d) : Res) = .next t ∧
      Replies (u.renewed s (hostPort s) 2) t (hostPort s) 0 [] :=
  ⟨_, congrArg Host.Outcome.next (hostWrite_eq (windowOpen_of_servedAt h) ..),
    (windowOpen_of_servedAt h).succeeds (f := fun w => w.writeOp (hostPort s) idx sub off d) h.2.2.1 hf⟩

/-- A write of the Host port that is refused. -/
theorem hostWrite_fails {s : State} {idx sub off c : Nat} {d : Bytes} (h : servedAt s s.act.controlPort 2 idx)
    (hf : (hostWriting s idx sub off d.length).writeOp (hostPort s) idx sub off d = .error c) :
    ∃ t, (.next (s.dictWrite (hostPort s) idx sub off d) : Res) = .next t ∧ answered t (hostPort s) c [] ∧ onlyWindow s t :=
  ⟨_, congrArg Host.Outcome.next (hostWrite_eq (windowOpen_of_servedAt h) ..),
    (windowOpen_of_servedAt h).fails (f := fun w => w.writeOp (hostPort s) idx sub off d) h.2.2.1 hf⟩

/-- A write that leaves the key with the Host port renews its lease. -/
theorem State.renewed_write {u s : State} (hu : u.ed.holder = .host) :
    u.renewed s (hostPort s) 2 = u.updEd fun e => { e with lease := u.tsc + leaseTime } := by
  simp [State.renewed, isWrite, State.control, State.renewLease, hu, Requester.holder]

/-- A write that leaves the key free renews nothing. -/
theorem State.renewed_free {u s : State} (hu : u.ed.holder = .free) : u.renewed s (hostPort s) 2 = u := by
  simp [State.renewed, isWrite, State.control, State.renewLease, hu, Requester.holder]

/-! The privilege of the key. -/

/-- Without the key the Host port's write of an RWK entry is NO_KEY, whatever its value. -/
theorem writeOp_noKey {s : State} {idx sub off : Nat} {d : Bytes} {r : OdRow} (hsub : sub ≠ 0) (hr : odRow idx sub = some r)
    (hcur : cursorScope idx sub = none) (hacc : r.acc = 5) (hv : r.vis ≤ 1)
    (hu : s.unavailable r ((s.cursors (hostPort s)).object r.scope) = false) (hkey : s.ed.holder ≠ .host) :
    s.writeOp (hostPort s) idx sub off d = .error 3 := by
  have hh : s.holds (hostPort s) = false := by simp [State.holds, Requester.holder, hkey]
  unfold State.writeOp
  rw [State.visibleRow_host hsub hr hv]
  simp [hsub, hcur, hu, hacc, hh, State.control]

/-- A write by a port that is not control-capable is refused: unseen, on an absent die, or not allowed. -/
theorem writeOp_notControl {s : State} {p idx sub off : Nat} {d : Bytes} (hsub : sub ≠ 0) (hcur : cursorScope idx sub = none)
    (hp : p ≠ s.act.controlPort) : ∃ c, s.writeOp (.window p) idx sub off d = .error c ∧ c ∈ [1, 2, 14] := by
  have hc : s.control (.window p) = false := by simp [State.control, hp]
  unfold State.writeOp
  cases hr : s.visibleRow (.window p) idx sub with
  | none => exact ⟨1, rfl, by simp⟩
  | some r =>
    dsimp only
    by_cases hu : s.unavailable r ((s.cursors (.window p)).object r.scope) = true
    · exact ⟨14, by simp [hsub, hcur, hu], by simp⟩
    · exact ⟨2, by simp [hcur, hu, hc], by simp⟩

/-- Settles O36: the refusals stand in WRITE before the entry's effect and before its value is looked at. -/
theorem writesNeedTheKey : Obligations.WritesNeedTheKey := by
  unfold Obligations.WritesNeedTheKey
  intro s idx sub off d r hsub hr hcur
  refine ⟨fun hacc hv hu hs hkey => hostWrite_fails hs (writeOp_noKey (s := hostWriting s idx sub off d.length) hsub hr hcur hacc
    hv hu hkey), fun p hp hs => ?_⟩
  have hw := windowOpen_of_servedAt hs
  obtain ⟨c, hc, hmem⟩ := writeOp_notControl (s := s.windowed (.window p) p 2 idx sub off d.length) (off := off) (d := d)
    hsub hcur hp
  have h := hw.fails (f := fun s => s.writeOp (.window p) idx sub off d) hs.2.2.1 hc
  exact ⟨_, c, congrArg Host.Outcome.next (hw.orHoldOp (.write (.window p) idx sub off d) _), h.1, hmem, h.2⟩

/-! The key is taken and broken. -/

theorem OnlyRecords.holder {s t : State} (h : OnlyRecords s t) : t.ed.holder = s.ed.holder := by rw [← h.ed]

/-- A break of a held key (R340): the key is free, and what is staged and not committing is discarded. -/
theorem State.breakKey_spec {s : State} (c : Nat) (h : s.ed.holder ≠ .free) :
    (s.breakKey c).ed.holder = .free ∧ unstagedUnlessCommitting s (s.breakKey c) ∧ (s.breakKey c).act = s.act ∧
      (s.breakKey c).mem = s.mem := by
  have hb := (State.bump_onlyRecords (i := 0x1020) (j := 4) (k := 0) (n := 1)
    (.refl (s.updEd fun e => { e with holder := .free, lease := 0 })))
  have hbroken := State.event_onlyRecords (sc := .d) (t := 0x60) (u := s.primarySrc) (c := 0xFFFF)
    (b := pack [(1, s.ed.holder.code), (4, s.ed.holder.sessionId), (1, c)]) hb
  unfold State.breakKey unstagedUnlessCommitting
  rw [if_neg (by simp [h])]
  dsimp only
  generalize hu : State.event _ .d 0x60 _ _ _ = u at hbroken ⊢
  cases hst : s.ed.staged with
  | none =>
    refine ⟨hbroken.holder, ?_, hbroken.act, hbroken.mem⟩
    by_cases h5 : s.ed.stagedState = 5
    · simp [h5, hbroken.staged, hbroken.stagedState, hst]
    · simp [h5, hbroken.staged, hst]
  | some x =>
    by_cases h5 : s.ed.stagedState = 5
    · dsimp only
      rw [if_pos h5, if_pos h5]
      exact ⟨hbroken.holder, ⟨hbroken.staged.trans hst, hbroken.stagedState.trans h5⟩, hbroken.act, hbroken.mem⟩
    · have hev := State.event_onlyRecords (sc := .d) (t := 0x61) (u := s.primarySrc) (c := 0xFFFF)
        (b := leBytes 4 x.num) (.refl (u.updEd EdState.unstaged))
      dsimp only
      rw [if_neg h5, if_neg h5]
      exact ⟨hev.holder.trans hbroken.holder, ⟨hev.staged, fun _ => hev.stagedState⟩, hev.act.trans hbroken.act,
        hev.mem.trans hbroken.mem⟩

/-- The row of the key's entry. -/
theorem odRow_key : odRow 0x1020 1 = some (num 0x1020 1 1 1 2 0 0 1) := by decide

/-- A write of the key's entry by the Host port, the key free or its own. -/
theorem writeOp_key {s : State} {n : Nat} (hn : n < 256) (h : s.ed.holder = .free ∨ s.ed.holder = .host) :
    s.writeOp (hostPort s) 0x1020 1 0 (leBytes 1 n) = (s.numEffect (hostPort s) 0x1020 1 0 n).map fun t => (t, []) := by
  have hv : leNat (leBytes 1 n) = n := leNat_leBytes (by simpa using hn)
  have hlo : (num 0x1020 1 1 1 2 0 0 1).lo ≤ leNat (leBytes 1 n) := Nat.zero_le _
  have hhi : leNat (leBytes 1 n) ≤ (num 0x1020 1 1 1 2 0 0 1).hi := by rw [hv]; exact Nat.le_of_lt_succ hn
  have hw := State.writeOp_numeric (s := s) (q := hostPort s) (idx := 0x1020) (sub := 1) (d := leBytes 1 n)
    (State.visibleRow_host (by decide) odRow_key (by decide)) (by decide) rfl (by simp [State.control]) (by decide) (by decide)
    (fun e => absurd e (by decide)) (fun _ => h.imp_right holds_host) (by decide) rfl hlo hhi
  rw [hw, hv]
  rfl

/-- A write of the key's entry by the Host port while a session holds the key. -/
theorem writeOp_key_held {s : State} {i n : Nat} (h : s.ed.holder = .session i) :
    s.writeOp (hostPort s) 0x1020 1 0 (leBytes 1 n) = .error 0xA := by
  have hh : s.holds (hostPort s) = false := by simp [State.holds, Requester.holder, h]
  have hc : cursorScope 0x1020 1 = none := by decide
  unfold State.writeOp
  rw [State.visibleRow_host (by decide) odRow_key (by decide)]
  simp [State.control, hh, h, hc, num, State.unavailable]

theorem State.takeEntry_of {s : State} {k : Holder} (h : s.ed.holder = .free ∨ s.ed.holder = k) :
    s.takeEntry k = .ok (s.updEd fun e => { e with holder := k, lease := s.tsc + leaseTime }) := if_pos (by simpa using h)

theorem State.releaseEntry_holder {s : State} {k : Holder} (hk : k ≠ .free) (h : s.ed.holder = k) :
    s.releaseEntry k = .ok (s.breakKey 1) := by
  simp [State.releaseEntry, h, hk]

theorem State.releaseEntry_free {s : State} {k : Holder} (h : s.ed.holder = .free) : s.releaseEntry k = .ok s := by
  simp [State.releaseEntry, h]

/-- Settles O37: the key's entry takes, renews or breaks the key, and the lease's end breaks it. -/
theorem keyIsTakenAndBroken : Obligations.KeyIsTakenAndBroken := by
  unfold Obligations.KeyIsTakenAndBroken
  intro s
  refine ⟨fun hs => ?_, fun hrun hkey hl => ?_, fun hl => ?_⟩
  · have hheld (n i : Nat) (h : s.ed.holder = .session i) :=
      hostWrite_fails hs (writeOp_key_held (s := hostWriting s 0x1020 1 0 (leBytes 1 n).length) (n := n) h)
    have hdone {u : State} {n : Nat} (hn : n < 256) (h : s.ed.holder = .free ∨ s.ed.holder = .host)
        (hu : (hostWriting s 0x1020 1 0 1).numEffect (hostPort s) 0x1020 1 0 n = .ok u) :=
      hostWrites (idx := 0x1020) (sub := 1) (off := 0) (d := leBytes 1 n) hs
        ((writeOp_key (s := hostWriting s 0x1020 1 0 1) hn h).trans (congrArg (Except.map fun t => (t, [])) hu))
    refine ⟨fun h => ?_, fun i h => hheld 1 i h, fun i h => hheld 0 i h, fun h => ?_, fun h => ?_⟩
    · obtain ⟨t, ht, hr⟩ := hdone (n := 1) (by decide) h (State.takeEntry_of (s := hostWriting s 0x1020 1 0 1) h)
      rw [State.renewed_write rfl] at hr
      refine ⟨t, ht, hr.answered, ?_⟩
      rw [hr.eq]
      exact ⟨rfl, rfl⟩
    · obtain ⟨hk, hst, hact, hmem⟩ := State.breakKey_spec (s := hostWriting s 0x1020 1 0 1) 1
        (by rw [show (hostWriting s 0x1020 1 0 1).ed = s.ed from rfl, h]; decide)
      obtain ⟨t, ht, hr⟩ := hdone (n := 0) (by decide) (.inr h)
        (State.releaseEntry_holder (s := hostWriting s 0x1020 1 0 1) nofun h)
      rw [State.renewed_free hk] at hr
      generalize (hostWriting s 0x1020 1 0 1).breakKey 1 = u at hk hst hact hmem hr
      refine ⟨t, ht, hr.answered, ?_⟩
      rw [hr.eq]
      exact ⟨hk, hst, hact, hmem⟩
    · obtain ⟨t, ht, hr⟩ := hdone (n := 0) (by decide) (.inl h) (State.releaseEntry_free (s := hostWriting s 0x1020 1 0 1) h)
      exact ⟨t, ht, hr.answered, hr.onlyWindow (State.renewed_onlyWindow ..)⟩
  · have he : s.expireLease = s.breakKey 2 := if_pos (by simp [hkey, hl])
    exact ⟨_, congrArg Host.Outcome.next ((if_pos hrun).trans he), State.breakKey_spec 2 hkey⟩
  · exact congrArg Host.Outcome.next ((ite_congr rfl (fun _ => State.expireLease_of_valid (.inr hl)) fun _ => rfl).trans (ite_self s))

/-! The edition commands (R342, R343, R348). -/

theorem editionRow : KeyEntryRow 0x7001 1 (lim 0x7001 1 1 1 5 0 0 1 1 5) where
  row := by decide
  subOk := by decide
  vis := by decide
  acc := rfl
  ty := by decide
  cursor := by decide

/-- A write of the edition command entry under the key runs the command. -/
theorem writeOp_edition {s : State} {n : Nat} (h1 : 1 ≤ n) (h5 : n ≤ 5) (hk : s.ed.holder = .host) :
    s.writeOp (hostPort s) 0x7001 1 0 (leBytes 1 n) = (s.editionEntry n).map fun t => (t, []) := by
  have hv : leNat (leBytes 1 n) = n := leNat_leBytes (by omega)
  have hw := State.writeOp_keyed (s := s) (d := leBytes 1 n) editionRow (by decide) hk rfl rfl (by rw [hv]; exact h1) (by rw [hv]; exact h5)
  rw [hw, hv]
  rfl

/-- An edition command that has an effect, and keeps the key with the Host port. -/
theorem edition_done {s u : State} {n : Nat} (h : keyedAt s 0x7001) (h1 : 1 ≤ n) (h5 : n ≤ 5)
    (hu : (hostWriting s 0x7001 1 0 1).editionEntry n = .ok u) (hk : u.ed.holder = .host) :
    ∃ t, (.next (s.dictWrite (hostPort s) 0x7001 1 0 (leBytes 1 n)) : Res) = .next t ∧
      Replies (u.updEd fun e => { e with lease := u.tsc + leaseTime }) t (hostPort s) 0 [] := by
  rw [← State.renewed_write (s := s) hk]
  exact hostWrites (idx := 0x7001) (sub := 1) (off := 0) (d := leBytes 1 n) h.1
    ((writeOp_edition (s := hostWriting s 0x7001 1 0 1) h1 h5 h.2).trans (congrArg (Except.map fun t => (t, [])) hu))

/-- An edition command that is refused. -/
theorem edition_refused {s : State} {n c : Nat} (h : keyedAt s 0x7001) (h1 : 1 ≤ n) (h5 : n ≤ 5)
    (hu : (hostWriting s 0x7001 1 0 1).editionEntry n = .error c) :
    ∃ t, (.next (s.dictWrite (hostPort s) 0x7001 1 0 (leBytes 1 n)) : Res) = .next t ∧ answered t (hostPort s) c [] ∧ onlyWindow s t :=
  hostWrite_fails (idx := 0x7001) (sub := 1) (off := 0) (d := leBytes 1 n) h.1
    ((writeOp_edition (s := hostWriting s 0x7001 1 0 1) h1 h5 h.2).trans (congrArg (Except.map fun t => (t, [])) hu))

/-! What each edition command does (R342). -/

theorem State.editionEntry_beginActive {s : State} (h0 : s.ed.stagedState = 0) (hc : s.ed.confirmed = true) :
    s.editionEntry 1 = .ok (s.stage s.activeEdition) := by
  simp [State.editionEntry, State.beginActiveEntry, h0, hc]

theorem State.editionEntry_beginPrevious {s : State} {e : Edition} (h0 : s.ed.stagedState = 0) (hc : s.ed.confirmed = true)
    (he : s.ed.previous = some e) : s.editionEntry 2 = .ok (s.stage e) := by
  simp [State.editionEntry, State.beginPreviousEntry, h0, hc, he]

theorem State.editionEntry_beginActive_staged {s : State} (h0 : s.ed.stagedState ≠ 0) : s.editionEntry 1 = .error 6 := by
  simp [State.editionEntry, State.beginActiveEntry, h0]

theorem State.editionEntry_beginPrevious_staged {s : State} (h0 : s.ed.stagedState ≠ 0) : s.editionEntry 2 = .error 6 := by
  unfold State.editionEntry State.beginPreviousEntry
  cases s.ed.previous <;> simp [h0]

theorem State.editionEntry_validate {s : State} (h : s.ed.stagedState = 1 ∨ s.ed.stagedState = 3 ∨ s.ed.stagedState = 4) :
    s.editionEntry 3 = .ok (s.updEd fun e => { e with stagedState := 2 }) := by
  simp [State.editionEntry, State.validateEntry, h]

theorem State.editionEntry_discard {s : State} (h1 : 1 ≤ s.ed.stagedState) (h4 : s.ed.stagedState ≤ 4) :
    s.editionEntry 4 = .ok (s.updEd EdState.unstaged) := by
  simp [State.editionEntry, State.discardEntry, h1, h4]

theorem State.editionEntry_confirm {s : State} (hc : s.ed.confirmed = false) (hd : s.tsc < s.ed.deadline) :
    s.editionEntry 5 = .ok (s.updEd fun e => { e with confirmed := true }) := by
  simp [State.editionEntry, State.confirmEntry, hc, Nat.not_le.2 hd]

theorem State.editionEntry_confirmed {s : State} (hc : s.ed.confirmed = true) : s.editionEntry 5 = .error 6 := by
  simp [State.editionEntry, State.confirmEntry, hc]

/-- The end of validation (R343). -/
theorem State.endValidation_spec {s : State} {x : Edition} (hx : s.ed.staged = some x) (h2 : s.ed.stagedState = 2) :
    s.endValidation.ed.staged = some x ∧ s.endValidation.act = s.act ∧ s.endValidation.mem = s.mem ∧
      s.endValidation.ed.stagedState = if (s.validateEdition x).isNone then 3 else 4 := by
  unfold State.endValidation
  rw [hx]
  dsimp only
  rw [if_neg (by simp [h2])]
  generalize hu : State.updEd _ _ = u
  have hev := State.event_onlyRecords (sc := .d) (t := 0x62) (u := s.primarySrc) (c := 0xFFFF)
    (b := pack [(4, x.num), (2, ((s.validateEdition x).getD (0, 0, 0, 0)).1)]) (.refl u)
  subst hu
  exact ⟨hev.staged.trans hx, hev.act, hev.mem, hev.stagedState⟩

/-- Settles O38: each command is its entry's guard and effect, and validation ends as its checks say. -/
theorem editionCommands : Obligations.EditionCommands := by
  unfold Obligations.EditionCommands
  intro s
  refine ⟨fun h => ?_, fun x hrun hx h2 =>
    ⟨_, congrArg Host.Outcome.next (if_pos hrun), State.endValidation_spec hx h2⟩⟩
  let w := hostWriting s 0x7001 1 0 1
  refine ⟨fun h0 hc => ?_, fun e h0 hc he => ?_, fun h0 =>
    ⟨edition_refused h (by decide) (by decide) (State.editionEntry_beginActive_staged (s := w) h0),
      edition_refused h (by decide) (by decide) (State.editionEntry_beginPrevious_staged (s := w) h0)⟩, fun hst => ?_, fun h1 h4 => ?_,
    fun hc hd => ?_, fun hc => edition_refused h (by decide) (by decide) (State.editionEntry_confirmed (s := w) hc)⟩
  · obtain ⟨t, ht, hr⟩ := edition_done h (by decide) (by decide) (State.editionEntry_beginActive (s := w) h0 hc) h.2
    exact ⟨t, ht, hr.answered, by rw [hr.eq]; exact ⟨rfl, rfl, rfl, rfl⟩⟩
  · obtain ⟨t, ht, hr⟩ := edition_done h (by decide) (by decide) (State.editionEntry_beginPrevious (s := w) h0 hc he) h.2
    exact ⟨t, ht, hr.answered, by rw [hr.eq]; exact ⟨rfl, rfl, rfl, rfl⟩⟩
  · obtain ⟨t, ht, hr⟩ := edition_done h (by decide) (by decide) (State.editionEntry_validate (s := w) hst) h.2
    exact ⟨t, ht, hr.answered, by rw [hr.eq]; exact ⟨rfl, rfl, rfl, rfl⟩⟩
  · obtain ⟨t, ht, hr⟩ := edition_done h (by decide) (by decide) (State.editionEntry_discard (s := w) h1 h4) h.2
    exact ⟨t, ht, hr.answered, by rw [hr.eq]; exact ⟨rfl, rfl, rfl, rfl⟩⟩
  · obtain ⟨t, ht, hr⟩ := edition_done h (by decide) (by decide) (State.editionEntry_confirm (s := w) hc hd) h.2
    exact ⟨t, ht, hr.answered, by rw [hr.eq]; exact ⟨rfl, rfl, rfl⟩⟩

end Sys2Proof.Machine
end

section
/-! PROOF. Operations of a dictionary window, and staged reads and writes of the Host port. -/

namespace Sys2Proof.Machine

open Sys2Proof.Claims

/-! Reads and descriptions of the entries the manual names. -/

theorem State.dieTsc_draw (s : State) (d : Nat) : s.draw.2.dieTsc d = s.dieTsc d := rfl

/-- An index and subindex with no row are seen by no requester. -/
theorem State.visibleRow_none {s : State} {q : Requester} {idx sub : Nat} (hsub : sub ≠ 0) (h : odRow idx sub = none) :
    s.visibleRow q idx sub = none := by
  simp [State.visibleRow, hsub, h]

theorem State.visibleRow_every {s : State} {q : Requester} {idx sub : Nat} {r : OdRow} (hsub : sub ≠ 0) (h : odRow idx sub = some r)
    (hv : r.vis = 0) : s.visibleRow q idx sub = some r := by
  simp [State.visibleRow, hsub, h, State.seesVis, hv]

/-- Subindex 0 of an index that some row every port sees stands under (R325). -/
theorem State.visibleRow_zero {s : State} {q : Requester} {idx h : Nat} (hany : ∃ r ∈ odRows, r.idx = idx ∧ r.vis = 0)
    (hh : odHighest idx = some h) : s.visibleRow q idx 0 = some { num idx 0 0 1 1 0 h 0 with hi := h } := by
  obtain ⟨r, hr, hi, hv⟩ := hany
  unfold State.visibleRow
  rw [if_pos rfl, hh]
  cases hl : odRows.filter fun r => r.idx == idx && s.seesVis q r.vis with
  | nil =>
    have := List.filter_eq_nil_iff.1 hl r hr
    simp [hi, hv, State.seesVis] at this
  | cons x l => rfl

theorem readOp_identity (s : State) (q : Requester) : s.readOp q 0x1000 0 0 1 = .ok (s.draw.2, [3]) := by
  unfold State.readOp
  rw [State.visibleRow_zero (idx := 0x1000) (h := 3) ⟨num 0x1000 1 1 2 1 0 0 0, by decide, rfl, rfl⟩ (by decide)]
  rfl

theorem readOp_tsc (s : State) (q : Requester) :
    s.readOp q 0x5000 1 0 8 = .ok (s.draw.2, leBytes 8 (s.dieTsc s.pkg.primary)) := by
  unfold State.readOp
  rw [State.visibleRow_every (r := num 0x5000 1 1 4 1 0 0 0) (by decide) (by decide) rfl]
  have hc : cursorScope 0x5000 1 = none := by decide
  simp [State.unavailable, num, State.odValue, hc, State.hidden, State.readNum, State.read7, piece, padTo, State.draw, State.dieTsc, zeros]
  rfl

/-- DESCRIBE of the collection's size (OD 0x3001:03). -/
theorem describeOp_size (s : State) (q : Requester) :
    ∃ v, s.describeOp q 0x3001 3 = .ok (s, v) ∧ v.take 4 = [4, 4, 2, 0] ∧ v.length = 48 := by
  unfold State.describeOp
  rw [State.visibleRow_every (r := lim 0x3001 3 3 4 4 2 0 0 0 (2 ^ 46)) (by decide) (by decide) rfl]
  refine ⟨_, rfl, ?_, ?_⟩
  · simp [pack, leBytes, lim, num, byteOf]
  · simp [pack, leBytes_length]

/-- The first entries of the dictionary. -/
theorem odEntries_front :
    odEntries = [(0x1000, 0), (0x1000, 1), (0x1000, 2), (0x1000, 3)] ++ (0x1010, 0) :: odEntries.drop 5 := by
  rfl

theorem nextOp_identity (s : State) (q : Requester) : s.nextOp q 0x1000 3 = .ok (s, [0x10, 0x10, 0]) := by
  have hv := State.visibleRow_zero (s := s) (q := q) (idx := 0x1010) (h := 4) ⟨lim 0x1010 1 1 1 4 0 0 0 0 15, by decide, rfl, rfl⟩
    (by decide)
  have h : s.entryAfter q 0x1000 3 = some (0x1010, 0) := by
    unfold State.entryAfter
    rw [odEntries_front]
    simp [hv]
  unfold State.nextOp
  rw [h]
  rfl

/-! The cursors of a requester (R327). -/

theorem State.cursors_owner (s : State) (q : Requester) : (s.cursors q).owner = q.owner := by
  have hf : ((s.ed.cursors.find? (·.owner == q.owner)).getD (.start q.owner)).owner = q.owner := by
    cases h : s.ed.cursors.find? (·.owner == q.owner) with
    | none => rfl
    | some c => simpa using List.find?_some h
  unfold State.cursors
  dsimp only
  split
  · exact hf
  · exact hf

/-- The collection a requester's cursor selects after a write of it. -/
theorem State.setCursors_coll (s : State) (q : Requester) (c : Nat) :
    ((s.setCursors q fun x => x.put 2 c).cursors q).coll = c := by
  have hnone : (s.ed.cursors.filter (·.owner != q.owner)).find? (·.owner == q.owner) = none := by
    simp [List.find?_eq_none]
  have hput : (((s.cursors q).put 2 c).owner == q.owner) = true := by simp [Cursors.put, s.cursors_owner q]
  have hfind : (s.setCursors q fun x => x.put 2 c).ed.cursors.find? (·.owner == q.owner) = some ((s.cursors q).put 2 c) := by
    simp only [State.setCursors, State.updEd, List.find?_append, hnone, Option.none_or, List.find?_cons, hput]
  unfold State.cursors
  rw [hfind]
  dsimp only [Option.getD_some]
  split <;> rfl

theorem onlyWindow_mem {s t : State} (h : onlyWindow s t) : t.mem = s.mem := by rw [h]

theorem onlyWindow_act {s t : State} (h : onlyWindow s t) : t.act = s.act := by
  rw [h]
  rfl

theorem onlyWindow_cursors {s t : State} {q : Requester} (h : onlyWindow s t) : t.cursors q = s.cursors q := by
  rw [h]
  rfl

/-- A write of the collection cursor. -/
theorem writeOp_collection {s : State} {q : Requester} {c : Nat} (hc : c < 4096) :
    s.writeOp q 0x3000 1 0 (leBytes 2 c) = .ok (s.setCursors q fun x => x.put 2 c, []) := by
  have hv : leNat (leBytes 2 c) = c := leNat_leBytes (by omega)
  have hs : cursorScope 0x3000 1 = some 2 := by decide
  have hl : (leBytes 2 c).length = 2 := leBytes_length ..
  unfold State.writeOp
  rw [State.visibleRow_every (r := lim 0x3000 1 1 2 2 0 0 0 0 0xFFF) (by decide) (by decide) rfl]
  simp [hs, hv, hl, lim, num, State.unavailable, State.cursorEffect, Nat.not_lt.2 (Nat.le_of_lt_succ hc)]
  rfl

/-! The operations of a window. -/

/-- An operation on an entry with no row is NO_ENTRY. -/
theorem operations_noEntry {s : State} {q : Requester} {idx sub off len : Nat} {d : Bytes} (hsub : sub ≠ 0) (h : odRow idx sub = none) :
    s.readOp q idx sub off len = .error 1 ∧ s.writeOp q idx sub off d = .error 1 ∧ s.readStagedOp q idx sub off len = .error 1 ∧
      s.writeStagedOp q idx sub off d = .error 1 ∧ s.describeOp q idx sub = .error 1 := by
  have hv := State.visibleRow_none (s := s) (q := q) hsub h
  refine ⟨?_, ?_, ?_, ?_, ?_⟩
  · rw [State.readOp, hv]
  · rw [State.writeOp, hv]
  · rw [State.readStagedOp, hv]
  · rw [State.writeStagedOp, hv]
  · rw [State.describeOp, hv]

/-- A served operation that reads: its data, and nothing changed of its own. -/
theorem WindowOpen.reads {s u : State} {p op idx sub off len : Nat} {v : Bytes} {f : State → OpResult}
    (h : WindowOpen s (.window p) p) (hs : s.opServed op idx = true)
    (hf : f (s.windowed (.window p) p op idx sub off len) = .ok (u, v)) (hu : onlyWindow s u) :
    answered (s.operate (.window p) op idx sub off len f) (.window p) 0 v ∧
      onlyWindow s (s.operate (.window p) op idx sub off len f) :=
  ⟨(h.succeeds hs hf).answered, (h.succeeds hs hf).onlyWindow (onlyWindow_trans hu (State.renewed_onlyWindow ..))⟩

/-- A served request with a rsvd bit set is MALFORMED and without effect. -/
theorem WindowOpen.malformed {s : State} {p op idx sub off len : Nat} {f : State → OpResult} (h : WindowOpen s (.windowRsvd p) p)
    (hs : s.opServed op idx = true) (h1 : 1 ≤ op) (h6 : op ≤ 6) :
    answered (s.operate (.windowRsvd p) op idx sub off len f) (.windowRsvd p) 0xD [] ∧
      onlyWindow s (s.operate (.windowRsvd p) op idx sub off len f) := by
  have hr := h.replies (sub := sub) (off := off) (len := len) (f := f)
    (State.perform_malformed (w := s.windowed (.windowRsvd p) p op idx sub off len) hs rfl h1 h6)
  exact ⟨hr.answered, hr.onlyWindow (State.renewed_onlyWindow ..)⟩

/-- A read that is not served is BUSY with a hint of 10 ms or more. -/
theorem WindowOpen.busy {s : State} {p idx sub off len : Nat} {f : State → OpResult} (h : WindowOpen s (.window p) p)
    (hs : s.opServed 1 idx = false) :
    ∃ n, 10 ≤ n ∧ answered (s.operate (.window p) 1 idx sub off len f) (.window p) 7 (leBytes 4 n) ∧
      onlyWindow s (s.operate (.window p) 1 idx sub off len f) := by
  let w := s.windowed (.window p) p 1 idx sub off len
  have hp : w.perform (.window p) 1 idx f = (w.draw.2, 7, leBytes 4 (max 10 (Config.freeNat w.draw.1 % 2 ^ 32))) :=
    if_pos (congrArg not hs)
  have hr := h.replies hp
  exact ⟨_, le_max_left .., hr.answered, hr.onlyWindow rfl⟩

theorem windowOperations : WindowOperations := by
  intro s p idx sub off len d hheld hopen hl
  have hw : WindowOpen s (.window p) p := ⟨.inl rfl, hheld, hopen, hl⟩
  have hr : WindowOpen s (.windowRsvd p) p := ⟨.inr rfl, hheld, hopen, hl⟩
  have hrun {q : Requester} (hq : WindowOpen s q p) (i : Instr) (f : State → State) :=
    congrArg (fun t => (.next t : Res)) (hq.orHoldOp i f)
  refine ⟨fun hsub hrow => ?_, fun op hop hs => ?_, fun hs => ⟨_, hrun hr _ _, hr.malformed hs (by decide) (by decide)⟩,
    fun hs => ⟨_, hrun hr _ _, hr.malformed hs (by decide) (by decide)⟩, fun hs => ?_,
    fun hs => ⟨_, hrun hw _ _, hw.reads hs (readOp_identity ..) rfl⟩, fun hs => ⟨_, hrun hw _ _, hw.reads hs (readOp_tsc ..) rfl⟩,
    fun c hs hc => ?_, fun hs => ?_, fun hs => ⟨_, hrun hw _ _, hw.reads hs (nextOp_identity ..) rfl⟩⟩
  · have hno (op n : Nat) := operations_noEntry (s := s.windowed (.window p) p op idx sub off n) (q := .window p) (off := off) (len := len)
      (d := d) hsub hrow
    exact ⟨fun hs => ⟨_, hrun hw _ _, hw.fails hs (hno 1 len).1⟩, fun hs => ⟨_, hrun hw _ _, hw.fails hs (hno 2 d.length).2.1⟩,
      fun hs => ⟨_, hrun hw _ _, hw.fails hs (hno 3 len).2.2.1⟩, fun hs => ⟨_, hrun hw _ _, hw.fails hs (hno 4 d.length).2.2.2.1⟩,
      fun hs => ⟨_, hrun hw _ _, hw.fails (off := 0) (len := 0) hs (operations_noEntry (off := 0) (len := 0) (d := []) hsub hrow).2.2.2.2⟩⟩
  · have hno : ((1 ≤ op && op ≤ 6) || op == 0x40 || op == 0x41) = false := by
      rcases hop with rfl | ⟨h6, h40, h41⟩
      · decide
      · simp [h40, h41]
        omega
    exact ⟨_, congrArg (fun t => (.next t : Res)) ((if_neg (by simp [hno])).trans (hw.orHoldOp _ _)),
      hw.fails (sub := 0) (off := 0) (len := 0) (f := fun _ => .error 9) hs rfl⟩
  · obtain ⟨n, h10, ha, ho⟩ := hw.busy (sub := sub) (off := off) (len := len) (f := fun w => w.readOp (.window p) idx sub off len) hs
    exact ⟨_, n, hrun hw _ _, h10, ha, ho⟩
  · have hd := hw.succeeds (f := fun w => w.writeOp (.window p) 0x3000 1 0 (leBytes 2 c)) hs
      (writeOp_collection (s := s.windowed (.window p) p 2 0x3000 1 0 (leBytes 2 c).length) hc)
    have ho := hd.onlyWindow (State.renewed_onlyWindow ..)
    refine ⟨_, hrun hw _ _, hd.answered, ?_⟩
    generalize State.operate _ _ _ _ _ _ _ _ = t at ho
    exact ⟨by rw [onlyWindow_cursors ho]; exact State.setCursors_coll .., (onlyWindow_mem ho).trans rfl, (onlyWindow_act ho).trans rfl⟩
  · obtain ⟨v, hv, h4, h48⟩ := describeOp_size (s.windowed (.window p) p 5 0x3001 3 0 0) (.window p)
    have ha := hw.reads (f := fun w => w.describeOp (.window p) 0x3001 3) hs hv rfl
    exact ⟨_, v, hrun hw _ _, ha.1, h4, h48, ha.2⟩

/-! Staged access (R328, R342). -/

/-- The entries of an edition are seen by the control ports. -/
theorem vis_of_edition {idx sub : Nat} {r : OdRow} (h : odRow idx sub = some r) (ha : r.acc = 4) : r.vis ≤ 1 := by
  have hall : (odRows.all fun r => r.acc != 4 || decide (r.vis ≤ 1)) = true := by decide +kernel
  simpa [ha] using List.all_eq_true.1 hall r (List.mem_of_find?_eq_some h)

theorem piece_numeric {q : Requester} {r : OdRow} {v : Bytes} (h : r.ty ≤ 8) : piece q r v 0 r.len = .ok v := by
  simp [piece, h]

theorem readStagedOp_numeric {s : State} {r : OdRow} {e : Edition} {idx sub : Nat} (hsub : sub ≠ 0) (hr : odRow idx sub = some r)
    (ha : r.acc = 4) (ht : r.ty ≤ 8) (he : s.ed.staged = some e) :
    s.readStagedOp (hostPort s) idx sub 0 r.len =
      .ok (s, s.editionValue e r sub ((s.cursors (hostPort s)).object r.scope)) := by
  unfold State.readStagedOp
  rw [State.visibleRow_host hsub hr (vis_of_edition hr ha)]
  simp [ha, State.control, he, piece_numeric ht]

theorem writeStagedOp_noKey {s : State} {r : OdRow} {idx sub : Nat} {d : Bytes} (hsub : sub ≠ 0) (hr : odRow idx sub = some r)
    (ha : r.acc = 4) (hk : s.ed.holder ≠ .host) : s.writeStagedOp (hostPort s) idx sub 0 d = .error 3 := by
  have hh : s.holds (hostPort s) = false := by simp [State.holds, Requester.holder, hk]
  unfold State.writeStagedOp
  rw [State.visibleRow_host hsub hr (vis_of_edition hr ha)]
  simp [ha, State.control, hh]

/-- The edition state after a staged write: open again, its failure cleared. -/
def EdState.reopened (e : EdState) (x : Edition) : EdState :=
  { e with staged := some x, stagedState := 1, reason := 0, failIdx := 0, failSub := 0, failObj := 0 }

theorem writeStagedOp_numeric {s : State} {r : OdRow} {e : Edition} {idx sub : Nat} {d : Bytes} (hsub : sub ≠ 0)
    (hr : odRow idx sub = some r) (ha : r.acc = 4) (ht : r.ty ≤ 8) (he : s.ed.staged = some e) (hk : s.ed.holder = .host)
    (hl : d.length = r.len) (hlo : odLo r ≤ leNat (dropRsvd idx d)) (hhi : leNat (dropRsvd idx d) ≤ s.odHi r)
    (ho : s.objectOk r.scope ((s.cursors (hostPort s)).object r.scope) = true)
    (hd : (s.putValue e r sub ((s.cursors (hostPort s)).object r.scope) (dropRsvd idx d)).domainBytes ≤
      s.act.domainBytes + 0x4000000)
    (hst : s.ed.stagedState = 1 ∨ s.ed.stagedState = 3 ∨ s.ed.stagedState = 4) :
    s.writeStagedOp (hostPort s) idx sub 0 d =
      .ok (s.updEd fun x => x.reopened (s.putValue e r sub ((s.cursors (hostPort s)).object r.scope) (dropRsvd idx d)), []) := by
  have hidx : r.idx = idx := by
    have := List.find?_some hr
    simp only [Bool.and_eq_true, beq_iff_eq] at this
    exact this.1.1
  have hv : s.stagedValue (hostPort s) r sub 0 d = .ok (dropRsvd idx d) := by
    unfold State.stagedValue
    rw [if_pos ht, hidx]
    simp [hl, hlo, hhi]
  unfold State.writeStagedOp
  rw [State.visibleRow_host hsub hr (vis_of_edition hr ha)]
  simp [ha, State.control, holds_host hk, hv, ho, he, Nat.not_lt.2 hd, hst]
  rfl

theorem stagedAccess : StagedAccess := by
  intro s r e idx sub o d hsub hr ha ht ho he
  subst ho
  refine ⟨fun hs => ?_, fun hs hk hl hlo hhi hob hd hst => ?_, fun hs hk => ?_⟩
  · have hw := windowOpen_of_servedAt hs
    exact ⟨_, congrArg (fun t => (.next t : Res)) (hw.orHoldOp (.readStaged (hostPort s) idx sub 0 r.len) _),
      hw.reads hs.2.2.1 (readStagedOp_numeric (s := s.windowed (hostPort s) s.act.controlPort 3 idx sub 0 r.len) hsub hr ha ht he) rfl⟩
  · have hw := windowOpen_of_servedAt hs
    have hr := hw.succeeds (f := fun w => w.writeStagedOp (hostPort s) idx sub 0 d) hs.2.2.1
      (writeStagedOp_numeric (s := s.windowed (hostPort s) s.act.controlPort 4 idx sub 0 d.length) hsub hr ha ht he hk hl hlo hhi hob
        hd hst)
    have ho := hr.onlyWindow (State.renewed_onlyWindow ..)
    refine ⟨_, congrArg (fun t => (.next t : Res)) (hw.orHoldOp (.writeStaged (hostPort s) idx sub 0 d) _), hr.answered, ?_⟩
    generalize State.operate _ _ _ _ _ _ _ _ = t at ho
    rw [ho]
    exact ⟨rfl, rfl, rfl, rfl⟩
  · have hw := windowOpen_of_servedAt hs
    exact ⟨_, congrArg (fun t => (.next t : Res)) (hw.orHoldOp (.writeStaged (hostPort s) idx sub 0 d) _),
      hw.fails hs.2.2.1 (writeStagedOp_noKey (s := s.windowed (hostPort s) s.act.controlPort 4 idx sub 0 d.length) hsub hr ha hk)⟩

/-- Settles O35: a window's operation changes its own registers, its reply and the lease beside what the operation itself does. -/
theorem dictionaryOperations : Obligations.DictionaryOperations := ⟨windowOperations, stagedAccess⟩

end Sys2Proof.Machine
end

section
/-! PROOF. The flash and the fuses, and debug unlock. -/

namespace Sys2Proof.Machine

open Sys2Proof.Claims

/-! Writes of octets entries, and replacing a whole value. -/

/-- Bytes put over a string of the same length replace it. -/
theorem setSlice_whole {b d : Bytes} (h : b.length = d.length) : setSlice b 0 d = d := by
  simp [setSlice, slice, ← h, zeros]

theorem slice_whole {b : Bytes} {n : Nat} (h : b.length = n) : slice b 0 n = b := by
  simp [slice, ← h, zeros]

theorem slice_length (b : Bytes) (off n : Nat) : (slice b off n).length = n := by
  simp [slice, zeros]

/-- An octets RWK entry of the control ports. -/
structure OctetsRow (idx sub n : Nat) (r : OdRow) : Prop where
  row : odRow idx sub = some r
  subOk : sub ≠ 0
  vis : r.vis ≤ 1
  acc : r.acc = 5
  ty : r.ty = 0x10
  len : r.len = n
  scope : r.scope = 0
  counter : r.counter = false
  cursor : cursorScope idx sub = none
  indexed : r.idx = idx

/-- A whole write of an octets RWK entry under the key. -/
theorem writeOp_octets {s : State} {idx sub n : Nat} {r : OdRow} {d : Bytes} (h : OctetsRow idx sub n r) (hn : n ≤ 4096)
    (h1 : idx ≠ 0x1020 ∧ idx ≠ 0x3811 ∧ idx ≠ 0x4013) (hk : s.ed.holder = .host) (hl : d.length = n)
    (hold : (s.readOctets (hostPort s) idx sub 0).length = n) :
    s.writeOp (hostPort s) idx sub 0 d = (s.octEffect (hostPort s) idx sub d).map fun t => (t, []) := by
  obtain ⟨hidx, h3811, h4013⟩ := h1
  have hu : s.unavailable r ((s.cursors (hostPort s)).object r.scope) = false := by simp [State.unavailable, h.acc, h.scope]
  have hv : s.odValue (hostPort s) r sub 0 = s.readOctets (hostPort s) idx sub 0 := by
    simp [State.odValue, h.subOk, h.indexed, h.cursor, State.hidden, State.control, h.counter, h.acc, h.ty, h.scope, Cursors.object]
  unfold State.writeOp
  rw [State.visibleRow_host h.subOk h.row h.vis]
  simp [h.cursor, hu, State.control, h.acc, holds_host hk, h3811, h4013, h.ty, opLimit, Requester.field, hl, h.len,
    Nat.not_lt.2 hn, hv, setSlice_whole (hold.trans hl.symm)]

/-! The flash (R436). -/

theorem find_storeFlash_inside {l : List (Nat × Byte)} {a i : Nat} {d : Bytes} (h : i < d.length) :
    (storeFlash l a d).find? (·.1 == a + i) = some (a + i, d[i]) := by
  have hnone : (l.filter fun x => !(decide (a ≤ x.1) && decide (x.1 < a + d.length))).find? (·.1 == a + i) = none := by
    rw [List.find?_eq_none]
    intro x hx he
    have hk := (List.mem_filter.1 hx).2
    simp only [beq_iff_eq] at he
    simp [he, h] at hk
  rw [storeFlash, List.find?_append, hnone, Option.none_or, List.find?_eq_some_iff_getElem]
  refine ⟨by simp, i, by simpa using h, by simp, fun j hj => ?_⟩
  simp
  omega

theorem find_storeFlash_outside {l : List (Nat × Byte)} {a b : Nat} {d : Bytes} (h : b < a ∨ a + d.length ≤ b) :
    (storeFlash l a d).find? (·.1 == b) = l.find? (·.1 == b) := by
  have hnone : (d.mapIdx fun i x => (a + i, x)).find? (·.1 == b) = none := by
    rw [List.find?_eq_none]
    intro x hx he
    obtain ⟨i, hi, e⟩ := List.mem_mapIdx.1 hx
    simp only [beq_iff_eq] at he
    rw [← e] at he
    dsimp only at he
    omega
  rw [storeFlash, List.find?_append, hnone, Option.or_none, List.find?_filter]
  refine congrFun (congrArg List.find? (funext fun x => ?_)) l
  by_cases hx : x.1 = b
  · have hr : (decide (a ≤ x.1) && decide (x.1 < a + d.length)) = false := by
      rw [hx]
      simp only [Bool.and_eq_false_iff, decide_eq_false_iff_not]
      omega
    rw [hr]
    simp [hx]
  · simp [hx]

/-- What the flash reads after a store. -/
theorem State.flashAt_store {s t : State} {a : Nat} {d : Bytes} (h : t.id.flash = storeFlash s.id.flash a d) :
    (∀ i, (hi : i < d.length) → t.flashAt (a + i) = d[i]) ∧ ∀ b, b < a ∨ a + d.length ≤ b → t.flashAt b = s.flashAt b := by
  refine ⟨fun i hi => ?_, fun b hb => ?_⟩
  · unfold State.flashAt
    rw [h, find_storeFlash_inside hi]
  · unfold State.flashAt
    rw [h, find_storeFlash_outside hb]

/-- What the flash reads after an erase. -/
theorem State.flashAt_erased {s t : State} {a n : Nat} {x : Byte} (h : t.id.flash = storeFlash s.id.flash a (List.replicate n x)) :
    (∀ i, i < n → t.flashAt (a + i) = x) ∧ ∀ b, b < a ∨ a + n ≤ b → t.flashAt b = s.flashAt b := by
  obtain ⟨hin, hout⟩ := State.flashAt_store h
  have hlen : (List.replicate n x).length = n := List.length_replicate
  exact ⟨fun i hi => (hin i (hlen.symm ▸ hi)).trans (List.getElem_replicate ..), fun b hb => hout b (hlen.symm ▸ hb)⟩

theorem flashRow : KeyEntryRow 0xA003 3 (lim 0xA003 3 3 1 5 0 0 1 1 2) where
  row := by decide
  subOk := by decide
  vis := by decide
  acc := rfl
  ty := by decide
  cursor := by decide

theorem State.numEffect_flash (s : State) (q : Requester) (o n : Nat) : s.numEffect q 0xA003 3 o n = s.flashEntry n := by
  simp [State.numEffect]

theorem State.numEffect_svn (s : State) (q : Requester) (o n : Nat) : s.numEffect q 0xA001 3 o n = s.svnEntry := by
  simp [State.numEffect]

/-- A write of the flash operation's entry under the key. -/
theorem writeOp_flash {s : State} {n : Nat} (h1 : 1 ≤ n) (h2 : n ≤ 2) (hk : s.ed.holder = .host) :
    s.writeOp (hostPort s) 0xA003 3 0 (leBytes 1 n) = (s.flashEntry n).map fun t => (t, []) := by
  have hv : leNat (leBytes 1 n) = n := leNat_leBytes (by omega)
  have hw := State.writeOp_keyed (s := s) (d := leBytes 1 n) flashRow (by decide) hk rfl rfl (by rw [hv]; exact h1) (by rw [hv]; exact h2)
  rw [hw, hv, State.numEffect_flash]

/-- A flash operation under the key that is answered OK. -/
theorem flash_done {s u : State} {n : Nat} (h : keyedAt s 0xA003) (h1 : 1 ≤ n) (h2 : n ≤ 2)
    (hu : (hostWriting s 0xA003 3 0 1).flashEntry n = .ok u) :
    ∃ t, (.next (s.dictWrite (hostPort s) 0xA003 3 0 (leBytes 1 n)) : Res) = .next t ∧ answered t (hostPort s) 0 [] ∧
      onlyWindow u t := by
  obtain ⟨t, ht, hr⟩ := hostWrites (idx := 0xA003) (sub := 3) (off := 0) (d := leBytes 1 n) h.1
    ((writeOp_flash (s := hostWriting s 0xA003 3 0 1) h1 h2 h.2).trans (congrArg (Except.map fun t => (t, [])) hu))
  exact ⟨t, ht, hr.answered, hr.onlyWindow (State.renewed_onlyWindow ..)⟩

/-- An erase (n = 1) or a program (n = 2) that no operation runs before. -/
theorem State.flashEntry_idle {s : State} {n : Nat} (hop : s.id.flashOp = none) (hoff : s.id.flashOff < 0x1000000)
    (h2 : n = 2 → s.id.flashOff % 256 = 0) :
    s.flashEntry n =
      (if s.flashGuarded (if n = 1 then s.id.flashOff / 65536 * 65536 else s.id.flashOff) (if n = 1 then 65536 else 256) then
        .ok (s.updId fun i => { i with flashResult := 1 })
      else .ok (s.updId fun i => { i with
        flashOp := some (n == 1, if n = 1 then s.id.flashOff / 65536 * 65536 else s.id.flashOff,
          if n = 1 then [] else slice i.flashData 0 256) })) := by
  have hbad : ¬ (flashSize ≤ s.id.flashOff ∨ (n = 2 ∧ s.id.flashOff % 256 ≠ 0)) := by
    unfold flashSize
    rintro (h | ⟨h, h'⟩)
    · omega
    · exact h' (h2 h)
  unfold State.flashEntry
  dsimp only
  rw [if_neg hbad, if_neg (by simp [hop])]

/-- The end of a flash operation. -/
theorem flashOpDone_ok {s : State} {erase : Bool} {a : Nat} {d : Bytes} (h : s.id.flashOp = some (erase, a, d)) :
    exec (.flashOpDone true) s = .next (s.updId fun i =>
      { i with flashOp := none, flashResult := 0,
               flash := storeFlash i.flash a (if erase then List.replicate 65536 0xFF else d.mapIdx fun i b => b &&& s.flashAt (a + i)) }) := by
  change execFlashOpDone true s = _
  unfold execFlashOpDone
  rw [h]
  rfl

/-- The end of a flash operation that failed: what it leaves is free. -/
theorem flashOpDone_failed {s : State} {x : Bool × Nat × Bytes} (h : s.id.flashOp = some x) :
    ∃ t, exec (.flashOpDone false) s = .next t ∧ t = { s with id := t.id, fresh := t.fresh } ∧ t.id.flashOp = none ∧
      t.id.flashResult = 2 := by
  refine ⟨(({ s with fresh := s.fresh + (if x.1 then 65536 else 256) } : State).updId fun i =>
    { i with flashOp := none, flashResult := 2,
             flash := storeFlash i.flash x.2.1 ((List.range (if x.1 then 65536 else 256)).map fun i => Config.freeByte (s.fresh + i)) }),
    ?_, rfl, rfl, rfl⟩
  change execFlashOpDone false s = _
  unfold execFlashOpDone
  rw [h]
  rfl

/-! The fuses (R433, R436). -/

theorem State.svnEntry_raises {s : State} (h : s.id.minSvn < s.id.svn) (h64 : s.id.svnRaises < 64) :
    s.svnEntry = .ok (s.updId fun i => { i with minSvn := i.svn, svnRaises := i.svnRaises + 1 }) :=
  (if_neg (Nat.not_le.2 h)).trans (if_neg (by omega))

/-- Provisioning a key whose digest is not the newest, with a bank to spare. -/
theorem State.provisionEntry_fuses {s : State} {control : Bool} {key : Bytes} (banks : List Bytes)
    (hb : banks = if control then s.id.controlBanks else s.id.provBanks) (hnew : banks.getLast? ≠ some (sha384 key))
    (h4 : banks.length < 4) :
    s.provisionEntry control key = .ok (s.updId fun i =>
      { i with controlBanks := if control then banks ++ [sha384 key] else i.controlBanks,
               provBanks := if control then i.provBanks else banks ++ [sha384 key],
               controlRoot := if control then some key else i.controlRoot, provKey := if control then i.provKey else some key,
               flash := storeFlash i.flash (recordBase + if control then 0 else 128) key }) := by
  have hsame : (banks.getLast? == some (sha384 key)) = false := by simp [hnew]
  unfold State.provisionEntry
  rw [← hb]
  simp [hsame, Nat.not_le.2 h4]

theorem svnRow : KeyEntryRow 0xA001 3 (lim 0xA001 3 3 1 5 0 0 1 1 1) where
  row := by decide
  subOk := by decide
  vis := by decide
  acc := rfl
  ty := by decide
  cursor := by decide

theorem svn_done {s u : State} (h : keyedAt s 0xA001) (hu : (hostWriting s 0xA001 3 0 1).svnEntry = .ok u) :
    ∃ t, (.next (s.dictWrite (hostPort s) 0xA001 3 0 (leBytes 1 1)) : Res) = .next t ∧ answered t (hostPort s) 0 [] ∧
      onlyWindow u t := by
  have hw := State.writeOp_keyed (s := hostWriting s 0xA001 3 0 1) (d := leBytes 1 1) svnRow (by decide) h.2 rfl rfl
    (by decide) (by decide)
  rw [State.numEffect_svn] at hw
  obtain ⟨t, ht, hr⟩ := hostWrites (idx := 0xA001) (sub := 3) (off := 0) (d := leBytes 1 1) h.1
    (hw.trans (congrArg (Except.map fun t => (t, [])) hu))
  exact ⟨t, ht, hr.answered, hr.onlyWindow (State.renewed_onlyWindow ..)⟩

theorem rootRow : OctetsRow 0xA002 1 97 (oct 0xA002 1 2 97 5 0 1) := by
  refine ⟨by decide, by decide, by decide, rfl, rfl, rfl, rfl, rfl, by decide, rfl⟩

theorem provRow : OctetsRow 0xA002 2 97 (oct 0xA002 1 2 97 5 0 1) := by
  refine ⟨by decide, by decide, by decide, rfl, rfl, rfl, rfl, rfl, by decide, rfl⟩

/-- A stored root, or the zeros where there is none, has the length of a key. -/
theorem root_length {k : Option Bytes} (h : k.all (·.length == 97) = true) : (k.getD (zeros 97)).length = 97 := by
  cases k with
  | none => simp [zeros]
  | some k => simpa using h

/-- Settles O46: the flash entry starts an operation or refuses a guarded range, its end writes the range alone, and the fuse entries
fuse once. -/
theorem flashAndFuses : Obligations.FlashAndFuses := by
  unfold Obligations.FlashAndFuses
  intro s
  refine ⟨fun h hop hoff => ?_, fun x hx => ?_, fun a ha => ?_, fun a d ha hd => ?_, fun h hlt h64 => ?_, fun h hle => ?_,
    fun key h hl hc hp => ?_⟩
  · let w := hostWriting s 0xA003 3 0 1
    have h1 := State.flashEntry_idle (s := w) (n := 1) hop hoff (fun e => absurd e (by decide))
    have h2 (ha : s.id.flashOff % 256 = 0) := State.flashEntry_idle (s := w) (n := 2) hop hoff fun _ => ha
    refine ⟨fun hg => ?_, fun ha hg => ?_, fun hg => ?_, fun ha hg => ?_⟩
    · obtain ⟨t, ht, hans, ho⟩ := flash_done h (by decide) (by decide) (h1.trans (if_neg (ne_true_of_eq_false hg)))
      exact ⟨t, ht, hans, by rw [ho]; exact ⟨rfl, rfl⟩⟩
    · obtain ⟨t, ht, hans, ho⟩ := flash_done h (by decide) (by decide) ((h2 ha).trans (if_neg (ne_true_of_eq_false hg)))
      exact ⟨t, ht, hans, by rw [ho]; exact ⟨rfl, rfl⟩⟩
    · obtain ⟨t, ht, hans, ho⟩ := flash_done h (by decide) (by decide) (h1.trans (if_pos hg))
      exact ⟨t, ht, hans, by rw [ho]; rfl⟩
    · obtain ⟨t, ht, hans, ho⟩ := flash_done h (by decide) (by decide) ((h2 ha).trans (if_pos hg))
      exact ⟨t, ht, hans, by rw [ho]; rfl⟩
  · exact flashOpDone_failed hx
  · exact ⟨_, flashOpDone_ok ha, rfl, rfl, rfl, State.flashAt_erased rfl⟩
  · refine ⟨_, flashOpDone_ok ha, rfl, rfl, ?_⟩
    have hf := State.flashAt_store (s := s) (a := a) (d := d.mapIdx fun i b => b &&& s.flashAt (a + i)) (t := s.updId fun i =>
      { i with flashOp := none, flashResult := 0, flash := storeFlash i.flash a (d.mapIdx fun i b => b &&& s.flashAt (a + i)) }) rfl
    have hlen : (d.mapIdx fun i b => b &&& s.flashAt (a + i)).length = 256 := List.length_mapIdx.trans hd
    refine ⟨fun i hi => (hf.1 i (hlen ▸ hi)).trans ?_, fun b hb => hf.2 b (hlen ▸ hb)⟩
    have hi' : i < d.length := hd ▸ hi
    simp [hi']
  · obtain ⟨t, ht, hans, ho⟩ := svn_done h (State.svnEntry_raises (s := hostWriting s 0xA001 3 0 1) hlt h64)
    exact ⟨t, ht, hans, by rw [ho]; rfl⟩
  · obtain ⟨t, ht, hans, ho⟩ := svn_done h (if_pos hle)
    exact ⟨t, ht, hans, ho⟩
  · refine ⟨fun hnew h4 => ?_, fun hnew h4 => ?_⟩
    · have hw := writeOp_octets (s := hostWriting s 0xA002 1 0 97) (d := key) rootRow (by decide) (by decide) h.2 hl
        (root_length (k := s.id.controlRoot) hc)
      have he := State.provisionEntry_fuses (s := hostWriting s 0xA002 1 0 97) (control := true) (key := key) s.id.controlBanks rfl hnew h4
      obtain ⟨t, ht, hr⟩ := hostWrites (idx := 0xA002) (sub := 1) (off := 0) (d := key) h.1
        (by rw [hl]; exact hw.trans (congrArg (Except.map fun t => (t, [])) he))
      have ho := hr.onlyWindow (State.renewed_onlyWindow ..)
      exact ⟨t, ht, hr.answered, by rw [ho]; exact ⟨rfl, rfl, rfl⟩⟩
    · have hw := writeOp_octets (s := hostWriting s 0xA002 2 0 97) (d := key) provRow (by decide) (by decide) h.2 hl
        (root_length (k := s.id.provKey) hp)
      have he := State.provisionEntry_fuses (s := hostWriting s 0xA002 2 0 97) (control := false) (key := key) s.id.provBanks rfl hnew h4
      obtain ⟨t, ht, hr⟩ := hostWrites (idx := 0xA002) (sub := 2) (off := 0) (d := key) h.1
        (by rw [hl]; exact hw.trans (congrArg (Except.map fun t => (t, [])) he))
      have ho := hr.onlyWindow (State.renewed_onlyWindow ..)
      exact ⟨t, ht, hr.answered, by rw [ho]; exact ⟨rfl, rfl, rfl⟩⟩

/-! Debug unlock (R452, R453). -/

/-- A key is free after a break, held or not. -/
theorem State.breakKey_free (s : State) (c : Nat) : (s.breakKey c).ed.holder = .free ∧ (s.breakKey c).mem = s.mem := by
  by_cases h : s.ed.holder = .free
  · have e : s.breakKey c = s := if_pos (by simp [h])
    rw [e]
    exact ⟨h, rfl⟩
  · obtain ⟨hk, -, -, hm⟩ := State.breakKey_spec c h
    exact ⟨hk, hm⟩

/-- The keys of every present Wing are erased. -/
theorem State.eraseKeys_none {s : State} {k : KeyEntry} {d : Die} (hk : k ∈ (s.eraseKeys none).mem.keys)
    (hd : s.die? (wingDie k.wing) = some d) : d.present = false := by
  have h := (List.mem_filter.1 hk).2
  simpa [hd] using h

/-- A challenge keeps the nonce there is, or makes one. -/
theorem State.makeNonce_spec (s : State) :
    ∃ n, s.makeNonce.id.nonce = some n ∧ (∀ k, s.id.nonce = some k → n = k) ∧ s.makeNonce.mem = s.mem := by
  unfold State.makeNonce
  cases h : s.id.nonce with
  | none => exact ⟨_, rfl, nofun, rfl⟩
  | some n => exact ⟨n, h, fun _ e => Option.some.inj e, rfl⟩

/-- An instruction of the TAP that the primary Lobby has. -/
theorem State.tap_primary {s : State} {code : Nat} {f : State → State} (h : s.inChain s.pkg.primary = true)
    (hc : code = 0x30 ∨ code = 0x31) :
    ∃ u, s.tap s.pkg.primary code f = f u ∧ u = { s with id := u.id } ∧ u.id.nonce = s.id.nonce ∧ u.id.failures = s.id.failures ∧
      u.id.debugState = s.id.debugState := by
  have ha : s.tapHas s.pkg.primary code = true := by rcases hc with rfl | rfl <;> simp [State.tapHas]
  have hff : code ≠ 0xFF := by rcases hc with rfl | rfl <;> decide
  unfold State.tap
  rw [if_neg (by simp [h]), if_pos ha]
  exact ⟨_, if_neg hff, rfl, rfl, rfl, rfl⟩

/-- A response outside held boot mode is refused at once. -/
theorem State.debugResponse_refused {s : State} (r : Bytes) (h : s.pkg.phase ≠ 5) :
    (s.debugResponse r).id.failures = min 3 (s.id.failures + 1) ∧ (s.debugResponse r).id.nonce = none ∧
      (s.debugResponse r).mem = s.mem := by
  unfold State.debugResponse
  rw [if_pos (by simp [h])]
  exact ⟨rfl, rfl, rfl⟩

/-- A response in held boot mode waits for its check. -/
theorem State.debugResponse_held {s : State} (r : Bytes) (h : s.pkg.phase = 5) (hd : s.id.debugState = 0) :
    s.debugResponse r = s.updId fun i => { i with response := r, debugState := if i.debugState = 2 then 2 else 1 } :=
  if_neg (by simp [h, hd])

theorem responseRow : OctetsRow 0x8020 2 96 (oct 0x8020 2 2 96 5 0 1) := by
  refine ⟨by decide, by decide, by decide, rfl, rfl, rfl, rfl, rfl, by decide, rfl⟩

theorem challengeBytes_length (s : State) (n : Nat) : (s.challengeBytes n).length = 64 := by
  simp [State.challengeBytes, leBytes_length, zeros]

/-- A challenge read by the Host port's window. -/
theorem readOp_challenge (s : State) :
    s.readOp (hostPort s) 0x8020 1 0 64 = .ok (s.makeNonce.draw.2, s.makeNonce.draw.2.challengeBytes (s.makeNonce.id.nonce.getD 0)) := by
  have hc : cursorScope 0x8020 1 = none := by decide
  unfold State.readOp
  rw [State.visibleRow_host (r := oct 0x8020 1 1 64 1 0 1) (by decide) (by decide) (by decide)]
  have hv : s.makeNonce.draw.2.odValue (hostPort s) (oct 0x8020 1 1 64 1 0 1) 1 s.makeNonce.draw.1 =
      s.makeNonce.draw.2.challengeBytes (s.makeNonce.id.nonce.getD 0) := by
    have hact : s.makeNonce.draw.2.act = s.act := by
      unfold State.makeNonce
      split <;> rfl
    simp [State.odValue, oct, hc, State.hidden, State.control, hact, State.readOctets]
  have hp : padTo 0 (s.makeNonce.draw.2.challengeBytes (s.makeNonce.id.nonce.getD 0)) =
      s.makeNonce.draw.2.challengeBytes (s.makeNonce.id.nonce.getD 0) := by simp [padTo, zeros]
  have hs := slice_whole (challengeBytes_length s.makeNonce.draw.2 (s.makeNonce.id.nonce.getD 0))
  dsimp only
  rw [if_neg (by simp [oct, State.unavailable]), if_neg (by simp [oct]), if_neg (c := 0x8020 = 0x6011 ∧ 1 = 1) (by decide), if_pos ⟨rfl, rfl⟩, hv, hp]
  simp [piece, oct, opLimit, Requester.field, challengeBytes_length, hs]

/-- Settles O47: a response is checked, refused or held by the debug state and phase, and a challenge keeps its nonce until then. -/
theorem debugUnlock : Obligations.DebugUnlock := by
  unfold Obligations.DebugUnlock
  intro s
  refine ⟨fun h1 hp => ⟨?_, fun w d hd hpr => ?_⟩, fun h1 hp => ?_, fun r hc => ⟨?_, fun h5 => ?_, fun h5 h0 => ?_⟩, fun h => ?_,
    fun r hl h h5 h0 => ?_⟩
  · have he : exec .debugSignatureChecked s =
        .next (((s.eraseKeys none).breakKey 5).updId fun i => { i with debugState := 2, nonce := none }) :=
      congrArg Host.Outcome.next ((if_neg (by simp [h1])).trans (if_pos hp))
    obtain ⟨hk, hm⟩ := State.breakKey_free (s.eraseKeys none) 5
    refine ⟨_, he, rfl, rfl, hk, (congrArg MemState.dram hm).trans rfl, fun k hkey d hd => ?_⟩
    have hkey' : k ∈ ((s.eraseKeys none).breakKey 5).mem.keys := hkey
    rw [hm] at hkey'
    exact State.eraseKeys_none hkey' hd
  · refine ⟨_, congrArg Host.Outcome.next (if_pos ?_), rfl, rfl, rfl⟩
    simp [h1, hp, hd, hpr]
  · refine congrArg Host.Outcome.next ((if_neg (by simp [h1])).trans ((if_neg (by simp [hp])).trans ?_))
    simp [State.refuseDebug, State.updId, h1]
  · obtain ⟨u, hu, he, hn, -, -⟩ := State.tap_primary (f := fun s => s.makeNonce.send (.tdo s.pkg.primary 512
      (leNat (s.makeNonce.challengeBytes (s.makeNonce.id.nonce.getD 0))))) hc (.inl rfl)
    obtain ⟨n, h1, h2, h3⟩ := u.makeNonce_spec
    have hp : u.pkg = s.pkg := by rw [he]
    refine ⟨_, n, leNat (u.makeNonce.challengeBytes (u.makeNonce.id.nonce.getD 0)), congrArg Host.Outcome.next hu, ?_, h1, fun k hk => h2 k (hn.trans hk), h3.trans (by rw [he])⟩
    rw [← hp]
    exact List.getLast?_concat
  · obtain ⟨u, hu, he, hn, hf, -⟩ := State.tap_primary (f := fun s => s.debugResponse (slice r 0 96)) hc (.inr rfl)
    obtain ⟨h1, h2, h3⟩ := State.debugResponse_refused (s := u) (slice r 0 96) (by rw [he]; exact h5)
    exact ⟨_, congrArg Host.Outcome.next hu, h1.trans (by rw [hf]), h2, h3.trans (by rw [he])⟩
  · obtain ⟨u, hu, he, hn, hf, hd⟩ := State.tap_primary (f := fun s => s.debugResponse (slice r 0 96)) hc (.inr rfl)
    have hr := State.debugResponse_held (s := u) (slice r 0 96) (by rw [he]; exact h5) (hd.trans h0)
    refine ⟨_, congrArg Host.Outcome.next (hu.trans hr), ?_, rfl, ?_⟩
    · exact if_neg (by rw [hd, h0]; decide)
    · exact (show u.mem = s.mem by rw [he])
  · have hw := windowOpen_of_servedAt h
    have hr := hw.succeeds (f := fun w => w.readOp (hostPort s) 0x8020 1 0 64) h.2.2.1
      (readOp_challenge (s.windowed (hostPort s) s.act.controlPort 1 0x8020 1 0 64))
    obtain ⟨n, h1, h2, h3⟩ := (s.windowed (hostPort s) s.act.controlPort 1 0x8020 1 0 64).makeNonce_spec
    have ho := hr.onlyWindow (State.renewed_onlyWindow ..)
    refine ⟨_, n, _, congrArg (fun t => (.next t : Res)) (hw.orHoldOp (.read (hostPort s) 0x8020 1 0 64) _), hr.answered,
      challengeBytes_length .., ?_⟩
    generalize State.operate _ _ _ _ _ _ _ _ = t at ho
    rw [ho]
    exact ⟨h1, h2, h3⟩
  · have hw := writeOp_octets (s := hostWriting s 0x8020 2 0 96) (d := r) responseRow (by decide) (by decide) h.2 hl
      (slice_length s.id.response 0 96)
    have hr := State.debugResponse_held (s := hostWriting s 0x8020 2 0 96) r h5 h0
    obtain ⟨t, ht, hans⟩ := hostWrites (idx := 0x8020) (sub := 2) (off := 0) (d := r) h.1
      (by rw [hl]; exact hw.trans (congrArg (fun u => (.ok (u, []) : OpResult)) hr))
    have ho := hans.onlyWindow (State.renewed_onlyWindow ..)
    refine ⟨t, ht, hans.answered, ?_⟩
    rw [ho]
    exact ⟨if_neg (by change s.id.debugState ≠ 2; rw [h0]; decide), rfl, rfl⟩

end Sys2Proof.Machine
end

section
/-! PROOF. The Field port: SPDM requests, DAP sessions, frames and sequence numbers, and the delivery of held records. -/

namespace Sys2Proof.Machine

open Sys2Proof.Claims

/-! SPDM (R428, R434, R435). -/

theorem State.spdmAnswer_answered (s : State) (via : SpdmVia) (ok : Bool) (b : Bytes) : spdmAnswered (s.spdmAnswer via ok b) via ok b := by
  cases via <;> exact List.getLast?_concat

theorem State.spdmAnswer_onlyAnswered (s : State) (via : SpdmVia) (ok : Bool) (b : Bytes) : onlyAnswered s (s.spdmAnswer via ok b) := by
  cases via <;> rfl

theorem State.serveSpdm_open {s : State} {via : SpdmVia} (f : State → State) (h : s.spdmOpen via = true) (he : s.tooEarly via = false) :
    s.serveSpdm via f = f s := by
  simp [State.serveSpdm, h, he]

/-- A request answered at once, on an open way. -/
theorem serveSpdm_answers {s : State} {via : SpdmVia} {f : State → State} (ok : Bool) (b : Bytes) (h : s.spdmOpen via = true)
    (he : s.tooEarly via = false) (hf : f s = s.spdmAnswer via ok b) :
    ∃ t, (.next (s.serveSpdm via f) : Res) = .next t ∧ spdmAnswered t via ok b ∧ onlyAnswered s t :=
  ⟨_, congrArg (fun t => (.next t : Res)) ((State.serveSpdm_open f h he).trans hf), s.spdmAnswer_answered via ok b,
    s.spdmAnswer_onlyAnswered via ok b⟩

/-- GET_MEASUREMENTS of an index, or of every one. -/
theorem getMeasurements_answers {s : State} {via : SpdmVia} {m : Bytes} {i : Nat} (h : s.spdmOpen via = true)
    (he : s.tooEarly via = false) (hi : i = 0xFF ∨ (1 ≤ i ∧ i ≤ 8)) :
    ∃ t sig, exec (.getMeasurements via i m) s = .next t ∧ onlyAnswered s t ∧ spdmAnswered t via true
      ((if i = 0xFF then (List.range 8).flatMap fun i => s.measurement (i + 1) else s.measurement i) ++ sig) := by
  obtain ⟨t, ht, ha, ho⟩ : ∃ t, exec (.getMeasurements via i m) s = .next t ∧ _ ∧ _ :=
    serveSpdm_answers true _ h he (if_pos hi)
  exact ⟨t, _, ht, ho, ha⟩

/-- Settles O42: an open way answers each request at once, and answering changes the session's own frame count alone. -/
theorem spdmRequests : Obligations.SpdmRequests := by
  unfold Obligations.SpdmRequests
  intro s via m h
  refine ⟨fun he => ⟨fun k hk => ?_, fun off n => ?_, fun i h1 h8 => ?_, ?_, fun i hff hi => ?_, fun hv => ?_⟩, fun hv hfw => ?_⟩
  · have hplain (code : Nat) : ∃ t b, (.next (s.plainSpdm code via m) : Res) = .next t ∧ spdmAnswered t via true b ∧ onlyAnswered s t := by
      obtain ⟨t, ht, ha, ho⟩ := serveSpdm_answers (f := fun s => s.spdmAnswer via true (Config.spdmResponse code m)) true _ h he rfl
      exact ⟨t, _, ht, ha, ho⟩
    simp only [plainRequests, List.mem_cons, List.not_mem_nil, or_false] at hk
    obtain rfl | rfl | rfl | rfl | rfl := hk
    · exact hplain 0x84
    · exact hplain 0xE1
    · exact hplain 0xE3
    · exact hplain 0x81
    · exact hplain 0x83
  · obtain ⟨t, ht, ha, ho⟩ := serveSpdm_answers (f := fun w => w.spdmAnswer via true (Config.spdmResponse 0x82
      (leBytes 4 off ++ leBytes 4 n ++ leBytes 8 s.id.certNo))) true _ h he rfl
    exact ⟨t, _, ht, ha, ho⟩
  · obtain ⟨t, sig, ht, ho, ha⟩ := getMeasurements_answers (m := m) h he (.inr ⟨h1, h8⟩)
    rw [if_neg (by omega)] at ha
    exact ⟨t, sig, ht, ha, ho⟩
  · obtain ⟨t, sig, ht, ho, ha⟩ := getMeasurements_answers (m := m) h he (.inl rfl)
    exact ⟨t, sig, ht, ho, ha⟩
  · have hno : ¬ (i = 0xFF ∨ (1 ≤ i ∧ i ≤ 8)) := by omega
    exact serveSpdm_answers false [] h he (if_neg hno)
  · cases via with
    | dap => exact absurd rfl hv
    | doe p => exact ⟨serveSpdm_answers false [] h he rfl, serveSpdm_answers false [] h he rfl⟩
    | session i => exact ⟨serveSpdm_answers false [] h he rfl, serveSpdm_answers false [] h he rfl⟩
  · subst hv
    refine ⟨s.send (.spdm .dap false (leBytes 4 100)), congrArg (fun t => (.next t : Res)) ?_, List.getLast?_concat, rfl⟩
    exact (if_neg (by simp [h])).trans (if_pos (by simp [State.tooEarly, hfw]))

/-! What writing a record does to the sessions. -/

/-- A fact of a state that every step keeps, a run of steps keeps. -/
theorem foldl_same {α β σ : Type} {g : σ → β} {f : σ → α → σ} {l : List α} {s : σ} (h : ∀ t x, g (f t x) = g t) :
    g (l.foldl f s) = g s := by
  induction l generalizing s with
  | nil => rfl
  | cons x l ih => exact ih.trans (h s x)

/-- From `a` to `s` only messages are sent and functions changed. -/
def SendsOnly (a s : State) : Prop := s = { a with fn := s.fn, out := s.out }

theorem SendsOnly.trans {a b c : State} (h : SendsOnly a b) (k : SendsOnly b c) : SendsOnly a c := by
  unfold SendsOnly at *
  rw [k, h]

theorem SendsOnly.ed {a s : State} (h : SendsOnly a s) : s.ed = a.ed := by rw [h]

theorem SendsOnly.ev {a s : State} (h : SendsOnly a s) : s.ev = a.ev := by rw [h]

theorem State.updFn_sendsOnly (s : State) (p : Nat) (f : Fn → Fn) : SendsOnly s (s.updFn p f) := rfl

theorem State.pme_sendsOnly (s : State) (p : Nat) : SendsOnly s (s.pme p) := by
  unfold State.pme
  repeat' split
  all_goals rfl

theorem State.signal_sendsOnly (s : State) (p b v : Nat) : SendsOnly s (s.signal p b v) := by
  unfold State.signal
  dsimp only
  repeat' split
  all_goals rfl

theorem State.pushRecord_sendsOnly (s : State) (p q : Nat) (r : Rec) : SendsOnly s (s.pushRecord p q r) := by
  unfold State.pushRecord
  split <;> rfl

theorem State.endBatch_sendsOnly (s : State) (p q : Nat) : SendsOnly s (s.endBatch p q) := by
  unfold State.endBatch
  dsimp only
  cases s.fn? p with
  | none => rfl
  | some f =>
    have hshadow (m : Msg) (c : Prop) [Decidable c] : SendsOnly s (if c then s else s.send m) := by split <;> rfl
    dsimp only
    generalize hu : (if (f.queues.getD q .reset).shadow = 0 then s else _) = u
    have hs : SendsOnly s u := by rw [← hu]; exact hshadow _ _
    repeat' split
    · exact (hs.trans (u.updFn_sendsOnly ..)).trans (State.signal_sendsOnly ..)
    · exact hs.trans (u.updFn_sendsOnly ..)
    · exact (hs.trans (u.updFn_sendsOnly ..)).trans (State.signal_sendsOnly ..)
    · exact hs.trans (u.updFn_sendsOnly ..)

theorem State.writeTo_hostQueue_sendsOnly (s : State) (r : Rec) (p q : Nat) : SendsOnly s (s.writeTo r (.hostQueue p q)) := by
  unfold State.writeTo
  dsimp only
  cases s.fn? p with
  | none => rfl
  | some f =>
    dsimp only
    split
    · exact (s.pushRecord_sendsOnly p q r).trans (State.endBatch_sendsOnly ..)
    · exact (s.updFn_sendsOnly ..).trans (State.pme_sendsOnly ..)

theorem State.writeTo_hostQueue_ed (s : State) (r : Rec) (p q : Nat) : (s.writeTo r (.hostQueue p q)).ed = s.ed :=
  (s.writeTo_hostQueue_sendsOnly r p q).ed

theorem State.writeTo_ev (s : State) (r : Rec) (d : Recv) : (s.writeTo r d).ev = s.ev := by
  cases d with
  | hostQueue p q => exact (s.writeTo_hostQueue_sendsOnly r p q).ev
  | session i => rfl

theorem updWhere_map {α β : Type} {p : α → Bool} {f : α → α} {g : α → β} {l : List α} (h : ∀ x, g (f x) = g x) :
    (updWhere p f l).map g = l.map g := by
  rw [updWhere, List.map_map]
  refine List.map_congr_left fun x _ => ?_
  rw [Function.comp_apply]
  split
  · exact h x
  · rfl

theorem State.writeTo_sessionIds (s : State) (r : Rec) (x : Recv) : (s.writeTo r x).sessionIds = s.sessionIds := by
  cases x with
  | hostQueue p q => exact congrArg (fun e : EdState => e.sessions.map Session.id) (s.writeTo_hostQueue_ed r p q)
  | session i =>
    refine updWhere_map fun x => ?_
    split <;> rfl

theorem State.event_sessionIds (s : State) (sc : Scope) (t u c : Nat) (b : Bytes) : (s.event sc t u c b).sessionIds = s.sessionIds := by
  change (s.raiseAs sc _ _).sessionIds = _
  unfold State.raiseAs
  split
  · rfl
  · split
    · exact foldl_same fun t x => t.writeTo_sessionIds _ x
    · rfl

theorem State.bump_ed (s : State) (i j k n : Nat) : (s.bump i j k n).ed = s.ed := by
  unfold State.bump
  dsimp only
  split <;> rfl

/-- From `a` to `s` records are raised and counted, and nothing else: no message is taken back and no session comes or goes. -/
structure Notes (a s : State) : Prop where
  only : OnlyRecords a s
  made : RecordsMade a s
  ids : s.sessionIds = a.sessionIds

theorem Notes.refl (s : State) : Notes s s := ⟨.refl s, .refl s, rfl⟩

theorem Notes.trans {a b c : State} (h : Notes a b) (k : Notes b c) : Notes a c :=
  ⟨h.only.trans k.only, h.made.trans k.made, k.ids.trans h.ids⟩

theorem State.event_notes (s : State) (sc : Scope) (t u c : Nat) (b : Bytes) : Notes s (s.event sc t u c b) :=
  ⟨State.event_onlyRecords (.refl s), State.event_recordsMade (.refl s), s.event_sessionIds sc t u c b⟩

theorem State.bump_notes (s : State) (i j k n : Nat) : Notes s (s.bump i j k n) :=
  ⟨State.bump_onlyRecords (.refl s), State.bump_recordsMade (.refl s),
    congrArg (fun e : EdState => e.sessions.map Session.id) (s.bump_ed i j k n)⟩

/-- A change of the editions' state that leaves the sessions commutes with raising records. -/
theorem Notes.updEd {a s : State} {f : EdState → EdState} (h : Notes a s)
    (hf : ∀ e l, f { e with sessions := l } = { f e with sessions := l }) : Notes (a.updEd f) (s.updEd f) := by
  have hsess (e : EdState) : (f e).sessions = e.sessions := (congrArg EdState.sessions (hf e e.sessions)).trans rfl
  refine ⟨{ h.only with ed := ?_ }, ⟨h.made.fns, h.made.out⟩, ?_⟩
  · have hk := h.only.ed
    change { f s.ed with sessions := (f a.ed).sessions } = f a.ed
    rw [hsess a.ed, ← hf, hk]
  · change (f s.ed).sessions.map (·.id) = (f a.ed).sessions.map (·.id)
    rw [hsess, hsess]
    exact h.ids

/-- The editions' state once the key is broken (R340). -/
def EdState.keyless (e : EdState) : EdState :=
  if e.staged.isSome ∧ e.stagedState ≠ 5 then EdState.unstaged { e with holder := .free, lease := 0 }
  else { e with holder := .free, lease := 0 }

theorem State.breakKey_notes {s : State} (c : Nat) (h : s.ed.holder ≠ .free) : Notes (s.updEd EdState.keyless) (s.breakKey c) := by
  have h1 := ((s.updEd fun e => { e with holder := .free, lease := 0 }).bump_notes 0x1020 4 0 1).trans (State.event_notes _ .d 0x60 s.primarySrc
      0xFFFF (pack [(1, s.ed.holder.code), (4, s.ed.holder.sessionId), (1, c)]))
  unfold State.breakKey
  rw [if_neg (by simp [h])]
  dsimp only
  generalize State.event _ .d 0x60 _ _ _ = u at h1 ⊢
  by_cases hk : s.ed.staged.isSome ∧ s.ed.stagedState ≠ 5
  · obtain ⟨x, hx⟩ := Option.isSome_iff_exists.1 hk.1
    have he : s.updEd EdState.keyless = (s.updEd fun e => { e with holder := .free, lease := 0 }).updEd EdState.unstaged :=
      congrArg (fun e : EdState => { s with ed := e }) (if_pos hk)
    rw [hx, he]
    dsimp only
    rw [if_neg hk.2]
    exact (h1.updEd (f := EdState.unstaged) fun _ _ => rfl).trans (State.event_notes ..)
  · have he : s.updEd EdState.keyless = s.updEd fun e => { e with holder := .free, lease := 0 } :=
      congrArg (fun e : EdState => { s with ed := e }) (if_neg hk)
    rw [he]
    cases hx : s.ed.staged with
    | none => exact h1
    | some x =>
      have h5 : s.ed.stagedState = 5 := by
        by_contra h5
        exact hk ⟨by simp [hx], h5⟩
      dsimp only
      rw [if_pos h5]
      exact h1

/-! Sessions (R333-R336, R349). -/

theorem EdState.keyless_cursors (e : EdState) : e.keyless.cursors = e.cursors ∧ e.keyless.sessions = e.sessions := by
  unfold EdState.keyless
  split <;> exact ⟨rfl, rfl⟩

theorem OnlyRecords.cursors {s t : State} (h : OnlyRecords s t) : t.ed.cursors = s.ed.cursors := by rw [← h.ed]

/-- A session's end: it is gone with its cursors, and it does not hold the key. -/
structure SessionGone (i : Nat) (s t : State) : Prop where
  ids : t.sessionIds = s.sessionIds.filter (· != i)
  cursors : t.ed.cursors = s.ed.cursors.filter (·.owner != 0x10000 + i)
  key : t.ed.holder ≠ .session i ∧ (t.ed.holder = s.ed.holder ∨ t.ed.holder = .free)
  act : t.act = s.act
  mem : t.mem = s.mem
  pkg : t.pkg = s.pkg
  out : s.out ⊆ t.out

theorem map_filter_id (l : List Session) (i : Nat) : (l.filter (·.id != i)).map (·.id) = (l.map (·.id)).filter (· != i) :=
  (List.filter_map (f := Session.id) (p := (· != i)) (l := l)).symm

theorem State.endSession_gone (s : State) (i : Nat) : SessionGone i s (s.endSession i) := by
  unfold State.endSession
  by_cases h : s.ed.holder = .session i
  · rw [if_pos (by simp [h])]
    have hn := State.breakKey_notes (s := s) 4 (by rw [h]; nofun)
    obtain ⟨hk, -, hact, hmem⟩ := State.breakKey_spec (s := s) 4 (by rw [h]; nofun)
    generalize s.breakKey 4 = u at hn hk hact hmem
    have hc : u.ed.cursors = s.ed.cursors := hn.only.cursors.trans s.ed.keyless_cursors.1
    have hi : u.sessionIds = s.sessionIds := hn.ids.trans (congrArg (List.map Session.id) s.ed.keyless_cursors.2)
    have hfree : u.ed.holder ≠ .session i := by rw [hk]; nofun
    exact ⟨(map_filter_id _ _).trans (congrArg _ hi), congrArg _ hc, ⟨hfree, .inr hk⟩, hact, hmem, hn.only.pkg, hn.made.out⟩
  · rw [if_neg (by simp [h])]
    exact ⟨map_filter_id _ _, rfl, ⟨h, .inl rfl⟩, rfl, rfl, rfl, List.Subset.refl _⟩

theorem SessionGone.session? {i : Nat} {s t : State} (h : SessionGone i s t) : t.session? i = none := by
  have hi : i ∉ t.sessionIds := by
    rw [h.ids]
    simp
  refine List.find?_eq_none.2 fun x hx he => hi ?_
  exact (beq_iff_eq.1 he) ▸ List.mem_map_of_mem hx

/-- The field link is lost: every session of a list ends. -/
theorem endSessions_spec (l : List Nat) (s : State) :
    let t := l.foldl (fun s i => s.endSession i) s
    t.sessionIds = s.sessionIds.filter (fun i => !l.contains i) ∧ (∀ i ∈ l, t.ed.holder ≠ .session i) ∧
      (t.ed.holder = s.ed.holder ∨ t.ed.holder = .free) ∧ t.act = s.act ∧ t.mem = s.mem ∧ t.pkg = s.pkg := by
  induction l generalizing s with
  | nil => exact ⟨by simp, by simp, .inl rfl, rfl, rfl, rfl⟩
  | cons i l ih =>
    have hg := s.endSession_gone i
    obtain ⟨h1, h2, h3, h4, h5, h6⟩ := ih (s.endSession i)
    refine ⟨?_, ?_, ?_, h4.trans hg.act, h5.trans hg.mem, h6.trans hg.pkg⟩
    · rw [List.foldl_cons, h1, hg.ids, List.filter_filter]
      refine List.filter_congr fun x _ => ?_
      by_cases hx : x = i <;> simp [hx]
    · intro j hj
      rw [List.foldl_cons]
      rcases List.mem_cons.1 hj with rfl | hj
      · rcases h3 with h | h <;> rw [h]
        · exact hg.key.1
        · nofun
      · exact h2 j hj
    · rcases h3 with h | h
      · rw [List.foldl_cons, h]
        exact hg.key.2
      · exact .inr h

/-- An open way that is a session's frame. -/
theorem openSession_spdm {s : State} {x : Session} (h : openSession s x) :
    s.spdmOpen (.session x.id) = true ∧ s.tooEarly (.session x.id) = false := by
  obtain ⟨hf, ho, hs⟩ := h
  refine ⟨?_, rfl⟩
  have hm := List.mem_of_find?_eq_some hs
  simp only [State.spdmOpen, hf, Bool.true_and, List.any_eq_true]
  exact ⟨x, hm, by simp [ho]⟩

theorem State.session?_updSession {s : State} {i : Nat} {x : Session} {f : Session → Session} (h : s.session? i = some x)
    (hf : ∀ y, (f y).id = y.id) : (s.updSession i f).session? i = some (f x) := by
  have hm : (s.updSession i f).session? i = (s.session? i).map f := find?_updWhere fun y => by rw [hf y]
  rw [hm, h]
  rfl

/-- The session a key exchange makes (R335). -/
def Session.exchanged (i now : Nat) : Session :=
  { id := i, opened := false, last := 0, reply := none, idleFrom := now, filter := 0, queue := [], lost := 0 }

/-- What a key exchange over frames of DAP does. -/
theorem exec_keyExchange {s : State} {m : Bytes} (h : s.fieldOpen = true) (hfw : s.pkg.fwRunning = true) :
    exec (.keyExchange .dap m) s = .next (if 8 ≤ s.ed.sessions.length then s.spdmAnswer .dap false [3]
      else match s.id.controlRoot with
        | none => s.spdmAnswer .dap false []
        | some k =>
          if s.sessionIds.contains (1 + Config.freeNat s.fresh % (2 ^ 32 - 1)) || !Config.spdmVerifies 0 (k ++ m) then
            s.draw.2.spdmAnswer .dap false []
          else
            (s.draw.2.updEd fun e =>
              { e with sessions := e.sessions ++ [.exchanged (1 + Config.freeNat s.fresh % (2 ^ 32 - 1)) s.tsc] }).spdmAnswer .dap true
                (leBytes 4 (1 + Config.freeNat s.fresh % (2 ^ 32 - 1)) ++ Config.spdmResponse 0xE4 m)) :=
  congrArg (fun t => (.next t : Res)) (State.serveSpdm_open (via := .dap) _ h (by simp [State.tooEarly, hfw]))

/-- What FINISH over frames of DAP does. -/
theorem exec_finish {s : State} {m : Bytes} (h : s.fieldOpen = true) (hfw : s.pkg.fwRunning = true) :
    exec (.finish .dap m) s = .next (match s.ed.sessions.find? fun x => !x.opened && Config.spdmVerifies x.id m with
      | none => s.spdmAnswer .dap false []
      | some x => (s.updSession x.id fun x => { x with opened := true, idleFrom := s.tsc }).spdmAnswer .dap true (Config.spdmResponse 0xE5 m)) :=
  congrArg (fun t => (.next t : Res)) (State.serveSpdm_open (via := .dap) _ h (by simp [State.tooEarly, hfw]))

/-- Settles O43: a session enters by a verified key exchange, opens by FINISH, and leaves by its end, with the key it holds. -/
theorem sessionsStartAndEnd : Obligations.SessionsStartAndEnd := by
  unfold Obligations.SessionsStartAndEnd
  intro s m
  refine ⟨fun h hfw => ?_, fun x hx => ?_, ?_, fun hrun hp => congrArg Host.Outcome.next (if_pos (by simp [hrun, hp]))⟩
  · refine ⟨fun h8 => ?_, fun h8 hr => ?_, fun k h8 hr hv hid => ?_, fun k h8 hr hv => ?_, fun x hx => ?_, fun hx => ?_⟩
    · exact ⟨_, (exec_keyExchange h hfw).trans (by rw [if_pos h8]), State.spdmAnswer_answered .., rfl⟩
    · exact ⟨_, (exec_keyExchange h hfw).trans (by rw [if_neg (Nat.not_le.2 h8), hr]), State.spdmAnswer_answered .., rfl⟩
    · have hnew : 1 + Config.freeNat s.fresh % (2 ^ 32 - 1) ∉ s.sessionIds := fun hm => hid _ hm rfl
      have hgo : ¬ (s.sessionIds.contains (1 + Config.freeNat s.fresh % (2 ^ 32 - 1)) || !Config.spdmVerifies 0 (k ++ m)) = true := by
        simp only [hv, Bool.not_true, Bool.or_false, List.contains_iff_mem]
        exact hnew
      let x := Session.exchanged (1 + Config.freeNat s.fresh % (2 ^ 32 - 1)) s.tsc
      let b := leBytes 4 (1 + Config.freeNat s.fresh % (2 ^ 32 - 1)) ++ Config.spdmResponse 0xE4 m
      refine ⟨(s.draw.2.updEd fun e => { e with sessions := e.sessions ++ [x] }).spdmAnswer .dap true b, b, x,
        (exec_keyExchange h hfw).trans ?_, State.spdmAnswer_answered .., rfl, rfl, rfl, rfl, hnew, ?_⟩
      · rw [if_neg (Nat.not_le.2 h8), hr]
        dsimp only
        rw [if_neg hgo]
      · exact Nat.succ_ne_zero _ ∘ (Nat.add_comm ..).trans
    · refine ⟨s.draw.2.spdmAnswer .dap false [], (exec_keyExchange h hfw).trans ?_, State.spdmAnswer_answered .., rfl, rfl⟩
      rw [if_neg (Nat.not_le.2 h8), hr]
      dsimp only
      rw [if_pos (by simp [hv])]
    · refine ⟨_, Config.spdmResponse 0xE5 m, (exec_finish h hfw).trans (by rw [hx]), State.spdmAnswer_answered .., ?_⟩
      simp [State.spdmAnswer, State.updSession, State.updEd, State.send, updWhere]
    · exact ⟨_, (exec_finish h hfw).trans (by rw [hx]), State.spdmAnswer_answered .., State.spdmAnswer_onlyAnswered ..⟩
  · obtain ⟨hopen, hearly⟩ := openSession_spdm hx
    obtain ⟨hf, ho, hs⟩ := hx
    have hms : s.act.nat 0x1031 1 0 60 * 1000 * ms = s.act.nat 0x1031 1 0 60 * 1000000000 := Nat.mul_assoc ..
    refine ⟨?_, ?_, fun hrun hi => ?_, fun hi => ?_⟩
    · let f := fun y : Session => { y with last := y.last + 1, reply := some (0, Config.spdmResponse 0xE8 []), idleFrom := s.tsc }
      have hy : (s.spdmAnswer (.session x.id) true (Config.spdmResponse 0xE8 [])).session? x.id = some (f x) :=
        State.session?_updSession (s := s.send (.spdm (.session x.id) true (Config.spdmResponse 0xE8 []))) hs fun _ => rfl
      exact ⟨_, _, f x, congrArg (fun t => (.next t : Res)) (State.serveSpdm_open _ hopen hearly), State.spdmAnswer_answered .., hy, rfl,
        State.spdmAnswer_onlyAnswered ..⟩
    · let b := Config.spdmResponse 0xEC []
      have hg := (s.spdmAnswer (.session x.id) true b).endSession_gone x.id
      refine ⟨_, b, congrArg (fun t => (.next t : Res)) (State.serveSpdm_open _ hopen hearly), hg.out ?_, hg.session?, ?_, hg.key.1, hg.act,
        hg.mem⟩
      · exact List.mem_append_right _ (List.mem_singleton_self _)
      · rw [hg.cursors]
        simp
    · have hg := s.endSession_gone x.id
      have hdue : (s.running && decide (x.idleFrom + s.act.nat 0x1031 1 0 60 * 1000 * ms ≤ s.tsc)) = true := by
        rw [hrun, hms, Bool.true_and, decide_eq_true hi]
      refine ⟨_, congrArg (fun t => (.next t : Res)) ?_, hg.session?, hg.key.1, hg.act⟩
      rw [hs]
      exact if_pos hdue
    · have hdue : ¬ (s.running && decide (x.idleFrom + s.act.nat 0x1031 1 0 60 * 1000 * ms ≤ s.tsc)) = true := by
        rw [hms, decide_eq_false (Nat.not_le.2 hi), Bool.and_false]
        decide
      refine congrArg (fun t => (.next t : Res)) ?_
      rw [hs]
      exact if_neg hdue
  · obtain ⟨h1, h2, h3, h4, h5, h6⟩ := endSessions_spec s.sessionIds (s.updPkg fun p => { p with fieldLink := false })
    refine ⟨_, rfl, ?_, by rw [h6]; rfl, h4, h5, h2⟩
    have hnil : (s.sessionIds.foldl (fun s i => s.endSession i) (s.updPkg fun p => { p with fieldLink := false })).sessionIds = [] := by
      rw [h1]
      refine List.filter_eq_nil_iff.2 fun i hi => ?_
      have : i ∈ s.sessionIds := hi
      simpa using this
    exact List.map_eq_nil_iff.1 hnil

end Sys2Proof.Machine
end

section
/-! PROOF. The Field port's frames and sequence numbers, and the delivery of held records. -/

namespace Sys2Proof.Machine

open Sys2Proof.Claims

/-! Frames outside a session (R333, R336). -/

theorem fieldFrames : FieldFrames := by
  intro s why source target payload h
  refine ⟨congrArg Host.Outcome.next (if_pos h), congrArg Host.Outcome.next (if_pos h), fun hs => ?_, ?_, fun ht => ?_⟩
  · refine congrArg Host.Outcome.next ((if_pos (by simp [h])).trans ?_)
    rw [if_neg hs]
    rfl
  · exact congrArg Host.Outcome.next (if_pos (by simp [h]))
  · exact congrArg Host.Outcome.next (if_neg (by simp [ht]))

/-! Requests of a session (R336, R337). -/

/-- The open session of a request is the one its id names. -/
theorem find_openSession {s : State} {x : Session} (h : openSession s x) :
    (s.ed.sessions.find? fun y => y.id == x.id && y.opened) = some x := by
  obtain ⟨-, ho, hs⟩ := h
  obtain ⟨hp, i, hi, hx, hbefore⟩ := List.find?_eq_some_iff_getElem.1 hs
  refine List.find?_eq_some_iff_getElem.2 ⟨by simp [ho], i, hi, hx, fun j hj => ?_⟩
  simp [hbefore j hj]

/-- The state in which a session's request is judged: its idle time starts anew. -/
def State.heard (s : State) (i : Nat) : State := s.updSession i fun x => { x with idleFrom := s.tsc }

theorem heard_session {s : State} {x : Session} (h : openSession s x) :
    (s.heard x.id).session? x.id = some { x with idleFrom := s.tsc } :=
  State.session?_updSession h.2.2 fun _ => rfl

/-- A read of an open session is judged by its sequence number. -/
theorem read_dap {s : State} {x : Session} {n idx sub off len : Nat} (h : openSession s x) (hl : s.ed.holder = .free ∨ s.tsc < s.ed.lease) :
    exec (.read (.dap x.id n) idx sub off len) s = .next (match n == x.last, x.reply with
      | true, some r => ((s.heard x.id).bump 0x1031 3 0 1).send (.reply (.dap x.id n) r.1 r.2)
      | _, _ =>
        if n ≠ x.last + 1 then (s.heard x.id).send (.reply (.dap x.id n) 8 [])
        else
          let r := (s.heard x.id).perform (.dap x.id n) 1 idx fun s => s.readOp (.dap x.id n) idx sub off len
          let s1 := r.1.send (.reply (.dap x.id n) r.2.1 r.2.2)
          if r.2.1 = 7 then s1
          else
            let s2 := s1.updSession x.id fun x => { x with last := n, reply := some r.2 }
            if n = 2 ^ 32 - 1 then s2.endSession x.id else s2) := by
  have he : (s.heard x.id).expireLease = s.heard x.id := State.expireLease_of_valid hl
  refine congrArg (fun t => (.next t : Res)) ?_
  change s.operate (.dap x.id n) 1 idx sub off len _ = _
  unfold State.operate
  dsimp only
  rw [if_neg (by simp [h.1]), find_openSession h]
  dsimp only
  rw [show (s.updSession x.id fun y => { y with idleFrom := s.tsc }).expireLease = s.heard x.id from he]
  rfl

/-- A session after a whole read of its record queue (R364). -/
def Session.consumed (x : Session) (lost : Nat → Rec) : Session :=
  if x.lost = 0 then { x with queue := x.queue.drop 32 } else { x with queue := x.queue.drop 32 ++ [lost x.lost], lost := 0 }

theorem Session.consumed_spec (x : Session) (lost : Nat → Rec) :
    x.consumed lost = { x with queue := x.queue.drop 32 ++ (if x.lost = 0 then [] else [lost x.lost]), lost := 0 } := by
  unfold Session.consumed
  by_cases h : x.lost = 0
  · rw [if_pos h, if_pos h, List.append_nil]
    exact congrArg (fun n => { x with queue := x.queue.drop 32, lost := n }) h
  · rw [if_neg h, if_neg h]

theorem State.consume_session {s : State} {i n : Nat} {x : Session} (h : s.session? i = some x) :
    (s.consume (.dap i n)).session? i = some (x.consumed s.sessionLost) := by
  have hid (y : Session) : (y.consumed s.sessionLost).id = y.id := by rw [Session.consumed_spec]
  have hx : x.id = i := by simpa using List.find?_some h
  have hm : (s.consume (.dap i n)).session? i =
      (s.session? i).map fun y => if 0x10000 + y.id == 0x10000 + i then y.consumed s.sessionLost else y :=
    find?_updWhere_if (f := fun y : Session => y.consumed s.sessionLost) fun y => by rw [hid y]
  rw [hm, h, Option.map_some, if_pos (by simp [hx])]

theorem padTo_length (n : Nat) (b : Bytes) : n ≤ (padTo n b).length := by
  simp [padTo, zeros]
  omega

/-- A whole read of a session's record queue. -/
theorem readOp_queue (s : State) (i n : Nat) :
    ∃ b : Bytes, b.length = 1024 ∧ s.readOp (.dap i n) 0x6011 1 0 1024 = .ok (s.draw.2.consume (.dap i n), b) := by
  have hrow : s.visibleRow (.dap i n) 0x6011 1 = some (oct 0x6011 1 1 1024 1 0 2) := by
    simp [State.visibleRow, State.seesVis, Requester.field, oct, show odRow 0x6011 1 = some (oct 0x6011 1 1 1024 1 0 2) by decide]
  unfold State.readOp
  rw [hrow]
  dsimp only
  rw [if_neg (by simp [oct, State.unavailable]), if_neg (by simp [oct]), if_neg (c := 0x6011 = 0x8020 ∧ 1 = 1) (by decide),
    if_pos ⟨rfl, rfl⟩, if_pos ⟨rfl, rfl⟩]
  generalize hv : padTo 1024 _ = v
  have hlen : ¬ v.length < 0 + 1024 := by
    rw [← hv, Nat.zero_add]
    exact Nat.not_lt.2 (padTo_length ..)
  refine ⟨slice v 0 1024, slice_length .., ?_⟩
  simp [piece, oct, opLimit, Requester.field, hlen]

/-- A reply of a session changes the messages and the counters at most. -/
theorem reply_frame {w u : State} {q : Requester} {c : Nat} {b : Bytes} (hu : u.ed = w.ed ∧ u.mem = w.mem) {i : Nat} :
    answered (u.send (.reply q c b)) q c b ∧ (u.send (.reply q c b)).mem = w.mem ∧ (u.send (.reply q c b)).act = w.act ∧
      (u.send (.reply q c b)).session? i = w.session? i :=
  ⟨List.getLast?_concat, hu.2, congrArg EdState.active hu.1, congrArg (fun e : EdState => e.sessions.find? fun x : Session => x.id == i) hu.1⟩

theorem sequenceNumbers : SequenceNumbers := by
  intro s x idx sub off len h hl
  have hsess := heard_session h
  refine ⟨fun r hr => ?_, fun n h0 h1 => ?_, fun hs hn => ?_⟩
  · obtain ⟨ha, hm, hact, hses⟩ := reply_frame (w := s.heard x.id) (u := (s.heard x.id).bump 0x1031 3 0 1) (q := .dap x.id x.last)
      (c := r.1) (b := r.2) ⟨State.bump_ed .., rfl⟩ (i := x.id)
    refine ⟨_, (read_dap h hl).trans ?_, ha, hm, hact, hses.trans hsess⟩
    rw [beq_self_eq_true, hr]
  · obtain ⟨ha, hm, hact, hses⟩ := reply_frame (w := s.heard x.id) (u := s.heard x.id) (q := .dap x.id n)
      (c := 8) (b := []) ⟨rfl, rfl⟩ (i := x.id)
    refine ⟨_, (read_dap h hl).trans ?_, ha, hses.trans hsess, hm, hact⟩
    rw [beq_eq_false_iff_ne.2 h0]
    dsimp only
    rw [if_pos h1]
  · obtain ⟨b, hb, hread⟩ := readOp_queue (s.heard x.id) x.id (x.last + 1)
    let u := (s.heard x.id).draw.2.consume (.dap x.id (x.last + 1))
    let f := fun y : Session => { y with last := x.last + 1, reply := some (0, b) }
    let t := (u.send (.reply (.dap x.id (x.last + 1)) 0 b)).updSession x.id f
    have hp : (s.heard x.id).perform (.dap x.id (x.last + 1)) 1 0x6011
        (fun s => s.readOp (.dap x.id (x.last + 1)) 0x6011 1 0 1024) = (u, 0, b) :=
      State.perform_ok hs rfl hread
    have hu : u.session? x.id = some (({ x with idleFrom := s.tsc } : Session).consumed s.sessionLost) :=
      State.consume_session (s := (s.heard x.id).draw.2) hsess
    have ht : t.session? x.id = some (f (({ x with idleFrom := s.tsc } : Session).consumed s.sessionLost)) :=
      State.session?_updSession (s := u.send (.reply (.dap x.id (x.last + 1)) 0 b)) hu fun _ => rfl
    rw [Session.consumed_spec] at ht
    refine ⟨t, _, b, (read_dap h hl).trans ?_, List.getLast?_concat, hb, ht, rfl, rfl, rfl, rfl, rfl, rfl⟩
    rw [beq_eq_false_iff_ne.2 (Nat.succ_ne_self _)]
    dsimp only
    rw [if_neg (by simp), hp]
    dsimp only
    rw [if_neg (by decide), if_neg hn]

/-- Settles O44: a frame outside a session has its one answer, and a request inside one is judged by its sequence number. -/
theorem fieldPort : Obligations.FieldPort := ⟨fieldFrames, sequenceNumbers⟩

/-! Held records (R355, R359, R362, R364). -/

/-- A record written to a session (R364). -/
def Session.noted (x : Session) (r : Rec) : Session :=
  if x.queue.length < 64 then { x with queue := x.queue ++ [r] } else { x with lost := min (x.lost + 1) 0xFFFFFFFF }

theorem Session.noted_id (x : Session) (r : Rec) : (x.noted r).id = x.id := by
  unfold Session.noted
  split <;> rfl

/-- A write to one receiver leaves the sessions of every other. -/
theorem State.writeTo_session?_ne (s : State) (r : Rec) {d : Recv} {i : Nat} (h : d ≠ .session i) :
    (s.writeTo r d).session? i = s.session? i := by
  cases d with
  | hostQueue p q => exact congrArg (fun e : EdState => e.sessions.find? fun x : Session => x.id == i) (s.writeTo_hostQueue_ed r p q)
  | session j =>
    have hne : j ≠ i := fun e => h (e ▸ rfl)
    refine find?_updWhere_ne fun x hx => ?_
    have hx' : x.id = j := by
      simp only [Bool.and_eq_true, beq_iff_eq] at hx
      exact hx.1
    refine ⟨by simp [hx', hne], ?_⟩
    split <;> simp [hx', hne]

/-- A write to an open session takes the record into its queue. -/
theorem State.writeTo_session {s : State} {r : Rec} {i : Nat} {x : Session} (h : s.session? i = some x) (ho : x.opened = true) :
    (s.writeTo r (.session i)).session? i = some (x.noted r) := by
  have hm : (s.writeTo r (.session i)).session? i = (s.session? i).map fun y => if y.id == i && y.opened then y.noted r else y :=
    find?_updWhere_if (f := fun y : Session => y.noted r) fun y => by rw [y.noted_id]
  have hx : x.id = i := by simpa using List.find?_some h
  rw [hm, h, Option.map_some, if_pos (by simp [hx, ho])]

/-- Queue `q` of port `p` is as it was. -/
structure QueueKept (p q : Nat) (a s : State) : Prop where
  keep : ∀ f, a.fn? p = some f → ∃ g, s.fn? p = some g ∧ g.queues[q]? = f.queues[q]?

theorem QueueKept.refl (p q : Nat) (s : State) : QueueKept p q s s := ⟨fun f h => ⟨f, h, rfl⟩⟩

section QueueKept

variable {p q : Nat} {a s : State}

theorem QueueKept.of_fn {t : State} (h : QueueKept p q a s) (e : t.fn = s.fn) : QueueKept p q a t where
  keep f hf := by
    obtain ⟨g, hg, hq⟩ := h.keep f hf
    exact ⟨g, by unfold State.fn? at *; rw [e]; exact hg, hq⟩

theorem State.updFn_queueKept {i : Nat} {F : Fn → Fn} (h : QueueKept p q a s) (hp : ∀ x, (F x).port = x.port)
    (hq : i = p → ∀ x, (F x).queues[q]? = x.queues[q]?) : QueueKept p q a (s.updFn i F) where
  keep f hf := by
    obtain ⟨g, hg, e⟩ := h.keep f hf
    by_cases hi : i = p
    · subst hi
      exact ⟨F g, State.updFn_fn? hg hp, (hq rfl g).trans e⟩
    · exact ⟨g, by rw [State.fn?_updFn_ne hp (Ne.symm hi)]; exact hg, e⟩

theorem Fn.updQueue_ne {f : Fn} {i : Nat} {g : EventQueue → EventQueue} (h : i ≠ q) : (f.updQueue i g).queues[q]? = f.queues[q]? := by
  simp [Fn.updQueue, Ne.symm h]

theorem State.updQueue_queueKept {i j : Nat} {g : EventQueue → EventQueue} (h : QueueKept p q a s) (hne : i ≠ p ∨ j ≠ q) :
    QueueKept p q a (s.updFn i fun f => f.updQueue j g) :=
  State.updFn_queueKept h (fun _ => rfl) fun hi _ => Fn.updQueue_ne (hne.resolve_left fun k => k hi)

theorem State.send_queueKept {m : Msg} (h : QueueKept p q a s) : QueueKept p q a (s.send m) := h.of_fn rfl

theorem QueueKept.ite {c : Prop} [Decidable c] {s t : State} (hs : QueueKept p q a s) (ht : QueueKept p q a t) :
    QueueKept p q a (if c then s else t) := by
  split
  · exact hs
  · exact ht

theorem State.signal_queueKept {i b v : Nat} (h : QueueKept p q a s) : QueueKept p q a (s.signal i b v) := by
  have h1 : QueueKept p q a (s.updFn i fun f => { f with intStat := putBit f.intStat b true }) :=
    State.updFn_queueKept h (fun _ => rfl) fun _ _ => rfl
  have hpba := State.updFn_queueKept (F := fun f : Fn => { f with pba := putBit f.pba v true }) (i := i) h1 (fun _ => rfl) fun _ _ => rfl
  unfold State.signal
  cases s.fn? i with
  | none => exact h
  | some f =>
    have hmsi := State.updFn_queueKept (i := i) (F := fun g : Fn => { g with msiPending := putBit g.msiPending (v % max 1 f.msiGranted) true })
      h1 (fun _ => rfl) fun _ _ => rfl
    exact .ite h1 (.ite (.ite hpba (State.send_queueKept h1)) (.ite (.ite hmsi (State.send_queueKept h1))
      (.ite (State.send_queueKept h1) h1)))

theorem State.pme_queueKept {i : Nat} (h : QueueKept p q a s) : QueueKept p q a (s.pme i) := by
  unfold State.pme
  repeat' split
  · exact State.send_queueKept (State.updFn_queueKept h (fun _ => rfl) fun _ _ => rfl)
  · exact h
  · exact h

theorem State.endBatch_queueKept {i j : Nat} (h : QueueKept p q a s) (hne : i ≠ p ∨ j ≠ q) : QueueKept p q a (s.endBatch i j) := by
  unfold State.endBatch
  cases s.fn? i with
  | none => exact h
  | some f =>
    dsimp only
    generalize hu : (if (f.queues.getD j .reset).shadow = 0 then s else _) = u
    have hs : QueueKept p q a u := by
      rw [← hu]
      split
      · exact h
      · exact State.send_queueKept h
    repeat' split
    · exact State.signal_queueKept (State.updQueue_queueKept hs hne)
    · exact State.updQueue_queueKept hs hne
    · exact State.signal_queueKept (State.updQueue_queueKept hs hne)
    · exact State.updQueue_queueKept hs hne

/-- A write to one receiver leaves the queue of every other. -/
theorem State.writeTo_queueKept {r : Rec} {d : Recv} (h : QueueKept p q a s) (hne : d ≠ .hostQueue p q) :
    QueueKept p q a (s.writeTo r d) := by
  cases d with
  | session i => exact h.of_fn rfl
  | hostQueue i j =>
    have hij : i ≠ p ∨ j ≠ q := by
      by_contra hc
      rw [not_or, not_not, not_not] at hc
      exact hne (by rw [hc.1, hc.2])
    unfold State.writeTo State.pushRecord
    dsimp only
    cases s.fn? i with
    | none => exact h
    | some f =>
      dsimp only
      split
      · exact State.endBatch_queueKept (State.updQueue_queueKept (State.send_queueKept h) hij) hij
      · exact State.pme_queueKept (State.updQueue_queueKept h hij)

end QueueKept

/-- A record written to a queue that can be written, or counted lost there (R362). -/
theorem State.writeTo_queue {s : State} {r : Rec} {p q : Nat} {f : Fn} {e : EventQueue} (h : s.fn? p = some f) (he : f.queues[q]? = some e) :
    ∃ g x, (s.writeTo r (.hostQueue p q)).fn? p = some g ∧ g.queues[q]? = some x ∧
      (f.canWrite e = true → x.tail = (e.tail + 1) % 2 ^ e.size ∧ x.lost = e.lost ∧
        .hostWrite p (e.base + 32 * e.tail) r.bytes false false ∈ (s.writeTo r (.hostQueue p q)).out) ∧
      (f.canWrite e = false → x.tail = e.tail ∧ x.lost = min (e.lost + 1) 0xFFFFFFFF) := by
  unfold State.writeTo
  dsimp only
  rw [h]
  dsimp only
  rw [Fn.getD_queue he]
  by_cases hc : f.canWrite e = true
  · rw [if_pos hc]
    obtain ⟨hp, hm⟩ := State.pushRecord_spec (r := r) h he
    obtain ⟨g, x, hg, hx, ex⟩ := State.endBatch_queue hp (Fn.updQueue_get he)
    exact ⟨g, x, hg, hx, fun _ => ⟨by rw [ex], by rw [ex], State.endBatch_out hm⟩, fun hn => absurd hc (by simp [hn])⟩
  · rw [if_neg hc]
    have hu : (s.updFn p fun f => f.updQueue q fun eq => { eq with lost := min (eq.lost + 1) 0xFFFFFFFF }).fn? p =
        some (f.updQueue q fun eq => { eq with lost := min (eq.lost + 1) 0xFFFFFFFF }) := State.updFn_fn? h fun _ => rfl
    obtain ⟨g, hg, e'⟩ := (State.pme_queueKept (i := p) (QueueKept.refl p q
      (s.updFn p fun f => f.updQueue q fun eq => { eq with lost := min (eq.lost + 1) 0xFFFFFFFF }))).keep _ hu
    exact ⟨g, _, hg, e'.trans (Fn.updQueue_get he), fun hn => absurd hn hc, fun _ => ⟨rfl, rfl⟩⟩

/-! A record written to a list of receivers. -/

/-- A record to each of its receivers. -/
def State.writeAll (s : State) (r : Rec) (l : List Recv) : State := l.foldl (fun s d => s.writeTo r d) s

theorem State.writeAll_recordsMade (s : State) (r : Rec) (l : List Recv) : RecordsMade s (s.writeAll r l) :=
  RecordsMade.foldl (.refl s) fun _ _ h => State.writeTo_recordsMade h

theorem State.writeAll_session {r : Rec} {l : List Recv} {i : Nat} (hl : l.Nodup) (hm : Recv.session i ∈ l) {s : State} {x : Session}
    (h : s.session? i = some x) (ho : x.opened = true) : (s.writeAll r l).session? i = some (x.noted r) := by
  have hrest {l : List Recv} (hm : Recv.session i ∉ l) {s : State} : (s.writeAll r l).session? i = s.session? i := by
    induction l generalizing s with
    | nil => rfl
    | cons d l ih =>
      obtain ⟨hd, hl⟩ := not_or.1 (fun k => hm (List.mem_cons.2 k))
      exact (ih hl).trans (s.writeTo_session?_ne r (Ne.symm hd))
  induction l generalizing s with
  | nil => exact absurd hm (by simp)
  | cons d l ih =>
    obtain ⟨hd, hl'⟩ := List.nodup_cons.1 hl
    by_cases e : d = .session i
    · subst e
      exact (hrest hd).trans (State.writeTo_session h ho)
    · have hmem : Recv.session i ∈ l := (List.mem_cons.1 hm).resolve_left (Ne.symm e)
      exact ih hl' hmem ((s.writeTo_session?_ne r e).trans h)

/-- What one write of a record among others does to a queue: the record at its tail, or one more lost. -/
def queueTook (t : State) (r : Rec) (p q : Nat) (f : Fn) (e : EventQueue) : Prop :=
  ∃ g x, t.fn? p = some g ∧ g.queues[q]? = some x ∧
    (f.canWrite e = true → x.tail = (e.tail + 1) % 2 ^ e.size ∧ x.lost = e.lost ∧
      .hostWrite p (e.base + 32 * e.tail) r.bytes false false ∈ t.out) ∧
    (f.canWrite e = false → x.tail = e.tail ∧ x.lost = min (e.lost + 1) 0xFFFFFFFF)

theorem State.writeAll_queueKept {r : Rec} {l : List Recv} {p q : Nat} (hm : Recv.hostQueue p q ∉ l) (s : State) :
    QueueKept p q s (s.writeAll r l) := by
  unfold State.writeAll
  induction l using List.reverseRecOn with
  | nil => exact .refl ..
  | append_singleton l d ih =>
    rw [List.mem_append, not_or, List.mem_singleton] at hm
    rw [List.foldl_append]
    exact State.writeTo_queueKept (ih hm.1) (Ne.symm hm.2)

theorem Fn.recorded.canWrite {f g : Fn} (h : f.recorded g) (e : EventQueue) : g.canWrite e = f.canWrite e := by
  rw [h]
  rfl

theorem State.writeAll_queue {r : Rec} {l : List Recv} {p q : Nat} (hl : l.Nodup) (hm : Recv.hostQueue p q ∈ l) {s : State} {f : Fn}
    {e : EventQueue} (h : s.fn? p = some f) (he : f.queues[q]? = some e) : queueTook (s.writeAll r l) r p q f e := by
  induction l generalizing s f with
  | nil => exact absurd hm (by simp)
  | cons d l ih =>
    obtain ⟨hd, hl'⟩ := List.nodup_cons.1 hl
    by_cases hdq : d = .hostQueue p q
    · subst hdq
      obtain ⟨g, x, hg, hx, hcan, hlost⟩ := State.writeTo_queue (r := r) h he
      obtain ⟨g', hg', e'⟩ := (State.writeAll_queueKept (r := r) hd (s.writeTo r (.hostQueue p q))).keep g hg
      have hout := ((s.writeTo r (.hostQueue p q)).writeAll_recordsMade r l).out
      exact ⟨g', x, hg', e'.trans hx, fun hc => ⟨(hcan hc).1, (hcan hc).2.1, hout (hcan hc).2.2⟩, hlost⟩
    · have hmem : Recv.hostQueue p q ∈ l := (List.mem_cons.1 hm).resolve_left (Ne.symm hdq)
      obtain ⟨g, hg, e'⟩ := (State.writeTo_queueKept (r := r) (QueueKept.refl p q s) hdq).keep f h
      obtain ⟨g', hg', hr⟩ := (State.writeTo_recordsMade (r := r) (x := d) (RecordsMade.refl s)).fns p f h
      rw [hg] at hg'
      cases hg'
      have hi := ih hl' hmem hg (e'.trans he)
      unfold queueTook at hi ⊢
      rw [hr.canWrite e] at hi
      exact hi

/-- Settles O45: each receiver takes the record once, for a write to one leaves the others. -/
theorem heldRecordsAreDelivered : Obligations.HeldRecordsAreDelivered := by
  unfold Obligations.HeldRecordsAreDelivered
  intro s h rest hh
  refine ⟨fun hdue hnd => ?_, fun hearly => ?_⟩
  · let s0 : State := { s with ev := { s.ev with heldRecs := rest } }
    have ht : exec .recordHoldExpiry s = .next (s0.writeAll h.body h.dest) := by
      refine congrArg (fun t => (.next t : Res)) ?_
      rw [hh]
      exact if_pos hdue
    have ho : OnlyRecords s0 (s0.writeAll h.body h.dest) := OnlyRecords.foldl (.refl s0) fun _ _ k => State.writeTo_onlyRecords k
    have hev : (s0.writeAll h.body h.dest).ev = s0.ev := foldl_same fun t x => t.writeTo_ev h.body x
    refine ⟨_, ht, congrArg EvState.heldRecs hev, ho.mem, ho.act, fun i x hd hx hop => ?_, fun p q f eq hd hf heq => ?_⟩
    · refine ⟨_, State.writeAll_session (s := s0) hnd hd hx hop, fun hq => ?_, fun hq => ?_⟩
      · rw [Session.noted, if_pos hq]
        exact ⟨rfl, rfl⟩
      · rw [Session.noted, if_neg (Nat.not_lt.2 hq)]
        exact ⟨rfl, rfl⟩
    · exact State.writeAll_queue (s := s0) hnd hd hf heq
  · refine congrArg (fun t => (.next t : Res)) ?_
    rw [hh]
    exact if_neg (Nat.not_le.2 hearly)

end Sys2Proof.Machine
end

section
/-! PROOF. Register writes of a function, and of a channel through it. -/

namespace Sys2Proof.Machine

open Sys2Proof.Claims

/-! Which part of the function an offset reaches. -/

/-- A write of BAR0 by a function that takes it. -/
theorem registerWrite_bar0 {s : State} {p o v : Nat} {f : Fn} (h : takesWrites s p f) (ho : o < 0x4000000) (hv : v < 2 ^ 64) :
    exec (.registerWrite p o v false) s = writeBar0 s p (o / 8 * 8) v := by
  obtain ⟨hf, -, hr, he, hrd, hrs, hl, hd⟩ := h
  change execRegisterWrite p o v false s = _
  unfold execRegisterWrite
  rw [hf]
  dsimp only
  rw [if_neg (by simp [hr, he, hrd, hrs, hl]), if_neg (by simp), if_neg (by unfold cfgStart; omega), if_neg (by simp [hd]),
    if_neg (by unfold bar2Start; omega), Nat.mod_eq_of_lt hv]

/-- A write of BAR2. -/
theorem registerWrite_bar2 {s : State} {p o v : Nat} {f : Fn} (h : takesWrites s p f) (ho : 0x4000000 ≤ o) (hc : o < 0x4001000)
    (hv : v < 2 ^ 64) : exec (.registerWrite p o v false) s = .next (s.writeTable p ((o - 0x4000000) / 8 * 8) v) := by
  obtain ⟨hf, -, hr, he, hrd, hrs, hl, hd⟩ := h
  change execRegisterWrite p o v false s = _
  unfold execRegisterWrite
  rw [hf]
  dsimp only
  rw [if_neg (by simp [hr, he, hrd, hrs, hl]), if_neg (by simp), if_neg (by unfold cfgStart; omega), if_neg (by simp [hd]),
    if_pos (by unfold bar2Start; omega), Nat.mod_eq_of_lt hv]
  rfl

/-- A write of the configuration space. -/
theorem registerWrite_cfg {s : State} {p o v : Nat} {f : Fn} (h : takesWrites s p f) (ho : 0x4001000 ≤ o) :
    exec (.registerWrite p o v false) s = writeCfg s p ((o - 0x4001000) / 4 * 4) (v % 2 ^ 32) := by
  obtain ⟨hf, -, hr, he, hrd, hrs, hl, hd⟩ := h
  change execRegisterWrite p o v false s = _
  unfold execRegisterWrite
  rw [hf]
  dsimp only
  rw [if_neg (by simp [hr, he, hrd, hrs, hl]), if_neg (by simp), if_pos (by unfold cfgStart; omega)]
  rfl

/-- A write that carries poison. -/
theorem registerWrite_poison {s : State} {p o v : Nat} {f : Fn} (h : takesWrites s p f) (hv : v < 2 ^ 64) :
    exec (.registerWrite p o v true) s = .next (s.poisonedWrite p (o / 8 * 8) v) := by
  obtain ⟨hf, -, hr, he, hrd, hrs, hl, hd⟩ := h
  change execRegisterWrite p o v true s = _
  unfold execRegisterWrite
  rw [hf]
  dsimp only
  rw [if_neg (by simp [hr, he, hrd, hrs, hl]), if_pos (by simp [hd]), Nat.mod_eq_of_lt hv]

/-! The function block (R302, R308, R314). -/

theorem writeFnBlock_base {s : State} {p e v : Nat} (he : e < 16) :
    writeFnBlock s p (0x20000 + 0x100 * e) v = .next (s.updEngine p e fun g => g.setBase v) := by
  unfold writeFnBlock
  rw [if_neg (by omega), if_neg (by omega), if_pos (by omega)]
  unfold State.writeSlot
  rw [show (0x20000 + 0x100 * e - 0x20000) / 0x100 = e by omega, if_pos (by omega)]

theorem writeFnBlock_load {s : State} {p o v : Nat} (ho : 0x80000 ≤ o) :
    writeFnBlock s p o v = .next (s.updFn p fun f => if f.loadBusy then f else f.writeLoad (o - 0x80000) v false) := by
  unfold writeFnBlock
  rw [if_neg (by omega), if_neg (by omega), if_neg (by omega), if_neg (by omega), if_pos ho]

theorem mem_foldl_insertBy {α : Type} {le : α → α → Bool} {l k : List α} {x : α} (h : x ∈ l ∨ x ∈ k) :
    x ∈ l.foldl (fun k y => insertBy le y k) k := by
  induction l generalizing k with
  | nil => simpa using h
  | cons y l ih =>
    refine ih ?_
    rcases h with h | h
    · rcases List.mem_cons.1 h with h | h
      · exact .inr (mem_insertBy.2 (.inl h))
      · exact .inl h
    · exact .inr (mem_insertBy.2 (.inr h))

/-- The bytes a write leaves in the load window: each byte that is not 0. -/
theorem Fn.writeLoad_bytes {f : Fn} {i v k : Nat} {b : Bool} (hk : k < 8) (h : byteOf (v / 2 ^ (8 * k)) ≠ 0) :
    (8 * i + k, byteOf (v / 2 ^ (8 * k))) ∈ (f.writeLoad (8 * i) v b).loadBytes := by
  refine mem_foldl_insertBy (.inl (List.mem_filter.2 ⟨List.mem_map.2 ⟨k, List.mem_range.2 hk, ?_⟩, by simpa using h⟩))
  rw [Nat.mul_div_cancel_left _ (by decide), Nat.mul_comm i 8]

/-! A channel's registers (R235, R258, R259). -/

/-- Without the key only DCH_FLIP_CTL takes anything. -/
theorem Chan.writeReg_noKey (c : Chan) {r v : Nat} (h : r ≠ 0xF00) : c.writeReg r v false = c := by
  have hne : chanReg r ≠ .flipCtl := by
    unfold chanReg
    repeat' split
    all_goals nofun
  unfold Chan.writeReg
  cases hr : chanReg r with
  | flipCtl => exact absurd hr hne
  | stat => rfl
  | delay k => rfl
  | timing k => rfl
  | flipAddr => rfl
  | flipSel0 => rfl
  | flipSel1 => rfl
  | none => rfl

theorem Chan.writeReg_wing (c : Chan) (r v : Nat) (key : Bool) : (c.writeReg r v key).wing = c.wing ∧ (c.writeReg r v key).sel = c.sel := by
  unfold Chan.writeReg
  cases chanReg r with
  | stat => exact ⟨rfl, rfl⟩
  | delay k => dsimp only; split <;> exact ⟨rfl, rfl⟩
  | timing k => dsimp only; split <;> exact ⟨rfl, rfl⟩
  | flipCtl => exact ⟨rfl, rfl⟩
  | flipAddr => dsimp only; split <;> exact ⟨rfl, rfl⟩
  | flipSel0 => dsimp only; split <;> exact ⟨rfl, rfl⟩
  | flipSel1 => dsimp only; split <;> exact ⟨rfl, rfl⟩
  | none => exact ⟨rfl, rfl⟩

/-- A write of a Depot channel's register block through the control-capable port. -/
theorem writeBar0_chan {s : State} {p w sel r v : Nat} {d : Die} (hp : p = s.act.controlPort) (hw : w < 4) (hs : sel < 4) (hr : r < 0x1000)
    (hd : s.die? (wingDie w) = some d) (hpr : d.present = true) (hre : d.reachable = true) :
    writeBar0 s p (0x1000000 + 0x400000 * w + 0x80000 + 0x1000 * sel + r) v =
      .next (s.updChan w sel fun c => c.writeReg r v s.hostKey) := by
  have hreg : s.regChan (0x80000 + 0x1000 * sel + r) = some (sel, r) := by
    unfold State.regChan
    rw [if_pos (by omega), show (0x80000 + 0x1000 * sel + r - 0x80000) / 0x1000 = sel by omega,
      show (0x80000 + 0x1000 * sel + r) % 0x1000 = r by omega]
  have hwing : dieWing (wingDie w) = some w := by
    unfold dieWing wingDie
    rw [if_pos (by omega), Nat.add_sub_cancel]
  unfold writeBar0
  dsimp only
  rw [if_neg (by omega), if_neg (by omega), if_neg (not_not.2 hp), if_neg (by omega), if_neg (by omega), if_neg (by omega), if_pos (by omega),
    show (0x1000000 + 0x400000 * w + 0x80000 + 0x1000 * sel + r - 0x1000000) / 0x400000 = w by omega,
    show (0x1000000 + 0x400000 * w + 0x80000 + 0x1000 * sel + r - 0x1000000) % 0x400000 = 0x80000 + 0x1000 * sel + r by omega]
  unfold State.writeDieReg
  rw [hwing, hd, hreg]
  dsimp only
  rw [if_pos (by simp [hpr, hre])]

/-! The MSI-X table (R302, R304). -/

/-- The vector a write of the table sets. -/
theorem Fn.updVector_mem (f : Fn) (k : Nat) {g : Nat × Nat × Nat × Bool → Nat × Nat × Nat × Bool} {a : Nat}
    (hg : ∀ e, (g e).1 = e.1 ∧ (g e).2.1 = a) : ∃ e ∈ (f.updVector k g).table, e.1 = k ∧ e.2.1 = a := by
  unfold Fn.updVector upsert
  dsimp only
  split
  · next h =>
    obtain ⟨x, hx, hk⟩ := List.any_eq_true.1 h
    have hk' : x.1 = k := by simpa using hk
    exact ⟨g x, List.mem_map.2 ⟨x, hx, if_pos hk⟩, (hg x).1.trans hk', (hg x).2⟩
  · exact ⟨g (k, 0, 0, true), List.mem_append_right _ (List.mem_singleton_self _), (hg _).1, (hg _).2⟩

/-- An engine after a change of the engines it names. -/
theorem mem_updWhere {α : Type} {p : α → Bool} {f : α → α} {l : List α} {x : α} (hx : x ∈ l) (hp : p x = true) : f x ∈ updWhere p f l :=
  List.mem_map.2 ⟨x, hx, if_pos hp⟩

/-- The function after a write that carries poison. -/
def Fn.poisoned (f : Fn) (o v : Nat) : Fn :=
  let g := { f with aerCor := putBit f.aerCor 13 true }
  if 0x80000 ≤ o ∧ o < 0x100000 ∧ !f.loadBusy then g.writeLoad (o - 0x80000) v true else g

theorem State.poisonedWrite_fn? {s : State} {p o v : Nat} {f : Fn} (h : s.fn? p = some f) :
    (s.poisonedWrite p o v).fn? p = some (f.poisoned o v) :=
  State.updFn_fn? h fun x => by dsimp only; split <;> rfl

/-- Settles O56: an offset reaches one register, and a function that is not ready takes no write. -/
theorem registerWrites : Obligations.RegisterWrites := by
  unfold Obligations.RegisterWrites
  intro s p o v f
  refine ⟨fun h hv => ⟨fun e x he ho hx hxe => ?_, fun ho hb => ?_, fun ho hb => ?_, fun h1 h2 hp => ?_,
    fun w sel r c d hp hw hsel hr hr8 ho hd hpr hre hc => ?_, fun i hi ho hb => ?_, fun k hk ho => ?_, fun ho => ?_, fun i hi ho hb => ?_,
    fun ho => ?_⟩, fun hf hno b => ?_⟩
  · have hf := h.1
    refine ⟨s.updEngine p e fun g => g.setBase v, _, x.setBase v, ?_, rfl, State.updFn_fn? hf fun _ => rfl,
      mem_updWhere hx (by simp [hxe]), rfl⟩
    rw [registerWrite_bar0 h (by omega) hv, show o / 8 * 8 = 0x20000 + 0x100 * e by omega]
    exact (if_pos (by omega)).trans (writeFnBlock_base he)
  · refine ⟨s.updDict p fun d => { d with addr := bits v 0 24 + bits v 32 32 * 2 ^ 32, rsvd := bits v 24 8 != 0 }, ?_, rfl,
      State.updFn_fn? h.1 fun _ => rfl⟩
    rw [registerWrite_bar0 h (by omega) hv, show o / 8 * 8 = 0x100000 by omega]
    unfold writeBar0 State.writeWindow
    rw [h.1]
    simp [hb]
  · rw [registerWrite_bar0 h (by omega) hv, show o / 8 * 8 = 0x100000 by omega]
    unfold writeBar0 State.writeWindow
    rw [h.1]
    simp [hb]
  · rw [registerWrite_bar0 h h2 hv]
    unfold writeBar0
    dsimp only
    rw [if_neg (by omega), if_neg (by omega), if_pos hp]
  · have hrun : exec (.registerWrite p o v false) s = .next (s.updChan w sel fun c => c.writeReg r v s.hostKey) := by
      rw [registerWrite_bar0 h (by omega) hv, show o / 8 * 8 = o by omega, ho]
      exact writeBar0_chan hp hw hsel hr hd hpr hre
    have hcw : (s.updChan w sel fun c => c.writeReg r v s.hostKey).chan? w sel = some (c.writeReg r v s.hostKey) := by
      rw [State.chan?_updChan fun c => Chan.writeReg_wing c r v s.hostKey, hc]
      rfl
    exact ⟨_, hrun, rfl, hcw, fun hk hr => by rw [hcw, hk, Chan.writeReg_noKey c hr]⟩
  · refine ⟨s.updFn p fun f => if f.loadBusy then f else f.writeLoad (8 * i) v false, _, ?_, rfl, State.updFn_fn? h.1 fun x => ?_, fun k hk hb8 => ?_⟩
    · rw [registerWrite_bar0 h (by omega) hv, show o / 8 * 8 = o by omega]
      refine (if_pos (by omega)).trans ((writeFnBlock_load (by omega)).trans ?_)
      rw [show o - 0x80000 = 8 * i by omega]
    · split <;> rfl
    · rw [if_neg (by simp [hb])]
      exact Fn.writeLoad_bytes hk hb8
  · obtain ⟨e, he, h1, h2⟩ := f.updVector_mem k (g := fun e => (e.1, bits v 2 62 * 4, e.2.2.1, e.2.2.2)) (a := bits v 2 62 * 4) fun e => ⟨rfl, rfl⟩
    refine ⟨s.updFn p fun f => f.updVector k fun e => (e.1, bits v 2 62 * 4, e.2.2.1, e.2.2.2), _, e, ?_, rfl, State.updFn_fn? h.1 fun _ => rfl,
      he, h1, h2⟩
    rw [registerWrite_bar2 h (by omega) (by omega) hv]
    unfold State.writeTable
    rw [show (o - 0x4000000) / 8 * 8 / 16 = k by omega, show (o - 0x4000000) / 8 * 8 % 16 = 0 by omega]
    dsimp only
    rw [if_neg (by omega), if_pos rfl]
  · refine ⟨s.updFn p fun f => { f with aerUnc := f.aerUnc - (f.aerUnc &&& v % 2 ^ 32) }, ?_, rfl, State.updFn_fn? h.1 fun _ => rfl⟩
    rw [registerWrite_cfg h (by omega), show (o - 0x4001000) / 4 * 4 = 0x104 by omega]
    unfold writeCfg
    rw [h.1]
    simp
  · have hp : f.poisoned (o / 8 * 8) v = ({ f with aerCor := putBit f.aerCor 13 true } : Fn).writeLoad (8 * i) v true := by
      unfold Fn.poisoned
      rw [show o / 8 * 8 = 0x80000 + 8 * i by omega]
      dsimp only
      rw [if_pos ⟨by omega, by omega, by simp [hb]⟩, Nat.add_sub_cancel_left]
    refine ⟨_, _, registerWrite_poison h hv, rfl, State.poisonedWrite_fn? h.1, ?_, ?_⟩
    · rw [hp]
      rfl
    · rw [hp]
      exact List.mem_append_left _ (by simp)
  · refine ⟨_, registerWrite_poison h hv, rfl, (State.poisonedWrite_fn? h.1).trans (congrArg some (if_neg ?_))⟩
    omega
  · change execRegisterWrite p o v b s = _
    unfold execRegisterWrite
    rw [hf]
    dsimp only
    refine if_pos ?_
    rcases hno with h | h | h | h <;> simp [h]

end Sys2Proof.Machine
end

section
/-! PROOF. The upkeep of a channel: corrected-line windows, refreshes, temperature bands and power-down. -/

namespace Sys2Proof.Machine

open Sys2Proof.Claims

/-! A change of one channel's fields that keeps its place. -/

/-- A channel's entry after a change that keeps its Wing and its selector. -/
theorem State.chan?_updChan_of {s : State} {w sel : Nat} {c : Chan} {f : Chan → Chan} (hc : s.chan? w sel = some c)
    (h : ∀ c, (f c).wing = c.wing ∧ (f c).sel = c.sel) : (s.updChan w sel f).chan? w sel = some (f c) := by
  rw [State.chan?_updChan h, hc]
  rfl

theorem State.chan?_chans {s t : State} (h : t.chans = s.chans) (w sel : Nat) : t.chan? w sel = s.chan? w sel := by
  unfold State.chan?
  rw [h]

/-- CORRECTED_RATE_WINDOW_END (R224): at most a record of the watermark is raised besides. -/
theorem correctedWindowEnds : CorrectedWindowEnds := by
  intro s w sel c high hc hh
  have hx : exec (.correctedRateWindowEnd w sel) s = execCorrectedRateWindowEnd w sel s := rfl
  rw [hx]
  unfold execCorrectedRateWindowEnd
  rw [hc]
  dsimp only
  rw [← hh]
  refine ⟨fun hw => ?_, fun hw => by rw [if_pos hw]⟩
  rw [if_neg (by omega)]
  have hz : (s.updChan w sel fun c => { c with winCorrected := 0, overRate := high, winEnd := s.tsc / 1000000000 }).chan? w sel =
      some { c with winCorrected := 0, overRate := high, winEnd := s.tsc / 1000000000 } :=
    State.chan?_updChan_of hc fun _ => ⟨rfl, rfl⟩
  split
  next hr =>
    obtain ⟨h1, h2⟩ := (Bool.and_eq_true _ _).mp hr
    refine ⟨_, rfl, (State.chan?_chans (State.watermark_chans ..) w sel).trans hz, ?_, fun he => ?_⟩
    · rw [State.watermark_chans]
      exact (State.watermark_onlyRecords (OnlyRecords.refl _)).onlyNoted
    · rw [← he, h1] at h2
      exact absurd h2 (by simp)
  next =>
    split
    next hr =>
      obtain ⟨h1, h2⟩ := (Bool.and_eq_true _ _).mp hr
      refine ⟨_, rfl, (State.chan?_chans (State.watermark_chans ..) w sel).trans hz, ?_, fun he => ?_⟩
      · rw [State.watermark_chans]
        exact (State.watermark_onlyRecords (OnlyRecords.refl _)).onlyNoted
      · rw [← he] at h2
        rw [h2] at h1
        exact absurd h1 (by simp)
    next => exact ⟨_, rfl, hz, (OnlyRecords.refl _).onlyNoted, fun _ => rfl⟩

/-! Refreshes. -/

/-- What a refresh that issues leaves of the channel: the pending band is in force, and the rank owes nothing. -/
theorem Chan.refreshed_spec (c : Chan) (rank : Nat) :
    (c.refreshed rank).pendingBand = none ∧ (c.refreshed rank).band = c.pendingBand.getD c.band ∧ (c.refreshed rank).owed rank = 0 ∧
      (c.refreshed rank).wing = c.wing ∧ (c.refreshed rank).sel = c.sel := by
  have hn : (c.postponed.filter (·.1 != rank)).find? (·.1 == rank) = none := by
    rw [List.find?_eq_none]
    intro x hx
    simpa using (List.mem_filter.mp hx).2
  unfold Chan.refreshed
  split
  next b hb => exact ⟨rfl, by rw [hb]; rfl, rfl, rfl, rfl⟩
  next hb => exact ⟨hb, by rw [hb]; rfl, by simp [Chan.owed, hn], rfl, rfl⟩

/-- A rank that postpones one more refresh owes one more. -/
theorem Chan.owed_postpone (c : Chan) (rank n : Nat) :
    Chan.owed { c with postponed := (c.postponed.filter (·.1 != rank)) ++ [(rank, n)] } rank = n := by
  have hn : (c.postponed.filter (·.1 != rank)).find? (·.1 == rank) = none := by
    rw [List.find?_eq_none]
    intro x hx
    simpa using (List.mem_filter.mp hx).2
  simp [Chan.owed, List.find?_append, hn]

/-- Refreshes (R254, R255, R257): the cases of DEPOT_REFRESH_DUE, then GALLERY_REFRESH_DUE. -/
theorem refreshes : Refreshes := by
  intro s w sel dimm cs rank c hc hr hrank
  have hx : exec (.depotRefreshDue w sel dimm cs) s = execDepotRefreshDue w sel dimm cs s := rfl
  rw [hx]
  unfold execDepotRefreshDue
  rw [hc, ← hrank]
  dsimp only
  refine ⟨fun hd h1 h2 h3 hu ho => ?_, fun hd h1 h2 h3 hu ho => ?_, fun hd h1 h2 h3 hu => ?_, fun bank hd hb => ?_⟩
  · rw [if_neg (by simp [hd, hr, h3]; omega), if_pos (by simp [hu, ho])]
    refine ⟨_, _, rfl, ?_, Chan.owed_postpone c rank (c.owed rank + 1), rfl, ?_⟩
    · exact (State.chan?_chans rfl w sel).trans (State.chan?_updChan_of hc fun _ => ⟨rfl, rfl⟩)
    · simp only [State.bump, if_neg Nat.one_ne_zero]
      rfl
  · rw [if_neg (by simp [hd, hr, h3]; omega), if_neg (by simp; omega)]
    split
    next => exact ⟨_, _, rfl, State.chan?_updChan_of hc fun _ => ⟨rfl, rfl⟩, Nat.le_refl _, rfl⟩
    next =>
      refine ⟨_, _, rfl, State.chan?_updChan_of hc fun x => (Chan.refreshed_spec x rank).2.2.2, ?_, rfl⟩
      exact (Chan.refreshed_spec c rank).2.2.1.trans_le (Nat.zero_le _)
  · rw [if_neg (by simp [hd, hr, h3]; omega), if_neg (by simp [hu]), if_neg (by simp [hu])]
    obtain ⟨hp, hb, ho, -, -⟩ := Chan.refreshed_spec c rank
    exact ⟨_, _, rfl, State.chan?_updChan_of hc fun x => (Chan.refreshed_spec x rank).2.2.2, hp, hb, ho, rfl⟩
  · have hg : exec (.galleryRefreshDue w sel bank) s = execGalleryRefreshDue w sel bank s := rfl
    rw [hg]
    unfold execGalleryRefreshDue
    rw [hc]
    dsimp only
    rw [if_neg (by simp [hd, hr]; omega)]
    obtain ⟨hp, hb, -, -, -⟩ := Chan.refreshed_spec c bank
    exact ⟨_, _, rfl, State.chan?_updChan_of hc fun x => (Chan.refreshed_spec x bank).2.2.2, hp, hb, rfl⟩

/-! Bands and power-down. -/

/-- What a temperature reading sets in its channel (R257). -/
def Chan.reads (temp : Int) (c : Chan) : Chan :=
  { c with temp := temp, pendingBand := if newBand c.band temp = c.band then none else some (newBand c.band temp) }

/-- THERMAL_SENSOR_POLL of one Depot channel is a change of that channel. -/
theorem thermalSensorPoll_one {s : State} {w sel : Nat} (temp : Int) (hu : s.pw.stewardUp = true) (hd : isDepot sel = true) :
    exec (.thermalSensorPoll [(w, sel, temp)]) s = .next (s.updChan w sel (Chan.reads temp)) := by
  change execThermalSensorPoll [(w, sel, temp)] s = _
  unfold execThermalSensorPoll State.updChan updWhere
  rw [if_neg (by simp [hu])]
  refine congrArg (fun l => (.next { s with chans := l } : Res)) (List.map_congr_left fun c _ => ?_)
  by_cases hp : w = c.wing ∧ sel = c.sel
  · obtain ⟨rfl, rfl⟩ := hp
    simp [hd, Chan.reads]
  · have hq : ¬(c.wing = w ∧ c.sel = sel) := fun h => hp ⟨h.1.symm, h.2.symm⟩
    simp [hd, hp, hq]

/-- THERMAL_SENSOR_POLL (R257). -/
theorem thermalPoll : ThermalPoll := by
  intro s w sel temp c hu hc hd
  refine ⟨_, thermalSensorPoll_one temp hu hd, rfl, State.chan?_updChan_of hc fun _ => ⟨rfl, rfl⟩, fun ht hb => ?_, fun v l hne => ?_⟩
  · unfold newBand
    rw [if_pos ht, if_pos hb]
  · exact State.chan?_updChan_ne (fun _ => ⟨rfl, rfl⟩) fun h => hne.elim (· h.1) (· h.2)

/-- RANK_POWER_DOWN (R262). -/
theorem rankPowersDown : RankPowersDown := by
  intro s w sel rank c hc hd hst hr hq hrank hp hch ht
  have hx : exec (.rankPowerDown w sel rank) s = execRankPowerDown w sel rank s := rfl
  rw [hx]
  unfold execRankPowerDown
  rw [hc]
  dsimp only
  have hreads : (s.mem.reads.any fun r => r.wing == w && r.sel == sel && s.rankOf (s.readAddr r) == rank) = false := by
    rw [List.any_eq_false]
    intro r hm
    have := hr r hm
    simp only [Bool.and_eq_true, beq_iff_eq, not_and, and_imp]
    exact this
  have hwq : (c.wq.any fun q => s.rankOf q.addr == rank) = false := by
    rw [List.any_eq_false]
    intro q hm
    simpa using hq q hm
  rw [if_neg (by simp [hd, hst, hreads, hwq, hp, hch]; omega)]
  exact ⟨_, rfl, rfl, State.chan?_updChan_of hc fun _ => ⟨rfl, rfl⟩⟩

/-- Settles O22: the four kinds of upkeep, each a change of one channel. -/
theorem channelUpkeep : Obligations.ChannelUpkeep :=
  ⟨correctedWindowEnds, refreshes, thermalPoll, rankPowersDown⟩

end Sys2Proof.Machine
end

section
/-! PROOF. The Curator's pins (R136, R137) and heat periods (R127). -/

namespace Sys2Proof.Machine

open Sys2Proof.Claims

/-! A Wing lot's record. -/

theorem State.lot_at (s : State) (c w l : Nat) : (s.lot c w l).coll = c ∧ (s.lot c w l).wing = w ∧ (s.lot c w l).lot = l := by
  unfold State.lot
  split
  next x hx => simpa [and_assoc] using List.find?_some hx
  next => exact ⟨rfl, rfl, rfl⟩

/-- A changed record reads as changed. -/
theorem State.updLot_lot (s : State) (c w l : Nat) {f : Lot → Lot} (hf : ∀ x, (f x).coll = x.coll ∧ (f x).wing = x.wing ∧ (f x).lot = x.lot) :
    (s.updLot c w l f).lot c w l = f (s.lot c w l) := by
  obtain ⟨h1, h2, h3⟩ := s.lot_at c w l
  have hk := find?_upsert (p := fun x : Lot => x.coll == c && x.wing == w && x.lot == l) (f := f) (dflt := s.lot c w l) (l := s.mem.lots)
    (fun x => by rw [(hf x).1, (hf x).2.1, (hf x).2.2]) (by simp [h1, h2, h3])
  have he : (s.mem.lots.find? fun x => x.coll == c && x.wing == w && x.lot == l).getD (s.lot c w l) = s.lot c w l := by
    unfold State.lot
    cases s.mem.lots.find? fun x => x.coll == c && x.wing == w && x.lot == l <;> rfl
  rw [he] at hk
  unfold State.lot at hk ⊢
  unfold State.updLot
  dsimp only [State.updMem_mem]
  unfold State.lot
  rw [hk]

/-- The other records stand. -/
theorem State.updLot_lot_ne (s : State) {c w l c' w' l' : Nat} {f : Lot → Lot}
    (hf : ∀ x, (f x).coll = x.coll ∧ (f x).wing = x.wing ∧ (f x).lot = x.lot) (hne : ¬(c' = c ∧ w' = w ∧ l' = l)) :
    (s.updLot c w l f).lot c' w' l' = s.lot c' w' l' := by
  have hno (x : Lot) (hx : x.coll = c ∧ x.wing = w ∧ x.lot = l) : (x.coll == c' && x.wing == w' && x.lot == l') = false := by
    rw [Bool.eq_false_iff]
    simp only [ne_eq, Bool.and_eq_true, beq_iff_eq, not_and, and_imp]
    rintro rfl rfl rfl
    exact hne hx
  have hmap (x : Lot) (hx : (x.coll == c && x.wing == w && x.lot == l) = true) :
      (x.coll == c' && x.wing == w' && x.lot == l') = false ∧ ((f x).coll == c' && (f x).wing == w' && (f x).lot == l') = false := by
    have h : x.coll = c ∧ x.wing = w ∧ x.lot = l := by simpa [and_assoc] using hx
    rw [(hf x).1, (hf x).2.1, (hf x).2.2]
    exact ⟨hno x h, hno x h⟩
  have hfind : (s.updLot c w l f).mem.lots.find? (fun x => x.coll == c' && x.wing == w' && x.lot == l') =
      s.mem.lots.find? fun x => x.coll == c' && x.wing == w' && x.lot == l' := by
    unfold State.updLot upsert
    dsimp only [State.updMem_mem]
    split
    next => exact find?_updWhere_ne hmap
    next =>
      obtain ⟨h1, h2, h3⟩ := s.lot_at c w l
      have hd := hno (f (s.lot c w l)) (by rw [(hf _).1, (hf _).2.1, (hf _).2.2]; exact ⟨h1, h2, h3⟩)
      rw [List.find?_append, List.find?_singleton, hd]
      exact Option.or_none
  unfold State.lot
  rw [hfind]
  rfl

/-! What the Curator changes when it plans: lots and moves, and the triggers that start moves. -/

/-- `s` is `a` but for its lots, its moves and the docents' triggers. -/
def Curated (a s : State) : Prop := s = { a with mem := { a.mem with lots := s.mem.lots, moves := s.mem.moves }, doc := s.doc }

theorem Curated.refl (s : State) : Curated s s := rfl

theorem Curated.trans {a b c : State} (h : Curated a b) (k : Curated b c) : Curated a c := by
  unfold Curated at h k ⊢
  rw [k, h]

theorem State.updLot_curated (s : State) (c w l : Nat) (f : Lot → Lot) : Curated s (s.updLot c w l f) := rfl

theorem State.queueMoves_curated (s : State) (c w : Nat) (ms : List Decision) : Curated s (s.queueMoves c w ms) := by
  unfold State.queueMoves State.queueTrigger
  split
  · rfl
  · dsimp only
    split <;> rfl

theorem Curated.foldl {α : Type} {f : State → α → State} (h : ∀ s x, Curated s (f s x)) (l : List α) (s : State) :
    Curated s (l.foldl f s) := by
  induction l generalizing s with
  | nil => exact .refl s
  | cons x l ih => exact (h s x).trans (ih (f s x))

/-- What a PIN or an UNPIN leaves of memory beside its commands. -/
theorem Curated.mem {a s : State} (h : Curated a s) :
    s.mem.dram = a.mem.dram ∧ s.mem.cat = a.mem.cat ∧ s.mem.cmds = a.mem.cmds := by
  unfold Curated at h
  rw [h]
  exact ⟨rfl, rfl, rfl⟩

/-- The command pins of `s` are those of `a`. -/
def PinsKept (a s : State) : Prop := ∀ c w l, (s.lot c w l).pin = (a.lot c w l).pin

theorem PinsKept.foldl {α : Type} {f : State → α → State} (h : ∀ s x, PinsKept s (f s x)) (l : List α) (s : State) :
    PinsKept s (l.foldl f s) := by
  induction l generalizing s with
  | nil => exact fun _ _ _ => rfl
  | cons x l ih => exact fun c w k => (ih (f s x) c w k).trans (h s x c w k)

theorem State.updLot_pinsKept (s : State) (c w l : Nat) {f : Lot → Lot}
    (hf : ∀ x, (f x).coll = x.coll ∧ (f x).wing = x.wing ∧ (f x).lot = x.lot) (hp : ∀ x, (f x).pin = x.pin) :
    PinsKept s (s.updLot c w l f) := by
  intro c' w' l'
  by_cases h : c' = c ∧ w' = w ∧ l' = l
  · obtain ⟨rfl, rfl, rfl⟩ := h
    rw [s.updLot_lot c' w' l' hf, hp]
  · rw [s.updLot_lot_ne hf h]

theorem State.queueMoves_pinsKept (s : State) (c w : Nat) (ms : List Decision) : PinsKept s (s.queueMoves c w ms) := by
  unfold State.queueMoves State.queueTrigger
  split
  · exact fun _ _ _ => rfl
  · dsimp only
    split <;> exact fun _ _ _ => rfl

/-! PIN. -/

/-- The lots that a PIN pins, pinned. -/
def State.pinEach (s : State) (c : Nat) (gal : Bool) (ks : List (Nat × Nat)) : State :=
  ks.foldl (fun s k => s.updLot c k.1 k.2 fun l => { l with pin := some gal }) s

theorem State.pinEach_curated (s : State) (c : Nat) (gal : Bool) (ks : List (Nat × Nat)) : Curated s (s.pinEach c gal ks) := by
  unfold State.pinEach
  exact Curated.foldl (fun s k => State.updLot_curated ..) ks s

theorem State.pinEach_pin {c : Nat} {gal : Bool} {k : Nat × Nat} (ks : List (Nat × Nat)) (s : State)
    (h : k ∈ ks ∨ (s.lot c k.1 k.2).pin = some gal) : ((s.pinEach c gal ks).lot c k.1 k.2).pin = some gal := by
  induction ks generalizing s with
  | nil => exact h.resolve_left List.not_mem_nil
  | cons y ks ih =>
    refine ih _ ?_
    have hf (x : Lot) : ({ x with pin := some gal } : Lot).coll = x.coll ∧ ({ x with pin := some gal } : Lot).wing = x.wing ∧
        ({ x with pin := some gal } : Lot).lot = x.lot := ⟨rfl, rfl, rfl⟩
    by_cases hy : c = c ∧ k.1 = y.1 ∧ k.2 = y.2
    · obtain ⟨-, h1, h2⟩ := hy
      rw [h1, h2, s.updLot_lot c y.1 y.2 hf]
      exact .inr rfl
    · rw [s.updLot_lot_ne hf hy]
      refine h.imp_left fun hm => ?_
      exact (List.mem_cons.mp hm).resolve_left fun he => hy ⟨rfl, congrArg Prod.fst he, congrArg Prod.snd he⟩

/-- The operands of a PIN or an UNPIN of some collection lots of a tier, in range. -/
structure PinRange (s : State) (x : Cmd) (lots : List (Nat × Nat)) (gal : Bool) : Prop where
  lots : lots = ((List.range (fieldAt x.bytes 16 8)).flatMap fun i => s.lotsOf x.coll (fieldAt x.bytes 8 8 + i)).eraseDups
  some : fieldAt x.bytes 16 8 ≠ 0
  inside : fieldAt x.bytes 8 8 + fieldAt x.bytes 16 8 ≤ s.act.size x.coll / 65536
  tier : fieldAt x.bytes 24 1 = bit1 (!gal)

theorem PinRange.gal {s : State} {x : Cmd} {lots : List (Nat × Nat)} {gal : Bool} (h : PinRange s x lots gal) :
    (fieldAt x.bytes 24 1 == 0) = gal := by
  rw [h.tier]
  cases gal <;> rfl

theorem PinRange.ok {s : State} {x : Cmd} {lots : List (Nat × Nat)} {gal : Bool} (h : PinRange s x lots gal) :
    ¬(fieldAt x.bytes 16 8 = 0 ∨ s.act.size x.coll / 65536 < fieldAt x.bytes 8 8 + fieldAt x.bytes 16 8 ∨ 1 < fieldAt x.bytes 24 1) := by
  have h1 := h.some
  have h2 := h.inside
  have h3 : fieldAt x.bytes 24 1 ≤ 1 := by
    rw [h.tier]
    cases gal <;> decide
  omega

/-- The moves of a PIN, planned Wing by Wing. -/
def State.pinMoves (s : State) (c : Nat) (gal : Bool) (lots : List (Nat × Nat)) (w : Nat) : State :=
  let mine := (lots.filter (·.1 == w)).map (·.2)
  let s1 := mine.foldl (fun s l => if s.lotStored c w l then s else s.updLot c w l fun y => { y with gallery := gal }) s
  let wrong := mine.filter fun l => !s1.resides c w l gal
  let need := s1.chargedOn c w true + s1.pinHeadroom c w
  let dem := if gal then (s1.takeUntil c w (s1.fillSlots c w) (s1.coldLots c w wrong true) need).1 else []
  s1.queueMoves c w ((dem.map fun l => (⟨l, false, false, []⟩ : Decision)) ++ wrong.map fun l => ⟨l, gal, true, []⟩)

/-- Planning a Wing's moves for a PIN keeps memory and the command pins. -/
theorem State.pinMoves_spec (s : State) (c : Nat) (gal : Bool) (lots : List (Nat × Nat)) (w : Nat) :
    Curated s (s.pinMoves c gal lots w) ∧ PinsKept s (s.pinMoves c gal lots w) := by
  unfold State.pinMoves
  dsimp only
  refine ⟨(Curated.foldl (fun s l => ?_) _ s).trans (State.queueMoves_curated ..),
    fun c' w' l' => (State.queueMoves_pinsKept _ _ _ _ c' w' l').trans (PinsKept.foldl (fun s l => ?_) _ s c' w' l')⟩
  · split
    · exact .refl s
    · exact State.updLot_curated ..
  · split
    · exact fun _ _ _ => rfl
    · exact State.updLot_pinsKept s c w l (fun _ => ⟨rfl, rfl, rfl⟩) fun _ => rfl

/-- PIN (R136) over lots with no edition pin in the other tier: QUOTA, or its pins and moves. -/
theorem State.pin_eq {s : State} {x : Cmd} {lots : List (Nat × Nat)} {gal : Bool} (h : PinRange s x lots gal)
    (hother : lots.any (fun k => s.act.pinAt x.coll (s.collLots x.coll k.1 k.2) == some (!gal)) = false) :
    (∃ w ∈ s.wingsOf x.coll, gal = true ∧ State.pin x s = s.endCmd x stQuota w 0) ∨
    ∃ t u, t = (s.wingsOf x.coll).foldl (State.pinMoves · x.coll gal lots)
        (s.pinEach x.coll gal (lots.filter fun k => (s.act.pinAt x.coll (s.collLots x.coll k.1 k.2)).isNone)) ∧
      State.pin x s = if lots.all fun k => t.resides x.coll k.1 k.2 gal then t.endCmd x stDone 0 (fieldAt x.bytes 16 8)
        else t.putCmd { x with forwarded := true, undo := u } := by
  unfold State.pin
  dsimp only
  rw [if_neg h.ok, ← h.lots, h.gal, if_neg (by rw [hother]; exact Bool.false_ne_true)]
  split
  next w hw =>
    split at hw
    next hg => exact .inl ⟨w, List.mem_of_find?_eq_some hw, hg, rfl⟩
    next => exact nomatch hw
  next => exact .inr ⟨_, _, rfl, rfl⟩

/-- PIN (R136). -/
theorem pin_spec {s : State} {x : Cmd} {lots : List (Nat × Nat)} {gal : Bool} (h : PinRange s x lots gal) (hr : runs s x 5)
    (hother : lots.any (fun k => s.act.pinAt x.coll (s.collLots x.coll k.1 k.2) == some (!gal)) = false) :
    ∃ t, exec (.pin x.coll x.src) s = .next t ∧ t.mem.dram = s.mem.dram ∧ t.mem.cat = s.mem.cat ∧
      (ended s t x 2 0 (fieldAt x.bytes 16 8) ∨ (∃ u, t.cmd? x.coll x.src = some { x with forwarded := true, undo := u }) ∨
        (gal = true ∧ t.mem.lots = s.mem.lots ∧ ∃ w ∈ s.wingsOf x.coll, ended s t x 0x8005 w 0)) ∧
      (gal = false → ∀ k ∈ lots, s.act.pinAt x.coll (s.collLots x.coll k.1 k.2) = none → (t.lot x.coll k.1 k.2).pin = some false) := by
  have hx : exec (.pin x.coll x.src) s = .next (State.pin x s) :=
    congrArg (fun t => (.next t : Res)) (State.runCmd_runs hr State.pin)
  rw [hx]
  obtain ⟨w, hw, hg, he⟩ | ⟨t, u, ht, he⟩ := State.pin_eq h hother
  · rw [he]
    refine ⟨_, rfl, by rw [State.endCmd_mem], by rw [State.endCmd_mem],
      .inr (.inr ⟨hg, by rw [State.endCmd_mem], w, hw, State.endCmd_ended rfl ..⟩), fun hf => ?_⟩
    rw [hg] at hf
    exact nomatch hf
  · rw [he]
    have hcur : Curated s t := by
      rw [ht]
      exact (s.pinEach_curated ..).trans (Curated.foldl (fun s w => (s.pinMoves_spec x.coll gal lots w).1) ..)
    obtain ⟨hdram, hcat, hcmds⟩ := hcur.mem
    have hpins (k : Nat × Nat) (hk : k ∈ lots) (hn : s.act.pinAt x.coll (s.collLots x.coll k.1 k.2) = none) :
        (t.lot x.coll k.1 k.2).pin = some gal := by
      rw [ht, PinsKept.foldl fun s w => (s.pinMoves_spec x.coll gal lots w).2]
      exact State.pinEach_pin _ _ (.inl (List.mem_filter.mpr ⟨hk, by rw [hn]; rfl⟩))
    have hact : t.act = s.act := by
      rw [hcur]
      rfl
    split
    · refine ⟨_, rfl, by rw [State.endCmd_mem]; exact hdram, by rw [State.endCmd_mem]; exact hcat,
        .inl (State.endCmd_ended hcmds ..), fun hg k hk hn => ?_⟩
      have hlot : ((t.endCmd x stDone 0 (fieldAt x.bytes 16 8)).lot x.coll k.1 k.2).pin = (t.lot x.coll k.1 k.2).pin := by
        unfold State.lot
        rw [State.endCmd_mem]
        dsimp only
        split <;> rfl
      rw [hlot, hpins k hk hn, hg]
    · exact ⟨_, rfl, hdram, hcat, .inr (.inl ⟨u, State.cmd?_putCmd t { x with forwarded := true, undo := u }⟩),
        fun hg k hk hn => (hpins k hk hn).trans (congrArg some hg)⟩

/-! UNPIN. -/

/-- UNPIN (R137). -/
theorem unpin_spec {s : State} {x : Cmd} {lots : List (Nat × Nat)} {gal : Bool} (h : PinRange s x lots gal) (hr : runs s x 6) :
    ∃ t, exec (.unpin x.coll x.src) s = .next t ∧
      ended s t x 2 0 ((List.range (fieldAt x.bytes 16 8)).filter fun i =>
        (s.lotsOf x.coll (fieldAt x.bytes 8 8 + i)).any fun k => (s.lot x.coll k.1 k.2).pin == some gal).length ∧
      (∀ k ∈ lots, (t.lot x.coll k.1 k.2).pin ≠ some gal) ∧ t.mem.dram = s.mem.dram ∧ t.mem.cat = s.mem.cat := by
  have hx : exec (.unpin x.coll x.src) s = .next (State.unpin x s) :=
    congrArg (fun t => (.next t : Res)) (State.runCmd_runs hr State.unpin)
  rw [hx]
  unfold State.unpin
  dsimp only
  rw [if_neg h.ok, ← h.lots, h.gal]
  refine ⟨_, rfl, State.endCmd_ended (t := s.updMem _) rfl .., fun k hk hp => ?_, by rw [State.endCmd_mem]; rfl,
    by rw [State.endCmd_mem]; rfl⟩
  unfold State.lot at hp
  rw [State.endCmd_mem] at hp
  dsimp only [State.updMem_mem] at hp
  split at hp
  next y hy =>
    have hkey : (y.coll = x.coll ∧ y.wing = k.1) ∧ y.lot = k.2 := by simpa using List.find?_some hy
    obtain ⟨z, -, hz⟩ := List.mem_map.mp (List.mem_of_find?_eq_some hy)
    split at hz
    next =>
      rw [← hz] at hp
      exact nomatch hp
    next hno =>
      subst hz
      refine hno ?_
      simp only [hkey, hp, beq_self_eq_true, Bool.true_and, Bool.and_true, List.contains_eq_mem, decide_eq_true_eq]
      exact hk
  next => exact nomatch hp

/-! The ends. -/

/-- PIN_MOVE_DONE (R136): the waiting PIN, and nothing else. -/
theorem pinMoveDone_spec {s : State} {x : Cmd} {lots : List (Nat × Nat)} {gal : Bool} (h : PinRange s x lots gal)
    (hu : s.underWay x.coll x.src 5 = some x) (hall : lots.all (fun k => s.resides x.coll k.1 k.2 gal) = true) :
    exec (.pinMoveDone x.coll x.src) s = .next (s.endCmd x stDone 0 (fieldAt x.bytes 16 8)) := by
  change execPinMoveDone x.coll x.src s = _
  unfold execPinMoveDone
  rw [hu]
  dsimp only
  rw [← h.lots, h.gal, if_pos hall]

/-- PIN and UNPIN (R136, R137). -/
theorem pinsHold : PinsHold := by
  intro s x lots gal h1 h2 h3 h4
  have h : PinRange s x lots gal := ⟨h1, h2, h3, h4⟩
  refine ⟨pin_spec h, fun hu hall => ?_, unpin_spec h⟩
  exact ⟨_, pinMoveDone_spec h hu hall, State.endCmd_ended rfl .., by rw [State.endCmd_mem], by rw [State.endCmd_mem],
    by rw [State.endCmd_mem]⟩

/-! HEAT_PERIOD_END (R127). -/

/-- A period's end on one Wing: its lots' heat is halved, and its moves are decided. -/
structure PeriodEnded (a s : State) (halved : Lot → Bool) : Prop where
  mem : s.mem = { a.mem with moves := s.mem.moves, lots := updWhere halved (fun l => { l with heat := l.heat / 2 }) a.mem.lots }
  dies : s.dies = a.dies

theorem State.queueMoves_frame (s : State) (c w : Nat) (ms : List Decision) :
    (s.queueMoves c w ms).mem = { s.mem with moves := (s.queueMoves c w ms).mem.moves } ∧ (s.queueMoves c w ms).dies = s.dies := by
  unfold State.queueMoves State.queueTrigger
  split
  · exact ⟨rfl, rfl⟩
  · dsimp only
    split <;> exact ⟨rfl, rfl⟩

/-- The decisions of a period end (R128) change moves alone. -/
theorem State.decideAll_frame (w : Nat) (cs : List Nat) (s : State) :
    (cs.foldl (fun s c => (s.queueMoves c w (s.planPeriod c w).moves).bump 0x300B 7 c (s.planPeriod c w).refused) s).mem =
      { s.mem with moves :=
        (cs.foldl (fun s c => (s.queueMoves c w (s.planPeriod c w).moves).bump 0x300B 7 c (s.planPeriod c w).refused) s).mem.moves } ∧
    (cs.foldl (fun s c => (s.queueMoves c w (s.planPeriod c w).moves).bump 0x300B 7 c (s.planPeriod c w).refused) s).dies = s.dies := by
  induction cs generalizing s with
  | nil => exact ⟨rfl, rfl⟩
  | cons c cs ih =>
    obtain ⟨h1, h2⟩ := ih ((s.queueMoves c w (s.planPeriod c w).moves).bump 0x300B 7 c (s.planPeriod c w).refused)
    obtain ⟨h3, h4⟩ := s.queueMoves_frame c w (s.planPeriod c w).moves
    rw [State.bump_mem, h3] at h1
    rw [State.bump_dies, h4] at h2
    exact ⟨h1, h2⟩

theorem State.periodOn_ended (s : State) (w : Nat) : PeriodEnded s (s.periodOn w) (·.wing == w) := by
  unfold State.periodOn
  dsimp only
  obtain ⟨h1, h2⟩ := State.decideAll_frame w (s.act.colls.filter fun c => (s.wingsOf c).contains w) (s.dropWaiting w)
  refine ⟨?_, h2⟩
  unfold State.halveHeat
  dsimp only [State.updMem_mem]
  rw [h1]
  rfl

theorem State.wingUp_dies {s t : State} (h : t.dies = s.dies) (w : Nat) : t.wingUp w = s.wingUp w := by
  unfold State.wingUp State.die?
  rw [h]

/-- The ends of a period on several Wings. -/
theorem State.periodAll_ended (ws : List Nat) (hnd : ws.Nodup) (s : State) :
    PeriodEnded s (ws.foldl (fun s w => if s.wingUp w then s.periodOn w else s) s) (fun l => ws.contains l.wing && s.wingUp l.wing) := by
  induction ws generalizing s with
  | nil => exact ⟨by simp [updWhere], rfl⟩
  | cons w ws ih =>
    obtain ⟨hw, hnd⟩ := List.nodup_cons.mp hnd
    have hstep : PeriodEnded s (if s.wingUp w then s.periodOn w else s) (fun l => l.wing == w && s.wingUp w) := by
      split
      next hup => simpa [hup] using s.periodOn_ended w
      next hup => exact ⟨by simp [hup, updWhere], rfl⟩
    rw [List.foldl_cons]
    generalize (if s.wingUp w then s.periodOn w else s) = u at hstep ⊢
    have hrest := ih hnd u
    refine ⟨?_, hrest.dies.trans hstep.dies⟩
    have hlots : updWhere (fun l : Lot => ws.contains l.wing && u.wingUp l.wing) (fun l => { l with heat := l.heat / 2 })
        (updWhere (fun l => l.wing == w && s.wingUp w) (fun l => { l with heat := l.heat / 2 }) s.mem.lots) =
        updWhere (fun l => (w :: ws).contains l.wing && s.wingUp l.wing) (fun l => { l with heat := l.heat / 2 }) s.mem.lots := by
      unfold updWhere
      rw [List.map_map]
      refine List.map_congr_left fun l _ => ?_
      by_cases hl : l.wing = w
      · cases hup : s.wingUp w <;> simp [hl, hw, hup]
      · cases hup : s.wingUp l.wing <;> simp [hl, hup, State.wingUp_dies hstep.dies]
    have hmem := hrest.mem
    rw [hstep.mem] at hmem
    dsimp only at hmem
    rwa [hlots] at hmem

theorem State.notePrepared_mem (s : State) : s.notePrepared.mem = s.mem := by
  unfold State.notePrepared
  split
  · exact State.event_mem ..
  · rfl

theorem Assembly.wings_nodup (a : Assembly) : a.wings.Nodup := by
  cases a <;> decide

/-- HEAT_PERIOD_END (R127). -/
theorem heatHalves : HeatHalves := by
  intro s ha
  have hx : exec .heatPeriodEnd s = execHeatPeriodEnd s := rfl
  have hms : ms = 1000000 := rfl
  rw [hx]
  unfold execHeatPeriodEnd
  rw [hms]
  refine ⟨fun ht => ?_, fun ht => ?_⟩
  · rw [if_pos (by simp [ha, ht])]
    have he := State.periodAll_ended s.pkg.asm.wings s.pkg.asm.wings_nodup (s.updMem fun m => { m with periodAt := s.tsc })
    refine ⟨_, rfl, ?_⟩
    rw [State.notePrepared_mem, he.mem]
    refine ⟨rfl, rfl, rfl, rfl, List.map_congr_left fun l _ => ?_⟩
    simp only [Bool.and_eq_true, List.contains_eq_mem, decide_eq_true_eq]
    rfl
  · rw [if_neg (by simp [ha]; omega)]

/-- Settles O18: pins by the frame of planning, heat periods Wing by Wing. -/
theorem pinsAndHeat : Obligations.PinsAndHeat := ⟨pinsHold, heatHalves⟩

end Sys2Proof.Machine
end

section
/-! PROOF. Flits of a Corridor link (R21, R274-R278, R292). -/

namespace Sys2Proof.Machine

open Sys2Proof.Claims

/-! A Corridor port and its changes. -/

theorem State.cport?_key {s : State} {die i : Nat} {p : CPort} (h : s.cport? die i = some p) : p.die = die ∧ p.idx = i := by
  simpa using List.find?_some h

theorem State.cport?_updCport_ne {s : State} {die i d k : Nat} {f : CPort → CPort} (h : ∀ p, (f p).die = p.die ∧ (f p).idx = p.idx)
    (hne : ¬(d = die ∧ k = i)) : (s.updCport die i f).cport? d k = s.cport? d k :=
  find?_updWhere_ne fun p hp => by
    have hk : p.die = die ∧ p.idx = i := by simpa using hp
    have hf : ¬(die = d ∧ i = k) := fun x => hne ⟨x.1.symm, x.2.symm⟩
    rw [(h p).1, (h p).2, hk.1, hk.2]
    simpa using hf

/-- A port after a change that keeps its place. -/
theorem State.cport?_updCport_of {s : State} {die i : Nat} {p : CPort} {f : CPort → CPort} (hp : s.cport? die i = some p)
    (h : ∀ p, (f p).die = p.die ∧ (f p).idx = p.idx) : (s.updCport die i f).cport? die i = some (f p) := by
  rw [State.cport?_updCport h, hp]
  rfl

theorem find?_updWhere_const {α : Type} {p : α → Bool} {x y : α} {l : List α} (h : l.find? p = some x) (hy : p y = true) :
    (updWhere p (fun _ => y) l).find? p = some y := by
  induction l with
  | nil => exact nomatch h
  | cons z l ih =>
    unfold updWhere at ih ⊢
    cases hz : p z <;> simp_all

/-- A port set to a record of its own place. -/
theorem State.cport?_setCport {s : State} {die i : Nat} {p q : CPort} (hp : s.cport? die i = some p) (hq : q.die = die ∧ q.idx = i) :
    (s.updCport die i fun _ => q).cport? die i = some q :=
  find?_updWhere_const hp (by simp [hq])

/-! What a port that sends changes. -/

/-- `s` is `a` but for the one port `(die, i)` and the messages sent since. -/
structure PortSends (die i : Nat) (a s : State) : Prop where
  eq : s = { a with cor := s.cor, out := s.out }
  others : ∀ d k, ¬(d = die ∧ k = i) → s.cport? d k = a.cport? d k
  st : (s.cport? die i).map CPort.st = (a.cport? die i).map CPort.st
  sent : ∃ l, s.out = a.out ++ l

theorem PortSends.refl {die i : Nat} (s : State) : PortSends die i s s :=
  ⟨rfl, fun _ _ _ => rfl, rfl, [], (List.append_nil _).symm⟩

theorem PortSends.trans {die i : Nat} {a b c : State} (h : PortSends die i a b) (k : PortSends die i b c) : PortSends die i a c where
  eq := by rw [k.eq, h.eq]
  others := fun d j hne => (k.others d j hne).trans (h.others d j hne)
  st := k.st.trans h.st
  sent := by
    obtain ⟨l, hl⟩ := h.sent
    obtain ⟨m, hm⟩ := k.sent
    exact ⟨l ++ m, by rw [hm, hl, List.append_assoc]⟩

theorem PortSends.mem_out {die i : Nat} {a s : State} (h : PortSends die i a s) {m : Msg} (hm : m ∈ a.out) : m ∈ s.out := by
  obtain ⟨l, hl⟩ := h.sent
  rw [hl]
  exact List.mem_append_left l hm

theorem State.updCport_portSends {die i : Nat} (s : State) {f : CPort → CPort}
    (h : ∀ p, (f p).die = p.die ∧ (f p).idx = p.idx ∧ (f p).st = p.st) : PortSends die i s (s.updCport die i f) := by
  refine ⟨rfl, fun _ _ hne => State.cport?_updCport_ne (fun p => ⟨(h p).1, (h p).2.1⟩) hne, ?_, [], (List.append_nil _).symm⟩
  rw [State.cport?_updCport fun p => ⟨(h p).1, (h p).2.1⟩, Option.map_map]
  exact congrArg (fun g => (s.cport? die i).map g) (funext fun p => (h p).2.2)

theorem State.sendFlit_portSends (die i : Nat) (s : State) (f : Bytes) : PortSends die i s (s.sendFlit die i f) :=
  ⟨rfl, fun _ _ _ => rfl, rfl, [.flit die i f], rfl⟩

theorem State.sendMsg_portSends (die i : Nat) (s : State) (p : CPort) (m : CorMsg) : PortSends die i s (s.sendMsg die i p m) :=
  (s.sendFlit_portSends die i _).trans (State.updCport_portSends _ fun _ => ⟨rfl, rfl, rfl⟩)

theorem State.flushAux_portSends (die i : Nat) (fuel : Nat) (s : State) : PortSends die i s (State.flushAux die i fuel s) := by
  induction fuel generalizing s with
  | zero => exact .refl s
  | succ fuel ih =>
    unfold State.flushAux
    split
    · exact .refl s
    · split
      · exact .refl s
      · split
        · exact s.sendFlit_portSends die i _
        · exact (State.sendMsg_portSends ..).trans (ih _)

theorem State.flushPort_portSends (die i : Nat) (s : State) : PortSends die i s (s.flushPort die i) := by
  unfold State.flushPort
  split
  · exact .refl s
  · exact State.flushAux_portSends ..

theorem State.sendPart_portSends (die i : Nat) (s : State) (k first : Nat) (b : Bytes) : PortSends die i s (s.sendPart die i k first b) := by
  unfold State.sendPart
  split
  · exact .refl s
  · split
    · exact .refl s
    · exact (State.updCport_portSends s (f := fun p => { p with sendq := p.sendq ++ [⟨k, first, b, 0⟩] }) fun _ => ⟨rfl, rfl, rfl⟩).trans
        (State.flushPort_portSends ..)

/-- A LINK flit that a port sends (R275, R278). -/
theorem State.sendLink_spec {s : State} {die i : Nat} {p : CPort} (hp : s.cport? die i = some p) (nak : Bool) :
    PortSends die i s (s.sendLink die i nak) ∧ (s.sendLink die i nak).out.length = s.out.length + 1 ∧
      (s.sendLink die i nak).cport? die i = some { p with sinceAck := 0, ackFrom := none, delivered := [] } := by
  unfold State.sendLink
  rw [hp]
  dsimp only
  refine ⟨(s.sendFlit_portSends die i _).trans (State.updCport_portSends _ fun _ => ⟨rfl, rfl, rfl⟩), List.length_append,
    State.cport?_updCport_of (s := s.sendFlit die i _) hp fun _ => ⟨rfl, rfl⟩⟩

/-- The one part that waits, with a credit for its stream, is the next to be sent (R273). -/
theorem CPort.pickMsg_single {p : CPort} {m : CorMsg} (hq : p.sendq = [m]) (hc : p.credits.getD m.stream 0 ≠ 0) (hw : m.waited < 64) :
    p.pickMsg = some m := by
  have hr : p.ready = [m] := by
    unfold CPort.ready
    rw [hq]
    have h1 : [m.stream].eraseDups = [m.stream] := rfl
    have hc : (p.credits.getD m.stream 0 != 0) = true := by simpa using hc
    rw [List.map_singleton, h1, List.filterMap_cons, List.find?_singleton, beq_self_eq_true, if_pos rfl]
    exact List.filter_cons_of_pos hc
  have hrank : streamRank m.stream ≤ 5 := by
    unfold streamRank
    repeat' split
    all_goals omega
  unfold CPort.pickMsg
  rw [hr]
  dsimp only
  have hnw : [m].find? (fun x => decide (64 ≤ x.waited)) = none := by
    simp only [List.find?_singleton, decide_eq_true_eq]
    rw [if_neg (by omega)]
  have hmin : [m].foldl (fun b x => min b (streamRank x.stream)) 6 = streamRank m.stream := by
    change min 6 (streamRank m.stream) = _
    omega
  rw [hnw, hmin]
  dsimp only
  have hf : [m].filter (fun x => streamRank x.stream == streamRank m.stream) = [m] := by simp
  have hs : sortBy (fun a b : CorMsg => decide (a.stream ≤ b.stream)) [m] = [m] := rfl
  rw [hf, hs]
  split
  · rfl
  · split
    next h => exact (by simpa using List.mem_of_find?_eq_some h)
    next => rfl

/-- A part handed to a port that is up, with nothing waiting and a credit for its stream, is sent at once. -/
theorem State.sendPart_sends {s : State} {die j k first : Nat} {r : CPort} {b : Bytes} (hr : s.cport? die j = some r) (hst : r.st = 2)
    (hq : r.sendq = []) (hu : r.unacked < 1024) (hc : r.credits.getD k 0 ≠ 0) :
    .flit die j (mkFlit k 0 r.nextSeq first b) ∈ (s.sendPart die j k first b).out := by
  unfold State.sendPart
  rw [hr]
  dsimp only
  rw [if_neg (by simp [hst])]
  have hp := State.cport?_updCport_of (f := fun p : CPort => { p with sendq := p.sendq ++ [⟨k, first, b, 0⟩] }) hr fun _ => ⟨rfl, rfl⟩
  have hpick := CPort.pickMsg_single (p := { r with sendq := r.sendq ++ [⟨k, first, b, 0⟩] }) (m := ⟨k, first, b, 0⟩)
    (by rw [hq]; rfl) hc (Nat.zero_lt_succ 63)
  unfold State.flushPort
  rw [hp]
  dsimp only
  unfold State.flushAux
  rw [hp]
  dsimp only
  rw [if_neg (by simp [hst]; exact hu), hpick]
  refine (State.flushAux_portSends ..).mem_out ?_
  exact List.mem_append_right _ List.mem_cons_self

/-! A DATA flit. -/

theorem dataFlit_eq {s : State} {die i : Nat} {p : CPort} {f : Bytes} (hp : portUp s die i p) (hs : flitSound f = true) (ht : flitType f = 0) :
    exec (.dataFlit die i f) s = .next (s.receiveData die i p f) := by
  change execDataFlit die i f s = _
  unfold execDataFlit
  rw [hp.1]
  dsimp only
  rw [if_neg (by simp [hp.2]), if_neg (by simp [hs]), if_pos ht]

/-- A port that took the flit it expected. -/
def CPort.took (p : CPort) (f : Bytes) (now : Nat) : CPort :=
  { p with expect := (p.expect + 1) % 4096, delivered := p.delivered ++ [(flitStream f, Sram.store false (slice f 4 120))],
           sinceAck := p.sinceAck + 1, ackFrom := some (p.ackFrom.getD now), nakUntil := none, dupRun := false }

/-- The expected flit, before the 16th since the last acknowledgement, is taken and goes on. -/
theorem State.receiveData_next {s : State} {die i : Nat} {p : CPort} {f : Bytes} (ha : ahead p f = 0) (hk : p.sinceAck < 15) :
    s.receiveData die i p f = (s.updCport die i fun p => p.took f s.tsc).forward die i f := by
  unfold State.receiveData
  dsimp only
  rw [if_pos ha, if_neg (by omega)]
  rfl

/-- Where a delivered flit goes on through another port, the receiving port is not touched. -/
theorem State.forward_spec {s : State} {die i : Nat} {f : Bytes} (h : ∀ n, s.forwardTo die i (flitStream f) = some n → n.1 ≠ i) :
    ∃ j, j ≠ i ∧ PortSends die j s (s.forward die i f) := by
  unfold State.forward
  split
  next n hn => exact ⟨n.1, h n hn, State.sendPart_portSends ..⟩
  next =>
    split
    next hc =>
      obtain ⟨-, -, -, rfl⟩ := hc
      exact ⟨2, by decide, State.sendPart_portSends ..⟩
    next => exact ⟨i + 1, by omega, .refl s⟩

theorem State.forwardTo_updCport (s : State) (die i : Nat) (f : CPort → CPort) (d j k : Nat) :
    (s.updCport die i f).forwardTo d j k = s.forwardTo d j k := rfl

/-- DATA flits (R21, R277, R278): the expected one, a duplicate, and one ahead of a gap. -/
theorem dataFlits : DataFlits := by
  intro s die i p f hp hs ht
  rw [dataFlit_eq hp hs ht]
  have hkey : ∀ q : CPort, (q.took f s.tsc).die = q.die ∧ (q.took f s.tsc).idx = q.idx := fun _ => ⟨rfl, rfl⟩
  refine ⟨fun ha hk hfwd => ?_, fun ha => ?_, fun n h0 h1 hn hlt => ?_, fun h0 h1 hn => ?_⟩ <;> unfold ahead at *
  · rw [State.receiveData_next ha hk]
    have hq := State.cport?_updCport_of (f := fun p => p.took f s.tsc) hp.1 hkey
    obtain ⟨j, hj, hsends⟩ := State.forward_spec (s := s.updCport die i fun p => p.took f s.tsc) (f := f) (die := die) (i := i) hfwd
    refine ⟨_, p.took f s.tsc, rfl, ?_, (hsends.others die i fun h => hj h.2.symm).trans hq, rfl, rfl, rfl, rfl, fun hno hne => ?_,
      fun j k r hto hr hqe hu hc => ?_⟩
    · rw [hsends.eq]
      rfl
    · unfold State.forward
      rw [State.forwardTo_updCport, hno]
      dsimp only
      rw [if_neg fun h => hne h.1]
      rfl
    · unfold State.forward
      rw [State.forwardTo_updCport, hto]
      dsimp only
      refine State.sendPart_sends ?_ hr.2 hqe hu hc
      rw [State.cport?_updCport_ne hkey fun h => hfwd _ hto h.2]
      exact hr.1
  · have h0 : ¬(flitSeq f + 4096 - p.expect) % 4096 = 0 := fun h => by omega
    unfold State.receiveData
    dsimp only
    rw [if_neg h0, if_neg (by omega), if_pos ha]
    have hb : (s.bump 0x2201 5 (cportObj die i) 1).cport? die i = some p := by rw [← hp.1]; exact congrArg (List.find? _) (State.bump_cor ..)
    split
    next => exact ⟨_, p, rfl, hb, rfl, rfl, fun _ h => h, State.bump_mem ..⟩
    next =>
      obtain ⟨h1, -, h3⟩ := State.sendLink_spec hb false
      refine ⟨_, _, rfl, State.cport?_updCport_of h3 fun _ => ⟨rfl, rfl⟩, rfl, rfl, fun _ hx => absurd hx List.not_mem_nil, ?_⟩
      rw [State.updCport_mem, h1.eq]
      exact State.bump_mem ..
  · unfold State.receiveData
    dsimp only
    rw [if_neg (by omega), if_pos h1, hn]
    dsimp only
    rw [if_pos (by simpa using hlt)]
    exact ⟨_, _, rfl, rfl, State.cport?_updCport_of hp.1 fun _ => ⟨rfl, rfl⟩, rfl, rfl⟩
  · unfold State.receiveData
    dsimp only
    rw [if_neg (by omega), if_pos h1, hn]
    dsimp only
    rw [if_neg Bool.false_ne_true]
    have hq := State.cport?_updCport_of (f := fun p : CPort => { p with dupRun := false }) hp.1 fun _ => ⟨rfl, rfl⟩
    obtain ⟨h1, h2, h3⟩ := State.sendLink_spec hq true
    refine ⟨_, _, rfl, ?_, State.cport?_updCport_of (s := State.bump _ 0x2201 2 (cportObj die i) 1) h3 fun _ => ⟨rfl, rfl⟩, rfl, rfl⟩
    rw [State.updCport_out, State.bump_out, h2]
    rfl

/-! Bad flits, and acknowledgements. -/

/-- A flit whose crc fails (R274, R292). -/
theorem badFlitDiscarded : BadFlitDiscarded := by
  intro s die i p f hp hbad
  change execFlitCrcFailure die i f s = _
  unfold execFlitCrcFailure State.badFlit
  rw [hp.1]
  dsimp only
  rw [if_neg (by simp [hp.2]), if_neg fun h => hbad.elim (· h.1) (· h.2)]

/-- The low bits of the flags of a LINK flit that acknowledges and carries no nak (R275). -/
theorem bitSet_ack {n : Nat} (h : n % 4 = 1) : bitSet n 0 = true ∧ bitSet n 1 = false := by
  unfold bitSet
  simp only [Nat.testBit_eq_decide_div_mod_eq, decide_eq_true_eq, decide_eq_false_iff_not]
  omega

theorem CPort.acked_window {p : CPort} {a : Nat} (now : Nat) (h : (a + 4096 - p.oldest) % 4096 < p.replay.length) :
    p.acked a now = { p with oldest := (a + 1) % 4096, replay := p.replay.drop ((a + 4096 - p.oldest) % 4096 + 1), stalled := 0,
                             timerFrom := now } :=
  if_pos h

/-- A port with nothing waiting sends at most an IDLE flit, and stays as it is. -/
theorem State.flushPort_quiet {s : State} {die i : Nat} {p : CPort} (hp : s.cport? die i = some p) (hq : p.sendq = []) :
    s.flushPort die i = { s with out := (s.flushPort die i).out } := by
  have hpick : p.pickMsg = none := by
    have hr : p.ready = [] := by
      unfold CPort.ready
      rw [hq]
      rfl
    unfold CPort.pickMsg
    rw [hr]
    rfl
  unfold State.flushPort
  rw [hp]
  dsimp only
  unfold State.flushAux
  rw [hp]
  dsimp only
  split
  · rfl
  · rw [hpick]
    rfl

/-- An acknowledgement (R275, R278). -/
theorem linkFlitAcknowledges : LinkFlitAcknowledges := by
  intro s die i p f hp hs ht hq hack hin
  obtain ⟨hb0, hb1⟩ := bitSet_ack hack
  have hx : exec (.linkFlit die i f) s = execLinkFlit die i f s := rfl
  rw [hx]
  unfold execLinkFlit
  rw [hp.1]
  dsimp only
  rw [if_neg (by simp [hp.2]), if_neg (by simp [hs]), if_neg (by simp [ht]), hb0, hb1, if_pos rfl,
    if_neg (by simp), CPort.acked_window s.tsc hin]
  have hq1 := State.cport?_setCport (s := s) hp.1 (q := CPort.credited { p with
    oldest := (bits (fieldAt f 5 2) 0 12 + 1) % 4096,
    replay := p.replay.drop ((bits (fieldAt f 5 2) 0 12 + 4096 - p.oldest) % 4096 + 1), stalled := 0, timerFrom := s.tsc } f)
    ⟨(State.cport?_key hp.1).1, (State.cport?_key hp.1).2⟩
  have hf := State.flushPort_quiet hq1 hq
  refine ⟨_, _, rfl, ?_, (congrArg (State.cport? · die i) hf).trans hq1, rfl, rfl, fun k hk => ?_⟩
  · rw [hf]
    rfl
  · simp [CPort.credited, List.getD_eq_getElem?_getD, hk]

/-- Settles O25: the flits a port takes, drops and sends. -/
theorem corridorFlits : Obligations.CorridorFlits := ⟨dataFlits, badFlitDiscarded, linkFlitAcknowledges⟩

end Sys2Proof.Machine
end

section
/-! PROOF. Heartbeats and time-sync (R288, R290, R291, R351-R353). -/

namespace Sys2Proof.Machine

open Sys2Proof.Claims

/-! Sending on several links. -/

/-- From `a` to `s` messages are sent and Corridor ports change, none of them its state. -/
structure Transmits (a s : State) : Prop where
  eq : s = { a with cor := s.cor, out := s.out }
  st : ∀ d k, (s.cport? d k).map CPort.st = (a.cport? d k).map CPort.st
  sent : ∃ l, s.out = a.out ++ l

theorem Transmits.refl (s : State) : Transmits s s := ⟨rfl, fun _ _ => rfl, [], (List.append_nil _).symm⟩

theorem Transmits.trans {a b c : State} (h : Transmits a b) (k : Transmits b c) : Transmits a c where
  eq := by rw [k.eq, h.eq]
  st := fun d j => (k.st d j).trans (h.st d j)
  sent := by
    obtain ⟨l, hl⟩ := h.sent
    obtain ⟨m, hm⟩ := k.sent
    exact ⟨l ++ m, by rw [hm, hl, List.append_assoc]⟩

theorem Transmits.mem_out {a s : State} (h : Transmits a s) {m : Msg} (hm : m ∈ a.out) : m ∈ s.out := by
  obtain ⟨l, hl⟩ := h.sent
  rw [hl]
  exact List.mem_append_left l hm

theorem PortSends.transmits {die i : Nat} {a s : State} (h : PortSends die i a s) : Transmits a s where
  eq := h.eq
  sent := h.sent
  st := fun d k => by
    by_cases hk : d = die ∧ k = i
    · obtain ⟨rfl, rfl⟩ := hk
      exact h.st
    · rw [h.others d k hk]

theorem State.send_transmits (s : State) (m : Msg) : Transmits s (s.send m) := ⟨rfl, fun _ _ => rfl, [m], rfl⟩

theorem Transmits.foldl {α : Type} {f : State → α → State} (h : ∀ s x, Transmits s (f s x)) (l : List α) (s : State) :
    Transmits s (l.foldl f s) := by
  induction l generalizing s with
  | nil => exact .refl s
  | cons x l ih => exact (h s x).trans (ih (f s x))

/-- What an element's own step sends is among what all of them send. -/
theorem Transmits.foldl_mem {α : Type} {f : State → α → State} (h : ∀ s x, Transmits s (f s x)) {l : List α} {x : α} (hx : x ∈ l)
    {a s : State} {m : Msg} (ha : Transmits a s) (hm : ∀ t, Transmits a t → m ∈ (f t x).out) : m ∈ (l.foldl f s).out := by
  induction l generalizing s with
  | nil => exact absurd hx List.not_mem_nil
  | cons y l ih =>
    obtain rfl | hx := List.mem_cons.mp hx
    · exact (Transmits.foldl h l (f s x)).mem_out (hm s ha)
    · exact ih hx (ha.trans (h s y))

/-! Heartbeats (R288). -/

theorem State.sendData_transmits (s : State) (die i k : Nat) (b : Bytes) : Transmits s (s.sendData die i k b) :=
  (State.sendPart_portSends die i s k 0 b).transmits

theorem lobby0Heartbeat_spec {s : State} {d : Die} (hr : s.running = true) (hm : s.pkg.masterLost = false) (hd : s.die? d.code = some d)
    (hh : d.hears s.pkg.primary = true) :
    ∃ t e, exec .lobby0Heartbeat s = .next t ∧ t.die? d.code = some e ∧ e.lastBeat = s.tsc ∧ t.mem = s.mem ∧
      Msg.heartbeat d.code ∈ t.out := by
  have hx : exec .lobby0Heartbeat s = execLobby0Heartbeat s := rfl
  rw [hx]
  unfold execLobby0Heartbeat
  rw [if_neg (by simp [hr, hm])]
  dsimp only
  have h1 := Transmits.foldl (fun (s : State) (d : Die) => s.send_transmits (.heartbeat d.code)) (s.dies.filter (·.hears s.pkg.primary)) s
  have hbeat : Msg.heartbeat d.code ∈ ((s.dies.filter (·.hears s.pkg.primary)).foldl (fun s d => s.send (.heartbeat d.code)) s).out :=
    Transmits.foldl_mem (fun (s : State) (d : Die) => s.send_transmits (.heartbeat d.code))
      (List.mem_filter.mpr ⟨List.mem_of_find?_eq_some hd, hh⟩) (.refl s) fun t _ => List.mem_append_right _ List.mem_cons_self
  generalize (s.dies.filter (·.hears s.pkg.primary)).foldl (fun s d => s.send (.heartbeat d.code)) s = u at h1 hbeat
  have h2 := Transmits.foldl (fun (s : State) i => s.sendData_transmits u.pkg.primary i 0 []) (u.pkg.asm.cports u.pkg.primary) u
  have hp : u.pkg = s.pkg := by rw [h1.eq]
  rw [hp] at h2
  have h3 := h1.trans h2
  have hb := h2.mem_out hbeat
  generalize (s.pkg.asm.cports s.pkg.primary).foldl (fun t i => t.sendData s.pkg.primary i 0 []) u = v at h2 h3 hb ⊢
  have hdie : ({ v with dies := updWhere (·.hears s.pkg.primary) (fun d => { d with lastBeat := s.tsc }) v.dies } : State).die? d.code =
      some { d with lastBeat := s.tsc } := by
    have hdies : v.dies = s.dies := by rw [h3.eq]
    unfold State.die? at hd ⊢
    dsimp only
    rw [hdies, find?_updWhere_if (f := fun d : Die => { d with lastBeat := s.tsc }) fun _ => rfl, hd]
    simp [hh]
  exact ⟨_, _, rfl, hdie, rfl, by rw [h3.eq], hb⟩

/-! The heartbeat's timeout (R291). -/

/-- What the loss of link ports changes. -/
def PortsLost (a s : State) : Prop :=
  s = { a with out := s.out, fn := s.fn, ev := s.ev, ed := s.ed, mem := { a.mem with ingest := s.mem.ingest, extents := s.mem.extents } }

theorem PortsLost.trans {a b c : State} (h : PortsLost a b) (k : PortsLost b c) : PortsLost a c := by
  unfold PortsLost at h k ⊢
  rw [k, h]

theorem OnlyRecords.portsLost {a s : State} (h : OnlyRecords a s) : PortsLost a s := by
  have := h.onlyNoted
  unfold Claims.onlyNoted at this
  unfold PortsLost
  rw [this]

theorem State.portBreaksKey_portsLost (s : State) (p : Nat) : PortsLost s (s.portBreaksKey p) := by
  unfold State.portBreaksKey
  split
  next h =>
    have hh : s.ed.holder ≠ .free := by
      intro hf
      rw [hf] at h
      exact absurd h (by simp)
    have he : PortsLost s (s.updEd EdState.keyless) := rfl
    exact he.trans (State.breakKey_notes 3 hh).only.portsLost
  next => rfl

theorem State.linkDown_portsLost (s : State) (p st : Nat) (sticky : Bool) : PortsLost s (s.linkDown p st sticky) := by
  unfold State.linkDown
  have h := s.portBreaksKey_portsLost p
  generalize s.portBreaksKey p = u at h
  have h1 : PortsLost u (u.resetFn p sticky) := rfl
  have h2 (v : State) : PortsLost v (v.dropDecoders p) := rfl
  have h3 (v : State) : PortsLost v (v.shutExtents p) := rfl
  have h4 (v : State) (f : Fn → Fn) (g : EdState → EdState) : PortsLost v ((v.updFn p f).updEd g) := rfl
  exact (((h.trans h1).trans (h2 _)).trans (h3 _)).trans (h4 ..)

theorem State.portsDown_portsLost (s : State) (ps : List Nat) : PortsLost s (s.portsDown ps) := by
  induction ps generalizing s with
  | nil => rfl
  | cons p ps ih =>
    rw [State.portsDown_cons]
    refine PortsLost.trans ?_ (ih _)
    obtain ⟨h, -⟩ | h := s.portsDown_singleton p
    · rw [h]
      rfl
    · rw [h]
      exact s.linkDown_portsLost ..

theorem State.failCommit_pkg (s : State) (failure die : Nat) :
    (s.failCommit failure die).pkg = s.pkg ∧ (s.failCommit failure die).mem = s.mem := by
  unfold State.failCommit
  split
  · split
    · exact ⟨State.event_pkg .., State.event_mem ..⟩
    · exact ⟨rfl, rfl⟩
  · exact ⟨rfl, rfl⟩

/-- The start of the emergency sequence in any state: the package stays as it is but for its phase, and memory but for its moves. -/
theorem State.emergency_frame (s : State) (cause die : Nat) :
    (s.emergency cause die).pkg = { s.pkg with phase := (s.emergency cause die).pkg.phase } ∧
      (s.emergency cause die).mem = { s.mem with moves := (s.emergency cause die).mem.moves } := by
  have ha (u : State) : u.abandonCommit.pkg = u.pkg ∧ u.abandonCommit.mem = u.mem := by
    unfold State.abandonCommit
    split
    · exact State.failCommit_pkg u.draw.2 _ _
    · exact ⟨rfl, rfl⟩
  unfold State.emergency
  split
  · exact ⟨rfl, rfl⟩
  · obtain ⟨h1, h2⟩ := ha (s.event .d 0x87 (src die 0) 0xFFFF (leBytes 1 cause))
    rw [State.event_pkg] at h1
    rw [State.event_mem] at h2
    simp [State.stopTiles, h1, h2]

theorem heartbeatTimeout_spec {s : State} {d : Die} (hr : s.running = true) (hm : s.pkg.masterLost = false) (hd : s.die? d.code = some d)
    (hp : d.present = true) (hne : d.code ≠ s.pkg.primary) (hup : d.code < 4 ∨ d.inService = true) (ht : d.lastBeat + 1000000 ≤ s.tsc)
    (he : s.pw.emergency = false) :
    ∃ t, exec (.heartbeatTimeout d.code) s = .next t ∧ t.pkg.masterLost = true ∧ t.pw.emergency = true ∧ t.mem.dram = s.mem.dram := by
  have hx : exec (.heartbeatTimeout d.code) s = execHeartbeatTimeout d.code s := rfl
  have hms : ms = 1000000 := rfl
  rw [hx]
  unfold execHeartbeatTimeout
  rw [hd]
  dsimp only
  rw [hms, if_neg (by rcases hup with hup | hup <;> simp [hr, hm, hp, hne, hup] <;> omega)]
  have hl := (s.updPkg fun p => { p with masterLost := true }).portsDown_portsLost ((List.range 8).map (8 + ·))
  generalize (s.updPkg fun p => { p with masterLost := true }).portsDown ((List.range 8).map (8 + ·)) = u at hl
  have hpkg : u.pkg = { s.pkg with masterLost := true } := by rw [hl]; rfl
  have hpw : u.pw = s.pw := by rw [hl]; rfl
  have hrun : u.running = true := by
    unfold State.running at hr ⊢
    rw [hpkg]
    exact hr
  obtain ⟨h1, h2⟩ := u.emergency_frame 6 d.code
  refine ⟨_, rfl, by rw [h1, hpkg], ?_, ?_⟩
  · rw [State.emergency_pw 6 d.code hrun (by rw [hpw]; exact he)]
  · rw [h2, hl]
    rfl

/-- Heartbeats (R288, R291). -/
theorem heartbeats : Heartbeats := by
  intro s d hr hm hd hp hne
  refine ⟨fun hreach => lobby0Heartbeat_spec hr hm hd (by simp [Die.hears, hp, hreach, hne]), heartbeatTimeout_spec hr hm hd hp hne,
    fun ht => ?_⟩
  have hms : ms = 1000000 := rfl
  change execHeartbeatTimeout d.code s = _
  unfold execHeartbeatTimeout
  rw [hd]
  dsimp only
  rw [hms, if_pos (by simp [ht])]

/-! Time-sync (R290, R352, R353). -/

/-- The master's stamp on one link. -/
def State.stampLink (s : State) (e : Nat × Nat) : State :=
  match s.cport? e.1 e.2, s.pkg.asm.peer e.1 e.2 with
  | some p, some q => if p.st = 2 then (s.sendData e.1 e.2 1 (leBytes 8 s.tsc)).send (.timeSync q.1 s.tsc) else s
  | _, _ => s

theorem State.stampLink_transmits (s : State) (e : Nat × Nat) : Transmits s (s.stampLink e) := by
  unfold State.stampLink
  split
  · split
    · exact (s.sendData_transmits ..).trans (State.send_transmits ..)
    · exact .refl s
  · exact .refl s

/-- The links the master stamps: those of every Lobby, the bridge from its own end. -/
def State.stampedLinks (s : State) : List (Nat × Nat) :=
  s.pkg.asm.lobbies.flatMap fun l => ((s.pkg.asm.cports l).filter fun i => !(i == 2 && l != s.pkg.primary)).map fun i => (l, i)

theorem timeSyncSend_eq {s : State} (hr : s.running = true) (hm : s.pkg.masterLost = false) :
    exec .timeSyncSend s = .next (s.stampedLinks.foldl State.stampLink s) := by
  change execTimeSyncSend s = _
  unfold execTimeSyncSend
  rw [if_neg (by simp [hr, hm])]
  rfl

/-- The master's stamp on the links (R290). -/
theorem timeSyncSend_spec {s : State} (hr : s.running = true) (hm : s.pkg.masterLost = false) :
    ∃ t, exec .timeSyncSend s = .next t ∧ t.tsc = s.tsc ∧ t.mem = s.mem ∧
      ∀ l i p q, l ∈ s.pkg.asm.lobbies → i ∈ s.pkg.asm.cports l → i ≠ 2 → s.cport? l i = some p → p.st = 2 →
        s.pkg.asm.peer l i = some q → Msg.timeSync q.1 s.tsc ∈ t.out := by
  rw [timeSyncSend_eq hr hm]
  have h := Transmits.foldl State.stampLink_transmits s.stampedLinks s
  refine ⟨_, rfl, by rw [h.eq], by rw [h.eq], fun l i p q hl hi h2 hp hst hq => ?_⟩
  refine Transmits.foldl_mem State.stampLink_transmits (x := (l, i)) ?_ (.refl s) fun t ht => ?_
  · exact List.mem_flatMap.mpr ⟨l, hl, List.mem_map.mpr ⟨i, List.mem_filter.mpr ⟨hi, by simp [h2]⟩, rfl⟩⟩
  · have htst := ht.st l i
    rw [hp] at htst
    obtain ⟨r, hr, hrst⟩ := Option.map_eq_some_iff.mp htst
    have hasm : t.pkg = s.pkg := by rw [ht.eq]
    have htsc : t.tsc = s.tsc := by rw [ht.eq]
    unfold State.stampLink
    rw [hr, hasm, hq]
    dsimp only
    rw [if_pos (hrst.trans hst), htsc]
    exact List.mem_append_right _ List.mem_cons_self

theorem timeSyncReceive_eq {s : State} {d : Die} (stamp delay : Nat) (hr : s.running = true) (hd : s.die? d.code = some d)
    (hp : d.present = true) (hne : d.code ≠ s.pkg.primary) :
    exec (.timeSyncReceive d.code stamp delay) s = .next (s.takeSync d.code stamp delay d) := by
  change execTimeSyncReceive d.code stamp delay s = _
  unfold execTimeSyncReceive
  rw [hd]
  dsimp only
  rw [if_neg (by simp [hr, hp, hne])]

/-- A die after a change that keeps its code. -/
theorem State.die?_updDie_of {s : State} {c : Nat} {d : Die} {f : Die → Die} (hd : s.die? c = some d) (h : ∀ d, (f d).code = d.code) :
    (s.updDie c f).die? c = some (f d) := by
  rw [State.die?_updDie h, hd]
  rfl

theorem State.die?_dies {s t : State} (h : t.dies = s.dies) (c : Nat) : t.die? c = s.die? c := by
  unfold State.die?
  rw [h]

/-- Marking a die, with its record (R353). -/
theorem State.setUncertain_spec (s : State) (die : Nat) (on : Bool) (cause : Nat) :
    OnlyRecords (s.updDie die fun d => { d with uncertain := on }) (s.setUncertain die on cause) :=
  State.watermark_onlyRecords (.refl _)

/-- A die that takes an offset to slew (R352). -/
def Die.slewing (e : Int) (now : Nat) (d : Die) : Die :=
  { d with latestE := e, lastSync := now, slew := e, skewHigh := if e.natAbs ≤ 4 then false else d.skewHigh }

theorem Die.slewing_code (e : Int) (now : Nat) (d : Die) : (d.slewing e now).code = d.code := rfl

theorem Die.slewing_of_low {d : Die} (hk : d.skewHigh = false) (e : Int) (now : Nat) :
    d.slewing e now = { d with latestE := e, lastSync := now, slew := e } := by
  have h : (if e.natAbs ≤ 4 then false else d.skewHigh) = d.skewHigh := by
    rw [hk, ite_self]
  unfold Die.slewing
  rw [h]

/-- A time-sync in the slewing range of a certain die (R352). -/
theorem State.takeSync_slews {s : State} {d : Die} {stamp delay : Nat} (hu : d.uncertain = false) (hk : d.skewHigh = false)
    (h1 : -8 ≤ timeDiff (s.dieTsc d.code) (stamp + delay)) (h2 : timeDiff (s.dieTsc d.code) (stamp + delay) ≤ 8) :
    s.takeSync d.code stamp delay d = s.updDie d.code (Die.slewing (timeDiff (s.dieTsc d.code) (stamp + delay)) s.tsc) := by
  unfold State.takeSync
  generalize timeDiff (s.dieTsc d.code) (stamp + delay) = e at h1 h2
  have hs : decide (e < -64) = false := by simp; omega
  have h8 : ¬8 < e.natAbs := by omega
  dsimp only
  simp only [hs, hk, hu, h8, decide_false, Bool.not_false, Bool.true_and, Bool.false_and, Bool.false_eq_true, if_false, if_neg (show ¬1000 < e.natAbs by omega)]
  rfl

/-- A step onto the master's time (R352). -/
theorem State.takeSync_steps {s : State} {d : Die} {stamp delay : Nat} (hd : s.die? d.code = some d)
    (h : timeDiff (s.dieTsc d.code) (stamp + delay) < -64) :
    ∃ e, (s.takeSync d.code stamp delay d).die? d.code = some e ∧ e.slew = 0 ∧
      e.offset = d.offset - timeDiff (s.dieTsc d.code) (stamp + delay) ∧ (s.takeSync d.code stamp delay d).mem = s.mem := by
  unfold State.takeSync
  generalize timeDiff (s.dieTsc d.code) (stamp + delay) = e at h
  have hs : decide (e < -64) = true := by simpa using h
  dsimp only
  rw [hs]
  simp only [if_true, Bool.true_or]
  generalize hv : (s.updDie d.code fun x => { x with
    latestE := e, lastSync := s.tsc, offset := x.offset - e, slew := 0,
    skewHigh := if 8 < e.natAbs then true else if e.natAbs ≤ 4 then false else x.skewHigh }) = v
  have hvd : ∃ y, v.die? d.code = some y ∧ y.slew = 0 ∧ y.offset = d.offset - e := by
    rw [← hv]
    exact ⟨_, State.die?_updDie_of hd fun _ => rfl, rfl, rfl⟩
  have hvm : v.mem = s.mem := by
    rw [← hv]
    rfl
  obtain ⟨y, hy, hy1, hy2⟩ := hvd
  have hfin (u : State) (hu : OnlyRecords v u) (on : Bool) : ∃ y, (u.setUncertain d.code on 1).die? d.code = some y ∧ y.slew = 0 ∧
      y.offset = d.offset - e ∧ (u.setUncertain d.code on 1).mem = s.mem := by
    have hr := u.setUncertain_spec d.code on 1
    refine ⟨_, (State.die?_dies hr.dies _).trans (State.die?_updDie_of ((State.die?_dies hu.dies _).trans hy) fun _ => rfl), hy1, hy2, ?_⟩
    exact hr.mem.trans (hu.mem.trans hvm)
  have hmark : ∃ u, OnlyRecords v u ∧ (if (!d.skewHigh && decide (8 < e.natAbs)) = true then
      v.watermark .d 0x02 (src d.code 0) 0xFFFF false (leBytes 1 d.code ++ intBytes 4 e)
    else if (d.skewHigh && decide (e.natAbs ≤ 4)) = true then
      v.watermark .d 0x02 (src d.code 0) 0xFFFF true (leBytes 1 d.code ++ intBytes 4 e) else v) = u := by
    refine ⟨_, ?_, rfl⟩
    split
    · exact State.watermark_onlyRecords (.refl _)
    · split
      · exact State.watermark_onlyRecords (.refl _)
      · exact .refl v
  obtain ⟨u, hu, hue⟩ := hmark
  rw [hue]
  split
  · exact hfin u hu false
  · split
    · exact hfin u hu true
    · exact ⟨y, (State.die?_dies hu.dies _).trans hy, hy1, hy2, hu.mem.trans hvm⟩

/-- The time-sync timeout of a die (R353). -/
theorem timeSyncTimeout_eq {s : State} {d : Die} (hr : s.running = true) (hd : s.die? d.code = some d) (hp : d.present = true)
    (hne : d.code ≠ s.pkg.primary) (hu : d.uncertain = false) (ht : d.lastSync + 1000000 ≤ s.tsc) :
    exec (.timeSyncTimeout d.code) s = .next (s.setUncertain d.code true 2) := by
  have hms : ms = 1000000 := rfl
  change execTimeSyncTimeout d.code s = _
  unfold execTimeSyncTimeout
  rw [hd]
  dsimp only
  rw [hms, if_neg (by simp [hp, hne, hr, hu]; omega)]

/-- A certain die at most 8 ns off (R352). -/
theorem timeSyncReceive_slews {s : State} {d : Die} {stamp delay : Nat} (hr : s.running = true) (hd : s.die? d.code = some d)
    (hp : d.present = true) (hne : d.code ≠ s.pkg.primary) (hu : d.uncertain = false) (hk : d.skewHigh = false)
    (h1 : -8 ≤ timeDiff (s.dieTsc d.code) (stamp + delay)) (h2 : timeDiff (s.dieTsc d.code) (stamp + delay) ≤ 8) :
    ∃ t, exec (.timeSyncReceive d.code stamp delay) s = .next t ∧ t = { s with dies := t.dies } ∧
      t.die? d.code = some { d with latestE := timeDiff (s.dieTsc d.code) (stamp + delay), lastSync := s.tsc,
                                    slew := timeDiff (s.dieTsc d.code) (stamp + delay) } := by
  rw [timeSyncReceive_eq stamp delay hr hd hp hne, State.takeSync_slews hu hk h1 h2]
  refine ⟨_, rfl, rfl, ?_⟩
  rw [← Die.slewing_of_low hk]
  exact State.die?_updDie_of hd fun _ => Die.slewing_code ..

/-- Time-sync (R290, R352, R353). -/
theorem timeSync : TimeSync := by
  intro s d stamp delay hr hd hp hne
  refine ⟨timeSyncSend_spec hr, timeSyncReceive_slews hr hd hp hne, fun h => ?_, fun hu ht => ?_⟩
  · rw [timeSyncReceive_eq stamp delay hr hd hp hne]
    obtain ⟨e, h1, h2, h3, h4⟩ := State.takeSync_steps hd h
    exact ⟨_, e, rfl, h1, h2, h3, h4⟩
  · rw [timeSyncTimeout_eq hr hd hp hne hu ht]
    have h := s.setUncertain_spec d.code true 2
    exact ⟨_, _, rfl, (State.die?_dies h.dies _).trans (State.die?_updDie_of hd fun _ => rfl), rfl, rfl, h.mem, h.chans⟩

/-- Settles O28: what is sent, and what a die takes from it. -/
theorem heartbeatsAndTime : Obligations.HeartbeatsAndTime := ⟨heartbeats, timeSync⟩

end Sys2Proof.Machine
end

section
/-! PROOF. Entries whose write starts or ends something (R168, R179, R192, R193, R200, R243, R322, R367). -/

namespace Sys2Proof.Machine

open Sys2Proof.Claims

/-! A write of a numeric entry by the Host port. -/

/-- A numeric entry of the package that the Host port writes, with the key or without. -/
structure HostRow (idx sub : Nat) (r : OdRow) : Prop where
  row : odRow idx sub = some r
  subOk : sub ≠ 0
  idxOk : idx ≠ 0x1020
  vis : r.vis ≤ 1
  readable : r.acc ≠ 1
  writable : r.acc ≠ 4
  ty : r.ty ≤ 8
  cursor : cursorScope idx sub = none

/-- A write of a value in range is the entry's effect. -/
theorem State.writeOp_host {s : State} {idx sub n : Nat} {r : OdRow} (h : HostRow idx sub r) (hkey : r.acc = 5 → s.ed.holder = .host)
    (hu : s.unavailable r ((s.cursors (hostPort s)).object r.scope) = false) (hn : n < 256 ^ r.len) (hlo : r.lo ≤ n) (hhi : n ≤ r.hi) :
    s.writeOp (hostPort s) idx sub 0 (leBytes r.len n) =
      (s.numEffect (hostPort s) idx sub ((s.cursors (hostPort s)).object r.scope) n).map fun t => (t, []) := by
  have hv : leNat (leBytes r.len n) = n := leNat_leBytes hn
  have hw := State.writeOp_numeric (s := s) (q := hostPort s) (idx := idx) (sub := sub) (d := leBytes r.len n)
    (State.visibleRow_host h.subOk h.row h.vis) h.cursor hu (by simp [State.control]) h.readable h.writable
    (fun e => holds_host (hkey e)) (fun e => absurd e h.idxOk) h.ty (leBytes_length ..) (by rw [hv]; exact hlo) (by rw [hv]; exact hhi)
  rw [hw, hv]

/-- A write that has an effect: it is answered, and beside the effect only the window's registers and the lease change. -/
theorem host_done {s u : State} {idx sub n : Nat} {r : OdRow} (h : HostRow idx sub r) (hs : servedAt s s.act.controlPort 2 idx)
    (hkey : r.acc = 5 → s.ed.holder = .host)
    (hu : s.unavailable r ((s.cursors (hostPort s)).object r.scope) = false) (hn : n < 256 ^ r.len) (hlo : r.lo ≤ n) (hhi : n ≤ r.hi)
    (he : (hostWriting s idx sub 0 r.len).numEffect (hostPort s) idx sub ((s.cursors (hostPort s)).object r.scope) n = .ok u) :
    ∃ t, (.next (s.dictWrite (hostPort s) idx sub 0 (leBytes r.len n)) : Res) = .next t ∧ answered t (hostPort s) 0 [] ∧ onlyWindow u t := by
  have hw := (State.writeOp_host (s := hostWriting s idx sub 0 r.len) h hkey hu hn hlo hhi).trans
    (congrArg (Except.map fun t => (t, [])) he)
  have hlen : (leBytes r.len n).length = r.len := leBytes_length ..
  obtain ⟨t, ht, hr⟩ := hostWrites (d := leBytes r.len n) hs (by rw [hlen]; exact hw)
  exact ⟨t, ht, hr.answered, hr.onlyWindow (State.renewed_onlyWindow ..)⟩

/-- A write that its entry refuses. -/
theorem host_refused {s : State} {idx sub n c : Nat} {r : OdRow} (h : HostRow idx sub r) (hs : servedAt s s.act.controlPort 2 idx)
    (hkey : r.acc = 5 → s.ed.holder = .host)
    (hu : s.unavailable r ((s.cursors (hostPort s)).object r.scope) = false) (hn : n < 256 ^ r.len) (hlo : r.lo ≤ n) (hhi : n ≤ r.hi)
    (he : (hostWriting s idx sub 0 r.len).numEffect (hostPort s) idx sub ((s.cursors (hostPort s)).object r.scope) n = .error c) :
    ∃ t, (.next (s.dictWrite (hostPort s) idx sub 0 (leBytes r.len n)) : Res) = .next t ∧ answered t (hostPort s) c [] ∧ onlyWindow s t := by
  have hw := (State.writeOp_host (s := hostWriting s idx sub 0 r.len) h hkey hu hn hlo hhi).trans
    (congrArg (Except.map fun t => (t, [])) he)
  have hlen : (leBytes r.len n).length = r.len := leBytes_length ..
  exact hostWrite_fails (d := leBytes r.len n) hs (by rw [hlen]; exact hw)

/-- What a write's window registers leave alone of the effect's state. -/
theorem onlyWindow_kept {s t : State} (h : onlyWindow s t) :
    t.mem = s.mem ∧ t.wb = s.wb ∧ t.doc = s.doc ∧ t.pw = s.pw ∧ t.ev = s.ev ∧ t.act = s.act := by
  unfold onlyWindow at h
  rw [h]
  exact ⟨rfl, rfl, rfl, rfl, rfl, rfl⟩

/-! Job abort (R179). -/

theorem abortRow : HostRow 0x4014 1 (num 0x4014 1 1 3 3 0 0 1) where
  row := by decide
  subOk := by decide
  idxOk := by decide
  vis := by decide
  readable := by decide
  writable := by decide
  ty := by decide
  cursor := by decide

theorem State.abortEntry_none {s : State} {n : Nat} (h : s.job? n = none) : s.abortEntry n = .error 6 := by
  unfold State.abortEntry
  rw [h]

theorem State.job?_num {s : State} {n : Nat} {j : Job} (h : s.job? n = some j) : j.num = n := by simpa using List.find?_some h

theorem State.abortEntry_idle {s : State} {n : Nat} {j : Job} (h : s.job? n = some j) (hb : s.jobBusy n = false) :
    s.abortEntry n = .ok (s.endJob j 0x800A 1 true) := by
  unfold State.abortEntry State.abortJob State.stopJob
  rw [h]
  dsimp only
  rw [State.job?_num h, hb]
  rfl

theorem State.abortEntry_busy {s : State} {n : Nat} {j : Job} (h : s.job? n = some j) (hb : s.jobBusy n = true) :
    s.abortEntry n = .ok (s.updJob n fun x => { x with ending := some (0x800A, 1) }) := by
  unfold State.abortEntry State.abortJob State.stopJob
  rw [h]
  dsimp only
  rw [State.job?_num h, hb]
  rfl

/-- A job that has ended runs no longer, and its final status stands (R177). -/
theorem State.endJob_wb (s : State) (j : Job) (status detail : Nat) (line : Bool) :
    (s.endJob j status detail line).job? j.num = none ∧ ∃ y ∈ (s.endJob j status detail line).wb.ended, y.num = j.num ∧ y.status = status := by
  unfold State.endJob
  refine ⟨List.find?_eq_none.mpr fun x hx => ?_, ⟨_, List.mem_append_right _ List.mem_cons_self, rfl, rfl⟩⟩
  simpa using (List.mem_filter.mp hx).2

/-- The abort of a job by its entry. -/
theorem jobAbort_entry {s : State} {n : Nat} (hs : servedAt s s.act.controlPort 2 0x4014) (hn : n < 2 ^ 32) :
    (∀ j, s.job? n = some j → s.jobBusy n = false → ∃ t, exec (.jobAbort (hostPort s) n) s = .next t ∧
      answered t (hostPort s) 0 [] ∧ t.job? n = none ∧ ∃ y ∈ t.wb.ended, y.num = n ∧ y.status = 0x800A) ∧
    (∀ j, s.job? n = some j → s.jobBusy n = true → ∃ t, exec (.jobAbort (hostPort s) n) s = .next t ∧
      answered t (hostPort s) 0 [] ∧ t.job? n = some { j with ending := some (0x800A, 1) } ∧ t.mem = s.mem) ∧
    (s.job? n = none → ∃ t, exec (.jobAbort (hostPort s) n) s = .next t ∧ answered t (hostPort s) 6 [] ∧ onlyWindow s t) := by
  have hhi : n ≤ (num 0x4014 1 1 3 3 0 0 1).hi := Nat.le_of_lt_succ hn
  refine ⟨fun j hj hb => ?_, fun j hj hb => ?_, fun hj => ?_⟩
  · obtain ⟨t, ht, ha, ho⟩ := host_done abortRow hs nofun rfl hn (Nat.zero_le _) hhi
      (State.abortEntry_idle (s := hostWriting s 0x4014 1 0 4) hj hb)
    obtain ⟨h1, y, hy, h2, h3⟩ := State.endJob_wb (hostWriting s 0x4014 1 0 4) j 0x800A 1 true
    rw [State.job?_num hj] at h1 h2
    have hwb := (onlyWindow_kept ho).2.1
    refine ⟨t, ht, ha, ?_, y, by rw [hwb]; exact hy, h2, h3⟩
    unfold State.job? at h1 ⊢
    rw [hwb]
    exact h1
  · obtain ⟨t, ht, ha, ho⟩ := host_done abortRow hs nofun rfl hn (Nat.zero_le _) hhi
      (State.abortEntry_busy (s := hostWriting s 0x4014 1 0 4) hj hb)
    obtain ⟨hmem, hwb, -⟩ := onlyWindow_kept ho
    refine ⟨t, ht, ha, ?_, hmem⟩
    have hf := find?_updWhere (p := fun x : Job => x.num == n) (f := fun x => { x with ending := some (0x800A, 1) }) (l := s.wb.jobs)
      fun _ => rfl
    unfold State.job? at hj ⊢
    rw [hwb]
    exact hf.trans (congrArg (Option.map _) hj)
  · obtain ⟨t, ht, ha, ho⟩ := host_refused abortRow hs nofun rfl hn (Nat.zero_le _) hhi
      (State.abortEntry_none (s := hostWriting s 0x4014 1 0 4) hj)
    exact ⟨t, ht, ha, ho⟩

/-! Triggers (R192, R193). -/

theorem State.queueTrigger_waits (s : State) (die code arg : Nat) (target : Option Nat) : waits (s.queueTrigger die code arg target) die code arg := by
  unfold State.queueTrigger
  dsimp only
  split
  next h =>
    obtain ⟨t, ht, h⟩ := List.any_eq_true.mp h
    simp only [Bool.and_eq_true, beq_iff_eq] at h
    exact ⟨t, ht, h.1.1, h.1.2, h.2⟩
  next => exact ⟨_, mem_insertBy.mpr (.inl rfl), rfl, rfl, rfl⟩

theorem State.queueTrigger_triggers (s : State) (die code arg : Nat) (target : Option Nat) :
    s.doc.triggers ⊆ (s.queueTrigger die code arg target).doc.triggers := by
  unfold State.queueTrigger
  dsimp only
  split
  · exact List.Subset.refl _
  · exact fun t ht => mem_insertBy.mpr (.inr ht)

theorem waits_mono {s t : State} (h : s.doc.triggers ⊆ t.doc.triggers) {die code arg : Nat} (hw : waits s die code arg) :
    waits t die code arg := by
  obtain ⟨g, hg, k⟩ := hw
  exact ⟨g, h hg, k⟩

theorem State.queueTrigger_mem (s : State) (die code arg : Nat) (target : Option Nat) : (s.queueTrigger die code arg target).mem = s.mem := by
  unfold State.queueTrigger
  dsimp only
  split <;> rfl

/-- Triggers queued on several dies. -/
theorem queueTriggers_waits (ds : List Nat) (code arg : Nat) (s : State) :
    let t := ds.foldl (fun s w => s.queueTrigger (wingDie w) code arg none) s
    t.mem = s.mem ∧ s.doc.triggers ⊆ t.doc.triggers ∧ ∀ w ∈ ds, waits t (wingDie w) code arg := by
  induction ds generalizing s with
  | nil => exact ⟨rfl, List.Subset.refl _, nofun⟩
  | cons d ds ih =>
    obtain ⟨h1, h2, h3⟩ := ih (s.queueTrigger (wingDie d) code arg none)
    refine ⟨h1.trans (State.queueTrigger_mem ..), List.Subset.trans (State.queueTrigger_triggers ..) h2, fun w hw => ?_⟩
    obtain rfl | hw := List.mem_cons.mp hw
    · exact waits_mono h2 (State.queueTrigger_waits ..)
    · exact h3 w hw

theorem verifyRow : HostRow 0x4121 1 (num 0x4121 1 1 2 3 0 0 1) where
  row := by decide
  subOk := by decide
  idxOk := by decide
  vis := by decide
  readable := by decide
  writable := by decide
  ty := by decide
  cursor := by decide

/-- A verify request of a live collection, with room for its triggers (R192, R207). -/
theorem verify_entry {s : State} {n : Nat} (hs : servedAt s s.act.controlPort 2 0x4121) (hn : n < 4096) (hl : s.live n = true)
    (hroom : ∀ w ∈ s.pkg.asm.wings, s.merges (wingDie w) 3 n = true ∨ s.waitingOn (wingDie w) 3 < 16) :
    ∃ t, exec (.verifyRequest (hostPort s) n) s = .next t ∧ answered t (hostPort s) 0 [] ∧ t.mem = s.mem ∧
      ∀ w ∈ s.pkg.asm.wings, s.wingUp w = true → w ∈ s.wingsOf n → waits t (wingDie w) 3 n := by
  have he : (hostWriting s 0x4121 1 0 2).verifyEntry n = .ok ((s.pkg.asm.wings.filter fun w => s.wingUp w &&
      (n == 0xFFFF || (s.wingsOf n).contains w)).foldl (fun s w => s.queueTrigger (wingDie w) 3 n none) (hostWriting s 0x4121 1 0 2)) := by
    unfold State.verifyEntry
    refine (if_neg fun h => ?_).trans (if_neg ?_)
    · have hl' : (hostWriting s 0x4121 1 0 2).live n = true := hl
      rw [hl'] at h
      exact absurd h.2 (by decide)
    · rw [Bool.not_eq_true, List.any_eq_false]
      intro w hw
      have := hroom w (List.mem_filter.mp hw).1
      simp only [Bool.and_eq_true, Bool.not_eq_true', decide_eq_true_eq, not_and]
      intro hm
      exact Nat.not_le.mpr (this.resolve_left fun h => absurd (hm.symm.trans h) (by decide))
  obtain ⟨t, ht, ha, ho⟩ := host_done verifyRow hs nofun rfl (Nat.lt_of_lt_of_le hn (by decide)) (Nat.zero_le _)
    (Nat.le_of_lt (Nat.lt_of_lt_of_le hn (by decide))) he
  obtain ⟨hmem, -, hdoc, -⟩ := onlyWindow_kept ho
  obtain ⟨h1, -, h3⟩ := queueTriggers_waits (s.pkg.asm.wings.filter fun w => s.wingUp w && (n == 0xFFFF || (s.wingsOf n).contains w)) 3 n
    (hostWriting s 0x4121 1 0 2)
  refine ⟨t, ht, ha, hmem.trans h1, fun w hw hup hof => waits_mono ?_ (h3 w (List.mem_filter.mpr ⟨hw, by simp [hup, hof]⟩))⟩
  rw [hdoc]
  exact List.Subset.refl _

theorem customerRow : HostRow 0x4112 1 (num 0x4112 1 1 4 3 0 0 1) where
  row := by decide
  subOk := by decide
  idxOk := by decide
  vis := by decide
  readable := by decide
  writable := by decide
  ty := by decide
  cursor := by decide

theorem State.customerEntry_of {s : State} {n : Nat} (h1 : (s.docent? (n % 256)).isSome = true) (h2 : s.dieRuns (docDie (n % 256)) = true)
    (h3 : s.boundTo (n % 256) 0x10 = true) :
    s.customerEntry n = if (!s.merges (docDie (n % 256)) 0x10 (n / 256) && decide (16 ≤ s.waitingOn (docDie (n % 256)) 0x10)) = true
      then .error 0x0B else .ok (s.queueTrigger (docDie (n % 256)) 0x10 (n / 256) (some (n % 256))) := by
  unfold State.customerEntry
  dsimp only
  rw [if_neg (by simp only [Option.isNone_iff_eq_none]; exact Option.isSome_iff_ne_none.mp h1), if_neg (by simp [h2]), if_neg (by simp [h3])]

/-- A customer trigger waits on its die, or is refused when its queue is full (R192, R193). -/
theorem customer_entry {s : State} {n : Nat} (hs : servedAt s s.act.controlPort 2 0x4112) (hn : n < 2 ^ 64)
    (h1 : (s.docent? (n % 256)).isSome = true) (h2 : s.dieRuns (docDie (n % 256)) = true) (h3 : s.boundTo (n % 256) 0x10 = true) :
    (s.merges (docDie (n % 256)) 0x10 (n / 256) = true ∨ s.waitingOn (docDie (n % 256)) 0x10 < 16 →
      ∃ t, exec (.customerTrigger (hostPort s) n) s = .next t ∧ answered t (hostPort s) 0 [] ∧ t.mem = s.mem ∧
        waits t (docDie (n % 256)) 0x10 (n / 256)) ∧
    (s.merges (docDie (n % 256)) 0x10 (n / 256) = false → 16 ≤ s.waitingOn (docDie (n % 256)) 0x10 →
      ∃ t, exec (.customerTrigger (hostPort s) n) s = .next t ∧ answered t (hostPort s) 11 [] ∧ onlyWindow s t) := by
  have hhi : n ≤ (num 0x4112 1 1 4 3 0 0 1).hi := Nat.le_of_lt_succ hn
  have he := State.customerEntry_of (s := hostWriting s 0x4112 1 0 8) h1 h2 h3
  refine ⟨fun h => ?_, fun hm hf => ?_⟩
  · have hok : ¬(!s.merges (docDie (n % 256)) 0x10 (n / 256) && decide (16 ≤ s.waitingOn (docDie (n % 256)) 0x10)) = true := by
      rcases h with h | h
      · simp [h]
      · simp [Nat.not_le.mpr h]
    obtain ⟨t, ht, ha, ho⟩ := host_done customerRow hs nofun rfl hn (Nat.zero_le _) hhi (he.trans (if_neg hok))
    obtain ⟨hmem, -, hdoc, -⟩ := onlyWindow_kept ho
    refine ⟨t, ht, ha, hmem.trans (State.queueTrigger_mem ..), waits_mono ?_
      (State.queueTrigger_waits (hostWriting s 0x4112 1 0 8) _ _ _ (some (n % 256)))⟩
    rw [hdoc]
    exact List.Subset.refl _
  · have hfull : (!s.merges (docDie (n % 256)) 0x10 (n / 256) && decide (16 ≤ s.waitingOn (docDie (n % 256)) 0x10)) = true := by
      simp only [Bool.and_eq_true, Bool.not_eq_true', decide_eq_true_eq]
      exact ⟨hm, hf⟩
    obtain ⟨t, ht, ha, ho⟩ := host_refused customerRow hs nofun rfl hn (Nat.zero_le _) hhi (he.trans (if_pos hfull))
    exact ⟨t, ht, ha, ho⟩

/-! Roles (R200). -/

theorem restartRow : HostRow 0x4111 1 (lim 0x4111 1 1 1 3 0 0 1 0 0x3F) where
  row := by decide
  subOk := by decide
  idxOk := by decide
  vis := by decide
  readable := by decide
  writable := by decide
  ty := by decide
  cursor := by decide

theorem State.restartEntry_of {s : State} {n : Nat} {x : Docent} (hx : s.docent? n = some x) (hd : s.dieRuns (docDie n) = true) :
    s.restartEntry n = if (!x.roleFaulted) = true then .error 6 else .ok (s.restartRole n) := by
  unfold State.restartEntry
  rw [hx]
  dsimp only
  rw [if_neg (by simp [hd])]

/-- A docent whose role starts (R200). -/
def Docent.restarted (x : Docent) (a : CtxState) : Docent :=
  if x.a.running && !x.a.isRole then { x with roleDue := true, roleFaulted := false }
  else { x with a := { a with suspended := x.p.running }, roleFaulted := false, stopped := false, roleDue := false }

theorem Docent.restarted_id (x : Docent) (a : CtxState) : (x.restarted a).id = x.id := by
  unfold Docent.restarted
  split <;> rfl

theorem Docent.restarted_spec (x : Docent) {a : CtxState} (h1 : a.running = true) (h2 : a.isRole = true) (h3 : a.pc = 0) :
    (x.restarted a).roleFaulted = false ∧
      (x.a.running = false ∨ x.a.isRole = true → (x.restarted a).a.running = true ∧ (x.restarted a).a.isRole = true ∧ (x.restarted a).a.pc = 0) ∧
      (x.a.running = true → x.a.isRole = false → (x.restarted a).a = x.a ∧ (x.restarted a).roleDue = true) := by
  unfold Docent.restarted
  split
  next h =>
    obtain ⟨hr, hi⟩ : x.a.running = true ∧ x.a.isRole = false := by simpa using h
    exact ⟨rfl, fun h => by simp [hr, hi] at h, fun _ _ => ⟨rfl, rfl⟩⟩
  next h => exact ⟨rfl, fun _ => ⟨h1, h2, h3⟩, fun hr hi => absurd h (by simp [hr, hi])⟩

/-- The role of a docent that has one starts, or waits for the handler that holds its context. -/
theorem State.restartRole_docent {s : State} {n : Nat} {x : Docent} (hx : s.docent? n = some x) (hd : s.dieRuns (docDie n) = true)
    (hp : s.act.hasProgram (s.roleIn s.act n) = true) :
    ∃ y, (s.restartRole n).docent? n = some y ∧ y.roleFaulted = false ∧
      (x.a.running = false ∨ x.a.isRole = true → y.a.running = true ∧ y.a.isRole = true ∧ y.a.pc = 0) ∧
      (x.a.running = true → x.a.isRole = false → y.a = x.a ∧ y.roleDue = true) := by
  generalize hu : ({ s with chans := updWhere (fun c => c.wing + 4 == docDie n && walkOf c.sel n) (fun c => { c with walk := 0 }) s.chans } : State) = u
  have hrest : s.restartRole n = u.startRole n := by
    rw [← hu]
    rfl
  have hx' : u.docent? n = some x := by
    rw [← hu]
    exact hx
  have hcond : (!u.act.hasProgram (u.roleIn u.act n) || !u.dieRuns (docDie n)) = false := by
    rw [← hu]
    change (!s.act.hasProgram (s.roleIn s.act n) || !s.dieRuns (docDie n)) = false
    rw [hp, hd]
    rfl
  have hstart : u.startRole n = u.updDocent n fun z => z.restarted (CtxState.start (u.roleIn u.act n) (u.act.image (u.roleIn u.act n))
      (u.act.progParams (u.roleIn u.act n)) (u.act.native (u.roleIn u.act n)) true 0 0) :=
    if_neg (by rw [hcond]; exact Bool.false_ne_true)
  exact ⟨_, (congrArg (State.docent? · n) (hrest.trans hstart)).trans ((State.docent?_updDocent fun z => z.restarted_id _).trans
    (congrArg (Option.map _) hx')), x.restarted_spec rfl rfl rfl⟩

theorem State.restartRole_mem (s : State) (n : Nat) : (s.restartRole n).mem = s.mem := by
  unfold State.restartRole
  rw [State.startRole_frame]

/-- The restart of a docent's role by its entry (R200). -/
theorem restart_entry {s : State} {n : Nat} {x : Docent} (hs : servedAt s s.act.controlPort 2 0x4111) (hn : n < 64)
    (hx : s.docent? n = some x) (hd : s.dieRuns (docDie n) = true) :
    (x.roleFaulted = false → ∃ t, exec (.roleRestart (hostPort s) n) s = .next t ∧ answered t (hostPort s) 6 [] ∧ onlyWindow s t) ∧
    (x.roleFaulted = true → s.act.hasProgram (s.roleIn s.act n) = true →
      ∃ t y, exec (.roleRestart (hostPort s) n) s = .next t ∧ answered t (hostPort s) 0 [] ∧ t.docent? n = some y ∧ t.mem = s.mem ∧
        y.roleFaulted = false ∧
        (x.a.running = false ∨ x.a.isRole = true → y.a.running = true ∧ y.a.isRole = true ∧ y.a.pc = 0) ∧
        (x.a.running = true → x.a.isRole = false → y.a = x.a ∧ y.roleDue = true)) := by
  have he := State.restartEntry_of (s := hostWriting s 0x4111 1 0 1) hx hd
  have hn' : n < 256 ^ 1 := by omega
  have hhi : n ≤ (lim 0x4111 1 1 1 3 0 0 1 0 0x3F).hi := Nat.le_of_lt_succ hn
  refine ⟨fun hf => ?_, fun hf hp => ?_⟩
  · obtain ⟨t, ht, ha, ho⟩ := host_refused restartRow hs nofun rfl hn' (Nat.zero_le _) hhi (he.trans (if_pos (by simp [hf])))
    exact ⟨t, ht, ha, ho⟩
  · obtain ⟨t, ht, ha, ho⟩ := host_done restartRow hs nofun rfl hn' (Nat.zero_le _) hhi (he.trans (if_neg (by simp [hf])))
    obtain ⟨hmem, -, hdoc, -⟩ := onlyWindow_kept ho
    obtain ⟨y, hy, h1, h2, h3⟩ := State.restartRole_docent (s := hostWriting s 0x4111 1 0 1) hx hd hp
    refine ⟨t, y, ht, ha, ?_, hmem.trans (State.restartRole_mem ..), h1, h2, h3⟩
    rw [State.docent?_congr hdoc]
    exact hy

/-! The write-back of a collection (R243). -/

theorem writeBackRow : HostRow 0x8010 1 (num 0x8010 1 1 2 5 0 0xFFFF 1) where
  row := by decide
  subOk := by decide
  idxOk := by decide
  vis := by decide
  readable := by decide
  writable := by decide
  ty := by decide
  cursor := by decide

/-- The clean lines of a collection leave the partitions of several Wings. -/
theorem dropClean_spec (n : Nat) (ws : List Nat) (s : State) (hw : ∀ m ∈ s.mem.wmb, m.coll ≠ n)
    (hc : ∀ l ∈ s.mem.cache, l.coll = n → l.dirty = false ∧ l.queued = false) :
    let t := ws.foldl (fun s w => if s.wingUp w then (s.writeBackAll n w).dropLines fun l => l.coll == n && l.wing == w && !l.dirty && !l.queued
      else s) s
    t.mem.dram = s.mem.dram ∧ t.mem.cat = s.mem.cat ∧ t.mem.cache ⊆ s.mem.cache ∧
      ∀ l ∈ t.mem.cache, l.coll = n → ¬(l.wing ∈ ws ∧ s.wingUp l.wing = true) := by
  induction ws generalizing s with
  | nil => exact ⟨rfl, rfl, List.Subset.refl _, fun l _ _ h => absurd h.1 List.not_mem_nil⟩
  | cons w ws ih =>
    have hback : s.writeBackAll n w = s := by
      have h1 : s.mem.cache.filter (fun l => l.coll == n && l.wing == w && (l.dirty || l.queued)) = [] := by
        refine List.filter_eq_nil_iff.mpr fun l hl h => ?_
        simp only [Bool.and_eq_true, beq_iff_eq] at h
        obtain ⟨hd, hq⟩ := hc l hl h.1.1
        rw [hd, hq] at h
        exact absurd h.2 (by decide)
      have h2 : s.mem.wmb.filter (fun m => m.coll == n && m.wing == w) = [] := by
        refine List.filter_eq_nil_iff.mpr fun m hm h => ?_
        simp only [Bool.and_eq_true, beq_iff_eq] at h
        exact hw m hm h.1
      unfold State.writeBackAll
      rw [h1, h2]
      rfl
    simp only [List.foldl_cons, hback]
    by_cases hup : s.wingUp w = true
    · rw [if_pos hup]
      have hsub : (s.dropLines fun l => l.coll == n && l.wing == w && !l.dirty && !l.queued).mem.cache ⊆ s.mem.cache :=
        List.filter_subset_self ..
      obtain ⟨h1, h2, h3, h4⟩ := ih (s.dropLines fun l => l.coll == n && l.wing == w && !l.dirty && !l.queued) hw
        (fun l hl => hc l (hsub hl))
      refine ⟨h1, h2, List.Subset.trans h3 hsub, fun l hl hn hbad => ?_⟩
      rcases List.mem_cons.mp hbad.1 with hlw | hlw
      · have hkept := (List.mem_filter.mp (h3 hl)).2
        obtain ⟨hd, hq⟩ := hc l (hsub (h3 hl)) hn
        simp [hn, hlw, hd, hq] at hkept
      · exact h4 l hl hn ⟨hlw, hbad.2⟩
    · rw [if_neg hup]
      obtain ⟨h1, h2, h3, h4⟩ := ih s hw hc
      refine ⟨h1, h2, h3, fun l hl hn hbad => ?_⟩
      rcases List.mem_cons.mp hbad.1 with hlw | hlw
      · rw [hlw] at hbad
        exact hup hbad.2
      · exact h4 l hl hn ⟨hlw, hbad.2⟩

/-- The write-back entry (R243): the clean lines of a collection, or RANGE for one that is not live. -/
theorem writeBack_entry {s : State} {n : Nat} (hs : keyedAt s 0x8010) (hn : n < 4096) :
    (s.live n = true → (∀ m ∈ s.mem.wmb, m.coll ≠ n) → (∀ l ∈ s.mem.cache, l.coll = n → l.dirty = false ∧ l.queued = false) →
      ∃ t, exec (.writeBackCollection (hostPort s) n) s = .next t ∧ answered t (hostPort s) 0 [] ∧ t.mem.dram = s.mem.dram ∧
        t.mem.cat = s.mem.cat ∧ ∀ l ∈ t.mem.cache, l.coll = n → ¬(l.wing ∈ s.wingsOf n ∧ s.wingUp l.wing = true)) ∧
    (s.live n = false → ∃ t, exec (.writeBackCollection (hostPort s) n) s = .next t ∧ answered t (hostPort s) 4 [] ∧ onlyWindow s t) := by
  have hn' : n < 256 ^ 2 := Nat.lt_of_lt_of_le hn (by decide)
  have hhi : n ≤ (num 0x8010 1 1 2 5 0 0xFFFF 1).hi := Nat.le_of_lt (Nat.lt_of_lt_of_le hn (by decide))
  refine ⟨fun hl hw hc => ?_, fun hl => ?_⟩
  · have he : (hostWriting s 0x8010 1 0 2).writeBackEntry n = .ok ((s.wingsOf n).foldl (fun s w => if s.wingUp w then
        (s.writeBackAll n w).dropLines fun l => l.coll == n && l.wing == w && !l.dirty && !l.queued else s) (hostWriting s 0x8010 1 0 2)) :=
      if_neg (by
        have hl' : (hostWriting s 0x8010 1 0 2).live n = true := hl
        rw [hl']
        decide)
    obtain ⟨t, ht, ha, ho⟩ := host_done writeBackRow hs.1 (fun _ => hs.2) rfl hn' (Nat.zero_le _) hhi he
    obtain ⟨hmem, -⟩ := onlyWindow_kept ho
    obtain ⟨h1, h2, -, h4⟩ := dropClean_spec n (s.wingsOf n) (hostWriting s 0x8010 1 0 2) hw hc
    refine ⟨t, ht, ha, ?_, ?_, ?_⟩
    · rw [hmem]
      exact h1
    · rw [hmem]
      exact h2
    · rw [hmem]
      exact h4
  · have he : (hostWriting s 0x8010 1 0 2).writeBackEntry n = .error 4 := if_pos (by
      have hl' : (hostWriting s 0x8010 1 0 2).live n = false := hl
      rw [hl']
      decide)
    obtain ⟨t, ht, ha, ho⟩ := host_refused writeBackRow hs.1 (fun _ => hs.2) rfl hn' (Nat.zero_le _) hhi he
    exact ⟨t, ht, ha, ho⟩

/-! The preparation for D3cold, and counters (R322, R367). -/

theorem prepareRow : HostRow 0x1102 1 (lim 0x1102 1 1 1 5 0 0 1 0 1) where
  row := by decide
  subOk := by decide
  idxOk := by decide
  vis := by decide
  readable := by decide
  writable := by decide
  ty := by decide
  cursor := by decide

theorem State.notePrepared_kept (s : State) : s.notePrepared.mem = s.mem ∧ s.notePrepared.act = s.act ∧ s.notePrepared.pw.prepared = s.pw.prepared := by
  unfold State.notePrepared
  split
  · have h := State.event_onlyRecords (sc := .d) (t := 0x48) (u := s.primarySrc) (c := 0xFFFF) (b := [])
      (.refl ({ s with pw := { s.pw with preparing := false } } : State))
    refine ⟨h.mem, h.act, ?_⟩
    rw [h.pw]
  · exact ⟨rfl, rfl, rfl⟩

theorem State.prepareEntry_one (s : State) : (s.prepareEntry 1).mem = s.mem ∧ (s.prepareEntry 1).act = s.act ∧ (s.prepareEntry 1).pw.prepared = true := by
  unfold State.prepareEntry
  rw [if_pos rfl]
  split
  next h => exact ⟨rfl, rfl, h⟩
  next => exact State.notePrepared_kept _

/-- The preparation for D3cold starts and ends (R322). -/
theorem prepare_entry {s : State} (hs : keyedAt s 0x1102) :
    (∃ t, exec (.prepareD3cold (hostPort s)) s = .next t ∧ answered t (hostPort s) 0 [] ∧ t.pw.prepared = true ∧ t.mem = s.mem ∧
      t.act = s.act) ∧
    (∃ t, exec (.endD3coldPreparation (hostPort s)) s = .next t ∧ answered t (hostPort s) 0 [] ∧ t.pw.prepared = false ∧
      t.pw.preparing = false ∧ t.mem = s.mem ∧ t.act = s.act) := by
  constructor
  · obtain ⟨t, ht, ha, ho⟩ := host_done (n := 1) prepareRow hs.1 (fun _ => hs.2) rfl (by decide) (by decide) (by decide)
      (u := (hostWriting s 0x1102 1 0 1).prepareEntry 1) rfl
    obtain ⟨hmem, -, -, hpw, -, hact⟩ := onlyWindow_kept ho
    obtain ⟨h1, h2, h3⟩ := State.prepareEntry_one (hostWriting s 0x1102 1 0 1)
    exact ⟨t, ht, ha, by rw [hpw]; exact h3, hmem.trans h1, hact.trans h2⟩
  · obtain ⟨t, ht, ha, ho⟩ := host_done (n := 0) prepareRow hs.1 (fun _ => hs.2) rfl (by decide) (by decide) (by decide)
      (u := (hostWriting s 0x1102 1 0 1).prepareEntry 0) rfl
    obtain ⟨hmem, -, -, hpw, -, hact⟩ := onlyWindow_kept ho
    exact ⟨t, ht, ha, by rw [hpw]; rfl, by rw [hpw]; rfl, hmem, hact⟩

theorem counterRow : HostRow 0x5002 2 (num 0x5002 2 2 4 2 0 0 1) where
  row := by decide
  subOk := by decide
  idxOk := by decide
  vis := by decide
  readable := by decide
  writable := by decide
  ty := by decide
  cursor := by decide

theorem State.counter_setCounter (s : State) (idx sub obj : Nat) {v : Nat} (hv : v < 2 ^ 64) :
    (s.setCounter idx sub obj v).counter idx sub obj = v := by
  have h := find?_upsert (p := fun c : Counter => c.idx == idx && c.sub == sub && c.obj == obj)
    (f := fun c => { c with value := v % 2 ^ 64, wrap := false }) (dflt := ⟨idx, sub, obj, 0, false⟩) (l := s.ev.counters) (fun _ => rfl) (by simp)
  unfold State.counter State.setCounter
  dsimp only
  rw [h]
  exact Nat.mod_eq_of_lt hv

/-- A write of the selected counter (R367). -/
theorem counter_entry {s : State} {n sub obj : Nat} {r : OdRow} (hs : servedAt s s.act.controlPort 2 0x5002) (hn : n < 2 ^ 64)
    (hsel : s.selected = some (r, sub, obj)) :
    ∃ t, exec (.counterWrite (hostPort s) n) s = .next t ∧ answered t (hostPort s) 0 [] ∧ t.counter r.idx sub obj = n ∧ t.mem = s.mem := by
  have he : (hostWriting s 0x5002 2 0 8).numEffect (hostPort s) 0x5002 2 0 n = .ok ((hostWriting s 0x5002 2 0 8).setCounter r.idx sub obj n) := by
    have hsel' : (hostWriting s 0x5002 2 0 8).selected = some (r, sub, obj) := hsel
    simp [State.numEffect, hsel']
  obtain ⟨t, ht, ha, ho⟩ := host_done counterRow hs nofun rfl hn (Nat.zero_le _) (Nat.le_of_lt_succ hn) he
  obtain ⟨hmem, -, -, -, hev, -⟩ := onlyWindow_kept ho
  refine ⟨t, ht, ha, ?_, hmem⟩
  have hcount := State.counter_setCounter (hostWriting s 0x5002 2 0 8) r.idx sub obj hn
  unfold State.counter at hcount ⊢
  rw [hev]
  exact hcount

/-- Settles O40: each entry by its row and its effect. -/
theorem controlEntries : Obligations.ControlEntries := fun _ _ =>
  ⟨jobAbort_entry, verify_entry, customer_entry, fun _ => restart_entry, writeBack_entry, prepare_entry, fun _ _ _ => counter_entry⟩

end Sys2Proof.Machine
end

section
/-! PROOF. The Steward's rounds, its watchdog and its restart (R369, R370, R374, R377-R383). -/

namespace Sys2Proof.Machine

open Sys2Proof.Claims

/-! What the Steward's acts leave alone. -/

/-- What of a channel the Steward's acts leave alone. -/
abbrev Chan.setup (c : Chan) : Nat × Nat × Nat × Nat := (c.wing, c.sel, c.st, c.fset)

/-- From `a` to `s` the Steward has acted: the throttle, the causes and the order of frequency changes may differ, and dies. -/
structure Steered (a s : State) : Prop where
  mem : s.mem = a.mem
  chans : s.chans.map Chan.setup = a.chans.map Chan.setup
  act : s.act = a.act
  pkg : s.pkg = a.pkg
  tsc : s.tsc = a.tsc
  pw : s.pw = { a.pw with stage := s.pw.stage, stageCause := s.pw.stageCause, lastChange := s.pw.lastChange, causes := s.pw.causes,
                          freqChange := s.pw.freqChange }

theorem Steered.refl (s : State) : Steered s s := ⟨rfl, rfl, rfl, rfl, rfl, rfl⟩

theorem Steered.trans {a b c : State} (h : Steered a b) (k : Steered b c) : Steered a c where
  mem := k.mem.trans h.mem
  chans := k.chans.trans h.chans
  act := k.act.trans h.act
  pkg := k.pkg.trans h.pkg
  tsc := k.tsc.trans h.tsc
  pw := by rw [k.pw, h.pw]

theorem OnlyRecords.steered {a s : State} (h : OnlyRecords a s) : Steered a s where
  mem := h.mem
  chans := by rw [h.chans]
  act := h.act
  pkg := h.pkg
  tsc := h.tsc
  pw := by rw [h.pw]

theorem State.watermark_steered (s : State) (sc : Scope) (t u c : Nat) (x : Bool) (b : Bytes) : Steered s (s.watermark sc t u c x b) :=
  (State.watermark_onlyRecords (.refl s)).steered

theorem State.updDie_steered (s : State) (c : Nat) (f : Die → Die) : Steered s (s.updDie c f) := ⟨rfl, rfl, rfl, rfl, rfl, rfl⟩

theorem State.updPw_causes_steered (s : State) (n : Nat) : Steered s (s.updPw fun p => { p with causes := n }) := ⟨rfl, rfl, rfl, rfl, rfl, rfl⟩

/-- The causes of the guarantee's suspension begin and end with their records (R395). -/
theorem State.suspend_spec (s : State) (cause wing : Nat) :
    Steered s (s.suspend cause wing) ∧ (s.suspend cause wing).dies = s.dies ∧ bitSet (s.suspend cause wing).pw.causes (cause - 1) = true ∧
      (s.suspend cause wing).pw = { s.pw with causes := (s.suspend cause wing).pw.causes } := by
  unfold State.suspend
  split
  next h => exact ⟨.refl s, rfl, h, rfl⟩
  next =>
    refine ⟨(s.updPw_causes_steered _).trans (State.watermark_steered ..), State.watermark_dies .., ?_, ?_⟩
    · rw [State.watermark_pw]
      exact bitSet_putBit_true ..
    · rw [State.watermark_pw]
      rfl

theorem bitSet_putBit_false (v i : Nat) : bitSet (putBit v i false) i = false := by
  unfold bitSet putBit
  rw [testBit_setBits]
  simp

theorem State.resume_spec (s : State) (cause wing : Nat) :
    Steered s (s.resume cause wing) ∧ (s.resume cause wing).dies = s.dies ∧ bitSet (s.resume cause wing).pw.causes (cause - 1) = false ∧
      (s.resume cause wing).pw = { s.pw with causes := (s.resume cause wing).pw.causes } := by
  unfold State.resume
  split
  next h => exact ⟨.refl s, rfl, by simpa using h, rfl⟩
  next =>
    dsimp only
    split
    · refine ⟨(s.updPw_causes_steered _).trans (State.watermark_steered ..), State.watermark_dies .., ?_, ?_⟩
      · rw [State.watermark_pw]
        exact bitSet_putBit_false ..
      · rw [State.watermark_pw]
        rfl
    · exact ⟨s.updPw_causes_steered _, rfl, bitSet_putBit_false .., rfl⟩

theorem State.startFreq_steered (s : State) : Steered s s.startFreq ∧ s.startFreq.dies = s.dies := by
  refine ⟨⟨rfl, ?_, rfl, rfl, rfl, rfl⟩, rfl⟩
  unfold State.startFreq
  dsimp only
  rw [updWhere, List.map_map]
  refine List.map_congr_left fun c _ => ?_
  simp only [Function.comp_apply]
  split <;> rfl

theorem State.orderFreq_steered (s : State) (f : Nat) : Steered s (s.orderFreq f) ∧ (s.orderFreq f).dies = s.dies := by
  have hpw (l : List (Nat × Nat)) : Steered s (s.updPw fun p => { p with freqChange := l }) := ⟨rfl, rfl, rfl, rfl, rfl, rfl⟩
  unfold State.orderFreq
  split
  · exact ⟨.refl s, rfl⟩
  · dsimp only
    split
    · exact ⟨(hpw _).trans (State.startFreq_steered _).1, rfl⟩
    · exact ⟨hpw _, rfl⟩

/-- The throttle takes a stage (R380). -/
theorem State.setStage_spec (s : State) (n cause : Nat) :
    Steered s (s.setStage n cause) ∧ (s.setStage n cause).dies = s.dies ∧ (s.setStage n cause).pw.stage = n ∧
      (s.setStage n cause).pw.stewardUp = s.pw.stewardUp := by
  have hpw (c t : Nat) : Steered s (s.updPw fun p => { p with stage := n, stageCause := c, lastChange := t }) := ⟨rfl, rfl, rfl, rfl, rfl, rfl⟩
  have horder (u : State) (h : Steered s u) (hd : u.dies = s.dies) (hs : u.pw.stage = n) (p : Prop) [Decidable p] (f : Nat) :
      Steered s (if p then u else u.orderFreq f) ∧ (if p then u else u.orderFreq f).dies = s.dies ∧
        (if p then u else u.orderFreq f).pw.stage = n ∧ (if p then u else u.orderFreq f).pw.stewardUp = s.pw.stewardUp := by
    have hup : u.pw.stewardUp = s.pw.stewardUp := by rw [h.pw]
    split
    · exact ⟨h, hd, hs, hup⟩
    · obtain ⟨h1, h2⟩ := u.orderFreq_steered f
      refine ⟨h.trans h1, h2.trans hd, ?_, ?_⟩
      · unfold State.orderFreq
        split
        · exact hs
        · dsimp only
          split <;> exact hs
      · rw [h1.pw]
        exact hup
  unfold State.setStage
  dsimp only
  split
  next h => exact ⟨.refl s, rfl, h.symm, rfl⟩
  next =>
    refine horder _ ?_ ?_ ?_ _ _
    · split
      · exact (hpw ..).trans ((State.watermark_onlyRecords (.refl _)).trans (State.bump_onlyRecords (.refl _))).steered
      · split
        · exact (hpw ..).trans (State.watermark_steered ..)
        · exact hpw ..
    · split
      · rw [State.bump_dies, State.watermark_dies]
        rfl
      · split
        · rw [State.watermark_dies]
          rfl
        · rfl
    · split
      · rw [State.bump_pw, State.watermark_pw]
        rfl
      · split
        · rw [State.watermark_pw]
          rfl
        · rfl

/-! The dies' voltages. -/

/-- What of a die its voltage's step depends on. -/
def Die.plain (d : Die) : Die := { Die.reset d.code with present := d.present, vdd := d.vdd, vddHold := d.vddHold, rings := d.rings }

/-- The die of a code, as its voltage's step sees it. -/
def State.plain (s : State) (c : Nat) : Option Die := (s.die? c).map Die.plain

theorem State.plain_updDie_ne {s : State} {c e : Nat} {f : Die → Die} (h : ∀ d, (f d).code = d.code) (hne : e ≠ c) :
    (s.updDie c f).plain e = s.plain e := by
  refine congrArg (Option.map Die.plain) (find?_updWhere_ne fun d hd => ?_)
  have hd : d.code = c := by simpa using hd
  rw [h, hd]
  simpa using hne.symm

theorem State.plain_updDie {s : State} {c : Nat} {f : Die → Die} (h : ∀ d, (f d).code = d.code) :
    (s.updDie c f).plain c = (s.die? c).map fun d => (f d).plain := by
  unfold State.plain
  rw [State.die?_updDie h, Option.map_map]
  rfl

theorem State.plain_dies {s t : State} (h : t.dies = s.dies) (c : Nat) : t.plain c = s.plain c :=
  congrArg (Option.map Die.plain) (State.die?_dies h c)

/-- From `a` to `s` the dies have changed nothing that the Steward's step reads. -/
structure DiesPlain (a s : State) : Prop where
  plain : ∀ c, s.plain c = a.plain c
  vdd : ∀ e ∈ s.dies, ∃ d ∈ a.dies, e.vdd = d.vdd

theorem DiesPlain.of_dies {a s : State} (h : s.dies = a.dies) : DiesPlain a s := by
  refine ⟨State.plain_dies h, fun e he => ⟨e, ?_, rfl⟩⟩
  rw [← h]
  exact he

theorem DiesPlain.trans {a b c : State} (h : DiesPlain a b) (k : DiesPlain b c) : DiesPlain a c where
  plain := fun x => (k.plain x).trans (h.plain x)
  vdd := fun e he => by
    obtain ⟨d, hd, h1⟩ := k.vdd e he
    obtain ⟨x, hx, h2⟩ := h.vdd d hd
    exact ⟨x, hx, h1.trans h2⟩

theorem State.updDie_diesPlain (s : State) (c : Nat) {f : Die → Die} (h : ∀ d, (f d).code = d.code ∧ (f d).plain = d.plain ∧ (f d).vdd = d.vdd) :
    DiesPlain s (s.updDie c f) where
  plain := fun e => by
    by_cases he : e = c
    · rw [he, State.plain_updDie fun d => (h d).1]
      exact congrArg (fun g => (s.die? c).map g) (funext fun d => (h d).2.1)
    · exact State.plain_updDie_ne (fun d => (h d).1) he
  vdd := fun e he => by
    obtain ⟨d, hd, rfl⟩ := List.mem_map.mp he
    refine ⟨d, hd, ?_⟩
    split
    · exact (h d).2.2
    · rfl

/-- A Wing's voltage is set (R377). -/
theorem State.setVdd_spec (s : State) (w mv : Nat) :
    Steered s (s.setVdd w mv) ∧ (s.setVdd w mv).pw = s.pw ∧ (∀ c, c ≠ wingDie w → (s.setVdd w mv).plain c = s.plain c) ∧
      (s.setVdd w mv).plain (wingDie w) = (s.plain (wingDie w)).map (fun d => { d with vdd := mv }) ∧
      ∀ e ∈ (s.setVdd w mv).dies, e.vdd = mv ∨ ∃ d ∈ s.dies, e.vdd = d.vdd := by
  unfold State.setVdd
  split
  next hn => exact ⟨.refl s, rfl, fun _ _ => rfl, by simp [State.plain, hn], fun e he => .inr ⟨e, he, rfl⟩⟩
  next d hd =>
    split
    next hv =>
      refine ⟨.refl s, rfl, fun _ _ => rfl, ?_, fun e he => .inr ⟨e, he, rfl⟩⟩
      simp [State.plain, hd, Die.plain, hv]
    next =>
      refine ⟨⟨rfl, rfl, rfl, rfl, rfl, rfl⟩, rfl, fun c hc => State.plain_updDie_ne (fun _ => rfl) hc, ?_, fun e he => ?_⟩
      · refine (State.plain_updDie (s := s) (c := wingDie w) (f := fun d => { d with vdd := mv }) fun _ => rfl).trans ?_
        rw [State.plain, hd]
        rfl
      · obtain ⟨x, hx, rfl⟩ := List.mem_map.mp he
        split
        · exact .inl rfl
        · exact .inr ⟨x, hx, rfl⟩

/-! A Wing's part of a round (R377, R379). -/

theorem State.slowWing_spec (s : State) (w : Nat) : Steered s (s.slowWing w) ∧ DiesPlain s (s.slowWing w) := by
  unfold State.slowWing
  split
  · exact ⟨.refl s, .of_dies rfl⟩
  next d _ =>
    have h := s.updDie_diesPlain (wingDie w) (f := fun d => { d with paceLow := true, goodRounds := 0 }) fun _ => ⟨rfl, rfl, rfl⟩
    dsimp only
    split
    · exact ⟨s.updDie_steered .., h⟩
    · exact ⟨((s.updDie_steered ..).trans (State.updPw_causes_steered _ _)).trans (State.watermark_steered ..),
        h.trans (.of_dies (State.watermark_dies ..))⟩

/-- The voltage's step of a Wing's die in a round. -/
def Die.stepped (need : Nat) (d : Die) : Die := { d with vdd := nextVdd d.vddHold d.vdd d.pace need }

/-- A round at one Wing: its voltage takes its step, and the other dies keep theirs. -/
structure WingRound (w : Nat) (a s : State) : Prop where
  steered : Steered a s
  other : ∀ c, c ≠ wingDie w → s.plain c = a.plain c
  own : s.plain (wingDie w) = (a.plain (wingDie w)).map (Die.stepped a.paceR)
  vdd : ∀ e ∈ s.dies, ∃ d ∈ a.dies, e.vdd = d.vdd ∨ e.vdd = (d.stepped a.paceR).vdd

theorem WingRound.trans {w : Nat} {a b c : State} (h : WingRound w a b) (hs : Steered b c) (hp : DiesPlain b c) : WingRound w a c where
  steered := h.steered.trans hs
  other := fun x hx => (hp.plain x).trans (h.other x hx)
  own := (hp.plain _).trans h.own
  vdd := fun e he => by
    obtain ⟨d, hd, h1⟩ := hp.vdd e he
    rw [h1]
    exact h.vdd d hd

theorem State.setVdd_round {s : State} {w : Nat} {d : Die} (hd : s.die? (wingDie w) = some d) :
    WingRound w s (s.setVdd w (nextVdd d.vddHold d.vdd d.pace s.paceR)) := by
  obtain ⟨h1, -, h2, h3, h4⟩ := s.setVdd_spec w (nextVdd d.vddHold d.vdd d.pace s.paceR)
  refine ⟨h1, h2, ?_, fun e he => (h4 e he).elim (fun h => ⟨d, List.mem_of_find?_eq_some hd, .inr h⟩) fun ⟨x, hx, h⟩ => ⟨x, hx, .inl h⟩⟩
  rw [h3]
  unfold State.plain
  rw [hd]
  rfl

theorem State.roundWing_spec {s : State} {w : Nat} {d : Die} (hd : s.die? (wingDie w) = some d) : WingRound w s (s.roundWing w) := by
  have hset := State.setVdd_round hd
  have hmark (u : State) (h : WingRound w s u) (on x : Bool) (b : Bytes) :
      WingRound w s ((u.updDie (wingDie w) fun d => { d with paceShort := on }).watermark .d 0x82 s.stewardSrc 0xFFFF x b) :=
    h.trans ((u.updDie_steered ..).trans (State.watermark_steered ..))
      ((u.updDie_diesPlain (wingDie w) (f := fun d => { d with paceShort := on }) fun _ => ⟨rfl, rfl, rfl⟩).trans
        (.of_dies (State.watermark_dies ..)))
  unfold State.roundWing
  rw [hd]
  dsimp only
  generalize hu : (if d.pace < paceW then (s.setVdd w (nextVdd d.vddHold d.vdd d.pace s.paceR)).slowWing w else
    if ((s.setVdd w (nextVdd d.vddHold d.vdd d.pace s.paceR)).updDie (wingDie w) fun d =>
        { d with goodRounds := d.goodRounds + 1, paceLow := d.paceLow && decide (d.goodRounds + 1 < 10) }).dies.any (·.paceLow) then
      (s.setVdd w (nextVdd d.vddHold d.vdd d.pace s.paceR)).updDie (wingDie w) fun d =>
        { d with goodRounds := d.goodRounds + 1, paceLow := d.paceLow && decide (d.goodRounds + 1 < 10) }
    else ((s.setVdd w (nextVdd d.vddHold d.vdd d.pace s.paceR)).updDie (wingDie w) fun d =>
        { d with goodRounds := d.goodRounds + 1, paceLow := d.paceLow && decide (d.goodRounds + 1 < 10) }).resume 1 w) = u
  have hround : WingRound w s u := by
    have hgood := hset.trans (State.updDie_steered _ (wingDie w) fun d =>
        { d with goodRounds := d.goodRounds + 1, paceLow := d.paceLow && decide (d.goodRounds + 1 < 10) })
      (State.updDie_diesPlain _ _ fun _ => ⟨rfl, rfl, rfl⟩)
    rw [← hu]
    split
    · exact hset.trans (State.slowWing_spec ..).1 (State.slowWing_spec ..).2
    · split
      · exact hgood
      · obtain ⟨h1, h2, -⟩ := State.resume_spec ((s.setVdd w (nextVdd d.vddHold d.vdd d.pace s.paceR)).updDie (wingDie w) fun d =>
          { d with goodRounds := d.goodRounds + 1, paceLow := d.paceLow && decide (d.goodRounds + 1 < 10) }) 1 w
        exact hgood.trans h1 (.of_dies h2)
  split
  · exact hmark u hround ..
  · split
    · exact hmark u hround ..
    · exact hround

theorem Steered.paceR {a s : State} (h : Steered a s) : s.paceR = a.paceR := by
  unfold State.paceR
  rw [h.act]

/-- The voltages a step can give stay in range. -/
theorem nextVdd_range {hold : Bool} {v pace need : Nat} (h : 650 ≤ v ∧ v ≤ 900) :
    650 ≤ nextVdd hold v pace need ∧ nextVdd hold v pace need ≤ 900 := by
  unfold nextVdd
  split
  · exact h
  · split
    · omega
    · split
      · omega
      · exact h

/-- The round at several Wings. -/
theorem rounds_spec (ws : List Nat) (hnd : ws.Nodup) (s : State) (hd : ∀ w ∈ ws, (s.die? (wingDie w)).isSome = true) :
    let t := ws.foldl State.roundWing s
    Steered s t ∧ (∀ c, (∀ w ∈ ws, c ≠ wingDie w) → t.plain c = s.plain c) ∧
      (∀ w ∈ ws, t.plain (wingDie w) = (s.plain (wingDie w)).map (Die.stepped s.paceR)) ∧
      ((∀ d ∈ s.dies, 650 ≤ d.vdd ∧ d.vdd ≤ 900) → ∀ d ∈ t.dies, 650 ≤ d.vdd ∧ d.vdd ≤ 900) := by
  induction ws generalizing s with
  | nil => exact ⟨.refl s, fun _ _ => rfl, nofun, fun h => h⟩
  | cons w ws ih =>
    obtain ⟨hw, hnd⟩ := List.nodup_cons.mp hnd
    obtain ⟨d, hdw⟩ := Option.isSome_iff_exists.mp (hd w List.mem_cons_self)
    have hr := State.roundWing_spec hdw
    have hdie (v : Nat) (hv : v ∈ ws) : wingDie v ≠ wingDie w := fun h => hw (by
      unfold wingDie at h
      exact (Nat.add_right_cancel h) ▸ hv)
    have hsome (v : Nat) (hv : v ∈ ws) : ((s.roundWing w).die? (wingDie v)).isSome = true := by
      have h := congrArg Option.isSome (hr.other _ (hdie v hv))
      unfold State.plain at h
      rw [Option.isSome_map, Option.isSome_map] at h
      rw [h]
      exact hd v (List.mem_cons_of_mem w hv)
    obtain ⟨h1, h2, h3, h4⟩ := ih hnd (s.roundWing w) hsome
    refine ⟨hr.steered.trans h1, fun c hc => ?_, fun v hv => ?_, fun hrange => h4 fun e he => ?_⟩
    · exact (h2 c fun v hv => hc v (List.mem_cons_of_mem w hv)).trans (hr.other c (hc w List.mem_cons_self))
    · rcases List.mem_cons.mp hv with rfl | hv
      · exact (h2 _ fun x hx => (hdie x hx).symm).trans hr.own
      · refine (h3 v hv).trans ?_
        rw [hr.steered.paceR, hr.other _ (hdie v hv)]
    · obtain ⟨d, hd, h | h⟩ := hr.vdd e he
      · rw [h]
        exact hrange d hd
      · rw [h]
        exact nextVdd_range (hrange d hd)

/-! The Steward's commands. -/

theorem State.thermal_spec (s : State) : Steered s s.thermal ∧ s.thermal.dies = s.dies := by
  unfold State.thermal
  split
  · exact ⟨(s.suspend_spec 2 0xFF).1, (s.suspend_spec 2 0xFF).2.1⟩
  · split
    · exact ⟨(s.resume_spec 2 0xFF).1, (s.resume_spec 2 0xFF).2.1⟩
    · exact ⟨.refl s, rfl⟩

theorem State.moveStage_spec (s : State) : Steered s s.moveStage ∧ s.moveStage.dies = s.dies := by
  have h (n c : Nat) : Steered s (s.setStage n c) ∧ (s.setStage n c).dies = s.dies := ⟨(s.setStage_spec n c).1, (s.setStage_spec n c).2.1⟩
  unfold State.moveStage
  dsimp only
  split
  · exact ⟨.refl s, rfl⟩
  · split
    · split
      · exact h ..
      · exact ⟨.refl s, rfl⟩
    · split
      · exact h ..
      · exact ⟨.refl s, rfl⟩

/-- A complete round (R369, R377-R383). -/
theorem telemetryRound_spec {s : State} (hr : s.stewardRuns = true) :
    ∃ t, exec (.telemetryRound s.pkg.primary) s = .next t ∧ t.pw.samples = (s.packagePower :: s.pw.samples).take 10 ∧
      t.pw.power = t.pw.samples.foldl (· + ·) 0 / t.pw.samples.length ∧ t.pw.lastRound = s.tsc ∧
      t.mem.dram = s.mem.dram ∧ t.mem.cat = s.mem.cat ∧
      t.chans.map (fun c => (c.wing, c.sel, c.st, c.fset)) = s.chans.map (fun c => (c.wing, c.sel, c.st, c.fset)) ∧
      (∀ w d, w ∈ s.pkg.asm.wings → s.wingUp w = true → s.die? (wingDie w) = some d →
        ∃ e, t.die? (wingDie w) = some e ∧ e.vdd = nextVdd d.vddHold d.vdd d.pace s.paceR) ∧
      ((∀ d ∈ s.dies, 650 ≤ d.vdd ∧ d.vdd ≤ 900) → ∀ d ∈ t.dies, 650 ≤ d.vdd ∧ d.vdd ≤ 900) := by
  have hx : exec (.telemetryRound s.pkg.primary) s = execTelemetryRound s.pkg.primary s := rfl
  rw [hx]
  unfold execTelemetryRound
  rw [if_neg (by simp [hr])]
  dsimp only
  generalize hu : (s.settleBuckets.takePower).updPw (fun p => { p with lastRound := s.tsc }) = u
  have hups : u.wingsUp = s.wingsUp := by rw [← hu]; rfl
  have hdies : u.dies = s.dies := by rw [← hu]; rfl
  have hsome (w : Nat) (hw : w ∈ u.wingsUp) : (u.die? (wingDie w)).isSome = true := by
    rw [hups] at hw
    have hup := (List.mem_filter.mp hw).2
    rw [State.die?_dies hdies]
    unfold State.wingUp at hup
    cases hd : s.die? (wingDie w) with
    | none => rw [hd] at hup; exact hup
    | some d => rfl
  obtain ⟨h1, h2, h3, h4⟩ := rounds_spec u.wingsUp (by rw [hups]; exact s.pkg.asm.wings_nodup.filter _) u hsome
  generalize u.wingsUp.foldl State.roundWing u = v at h1 h2 h3 h4
  obtain ⟨k1, k2⟩ := v.thermal_spec
  obtain ⟨m1, m2⟩ := v.thermal.moveStage_spec
  have hst := (h1.trans k1).trans m1
  have hd := m2.trans k2
  generalize v.thermal.moveStage = t at hst hd
  have hsamples : t.pw.samples = u.pw.samples := by rw [hst.pw]
  have hpower : t.pw.power = u.pw.power := by rw [hst.pw]
  refine ⟨t, rfl, ?_, ?_, ?_, ?_, ?_, ?_, fun w d hw hup hdw => ?_, fun hrange => ?_⟩
  · rw [hsamples, ← hu]
    rfl
  · rw [hpower, hsamples, ← hu]
    rfl
  · rw [hst.pw, ← hu]
    rfl
  · rw [hst.mem, ← hu]
    rfl
  · rw [hst.mem, ← hu]
    rfl
  · rw [← hu] at hst
    exact hst.chans
  · have hmem : w ∈ u.wingsUp := by
      rw [hups]
      exact List.mem_filter.mpr ⟨hw, hup⟩
    have hp := (State.plain_dies hd (wingDie w)).trans (h3 w hmem)
    rw [State.plain_dies hdies] at hp
    unfold State.plain at hp
    rw [hdw] at hp
    obtain ⟨e, he, hep⟩ := Option.map_eq_some_iff.mp hp
    refine ⟨e, he, (congrArg Die.vdd hep).trans ?_⟩
    rw [← hu]
    rfl
  · rw [hd]
    exact h4 (by rw [hdies]; exact hrange)

/-- The Wings put at a voltage. -/
theorem setVdds_spec (mv : Nat) (ws : List Nat) (s : State) :
    let t := ws.foldl (fun s w => s.setVdd w mv) s
    Steered s t ∧ t.pw = s.pw ∧ (∀ c, t.plain c = if c ∈ ws.map wingDie then (s.plain c).map (fun d => { d with vdd := mv }) else s.plain c) := by
  induction ws generalizing s with
  | nil => exact ⟨.refl s, rfl, fun _ => rfl⟩
  | cons w ws ih =>
    obtain ⟨h1, h2, h3, h4, -⟩ := s.setVdd_spec w mv
    obtain ⟨k1, k2, k3⟩ := ih (s.setVdd w mv)
    refine ⟨h1.trans k1, k2.trans h2, fun c => (k3 c).trans ?_⟩
    by_cases hc : c = wingDie w
    · subst hc
      rw [h4, if_pos (List.mem_map.mpr ⟨w, List.mem_cons_self, rfl⟩), Option.map_map]
      exact ite_self _
    · rw [h3 c hc]
      simp [hc]

/-- The Steward's restart begins (R374). -/
theorem State.stewardFallback_spec (s : State) :
    s.stewardFallback.pw.stewardUp = false ∧ s.stewardFallback.pw.stage = 16 ∧ bitSet s.stewardFallback.pw.causes 2 = true ∧
      s.stewardFallback.mem = s.mem ∧
      ∀ w ∈ s.pkg.asm.wings, ∀ e, s.stewardFallback.die? (wingDie w) = some e → e.present = true → e.vdd = 850 := by
  unfold State.stewardFallback
  dsimp only
  obtain ⟨h1, h2, h3⟩ := setVdds_spec 850 (s.pkg.asm.wings.filter fun w => match s.die? (wingDie w) with | some d => d.present | none => false)
    (s.updPw fun p => { p with stewardUp := false })
  generalize hu : (s.pkg.asm.wings.filter fun w => match s.die? (wingDie w) with | some d => d.present | none => false).foldl
    (fun s w => s.setVdd w 850) (s.updPw fun p => { p with stewardUp := false }) = u at h1 h2 h3
  obtain ⟨k1, k2, k3, k4⟩ := u.setStage_spec 16 3
  obtain ⟨m1, m2, m3, m4⟩ := (u.setStage 16 3).suspend_spec 3 0xFF
  refine ⟨?_, ?_, m3, ?_, fun w hw e he hp => ?_⟩
  · rw [m4]
    dsimp only
    rw [k4, h2]
    rfl
  · rw [m4]
    exact k3
  · rw [m1.mem, k1.mem, h1.mem]
    rfl
  · have hpl := (State.plain_dies (m2.trans k2) (wingDie w)).trans (h3 (wingDie w))
    have hsp : (s.updPw fun p => { p with stewardUp := false }).plain (wingDie w) = s.plain (wingDie w) := rfl
    rw [hsp] at hpl
    have hep : (((u.setStage 16 3).suspend 3 0xFF).plain (wingDie w)) = some e.plain := congrArg (Option.map Die.plain) he
    rw [hep] at hpl
    split at hpl
    next =>
      obtain ⟨d, -, hd⟩ := Option.map_eq_some_iff.mp hpl.symm
      exact (congrArg Die.vdd hd).symm
    next hno =>
      obtain ⟨d, hd, hdp⟩ := Option.map_eq_some_iff.mp hpl.symm
      have hdpres : d.present = true := (congrArg Die.present hdp).trans hp
      exact absurd (List.mem_map.mpr ⟨w, List.mem_filter.mpr ⟨hw, by rw [hd]; exact hdpres⟩, rfl⟩) hno

/-- Settles O48: a round by its frame and the voltages' steps, then the watchdog and the restart. -/
theorem stewardRounds : Obligations.StewardRounds := by
  have hms : 10 * ms = 10000000 := rfl
  intro s
  refine ⟨telemetryRound_spec, fun lobby h => ?_, fun hr hu ht => ?_, fun ht => ?_, fun hr hu => ?_⟩
  · change execTelemetryRound lobby s = _
    unfold execTelemetryRound
    rw [if_pos (by rcases h with h | h <;> simp [h])]
  · have hx : exec .stewardWatchdog s = .next s.stewardFallback := by
      change execStewardWatchdog s = _
      unfold execStewardWatchdog
      rw [hms, if_pos (by simp [hr, hu, ht])]
    exact ⟨_, hx, s.stewardFallback_spec⟩
  · change execStewardWatchdog s = _
    unfold execStewardWatchdog
    rw [hms, if_neg (by simp; omega)]
  · have hx : exec .stewardRestartDone s = .next ((s.updPw fun p => { p with stewardUp := true, lastRound := s.tsc }).resume 3 0xFF) := by
      change execStewardRestartDone s = _
      unfold execStewardRestartDone
      rw [if_pos (by simp [hr, hu])]
    obtain ⟨h1, -, h3, h4⟩ := (s.updPw fun p => { p with stewardUp := true, lastRound := s.tsc }).resume_spec 3 0xFF
    exact ⟨_, hx, by rw [h4]; rfl, by rw [h4]; rfl, h3, h1.mem⟩

end Sys2Proof.Machine
end

section
/-! PROOF. What the work of the channels can change: the queues, the stored bytes, the lines that leave with them, and how far each
waiting read has come; nothing else. -/

namespace Sys2Proof.Machine

open Sys2Proof.Claims

/-- A waiting read without how far it has come. -/
def PendRead.request (r : PendRead) : PendRead := { r with stage := .ingress, got := none }

/-- A channel without its queues, its open rows and its log. -/
def Chan.standing (c : Chan) : Chan :=
  { c with wq := [], drain := false, rows := [], hits := (0, 0), log := [], idleFrom := [], poweredDown := [] }

/-- A state without what the channels' work changes. -/
def State.unworked (s : State) : State :=
  { s with chans := s.chans.map Chan.standing,
           mem := { s.mem with dram := [], cache := [], reads := s.mem.reads.map PendRead.request } }

theorem State.updChan_unworked {s : State} {w sel : Nat} {f : Chan → Chan} (h : ∀ c, (f c).standing = c.standing) :
    (s.updChan w sel f).unworked = s.unworked :=
  congrArg (fun l => { s.unworked with chans := l }) (updWhere_map h)

@[simp] theorem State.noteAccess_unworked (s : State) (w sel a k : Nat) : (s.noteAccess w sel a k).unworked = s.unworked :=
  State.updChan_unworked fun _ => rfl

@[simp] theorem State.setRawLine_unworked (s : State) (w sel a : Nat) (d k : Bytes) : (s.setRawLine w sel a d k).unworked = s.unworked :=
  State.noteAccess_unworked ..

@[simp] theorem State.wakeRank_unworked (s : State) (w sel a : Nat) : (s.wakeRank w sel a).unworked = s.unworked :=
  State.updChan_unworked fun c => by
    split
    · rfl
    · rfl

@[simp] theorem State.releaseQueued_unworked (s : State) (w c blk : Nat) : (s.releaseQueued w c blk).unworked = s.unworked := by
  unfold State.releaseQueued
  split
  · rfl
  · rfl

@[simp] theorem State.issueWrite_unworked (s : State) (w sel : Nat) (q : QWrite) : (s.issueWrite w sel q).unworked = s.unworked := by
  unfold State.issueWrite
  dsimp only
  split
  · rw [State.releaseQueued_unworked, State.setRawLine_unworked]
    exact State.updChan_unworked fun _ => rfl
  · rw [State.setRawLine_unworked]
    exact State.updChan_unworked fun _ => rfl

theorem State.updReads_unworked {s : State} {p : PendRead → Bool} {f : PendRead → PendRead} (h : ∀ r, (f r).request = r.request) :
    (s.updMem fun m => { m with reads := updWhere p f m.reads }).unworked = s.unworked :=
  congrArg (fun l => { s.unworked with mem := { s.unworked.mem with reads := l } }) (updWhere_map h)

@[simp] theorem State.issueRead_unworked (s : State) (r : PendRead) (a : Nat) : (s.issueRead r a).unworked = s.unworked :=
  (State.noteAccess_unworked ..).trans (State.updReads_unworked fun _ => rfl)

@[simp] theorem State.issueReq_unworked (s : State) (w sel : Nat) (x : Req) : (s.issueReq w sel x).unworked = s.unworked := by
  cases x with
  | read r => exact State.issueRead_unworked ..
  | write q => exact State.issueWrite_unworked ..

@[simp] theorem State.pumpAux_unworked (w sel n : Nat) (s : State) : (State.pumpAux w sel n s).unworked = s.unworked := by
  induction n generalizing s with
  | zero => rfl
  | succ n ih =>
    unfold State.pumpAux
    split
    · rfl
    · split
      · rfl
      · exact (ih _).trans (State.issueReq_unworked ..)

@[simp] theorem State.admitAux_unworked (w sel n : Nat) (s : State) : (State.admitAux w sel n s).unworked = s.unworked := by
  induction n generalizing s with
  | zero => rfl
  | succ n ih =>
    unfold State.admitAux
    dsimp only
    split
    · rfl
    · exact (ih _).trans (State.updReads_unworked fun _ => rfl)

@[simp] theorem State.pump_unworked (s : State) (w sel : Nat) : (s.pump w sel).unworked = s.unworked :=
  (State.pumpAux_unworked ..).trans (State.admitAux_unworked ..)

theorem foldl_projection {α β : Type} {g : State → β} {f : State → α → State} (h : ∀ s x, g (f s x) = g s) (l : List α) (s : State) :
    g (l.foldl f s) = g s := by
  induction l generalizing s with
  | nil => rfl
  | cons x l ih => exact (ih _).trans (h s x)

@[simp] theorem State.issueWrites_unworked (s : State) (w sel : Nat) (l : List QWrite) : (s.issueWrites w sel l).unworked = s.unworked := by
  unfold State.issueWrites
  split
  · rfl
  · exact foldl_projection (fun s q => State.issueWrite_unworked s w sel q) l s

@[simp] theorem State.forceBank_unworked (s : State) (w sel a : Nat) : (s.forceBank w sel a).unworked = s.unworked := by
  unfold State.forceBank
  dsimp only
  split
  · rfl
  · split
    · rfl
    · exact (State.issueWrites_unworked ..).trans (State.updReads_unworked fun _ => rfl)

@[simp] theorem State.forceBlock_unworked (s : State) (c w blk : Nat) : (s.forceBlock c w blk).unworked = s.unworked :=
  foldl_projection (fun s (x : Chan) => State.issueWrites_unworked s w x.sel _) _ s

@[simp] theorem State.issueSince_unworked (s : State) (w mark : Nat) : (s.issueSince w mark).unworked = s.unworked :=
  foldl_projection (fun s (x : Chan) => State.issueWrites_unworked s w x.sel _) _ s

@[simp] theorem State.forceChan_unworked (s : State) (w sel : Nat) : (s.forceChan w sel).unworked = s.unworked :=
  State.issueWrites_unworked ..

/-! Field by field. -/

/-- The reads that wait are those that waited, each further on its way. -/
theorem reads_of_unworked {s t : State} (h : t.unworked = s.unworked) : t.mem.reads.map PendRead.request = s.mem.reads.map PendRead.request :=
  congrArg (fun u => u.mem.reads) h

theorem chans_of_unworked {s t : State} (h : t.unworked = s.unworked) : t.chans.map Chan.standing = s.chans.map Chan.standing :=
  congrArg State.chans h

theorem mem_of_unworked {s t : State} (h : t.unworked = s.unworked) :
    t.mem = { s.mem with dram := t.mem.dram, cache := t.mem.cache, reads := t.mem.reads } :=
  congrArg (fun u => { u.mem with dram := t.mem.dram, cache := t.mem.cache, reads := t.mem.reads }) h

theorem eq_of_unworked {s t : State} (h : t.unworked = s.unworked) :
    t = { s with chans := t.chans, mem := { s.mem with dram := t.mem.dram, cache := t.mem.cache, reads := t.mem.reads } } :=
  congrArg (fun u => { u with chans := t.chans, mem := { u.mem with dram := t.mem.dram, cache := t.mem.cache, reads := t.mem.reads } }) h

theorem find?_of_map {α β : Type} {g : α → β} {p : α → Bool} (hp : ∀ x y, g x = g y → p x = p y) :
    ∀ {l k : List α}, k.map g = l.map g → (k.find? p).map g = (l.find? p).map g
  | [], [], _ => rfl
  | x :: l, y :: k, h => by
    obtain ⟨h1, h2⟩ := List.cons_eq_cons.mp h
    rw [List.find?_cons, List.find?_cons, hp y x h1]
    split
    · exact congrArg some h1
    · exact find?_of_map hp h2

theorem chan?_of_standing {s t : State} (h : t.chans.map Chan.standing = s.chans.map Chan.standing) (w sel : Nat) :
    (t.chan? w sel).map Chan.standing = (s.chan? w sel).map Chan.standing :=
  find?_of_map (fun x y hxy => by
    rw [show x.wing = y.wing from congrArg (f := Chan.wing) (a₁ := x.standing) (a₂ := y.standing) hxy,
      show x.sel = y.sel from congrArg (f := Chan.sel) (a₁ := x.standing) (a₂ := y.standing) hxy]) h

/-! With nothing queued the channels' work stores nothing. -/

/-- From `s` to `t` nothing was stored and nothing left a queue, where nothing was queued. -/
structure Dry (s t : State) : Prop where
  dry : allDrained s → allDrained t
  dram : allDrained s → t.mem.dram = s.mem.dram
  cache : allDrained s → t.mem.cache = s.mem.cache

theorem Dry.refl (s : State) : Dry s s := ⟨id, fun _ => rfl, fun _ => rfl⟩

theorem Dry.trans {a b c : State} (h : Dry a b) (k : Dry b c) : Dry a c :=
  ⟨fun d => k.dry (h.dry d), fun d => (k.dram (h.dry d)).trans (h.dram d), fun d => (k.cache (h.dry d)).trans (h.cache d)⟩

theorem Dry.foldl {α : Type} {f : State → α → State} (h : ∀ s x, Dry s (f s x)) (l : List α) (s : State) : Dry s (l.foldl f s) := by
  induction l generalizing s with
  | nil => exact .refl s
  | cons x l ih => exact (h s x).trans (ih _)

theorem Dry.of_eq {s t : State} (h1 : t.chans = s.chans) (h2 : t.mem.dram = s.mem.dram) (h3 : t.mem.cache = s.mem.cache) : Dry s t :=
  ⟨fun d => by unfold allDrained; rwa [h1], fun _ => h2, fun _ => h3⟩

theorem State.updChan_dry {s : State} {w sel : Nat} {f : Chan → Chan} (h : ∀ c, c.wq = [] → (f c).wq = []) : Dry s (s.updChan w sel f) := by
  refine ⟨fun d x hx => ?_, fun _ => rfl, fun _ => rfl⟩
  obtain ⟨c, hc, hcx⟩ := List.mem_map.mp hx
  split at hcx
  · exact hcx ▸ h c (d c hc)
  · exact hcx ▸ d c hc

theorem State.writeQueue_of_drained {s : State} (d : allDrained s) (w sel : Nat) : s.writeQueue w sel = [] := by
  unfold State.writeQueue
  split
  next c hc => exact d c (List.mem_of_find?_eq_some hc)
  next => rfl

theorem State.noteAccess_dry (s : State) (w sel a k : Nat) : Dry s (s.noteAccess w sel a k) := by
  unfold State.noteAccess
  exact State.updChan_dry fun _ h => h

theorem State.issueRead_dry (s : State) (r : PendRead) (a : Nat) : Dry s (s.issueRead r a) :=
  Dry.trans (b := s.updMem _) (.of_eq rfl rfl rfl) (State.noteAccess_dry ..)

theorem foldl_pick {α : Type} {f : Option α → α → Option α} {p : α → Prop} (hf : ∀ b x, (∀ y, b = some y → p y) → p x → ∀ y, f b x = some y → p y) :
    ∀ (l : List α) (b : Option α), (∀ y, b = some y → p y) → (∀ x ∈ l, p x) → ∀ y, l.foldl f b = some y → p y
  | [], _, hb, _ => hb
  | x :: l, b, hb, hl => foldl_pick hf l (f b x) (hf b x hb (hl x (.head _))) fun z hz => hl z (.tail _ hz)

theorem State.firstReq_mem {s : State} {w sel : Nat} {l : List Req} {x : Req} (h : s.firstReq w sel l = some x) : x ∈ l := by
  refine foldl_pick (p := (· ∈ l)) (fun b x hb hx y hy => ?_) l none (fun _ h => nomatch h) (fun _ h => h) x h
  split at hy
  · exact Option.some.inj hy ▸ hx
  next z =>
    split at hy
    · exact Option.some.inj hy ▸ hx
    · exact hb y hy

theorem State.pickReq_mem {s : State} {w sel : Nat} {x : Req} (h : s.pickReq w sel = some x) : x ∈ s.requests w sel := by
  have hok : ∀ y ∈ (s.requests w sel).filter (s.offers sel (s.requests w sel)), y ∈ s.requests w sel := fun y hy =>
    (List.mem_filter.mp hy).1
  unfold State.pickReq at h
  extract_lets l ok reads writes drain urgent pool at h
  have hw : ∀ y ∈ writes, y ∈ l := fun y hy => hok y (List.mem_filter.mp hy).1
  have hr : ∀ y ∈ reads, y ∈ l := fun y hy => hok y (List.mem_filter.mp hy).1
  have hpool : ∀ y ∈ pool, y ∈ l := by
    intro y hy
    unfold pool at hy
    split at hy
    · exact hw y hy
    · split at hy
      · split at hy
        · exact hr y (List.mem_filter.mp hy).1
        · split at hy
          · exact hw y hy
          · exact hr y hy
      · rcases List.mem_append.mp hy with hy | hy
        · exact hr y hy
        · exact hw y (List.mem_filter.mp hy).1
  split at h
  next a c ha hc =>
    extract_lets bank misses at h
    split at h
    · split at h
      next y hy =>
        refine hpool x ((List.mem_filter (p := _)).mp (foldl_pick (p := (· ∈ misses)) (fun b x hb hx y hy => ?_) misses none
          (fun _ h => nomatch h) (fun _ h => h) x (hy.trans h))).1
        split at hy
        · exact Option.some.inj hy ▸ hx
        next z =>
          split at hy
          · exact Option.some.inj hy ▸ hx
          · exact hb y hy
      next => exact hpool x (Option.some.inj h ▸ State.firstReq_mem ha)
    · exact hpool x (Option.some.inj h ▸ State.firstReq_mem ha)
  · exact hpool x (State.firstReq_mem h)

theorem State.issueReq_dry {s : State} {w sel : Nat} {x : Req} (h : x ∈ s.requests w sel) : Dry s (s.issueReq w sel x) := by
  cases x with
  | read r => exact State.issueRead_dry ..
  | write q =>
    have hq : ∀ d : allDrained s, False := fun d => by
      unfold State.requests at h
      rw [State.writeQueue_of_drained d] at h
      simp at h
    exact ⟨fun d => (hq d).elim, fun d => (hq d).elim, fun d => (hq d).elim⟩

theorem State.pumpAux_dry (w sel n : Nat) (s : State) : Dry s (State.pumpAux w sel n s) := by
  induction n generalizing s with
  | zero => exact .refl s
  | succ n ih =>
    unfold State.pumpAux
    split
    · exact .refl s
    · split
      · exact .refl s
      next hx => exact (State.issueReq_dry (State.pickReq_mem hx)).trans (ih _)

theorem State.admitAux_dry (w sel n : Nat) (s : State) : Dry s (State.admitAux w sel n s) := by
  induction n generalizing s with
  | zero => exact .refl s
  | succ n ih =>
    unfold State.admitAux
    dsimp only
    split
    · exact .refl s
    · exact Dry.trans (b := s.updMem _) (.of_eq rfl rfl rfl) (ih _)

theorem State.pump_dry (s : State) (w sel : Nat) : Dry s (s.pump w sel) :=
  (State.admitAux_dry ..).trans (State.pumpAux_dry ..)

end Sys2Proof.Machine
end

section
/-! PROOF. A channel freezes (R263, R264): what the freeze's bookkeeping leaves alone, and O23. -/

namespace Sys2Proof.Machine

open Sys2Proof.Claims

/-! The bookkeeping of the device: messages, functions, records, triggers, loan messages, meters and factors. -/

/-- A function as its port and its link's state. -/
def Fn.wired (f : Fn) : Fn := { Fn.reset f.port with link := f.link }

/-- The links of the ports. -/
def State.wires (s : State) : List Fn := s.fn.map Fn.wired

theorem State.updFn_wires {s : State} {p : Nat} {g : Fn → Fn} (h : ∀ f, (g f).wired = f.wired) : (s.updFn p g).wires = s.wires :=
  List.map_map.trans (List.map_congr_left fun f _ => by
    dsimp only [Function.comp]
    split
    · exact h f
    · rfl)

theorem State.updQueue_wires (s : State) (p q : Nat) (g : EventQueue → EventQueue) : (s.updFn p fun f => f.updQueue q g).wires = s.wires :=
  State.updFn_wires fun _ => rfl

theorem State.pme_wires (s : State) (p : Nat) : (s.pme p).wires = s.wires := by
  unfold State.pme
  split
  · split
    · refine State.updFn_wires (s := s) ?_
      exact fun _ => rfl
    · rfl
  · rfl

theorem State.signal_wires (s : State) (p b v : Nat) : (s.signal p b v).wires = s.wires := by
  unfold State.signal
  split
  · rfl
  · extract_lets s1 masked w
    have h1 : s1.wires = s.wires := State.updFn_wires fun _ => rfl
    split
    · exact h1
    · split
      · split
        · refine (State.updFn_wires (s := s1) ?_).trans h1
          exact fun _ => rfl
        · exact h1
      · split
        · split
          · refine (State.updFn_wires (s := s1) ?_).trans h1
            exact fun _ => rfl
          · exact h1
        · split <;> exact h1

theorem State.pushRecord_wires (s : State) (p q : Nat) (r : Rec) : (s.pushRecord p q r).wires = s.wires := by
  unfold State.pushRecord
  split
  · rfl
  · exact State.updQueue_wires ..

theorem State.endBatch_wires (s : State) (p q : Nat) : (s.endBatch p q).wires = s.wires := by
  unfold State.endBatch
  split
  · rfl
  · extract_lets eq s1 ready
    have h1 : s1.wires = s.wires := by
      unfold s1
      split <;> rfl
    split
    · exact (State.signal_wires ..).trans ((State.updQueue_wires ..).trans h1)
    · exact (State.updQueue_wires ..).trans h1

theorem State.writeTo_wires (s : State) (r : Rec) (x : Recv) : (s.writeTo r x).wires = s.wires := by
  unfold State.writeTo
  split
  · split
    · rfl
    · split
      · exact (State.endBatch_wires ..).trans (State.pushRecord_wires ..)
      · exact (State.pme_wires ..).trans (State.updQueue_wires ..)
  · rfl

/-- A record raised leaves the links (R355). -/
theorem State.raiseAs_wires (s : State) (sc : Scope) (n : Nat) (r : Rec) : (s.raiseAs sc n r).wires = s.wires := by
  unfold State.raiseAs
  split
  · rfl
  · split
    · exact foldl_projection (g := State.wires) (fun t x => State.writeTo_wires ..) _ _
    · rfl

theorem State.closeWindow_wires (s : State) (kind obj : Nat) : (s.closeWindow kind obj).wires = s.wires := by
  unfold State.closeWindow
  split
  · rfl
  · dsimp only
    split
    · rfl
    · exact State.raiseAs_wires ..

theorem State.coalesce_wires (s : State) (kind obj source coll scope : Nat) (b : Bytes) :
    (s.coalesce kind obj source coll scope b).wires = s.wires := by
  unfold State.coalesce
  dsimp only
  split
  · split
    · rfl
    · exact (State.raiseAs_wires ..).trans (State.closeWindow_wires ..)
  · exact State.raiseAs_wires ..

theorem State.bump_wires (s : State) (i j k n : Nat) : (s.bump i j k n).wires = s.wires := by
  rw [State.bump_eq]
  rfl

/-- A state without what the device's bookkeeping changes. -/
def State.bare (s : State) : State :=
  { s with out := [], fresh := 0, fn := s.wires, ev := ⟨[], [], 0⟩, ed := { s.ed with sessions := [] }, doc := ⟨[], []⟩,
           pw := { s.pw with factors := [] }, mem := { s.mem with loanMsgs := [], windows := [], buckets := [] } }

/-- A state without its jobs. -/
def State.jobless (s : State) : State := { s with wb := ⟨[], [], [], []⟩ }

theorem OnlyRecords.bare {s t : State} (h : OnlyRecords s t) (hw : t.wires = s.wires) : t.bare = s.bare := by
  have hed : { t.ed with sessions := [] } = { s.ed with sessions := [] } := congrArg (fun e : EdState => { e with sessions := [] }) h.ed
  unfold State.bare
  rw [hed, hw, h.pending, h.tsc, h.pkg, h.dies, h.mem, h.chans, h.split, h.wb, h.cor, h.pw, h.id]

theorem OnlyNotices.bare {s t : State} (h : OnlyNotices s t) (hw : t.wires = s.wires) : t.bare = s.bare := h.records.bare hw

@[simp] theorem State.send_bare (s : State) (m : Msg) : (s.send m).bare = s.bare := rfl

theorem State.updFn_bare {s : State} {p : Nat} {g : Fn → Fn} (h : ∀ f, (g f).wired = f.wired) : (s.updFn p g).bare = s.bare :=
  congrArg (fun l => { s.bare with fn := l }) (State.updFn_wires h)

@[simp] theorem State.bump_bare (s : State) (i j k n : Nat) : (s.bump i j k n).bare = s.bare := (State.bump_onlyRecords (.refl s)).bare (State.bump_wires ..)

@[simp] theorem State.event_bare (s : State) (sc : Scope) (t u c : Nat) (b : Bytes) : (s.event sc t u c b).bare = s.bare :=
  (State.event_onlyRecords (.refl s)).bare (State.raiseAs_wires ..)

@[simp] theorem State.watermark_bare (s : State) (sc : Scope) (t u c : Nat) (x : Bool) (b : Bytes) :
    (s.watermark sc t u c x b).bare = s.bare :=
  (State.watermark_onlyRecords (.refl s)).bare (State.raiseAs_wires ..)

@[simp] theorem State.coalesce_bare (s : State) (k o u c n : Nat) (b : Bytes) : (s.coalesce k o u c n b).bare = s.bare :=
  (State.coalesce_onlyNotices ..).bare (State.coalesce_wires ..)

@[simp] theorem State.coalesceC_bare (s : State) (k u c : Nat) (b : Bytes) : (s.coalesceC k u c b).bare = s.bare :=
  State.coalesce_bare ..

@[simp] theorem State.queueTrigger_bare (s : State) (die code arg : Nat) (target : Option Nat) :
    (s.queueTrigger die code arg target).bare = s.bare := by
  unfold State.queueTrigger
  dsimp only
  split <;> rfl

@[simp] theorem State.settleBuckets_bare (s : State) : s.settleBuckets.bare = s.bare := rfl

@[simp] theorem State.setFactor_bare (s : State) (w : Nat) (depot : Bool) (k : Nat) (v : Rat) : (s.setFactor w depot k v).bare = s.bare := by
  unfold State.setFactor
  dsimp only
  split
  · rfl
  · rw [State.bump_bare, State.watermark_bare]
    rfl

/-- The factors a Wing's channels leave it (R405, R406) change the factors, the meters and the records alone. -/
@[simp] theorem State.rederive_bare (s : State) (w : Nat) : (s.rederive w).bare = s.bare :=
  (foldl_projection (fun t _ => foldl_projection (fun u _ => State.setFactor_bare u w _ _ _) _ t) _ _).trans s.settleBuckets_bare

@[simp] theorem State.updEngine_bare (s : State) (p i : Nat) (f : Engine → Engine) : (s.updEngine p i f).bare = s.bare :=
  State.updFn_bare fun _ => rfl

@[simp] theorem State.hostReadReq_bare (s : State) (p e : Nat) (fetch : Bool) (a n d : Nat) (ro : Bool) :
    (s.hostReadReq p e fetch a n d ro).bare = s.bare := by
  unfold State.hostReadReq
  split
  · rfl
  · refine (State.updFn_bare ?_).trans (State.send_bare ..)
    exact fun _ => rfl

@[simp] theorem State.fetchNext_bare (s : State) (p i : Nat) : (s.fetchNext p i).bare = s.bare := by
  unfold State.fetchNext
  split
  · split
    · rw [State.updEngine_bare, State.hostReadReq_bare]
    · rfl
  · rfl

@[simp] theorem State.finishDesc_bare (s : State) (p i status n : Nat) : (s.finishDesc p i status n).bare = s.bare := by
  unfold State.finishDesc
  split
  · rfl
  · split
    · rfl
    · dsimp only
      split
      · rw [State.updEngine_bare]
        split
        · rw [State.event_bare, State.send_bare]
        · rfl
      · rw [State.fetchNext_bare, State.updEngine_bare]
        split
        · rw [State.event_bare, State.send_bare]
        · rfl

@[simp] theorem State.lineMoved_bare (s : State) (p i : Nat) (poison : Bool) : (s.lineMoved p i poison).bare = s.bare := by
  unfold State.lineMoved
  dsimp only
  split
  · rw [State.bump_bare, State.updEngine_bare]
  · split
    · rw [State.bump_bare, State.updEngine_bare]
    · split
      · rw [State.finishDesc_bare, State.bump_bare, State.updEngine_bare]
      · rw [State.bump_bare, State.updEngine_bare]

/-- A waiting write that completes is answered; the jobs and the storage stay (R32, R313). -/
@[simp] theorem State.completeWrite_bare (s : State) (who : Waiter) : (s.completeWrite who).bare = s.bare := by
  unfold State.completeWrite
  split
  · split <;> rfl
  · exact State.lineMoved_bare ..
  · rfl
  · rfl

theorem State.giveLine_jobless (s : State) (n o off : Nat) (d : Bytes) (poison : Bool) :
    (s.giveLine n o off d poison).jobless = s.jobless := by
  unfold State.giveLine
  split <;> rfl

/-- A waiting read that is answered reaches its requester alone: a port, a job, a Mover, or a borrower (R26, R164). -/
@[simp] theorem State.answer_bare (s : State) (who : Waiter) (c line : Nat) (d : Bytes) (poison : Bool) :
    (s.answer who c line d poison).bare.jobless = s.bare.jobless := by
  unfold State.answer
  split
  · split
    · rw [State.bump_bare, State.send_bare]
    · rfl
  · exact congrArg State.bare (State.giveLine_jobless ..)
  · split
    · split
      · split
        · rw [State.lineMoved_bare, State.send_bare]
        · rfl
      · rfl
    · rfl
  · rfl

theorem chans_of_bare {s t : State} (h : t.bare.jobless = s.bare.jobless) : t.chans = s.chans :=
  congrArg (fun u => u.chans) h

theorem dram_of_bare {s t : State} (h : t.bare.jobless = s.bare.jobless) : t.mem.dram = s.mem.dram :=
  congrArg (fun u => u.mem.dram) h

theorem reads_of_bare {s t : State} (h : t.bare.jobless = s.bare.jobless) : t.mem.reads = s.mem.reads :=
  congrArg (fun u => u.mem.reads) h

theorem bare_chans {s t : State} (h : t.bare = s.bare) : t.chans = s.chans := congrArg (fun u => u.chans) h

theorem bare_dies {s t : State} (h : t.bare = s.bare) : t.dies = s.dies := congrArg (fun u => u.dies) h

theorem bare_mem {s t : State} (h : t.bare = s.bare) :
    t.mem = { s.mem with loanMsgs := t.mem.loanMsgs, windows := t.mem.windows, buckets := t.mem.buckets } :=
  congrArg (fun u => { u.mem with loanMsgs := t.mem.loanMsgs, windows := t.mem.windows, buckets := t.mem.buckets }) h

theorem bare_pw {s t : State} (h : t.bare = s.bare) : t.pw = { s.pw with factors := t.pw.factors } :=
  congrArg (fun u => { u.pw with factors := t.pw.factors }) h

/-! The freeze. -/

theorem State.chan?_key {s : State} {w sel : Nat} {c : Chan} (h : s.chan? w sel = some c) : c.wing = w ∧ c.sel = sel := by
  simpa using List.find?_some h

theorem State.partnerHolds_of_reserve {s : State} {w sel : Nat} {c : Chan} (hc : s.chan? w sel = some c) (h : s.reserveHeld w sel = true) :
    s.partnerHolds c = true := by
  obtain ⟨hw, hs⟩ := State.chan?_key hc
  unfold State.partnerHolds
  rw [hw, hs, h]
  rfl

/-- The channel as its freeze leaves it (R263-R265). -/
def Chan.frozen (c : Chan) (tsc trigger : Nat) (record : Bytes) : Chan :=
  { c.noteRank tsc 0 3 with
    st := 3, trigger := trigger, freezes := (c.freezes + 1) % 65536, progress := 0, selfRefresh := true, record := some record,
    postponed := [], poweredDown := [], pendingBand := none, rows := [], flip := { c.flip with ctl := putBit c.flip.ctl 0 false },
    wq := [], drain := false }

/-- The channels and the lines as a freeze leaves them; no byte is stored. -/
theorem State.holdLines_frozen {s : State} {w sel trigger : Nat} {record : Bytes} {c : Chan} (hc : s.chan? w sel = some c) {n : Nat} :
    let u := ((({ s with fresh := n } : State).holdLines w sel).updChan w sel fun c =>
        { c.noteRank (s.dieTsc (wingDie w)) 0 3 with
                 st := 3, trigger := trigger, freezes := (c.freezes + 1) % 65536, progress := 0, selfRefresh := true,
                 record := some record, postponed := [], poweredDown := [], pendingBand := none, rows := [],
                 flip := { c.flip with ctl := putBit c.flip.ctl 0 false } })
    u.chan? w sel = some (c.frozen (s.dieTsc (wingDie w)) trigger record) ∧ u.mem.dram = s.mem.dram ∧ u.mem.reads = s.mem.reads := by
  refine ⟨?_, rfl, rfl⟩
  have h1 : (({ s with fresh := n } : State).holdLines w sel).chan? w sel = some { c with wq := [], drain := false } :=
    State.chan?_updChan_of (f := fun c => { c with wq := [], drain := false }) hc fun _ => ⟨rfl, rfl⟩
  exact State.chan?_updChan_of h1 fun _ => ⟨rfl, rfl⟩

/-- A channel that freezes, its partner holding the reserve (R263, R264). -/
theorem State.freeze_froze {s : State} {w sel : Nat} {c : Chan} (trigger retries : Nat) (hc : s.chan? w sel = some c)
    (h0 : c.st ≠ 0) (h3 : c.st ≠ 3) (h6 : c.st ≠ 6) (hup : s.wingUp w = true) (hr : s.reserveHeld w sel = true) :
    froze s (s.freeze w sel trigger retries) w sel trigger c := by
  unfold State.freeze
  rw [hc]
  dsimp -zeta only
  rw [if_neg (by simp [h0, h3, h6, hup])]
  extract_lets hit record gone s1 s2 s3 s4 s5 again s6 s7 policy s8 s9
  rw [if_pos (State.partnerHolds_of_reserve hc hr)]
  obtain ⟨hz, hd, hreads⟩ : s1.chan? w sel = _ ∧ s1.mem.dram = s.mem.dram ∧ s1.mem.reads = s.mem.reads := State.holdLines_frozen hc
  have h2 : s2.bare = s1.bare := by rw [State.event_bare, State.bump_bare]
  have h4 : s4.bare.jobless = s3.bare.jobless := foldl_projection (g := fun u => u.bare.jobless) (fun t r => State.answer_bare t r.waiter r.coll r.line _ _) hit s3
  have h5 : s5.bare = (s4.updMem fun m => { m with moves := m.moves.filter fun x => !gone.contains x }).bare :=
    foldl_projection (fun t m => State.coalesceC_bare t _ _ m.coll _) gone _
  have h6 : s6.bare = s5.bare := by
    unfold s6
    split
    · exact State.event_bare ..
    · rfl
  have h8 : s8.bare = s7.bare := by
    unfold s8
    split
    · rfl
    · exact State.queueTrigger_bare ..
  have h9 : s9.bare = s5.bare := by rw [State.rederive_bare, h8, State.queueTrigger_bare, h6]
  have h95 : s9.bare.jobless = (s4.updMem fun m => { m with moves := m.moves.filter fun x => !gone.contains x }).bare.jobless :=
    congrArg State.jobless (h9.trans h5)
  have h2j : s2.bare.jobless = s1.bare.jobless := congrArg State.jobless h2
  have h3 : s3 = s2.updMem fun m => { m with reads := m.reads.filter fun r => !hit.contains r } := rfl
  clear_value s9 s8 s7 s6 s5 s4 s3 s2 s1
  subst h3
  have hch : s9.chans = s1.chans := calc
    s9.chans = s4.chans := (chans_of_bare h95 :)
    _ = s2.chans := (chans_of_bare h4 :)
    _ = s1.chans := (chans_of_bare h2j :)
  have hdr : s9.mem.dram = s.mem.dram := calc
    s9.mem.dram = s4.mem.dram := (dram_of_bare h95 :)
    _ = s2.mem.dram := (dram_of_bare h4 :)
    _ = s1.mem.dram := (dram_of_bare h2j :)
    _ = s.mem.dram := hd
  have hrd : s9.mem.reads = s2.mem.reads.filter fun r => !hit.contains r := calc
    s9.mem.reads = s4.mem.reads := (reads_of_bare h95 :)
    _ = s2.mem.reads.filter fun r => !hit.contains r := (reads_of_bare h4 :)
  have hr2 : s2.mem.reads = s.mem.reads := (reads_of_bare h2j).trans hreads
  refine ⟨_, (State.chan?_chans hch w sel).trans hz, rfl, rfl, rfl, rfl, bitSet_putBit_false .., rfl, hdr, ?_⟩
  intro r hrm hon
  have hr3 : r ∈ s2.mem.reads.filter fun r => !hit.contains r := hrd ▸ hrm
  rw [hr2] at hr3
  obtain ⟨hr1, hno⟩ := List.mem_filter.mp hr3
  have hrh : r ∈ hit := List.mem_filter.mpr ⟨hr1, by simp [hon]⟩
  simp [hrh] at hno

theorem Chan.st_of_refreshes {c : Chan} (h : c.refreshes = true) : c.st ≠ 0 ∧ c.st ≠ 3 ∧ c.st ≠ 6 := by
  unfold Chan.refreshes at h
  refine ⟨?_, ?_, ?_⟩ <;> (intro hst; rw [hst] at h; exact absurd h (by decide))

/-- CA parity and write CRC alerts and Gallery parity errors (R263, R264). -/
theorem alertsFreeze : AlertsFreeze := by
  intro s w sel n c hc hup hf hr
  obtain ⟨h0, h3, h6⟩ := Chan.st_of_refreshes hf
  have hb : ∀ sub m trigger k, froze s ((s.bump 0x2804 sub (chanObj w sel) m).freeze w sel trigger k) w sel trigger c :=
    fun sub m trigger k => by
      have hf := State.freeze_froze (s := s.bump 0x2804 sub (chanObj w sel) m) trigger k
        ((State.chan?_chans (State.bump_chans ..) w sel).trans hc) h0 h3 h6 (by
          rw [State.bump_eq]
          exact hup) (by
          rw [State.bump_eq]
          exact hr)
      unfold froze at hf ⊢
      rwa [State.bump_mem] at hf
  have ha : ∀ sub trigger m, isDepot sel = true → s.alert w sel sub trigger m =
      if 3 ≤ m then (s.bump 0x2804 sub (chanObj w sel) (min 3 (m + 1))).freeze w sel trigger (min 3 (m + 1))
      else s.bump 0x2804 sub (chanObj w sel) (min 3 (m + 1)) := fun sub trigger m hd => by
    unfold State.alert
    rw [hc]
    dsimp only
    rw [if_neg (by simp [hd, hf, hup])]
  have hx1 : exec (.caParityAlert w sel n) s = .next (s.alert w sel 1 1 n) := rfl
  have hx2 : exec (.writeCrcAlert w sel n) s = .next (s.alert w sel 2 2 n) := rfl
  refine ⟨fun hd hn => ?_, fun hd hn => ?_, fun hd => ?_⟩
  · rw [hx1, hx2, ha _ _ _ hd, ha _ _ _ hd, if_neg (by omega), if_neg (by omega), Nat.min_eq_right (by omega)]
    exact ⟨rfl, rfl⟩
  · rw [hx1, hx2, ha _ _ _ hd, ha _ _ _ hd, if_pos hn, if_pos hn]
    exact ⟨⟨_, rfl, hb ..⟩, ⟨_, rfl, hb ..⟩⟩
  · have hx : exec (.galleryParityError w sel) s = execGalleryParityError w sel s := rfl
    rw [hx]
    unfold execGalleryParityError
    rw [hc]
    dsimp only
    rw [if_neg (by simp [hd, hf])]
    exact ⟨_, rfl, State.freeze_froze 3 0 hc h0 h3 h6 hup hr⟩

/-- A frozen, retired or absent channel (R263, R267, R268). -/
theorem frozenStaysAsItIs : FrozenStaysAsItIs := by
  intro s w sel c hc hst
  refine ⟨?_, ?_, ?_⟩
  · have hx : exec (.galleryParityError w sel) s = execGalleryParityError w sel s := rfl
    have hf : c.refreshes = false := by
      unfold Chan.refreshes
      rcases hst with h | h | h <;> rw [h] <;> rfl
    rw [hx]
    unfold execGalleryParityError
    rw [hc]
    dsimp only
    rw [if_pos (by simp [hf])]
  · have hx : exec (.channelFlip w sel) s = execChannelFlip w sel s := rfl
    rw [hx]
    unfold execChannelFlip
    rw [hc]
    dsimp only
    rw [if_neg (by rintro ⟨h, -⟩; omega)]
  · have hx : exec (.evacuationComplete w sel) s = execEvacuationComplete w sel s := rfl
    rw [hx]
    unfold execEvacuationComplete
    rw [hc]
    dsimp only
    rw [if_neg (by rintro ⟨h, -⟩; omega)]

/-- Settles O23: a freeze leaves its channel frozen and its waiting reads answered, by the frame of the device's bookkeeping. -/
theorem channelsFreeze : Obligations.ChannelsFreeze := ⟨alertsFreeze, frozenStaysAsItIs⟩

end Sys2Proof.Machine
end

section
/-! PROOF. A channel returns to service or retires, and a frequency change ends (R261, R267, R268): O24. -/

namespace Sys2Proof.Machine

open Sys2Proof.Claims

/-! The end of a frequency change. -/

theorem mem_of_map_eq {α β : Type} {g : α → β} {l k : List α} (h : k.map g = l.map g) {y : α} (hy : y ∈ k) : ∃ x ∈ l, g x = g y :=
  List.mem_map.mp (h ▸ List.mem_map_of_mem hy)

/-- A change of some channels that leaves their queues. -/
theorem Dry.updChans {s : State} {p : Chan → Bool} {f : Chan → Chan} (h : ∀ c, (f c).wq = c.wq) :
    Dry s { s with chans := updWhere p f s.chans } := by
  refine ⟨fun d x hx => ?_, fun _ => rfl, fun _ => rfl⟩
  obtain ⟨c, hc, hcx⟩ := List.mem_map.mp hx
  split at hcx
  · exact hcx ▸ (h c).trans (d c hc)
  · exact hcx ▸ d c hc

theorem State.startFreq_dry (s : State) : Dry s s.startFreq := Dry.updChans fun _ => rfl

theorem State.endFreq_dry (s : State) (w : Nat) : Dry s (s.endFreq w) := by
  unfold State.endFreq
  dsimp only
  split
  · exact Dry.trans (b := { s with pw := { s.pw with freqChange := s.pw.freqChange.filter (·.1 != w) } }) (.of_eq rfl rfl rfl)
      (State.startFreq_dry _)
  · exact .of_eq rfl rfl rfl

/-- The end of a Wing's turn in an order of frequency changes touches no channel's place or state, no entry, and the order alone of
the power (R261). -/
theorem State.endFreq_spec (s : State) (w : Nat) :
    (s.endFreq w).mem = s.mem ∧ (s.endFreq w).pw.freqChange = s.pw.freqChange.filter (·.1 != w) ∧
      (s.endFreq w).chans.map (fun c => (c.wing, c.sel, c.st)) = s.chans.map (fun c => (c.wing, c.sel, c.st)) := by
  unfold State.endFreq
  dsimp only
  split
  · exact ⟨rfl, rfl, updWhere_map fun _ => rfl⟩
  · exact ⟨rfl, rfl, rfl⟩

/-- The queues of a Wing's channels go on. -/
theorem State.pumps_spec (s : State) (w : Nat) (l : List Chan) :
    (l.foldl (fun t c => t.pump w c.sel) s).unworked = s.unworked ∧ Dry s (l.foldl (fun t c => t.pump w c.sel) s) :=
  ⟨foldl_projection (fun t (c : Chan) => State.pump_unworked t w c.sel) l s, .foldl (fun t (c : Chan) => State.pump_dry t w c.sel) l s⟩

/-- DEPOT_FREQUENCY_CHANGE_DONE (R261). -/
theorem frequencyChangeEnds : FrequencyChangeEnds := by
  intro s w f hf
  obtain ⟨hm0, hp0, hc0⟩ := s.settleBuckets.endFreq_spec w
  have hd0 := s.settleBuckets.endFreq_dry w
  have hx : exec (.depotFrequencyChangeDone w) s = execDepotFrequencyChangeDone w s := rfl
  rw [hx]
  unfold execDepotFrequencyChangeDone
  rw [hf]
  dsimp -zeta only
  rw [if_neg (by simp)]
  extract_lets s0 s1
  obtain ⟨hp, hd⟩ := s1.pumps_spec w (s1.chans.filter fun c => c.wing == w && isDepot c.sel)
  generalize (s1.chans.filter fun c => c.wing == w && isDepot c.sel).foldl (fun t c => t.pump w c.sel) s1 = u at hp hd ⊢
  have hr := u.rederive_bare w
  generalize u.rederive w = t at hr ⊢
  have hst := chans_of_unworked hp
  have hrch : t.chans = u.chans := bare_chans hr
  refine ⟨_, rfl, fun x hx => ?_, fun hdr => ?_, ?_, fun c hc => ?_, ?_⟩
  · have h1 : t.pw.freqChange = s0.pw.freqChange :=
      (congrArg PwState.freqChange (bare_pw hr)).trans (congrArg (fun t => t.pw.freqChange) (eq_of_unworked hp))
    rw [h1, hp0] at hx
    simpa using (List.mem_filter.mp hx).2
  · have hd1 : Dry s0 s1 := Dry.updChans fun _ => rfl
    exact (congrArg MemState.dram (bare_mem hr)).trans (((hd0.trans hd1).trans hd).dram hdr)
  · calc
      t.mem.cat = u.mem.cat := (congrArg MemState.cat (bare_mem hr) :)
      _ = s0.mem.cat := (congrArg MemState.cat (mem_of_unworked hp) :)
      _ = s.mem.cat := (congrArg MemState.cat hm0 :)
  · intro hw hdp h0 h3 h6
    rw [hrch] at hc
    obtain ⟨y, hy, hyc⟩ := mem_of_map_eq hst hc
    obtain ⟨z, -, hz⟩ := List.mem_map.mp hy
    have hkey : (y.wing, y.sel, y.st, y.fset) = (c.wing, c.sel, c.st, c.fset) :=
      (congrArg (fun x : Chan => (x.wing, x.sel, x.st, x.fset)) hyc :)
    simp only [Prod.mk.injEq] at hkey
    obtain ⟨k1, k2, k3, k4⟩ := hkey
    rw [← k4]
    split at hz
    · rw [← hz]
    next hno =>
      subst hz
      exact absurd (by simp [k1, k2, k3, hw, hdp, h0, h3, h6]) hno
  · have h1 : u.chans.map (fun c => (c.wing, c.sel, c.st)) = s1.chans.map (fun c => (c.wing, c.sel, c.st)) := by
      have := congrArg (List.map fun x : Chan => (x.wing, x.sel, x.st)) hst
      rwa [List.map_map, List.map_map] at this
    rw [hrch, h1]
    exact Eq.trans (updWhere_map fun _ => rfl) hc0

/-! A re-entry's pass over its channel. -/

/-- From `a` to `s` the channels are the same with their epochs, the forks stand, and no line has come into the cache. -/
structure Swept (a s : State) : Prop where
  chans : s.chans.map (fun c => (c.wing, c.sel, c.epoch)) = a.chans.map fun c => (c.wing, c.sel, c.epoch)
  forks : s.mem.forks = a.mem.forks
  cache : ∀ l ∈ s.mem.cache, l ∈ a.mem.cache

theorem Swept.refl (s : State) : Swept s s := ⟨rfl, rfl, fun _ h => h⟩

theorem Swept.trans {a b c : State} (h : Swept a b) (k : Swept b c) : Swept a c :=
  ⟨k.chans.trans h.chans, k.forks.trans h.forks, fun l hl => h.cache l (k.cache l hl)⟩

theorem Swept.foldl {α : Type} {f : State → α → State} (h : ∀ s x, Swept s (f s x)) (l : List α) (s : State) : Swept s (l.foldl f s) := by
  induction l generalizing s with
  | nil => exact .refl s
  | cons x l ih => exact (h s x).trans (ih _)

theorem Swept.of_bare {s t : State} (h : t.bare = s.bare) : Swept s t :=
  ⟨by rw [bare_chans h], (congrArg MemState.forks (bare_mem h) :), fun l hl => (congrArg MemState.cache (bare_mem h) :) ▸ hl⟩

theorem State.updChan_swept (s : State) (w sel : Nat) {f : Chan → Chan} (h : ∀ c, ((f c).wing, (f c).sel, (f c).epoch) = (c.wing, c.sel, c.epoch)) :
    Swept s (s.updChan w sel f) :=
  ⟨updWhere_map h, rfl, fun _ h => h⟩

theorem State.noteAccess_swept (s : State) (w sel a k : Nat) : Swept s (s.noteAccess w sel a k) := by
  unfold State.noteAccess
  exact State.updChan_swept s w sel fun _ => rfl

theorem State.setRawLine_swept (s : State) (w sel a : Nat) (d k : Bytes) : Swept s (s.setRawLine w sel a d k) := by
  unfold State.setRawLine
  refine Swept.trans ?_ (State.noteAccess_swept ..)
  exact ⟨rfl, rfl, fun _ h => h⟩

theorem State.dropLines_swept (s : State) (p : CacheLine → Bool) : Swept s (s.dropLines p) := ⟨rfl, rfl, fun _ h => (List.mem_filter.mp h).1⟩

theorem State.releaseQueued_swept (s : State) (w c blk : Nat) : Swept s (s.releaseQueued w c blk) := by
  unfold State.releaseQueued
  split
  · exact .refl s
  · exact ⟨rfl, rfl, fun _ h => (List.mem_filter.mp h).1⟩

theorem State.issueWrite_swept (s : State) (w sel : Nat) (q : QWrite) : Swept s (s.issueWrite w sel q) := by
  unfold State.issueWrite
  extract_lets s1 s2
  have h1 : Swept s s1 := State.updChan_swept s w sel fun _ => rfl
  have h : Swept s s2 := h1.trans (s1.setRawLine_swept ..)
  split
  · exact h.trans (State.releaseQueued_swept ..)
  · exact h

theorem State.issueWrites_swept (s : State) (w sel : Nat) (l : List QWrite) : Swept s (s.issueWrites w sel l) := by
  unfold State.issueWrites
  split
  · exact .refl s
  · exact .foldl (fun s q => State.issueWrite_swept s w sel q) l s

theorem State.forceBank_swept (s : State) (w sel a : Nat) : Swept s (s.forceBank w sel a) := by
  unfold State.forceBank
  dsimp only
  split
  · exact .refl s
  · split
    · exact .refl s
    · refine Swept.trans ?_ (State.issueWrites_swept ..)
      exact ⟨rfl, rfl, fun _ h => h⟩

theorem State.queueWrite_swept (s : State) (w sel a : Nat) (d k : Bytes) (c cls : Nat) (blk : Option Nat) :
    Swept s (s.queueWrite w sel a d k c cls blk) := by
  unfold State.queueWrite
  extract_lets s1 busy
  have h1 : Swept s s1 := s.issueWrites_swept w sel _
  split
  · exact h1.trans (State.setRawLine_swept ..)
  · refine h1.trans ?_
    refine Swept.trans (b := ({ s1 with fresh := s1.fresh + 1 } : State)) ⟨rfl, rfl, fun _ h => h⟩ ?_
    refine (State.updChan_swept _ w sel ?_).trans (State.updChan_swept _ w sel fun _ => rfl)
    intro c
    split <;> rfl

theorem State.decodeAt_swept (s : State) (w sel a : Nat) (owner : Option (Nat × Nat)) : Swept s (s.decodeAt w sel a owner).1 := by
  unfold State.decodeAt
  extract_lets s1 l d o
  have h1 : Swept s s1 := (s.forceBank_swept w sel a).trans (State.noteAccess_swept ..)
  split
  · exact h1
  · exact (h1.trans (.of_bare (State.bump_bare ..))).trans (State.updChan_swept _ w sel fun _ => rfl)
  · exact h1.trans (.of_bare (State.bump_bare ..))
  · exact h1.trans (.of_bare ((State.coalesce_bare ..).trans (State.bump_bare ..)))

theorem State.readLine_swept (s : State) (w sel a : Nat) (owner : Option (Nat × Nat)) : Swept s (s.readLine w sel a owner).1 := by
  unfold State.readLine
  dsimp only
  split
  · exact .refl s
  · split <;> exact s.decodeAt_swept w sel a owner

theorem State.docStore_swept (s : State) (w sel a : Nat) (d : Bytes) (poison : Bool) : Swept s (s.docStore w sel a d poison) :=
  (State.queueWrite_swept ..).trans (State.dropLines_swept ..)

theorem State.scrubLine_swept (s : State) (w sel a : Nat) : Swept s (s.scrubLine w sel a).1 := by
  have hr := s.decodeAt_swept w sel a (s.ownerOf w sel a)
  unfold State.scrubLine
  extract_lets r
  have hs : ∀ d poison, Swept s ((r.1.docStore w sel a d poison).bump 0x2801 4 (chanObj w sel) 1) := fun d poison =>
    (hr.trans (State.docStore_swept ..)).trans (.of_bare (State.bump_bare ..))
  split
  · split
    · exact (hs ..).trans (.of_bare ((State.coalesce_bare ..).trans (State.bump_bare ..)))
    · exact hs ..
  · exact hs ..
  · exact hr

theorem State.docAccess_swept {α : Type} {f : State → State × α} (hf : ∀ s, Swept s (f s).1) (s : State) : Swept s (s.docAccess f).1 := by
  unfold State.docAccess
  extract_lets open_ saved r
  have h1 : Swept s ({ s with chans := updWhere open_ (fun c => { c with st := 2 }) s.chans } : State) :=
    ⟨updWhere_map fun _ => rfl, rfl, fun _ h => h⟩
  refine (h1.trans (hf _)).trans ⟨?_, rfl, fun _ h => h⟩
  rw [List.map_map]
  refine List.map_congr_left fun c _ => ?_
  rw [Function.comp_apply]
  split <;> rfl

theorem State.fillChannel_swept (s : State) (w sel : Nat) : Swept s (s.fillChannel w sel) := by
  unfold State.fillChannel State.fillLines
  have h1 : Swept s (s.forceChan w sel) := s.issueWrites_swept w sel _
  refine Swept.trans ?_ (State.dropLines_swept ..)
  exact h1.trans ⟨rfl, rfl, fun _ h => h⟩

theorem State.copyReserve_swept (s : State) (w sel : Nat) : Swept s (s.copyReserve w sel) := by
  unfold State.copyReserve
  dsimp only
  split
  · exact .refl s
  · exact .foldl (fun s a => (s.readLine_swept w (sel ^^^ 1) a none).trans (State.docStore_swept ..)) _ s

/-- A re-entry's pass (R267 step 3) keeps the channels' epochs, brings no line into the cache, and leaves the forks. -/
theorem State.reentryPass_swept (s : State) (w sel first upto : Nat) : Swept s (s.reentryPass w sel first upto) := by
  unfold State.reentryPass
  extract_lets mirrored upto s1 s2
  have h1 : Swept s s1 := by
    unfold s1
    split
    · exact .foldl (fun s a => State.docAccess_swept (fun t => t.scrubLine_swept w sel a) s) _ s
    · split
      · exact s.fillChannel_swept w sel
      · exact .refl s
  have h2 : Swept s s2 := by
    unfold s2
    split
    · exact h1.trans (State.copyReserve_swept ..)
    · exact h1
  exact h2.trans (State.updChan_swept _ w sel fun _ => rfl)

/-- With no line held there is nothing to write back once the channel serves (R264). -/
theorem State.releaseHeld_none {s : State} (h : ∀ l ∈ s.mem.cache, l.held = false) (w : Nat) : s.releaseHeld w = s := by
  have hf : (s.mem.cache.filter fun l => l.wing == w && l.held && !s.stuck (s.entry l.coll w (l.line / 64))) = [] :=
    List.filter_eq_nil_iff.mpr fun l hl => by simp [h l hl]
  unfold State.releaseHeld
  rw [hf]
  have hm : updWhere (fun l => ([] : List CacheLine).contains l) (fun l => { l with held := false }) s.mem.cache = s.mem.cache :=
    (List.map_congr_left fun l _ => rfl).trans (List.map_id _)
  dsimp only [State.updMem]
  rw [hm]
  rfl

/-- No fork waits for the Wing (R156). -/
theorem State.resumeForks_none {s : State} {w : Nat} (h : ∀ f ∈ s.mem.forks, w ∉ f.waits) : s.resumeForks w = s := by
  unfold State.resumeForks
  rw [List.filter_eq_nil_iff.mpr fun f hf => by simp [h f hf]]
  rfl

theorem chan?_of_keys {s t : State} (h : t.chans.map (fun c => (c.wing, c.sel, c.epoch)) = s.chans.map fun c => (c.wing, c.sel, c.epoch))
    {w sel : Nat} {c : Chan} (hc : s.chan? w sel = some c) : ∃ z, t.chan? w sel = some z ∧ z.epoch = c.epoch := by
  have hm : (t.chan? w sel).map (fun c => (c.wing, c.sel, c.epoch)) = (s.chan? w sel).map fun c => (c.wing, c.sel, c.epoch) :=
    find?_of_map (fun x y hxy => by
      simp only [Prod.mk.injEq] at hxy
      rw [hxy.1, hxy.2.1]) h
  rw [hc] at hm
  obtain ⟨z, hz, hk⟩ := Option.map_eq_some_iff.mp hm
  exact ⟨z, hz, congrArg (fun k => k.2.2) hk⟩

/-- CHANNEL_FLIP and EVACUATION_COMPLETE (R267, R268). -/
theorem reentryAndRetirement : ReentryAndRetirement := by
  intro s w sel c hc hup hacc hch hheld hforks
  refine ⟨fun hst => ?_, fun hst hno => ?_⟩
  · have hx : exec (.channelFlip w sel) s = execChannelFlip w sel s := rfl
    rw [hx]
    unfold execChannelFlip
    rw [hc]
    dsimp only
    rw [if_pos (by simp [hst, hup, hacc, hch])]
    unfold State.flipChannel
    rw [hc]
    extract_lets from_ s1
    have hp := s.reentryPass_swept w sel from_ (s.chanLines (isDepot sel))
    obtain ⟨z, hz, hez⟩ := chan?_of_keys hp.chans hc
    have hz1 : s1.chan? w sel = some _ := State.chan?_updChan_of hz fun _ => ⟨rfl, rfl⟩
    have hfk : ∀ f ∈ s1.mem.forks, w ∉ f.waits := fun f hf => hforks f (hp.forks ▸ hf)
    have hrel : s1.releaseHeld w = s1 := State.releaseHeld_none (s := s1) (fun l hl => hheld l (hp.cache l hl)) w
    clear_value s1
    rw [hrel]
    have hr := s1.rederive_bare w
    rw [State.resumeForks_none fun f hf => hfk f ((congrArg MemState.forks (bare_mem hr) :) ▸ hf)]
    exact ⟨_, _, rfl, (State.chan?_chans (bare_chans hr) w sel).trans hz1, rfl, by rw [← hez], rfl, rfl, rfl⟩
  · have hx : exec (.evacuationComplete w sel) s = execEvacuationComplete w sel s := rfl
    rw [hx]
    unfold execEvacuationComplete
    rw [hc]
    dsimp only
    rw [if_pos (by simp [hst, hup, hacc, hch])]
    have hruns : s.runsOnChan w sel = [] := by
      unfold State.runsOnChan
      rw [hno]
      rfl
    unfold State.endEvacuation
    rw [hruns]
    dsimp only [List.foldl_nil]
    rw [hno, List.length_nil, if_pos rfl]
    have hz := State.chan?_updChan_of (f := fun c => { c with st := 6, trigger := 0, record := none, progress := 0 }) hc fun _ => ⟨rfl, rfl⟩
    have hfk : ∀ f ∈ (s.updChan w sel fun c => { c with st := 6, trigger := 0, record := none, progress := 0 }).mem.forks, w ∉ f.waits := hforks
    have hdr : (s.updChan w sel fun c => { c with st := 6, trigger := 0, record := none, progress := 0 }).mem.dram = s.mem.dram := rfl
    generalize (s.updChan w sel fun c => { c with st := 6, trigger := 0, record := none, progress := 0 }) = u at hz hfk hdr ⊢
    have hr := u.rederive_bare w
    rw [State.resumeForks_none fun f hf => hfk f ((congrArg MemState.forks (bare_mem hr) :) ▸ hf)]
    exact ⟨_, _, rfl, (State.chan?_chans (bare_chans hr) w sel).trans hz, rfl, rfl, rfl, (congrArg MemState.dram (bare_mem hr) :).trans hdr⟩

/-- Settles O24: a re-entry's pass keeps the channels' epochs and brings nothing into the cache, and a frequency change's end lets the
queues go on. -/
theorem channelsReturn : Obligations.ChannelsReturn := ⟨reentryAndRetirement, frequencyChangeEnds⟩

end Sys2Proof.Machine
end

section
/-! PROOF. What the memory path can change, one equation per operation: it leaves the time, the package, the editions, the jobs, the
Corridor, the power, the commands, the dies but for a cache tag's fault, and the channels but for their queues and counts. -/

namespace Sys2Proof.Machine

open Sys2Proof.Claims

/-- A die without the fault of its Wing's cache tags. -/
def Die.tagless (d : Die) : Die := { d with tagFault := false }

/-- A channel without what a read or a store of a line changes of it. -/
def Chan.placed (c : Chan) : Chan := { c.standing with flip := ⟨0, 0, 0, 0⟩, winCorrected := 0 }

/-- A state without what the memory path changes. -/
def State.lasting (s : State) : State :=
  { s with dies := s.dies.map Die.tagless, chans := s.chans.map Chan.placed,
           mem := { s.mem with dram := [], cat := [], deferred := [], cache := [], wmb := [], reads := s.mem.reads.map PendRead.request,
                               writes := [], lots := [], colls := [], seqs := [] } }

/-- A state without what the memory path and the device's bookkeeping change. -/
def State.core (s : State) : State := s.bare.lasting

theorem core_of_bare {s t : State} (h : t.bare = s.bare) : t.core = s.core := congrArg State.lasting h

@[simp] theorem State.bump_core (s : State) (i j k n : Nat) : (s.bump i j k n).core = s.core := core_of_bare (by simp)

@[simp] theorem State.event_core (s : State) (sc : Scope) (t u c : Nat) (b : Bytes) : (s.event sc t u c b).core = s.core :=
  core_of_bare (by simp)

@[simp] theorem State.watermark_core (s : State) (sc : Scope) (t u c : Nat) (x : Bool) (b : Bytes) :
    (s.watermark sc t u c x b).core = s.core :=
  core_of_bare (by simp)

@[simp] theorem State.coalesceC_core (s : State) (k u c : Nat) (b : Bytes) : (s.coalesceC k u c b).core = s.core :=
  core_of_bare (by simp)

@[simp] theorem State.completeWrite_core (s : State) (who : Waiter) : (s.completeWrite who).core = s.core := core_of_bare (by simp)

theorem core_unworked (s : State) : s.unworked.core = s.core := by
  have hc : (s.chans.map Chan.standing).map Chan.placed = s.chans.map Chan.placed := List.map_map
  have hr : (s.mem.reads.map PendRead.request).map PendRead.request = s.mem.reads.map PendRead.request := List.map_map
  unfold State.core State.bare State.lasting State.unworked
  dsimp only
  rw [hc, hr]
  rfl

theorem core_of_unworked {s t : State} (h : t.unworked = s.unworked) : t.core = s.core := by
  rw [← core_unworked t, h, core_unworked]

@[simp] theorem State.noteAccess_core (s : State) (w sel a k : Nat) : (s.noteAccess w sel a k).core = s.core :=
  core_of_unworked (by simp)

@[simp] theorem State.setRawLine_core (s : State) (w sel a : Nat) (d k : Bytes) : (s.setRawLine w sel a d k).core = s.core :=
  core_of_unworked (by simp)

@[simp] theorem State.wakeRank_core (s : State) (w sel a : Nat) : (s.wakeRank w sel a).core = s.core := core_of_unworked (by simp)

@[simp] theorem State.pump_core (s : State) (w sel : Nat) : (s.pump w sel).core = s.core := core_of_unworked (by simp)

@[simp] theorem State.issueWrites_core (s : State) (w sel : Nat) (l : List QWrite) : (s.issueWrites w sel l).core = s.core :=
  core_of_unworked (by simp)

@[simp] theorem State.forceBank_core (s : State) (w sel a : Nat) : (s.forceBank w sel a).core = s.core := core_of_unworked (by simp)

@[simp] theorem State.forceBlock_core (s : State) (c w blk : Nat) : (s.forceBlock c w blk).core = s.core := core_of_unworked (by simp)

@[simp] theorem State.issueSince_core (s : State) (w mark : Nat) : (s.issueSince w mark).core = s.core := core_of_unworked (by simp)

@[simp] theorem State.forceChan_core (s : State) (w sel : Nat) : (s.forceChan w sel).core = s.core := core_of_unworked (by simp)

theorem State.updChan_core {s : State} {w sel : Nat} {f : Chan → Chan} (h : ∀ c, (f c).placed = c.placed) :
    (s.updChan w sel f).core = s.core := by
  have hc : (s.updChan w sel f).chans.map Chan.placed = s.chans.map Chan.placed := updWhere_map h
  unfold State.core State.bare State.lasting
  dsimp only
  rw [hc]
  rfl

@[simp] theorem State.queueWrite_core (s : State) (w sel a : Nat) (d k : Bytes) (c cls : Nat) (blk : Option Nat) :
    (s.queueWrite w sel a d k c cls blk).core = s.core := by
  unfold State.queueWrite
  extract_lets s1 busy
  have h1 : s1.core = s.core := State.issueWrites_core ..
  split
  · exact (State.setRawLine_core ..).trans h1
  · refine (State.updChan_core ?_).trans ((State.wakeRank_core ..).trans h1)
    exact fun _ => rfl

@[simp] theorem State.storeQuiet_core (s : State) (w sel a : Nat) (d : Bytes) (poison : Bool) : (s.storeQuiet w sel a d poison).core = s.core :=
  State.queueWrite_core ..

@[simp] theorem State.storeLine_core (s : State) (w sel a c : Nat) (off : Option Nat) (d : Bytes) (poison : Bool) (cls : Nat)
    (blk : Option Nat) : (s.storeLine w sel a c off d poison cls blk).core = s.core := by
  unfold State.storeLine
  extract_lets l
  split
  · rfl
  · split
    · extract_lets p l'
      refine (State.updChan_core ?_).trans (State.queueWrite_core ..)
      exact fun _ => rfl
    · exact State.queueWrite_core ..

@[simp] theorem State.decodeAt_core (s : State) (w sel a : Nat) (owner : Option (Nat × Nat)) : (s.decodeAt w sel a owner).1.core = s.core := by
  unfold State.decodeAt
  extract_lets s1 l d o
  have h1 : s1.core = s.core := by simp [s1]
  split
  · exact h1
  · refine (State.updChan_core ?_).trans ((core_of_bare (State.bump_bare ..)).trans h1)
    exact fun _ => rfl
  · exact (core_of_bare (State.bump_bare ..)).trans h1
  · exact (core_of_bare ((State.coalesce_bare ..).trans (State.bump_bare ..))).trans h1

@[simp] theorem State.readLine_core (s : State) (w sel a : Nat) (owner : Option (Nat × Nat)) : (s.readLine w sel a owner).1.core = s.core := by
  unfold State.readLine
  dsimp only
  split
  · rfl
  · split <;> exact s.decodeAt_core w sel a owner

@[simp] theorem State.readSram_core (s : State) (die unit c : Nat) (b : Sram) : (s.readSram die unit c b).1.core = s.core := by
  unfold State.readSram
  dsimp only
  split
  · simp
  · split <;> simp

@[simp] theorem State.putEntry_core (s : State) (e : CatEntry) : (s.putEntry e).core = s.core := rfl

@[simp] theorem State.freeRuns_core (s : State) (rs : List Run) : (s.freeRuns rs).core = s.core := rfl

@[simp] theorem State.updColl_core (s : State) (c : Nat) (f : CollState → CollState) : (s.updColl c f).core = s.core := rfl

@[simp] theorem State.settle_core (s : State) (c : Nat) : (s.settle c).core = s.core := by
  unfold State.settle
  dsimp only
  repeat' split
  all_goals simp [-State.updColl_eq]

@[simp] theorem State.enterOverfull_core (s : State) (c : Nat) : (s.enterOverfull c).core = s.core := by
  unfold State.enterOverfull
  repeat' split
  all_goals simp [-State.updColl_eq]

@[simp] theorem State.updLot_core (s : State) (c w l : Nat) (f : Lot → Lot) : (s.updLot c w l f).core = s.core := rfl

@[simp] theorem State.heat_core (s : State) (e : CatEntry) (n : Nat) : (s.heat e n).core = s.core := by
  unfold State.heat
  split
  · rfl
  · exact State.updLot_core ..

@[simp] theorem State.recall_core (s : State) (c : Nat) (p : Nat → Bool) : (s.recall c p).core = s.core := by
  unfold State.recall
  refine (foldl_projection (g := State.core) ?_ _ _).trans (State.bump_core ..)
  exact fun _ _ => rfl

@[simp] theorem State.recallBlock_core (s : State) (c blk : Nat) : (s.recallBlock c blk).core = s.core := State.recall_core ..

@[simp] theorem State.readRunLine_core (s : State) (e : CatEntry) (j : Nat) : (s.readRunLine e j).1.core = s.core := State.readLine_core ..

theorem foldl_fst_projection {α β γ : Type} {g : State → β} {f : State × γ → α → State × γ} (h : ∀ z x, g (f z x).1 = g z.1) (l : List α)
    (z : State × γ) : g (l.foldl f z).1 = g z.1 := by
  induction l generalizing z with
  | nil => rfl
  | cons x l ih => exact (ih _).trans (h z x)

@[simp] theorem State.readStored_core (s : State) (e : CatEntry) (lo n : Nat) : (s.readStored e lo n).1.core = s.core := by
  refine foldl_fst_projection (g := State.core) ?_ _ _
  exact fun z i => z.1.readRunLine_core e (lo + i)

@[simp] theorem State.readPayload_core (s : State) (e : CatEntry) (x y : Nat) : (s.readPayload e x y).1.core = s.core :=
  State.readStored_core ..

@[simp] theorem State.flag_core (s : State) (e : CatEntry) (f : CatEntry → CatEntry) : (s.flag e f).core = s.core := by
  unfold State.flag
  dsimp only
  split <;> rfl

@[simp] theorem State.storedHeader_core (s : State) (e : CatEntry) : (s.storedHeader e).1.core = s.core := by
  unfold State.storedHeader
  dsimp only
  split
  · simp
  · split <;> simp

@[simp] theorem State.readHeader_core (s : State) (e : CatEntry) : (s.readHeader e).1.core = s.core := by
  unfold State.readHeader
  split
  · rfl
  · exact s.storedHeader_core e

@[simp] theorem State.anchorNotice_core (s : State) (w blk c x : Nat) : (s.anchorNotice w blk c x).core = s.core := by
  unfold State.anchorNotice
  simp

theorem fst_core {α : Type} {s t : State} {a : α} {p : State × α} (h : p.1.core = s.core) (he : p = (t, a)) : t.core = s.core := by
  rw [← h, he]

@[simp] theorem Fetch.bad_s (s : State) (n k : Nat) : (Fetch.bad s n k).s = s := rfl

@[simp] theorem State.anchorSegment_core (s : State) (e : CatEntry) (g : Nat) : (s.anchorSegment e g).s.core = s.core := by
  unfold State.anchorSegment
  dsimp only
  split
  · rfl
  · split
    · rfl
    · split
      · rfl
      · rfl
      · split
        · rfl
        · split
          · exact State.readPayload_core ..
          · split
            next hh =>
              have h1 := fst_core (s.readHeader_core e) hh
              exact h1
            next hh =>
              have h1 := fst_core (s.readHeader_core e) hh
              split
              · exact (State.readPayload_core ..).trans h1
              · split
                · exact (State.readPayload_core ..).trans h1
                · rw [Fetch.bad_s, State.flag_core, State.readPayload_core, h1]

@[simp] theorem State.checkSegment_core (s : State) (e : CatEntry) (h : Bytes) (g : Nat) : (s.checkSegment e h g).1.core = s.core := by
  unfold State.checkSegment
  repeat' split
  all_goals simp

@[simp] theorem State.expandSeg_core (s : State) (e : CatEntry) (h : Bytes) (g : Nat) (ls : List (Bytes × Bool)) :
    (s.expandSeg e h g ls).1.core = s.core := by
  unfold State.expandSeg
  dsimp only
  split
  · rfl
  · split
    · rfl
    · split
      · split
        · exact State.flag_core ..
        · split
          · rw [State.anchorNotice_core, State.anchorSegment_core]
          · split <;> exact State.anchorSegment_core ..
      · split
        · rfl
        · exact State.flag_core ..

@[simp] theorem State.readSegment_core (s : State) (e : CatEntry) (h : Bytes) (g : Nat) : (s.readSegment e h g).1.core = s.core := by
  unfold State.readSegment
  dsimp only
  split
  · rw [State.expandSeg_core, State.readStored_core, State.checkSegment_core]
  · exact State.checkSegment_core ..

@[simp] theorem State.segmentLine_core (s : State) (e : CatEntry) (h : Bytes) (l n : Nat) : (s.segmentLine e h l n).s.core = s.core :=
  State.readSegment_core ..

@[simp] theorem State.readBlockLine_core (s : State) (e : CatEntry) (l : Nat) : (s.readBlockLine e l).s.core = s.core := by
  unfold State.readBlockLine
  split
  · rfl
  · rfl
  · split
    · rfl
    · split
      · exact State.segmentLine_core ..
      · split
        next hh => rw [Fetch.bad_s, fst_core (s.readHeader_core e) hh]
        next hh => rw [State.segmentLine_core, fst_core (s.readHeader_core e) hh]

@[simp] theorem State.expandBlock_core (s : State) (e : CatEntry) (h : Bytes) (ls : List (Bytes × Bool)) :
    (s.expandBlock e h ls).1.core = s.core := by
  refine foldl_fst_projection (g := State.core) ?_ _ _
  intro z g
  dsimp only
  split <;> simp

@[simp] theorem State.checkModes_core (s : State) (e : CatEntry) (h : Bytes) : (s.checkModes e h).core = s.core := by
  unfold State.checkModes
  dsimp only
  split <;> simp

@[simp] theorem State.readBlock_core (s : State) (e : CatEntry) : (s.readBlock e).1.core = s.core := by
  unfold State.readBlock
  split
  · rfl
  · rfl
  · split
    · rfl
    · split
      next hh => exact fst_core (s.readHeader_core e) hh
      next hh =>
        have h1 := fst_core (s.readHeader_core e) hh
        dsimp only
        rw [State.expandBlock_core, State.readStored_core, State.checkModes_core, h1]

@[simp] theorem State.fetchView_core (s : State) (e : CatEntry) (header : Bool) (j : Nat) : (s.fetchView e header j).s.core = s.core := by
  unfold State.fetchView
  dsimp only
  split
  · split
    · exact State.readRunLine_core ..
    · split
      next hh => exact fst_core (s.storedHeader_core e) hh
      next hh => rw [Fetch.bad_s, fst_core (s.storedHeader_core e) hh]
  · split <;> exact State.readRunLine_core ..

@[simp] theorem State.fetchRead_core (s : State) (r : PendRead) : (s.fetchRead r).s.core = s.core := by
  unfold State.fetchRead
  dsimp only
  rw [State.heat_core]
  split <;> simp

theorem State.updMem_core {s : State} {f : MemState → MemState} (h : (s.updMem f).lasting.mem = s.lasting.mem) :
    (s.updMem f).core = s.core := by
  have hm := congrArg (fun m : MemState => { m with loanMsgs := [], windows := [], buckets := [] }) h
  exact congrArg (fun m => { s.core with mem := m }) hm

@[simp] theorem State.captureReads_core (s : State) (e : CatEntry) : (s.captureReads e).core = s.core := by
  refine foldl_projection (g := State.core) ?_ _ _
  intro t r
  dsimp only
  refine (core_of_unworked (State.updReads_unworked ?_)).trans (State.fetchRead_core t r)
  exact fun _ => rfl

@[simp] theorem State.storeRun_core (s : State) (c w o : Nat) (tier : Tier) (site slot : Nat) (f : Form) (pm : Nat) (blk : Option Nat) :
    (s.storeRun c w o tier site slot f pm blk).core = s.core := by
  refine foldl_projection (g := State.core) ?_ _ _
  exact fun t j => State.storeLine_core ..

@[simp] theorem State.storeForm_core (s : State) (e : CatEntry) (f : Form) (pm : Nat) (blk : Option Nat) :
    (s.storeForm e f pm blk).core = s.core := by
  unfold State.storeForm
  dsimp only
  split <;> simp

@[simp] theorem State.dropLines_core (s : State) (p : CacheLine → Bool) : (s.dropLines p).core = s.core := rfl

@[simp] theorem State.putLine_core (s : State) (l : CacheLine) : (s.putLine l).core = s.core := rfl

@[simp] theorem State.forgetBlock_core (s : State) (c w blk : Nat) : (s.forgetBlock c w blk).core = s.core := rfl

@[simp] theorem State.loseBlock_core (s : State) (c w blk : Nat) (noRoom : Bool) : (s.loseBlock c w blk noRoom).core = s.core := by
  unfold State.loseBlock
  dsimp only
  split <;> simp

@[simp] theorem State.zeroBlock_core (s : State) (c w blk : Nat) : (s.zeroBlock c w blk).core = s.core := by
  unfold State.zeroBlock
  simp

@[simp] theorem State.storeBlock_core (s : State) (c w blk : Nat) (f : Form) (pm : Nat) (mode : StoreMode) :
    (s.storeBlock c w blk f pm mode).core = s.core := by
  unfold State.storeBlock
  extract_lets t old n held fresh lot newLot s0 gone u
  have ht : t.core = s.core := State.recallBlock_core ..
  have h0 : s0.core = s.core := by
    unfold s0
    split
    · exact (State.updLot_core ..).trans ht
    · exact ht
  split
  · rw [State.loseBlock_core, State.enterOverfull_core, ht]
  · split
    · rw [State.heat_core, State.storeForm_core, State.putEntry_core, State.captureReads_core, ht]
    · split
      · split
        · rw [State.loseBlock_core, h0]
        · exact ht
      next sp hsp =>
        extract_lets e s1 s2 s3 s4 s5
        have hu : u.core = s.core := h0
        have h2 : s2.core = s.core := by
          unfold s2 s1
          rw [State.freeRuns_core, State.issueSince_core, State.storeForm_core, State.putEntry_core, hu]
        have h3 : s3.core = s.core := by
          refine (foldl_projection (g := State.core) ?_ sp.spills s2).trans h2
          exact fun u sel => State.bump_core ..
        have h4 : s4.core = s.core := by
          unfold s4
          split
          · exact (State.coalesceC_core ..).trans h3
          · exact h3
        have h5 : s5.core = s.core := by
          unfold s5
          split
          · exact (State.bump_core ..).trans h4
          · exact h4
        rw [State.heat_core, State.settle_core, h5]

/-! The cache and the write path. -/

@[simp] theorem State.outgoing_core (s : State) (l : CacheLine) : (s.outgoing l).1.core = s.core := State.readSram_core ..

@[simp] theorem State.depart_core (s : State) (c w blk : Nat) (p : CacheLine → Bool) : (s.depart c w blk p).core = s.core := by
  unfold State.depart
  split <;> rfl

theorem State.updDie_core {s : State} {c : Nat} {f : Die → Die} (h : ∀ d, (f d).tagless = d.tagless) : (s.updDie c f).core = s.core := by
  have hd : (s.updDie c f).dies.map Die.tagless = s.dies.map Die.tagless := updWhere_map h
  exact congrArg (fun l => { s.core with dies := l }) hd

@[simp] theorem State.lookup_core (s : State) (c w line : Nat) : (s.lookup c w line).1.core = s.core := by
  unfold State.lookup
  split
  · rfl
  · extract_lets a b n s1 t
    have h1 : s1.core = s.core := by
      unfold s1
      rw [State.bump_core, State.bump_core]
    split
    · refine (State.updDie_core ?_).trans h1
      exact fun _ => rfl
    · split
      · exact h1
      · exact h1

@[simp] theorem State.writeRawLine_core (s : State) (e : CatEntry) (l : Nat) (d : Bytes) (poison : Bool) :
    (s.writeRawLine e l d poison).core = s.core := by
  unfold State.writeRawLine
  dsimp only
  split <;> simp

@[simp] theorem State.leaveRaw_core (s : State) (l : CacheLine) : (s.leaveRaw l).core = s.core := by
  unfold State.leaveRaw
  dsimp only
  repeat' split
  all_goals simp

@[simp] theorem State.outgoingAll_core (s : State) (ls : List CacheLine) : (s.outgoingAll ls).1.core = s.core := by
  refine foldl_fst_projection (g := State.core) ?_ _ _
  exact fun z l => z.1.outgoing_core l

@[simp] theorem State.mergeIn_core (s : State) (l : CacheLine) (m : MergeEntry) : (s.mergeIn l m).1.core = s.core := State.readSram_core ..

@[simp] theorem State.mergedLines_core (s : State) (ms : List MergeEntry) (ls : List CacheLine) (base : Nat → CacheLine) :
    (s.mergedLines ms ls base).1.core = s.core := by
  refine foldl_fst_projection (g := State.core) ?_ _ _
  intro z m
  exact z.1.mergeIn_core ((z.2.find? fun x => x.line == m.line).getD (base m.line)) m

@[simp] theorem State.leaveAct_core (s : State) (c w blk : Nat) : (s.leaveAct c w blk).core = s.core := by
  unfold State.leaveAct
  extract_lets ls ms e dropMerges gone o r x b
  have hg : ∀ t : State, (gone t).core = t.core := fun t => State.depart_core ..
  have ho : o.1.core = s.core := s.outgoingAll_core ls
  have hr : r.1.core = s.core := by
    unfold r
    split
    · exact ho
    · exact (State.readBlock_core ..).trans ho
  have hx : x.1.core = s.core := (State.mergedLines_core ..).trans hr
  split
  · exact hg s
  · split
    · refine foldl_projection (g := State.core) ?_ _ _
      intro t l
      split <;> rfl
    · split
      · rw [hg, State.settle_core, State.zeroBlock_core, State.captureReads_core, hx]
      · rw [hg, State.storeBlock_core, hx]

@[simp] theorem State.leave_core (s : State) (c w line : Nat) : (s.leave c w line).core = s.core := by
  unfold State.leave
  repeat' split
  all_goals simp

@[simp] theorem State.evict_core (s : State) (l : CacheLine) : (s.evict l).core = s.core := by
  unfold State.evict
  split <;> simp

@[simp] theorem State.makeRoomAux_core (c w n fuel : Nat) (s : State) : (State.makeRoomAux c w n fuel s).1.core = s.core := by
  induction fuel generalizing s with
  | zero => rfl
  | succ fuel ih =>
    unfold State.makeRoomAux
    split
    · rfl
    · split
      · rw [ih, State.evict_core]
      · split
        · rw [ih, State.leaveAct_core]
        · split
          · rw [ih, State.forceBlock_core]
          · rfl

@[simp] theorem State.makeRoom_core (s : State) (c w n : Nat) : (s.makeRoom c w n).1.core = s.core := State.makeRoomAux_core ..

@[simp] theorem State.append_core (s : State) (c a : Nat) : (s.append c a).core = s.core := by
  unfold State.append
  split <;> rfl

@[simp] theorem State.meterFor_core (s : State) (who : Waiter) (c w : Nat) (read : Bool) : (s.meterFor who c w read).1.core = s.core := by
  have hm : ∀ p, (s.meter c w p read).1.core = s.core := fun p => by
    unfold State.meter
    dsimp only
    split
    · rfl
    · split
      · simp
      · rfl
  unfold State.meterFor
  split
  · exact hm _
  · exact hm _
  · rfl
  · rfl

@[simp] theorem State.discard_core (s : State) (c w off p : Nat) (lobby : Bool) : (s.discard c w off p lobby).core = s.core :=
  State.coalesceC_core ..

@[simp] theorem State.landed_core (s : State) (c w line : Nat) (who : Waiter) : (s.landed c w line who).core = s.core := by
  unfold State.landed
  extract_lets s1 depot s2
  have h1 : s1.core = s.core := State.recall_core ..
  split
  · exact h1
  · exact (State.completeWrite_core ..).trans h1

@[simp] theorem State.mergeWrite_core (s : State) (c w line : Nat) (d : Bytes) (be : Nat) (poison : Bool) :
    (s.mergeWrite c w line d be poison).core = s.core := by
  unfold State.mergeWrite
  extract_lets r wm s1
  have hr : r.1.core = s.core := by
    unfold r
    split
    · rfl
    · exact State.makeRoom_core ..
  have h1 : s1.core = s.core := hr
  split
  · exact h1
  · exact (State.leaveAct_core ..).trans h1

@[simp] theorem State.placeWrite_core (s : State) (l : CacheLine) : (s.placeWrite l).core = s.core := by
  unfold State.placeWrite
  split
  · rfl
  · split
    next h => exact (State.putLine_core ..).trans (fst_core (State.makeRoom_core ..) h)
    next h => rw [State.leave_core, State.putLine_core, fst_core (State.makeRoom_core ..) h]

/-- A write of the expanded view, whatever its collection's kind (R31, R32, R56). -/
@[simp] theorem State.serveWrite_core (s : State) (c off : Nat) (d : Bytes) (be : Nat) (poison : Bool) (who : Waiter) (port : Nat) :
    (s.serveWrite c off d be poison who port).core = s.core := by
  unfold State.serveWrite
  extract_lets pl w line t e
  have ht : t.core = s.core := State.meterFor_core ..
  split
  · simp
  · split
    · simp [ht]
    · split
      · simp [ht]
      · split
        next hl =>
          have h1 := (fst_core (State.lookup_core ..) hl).trans ht
          split <;> simp [h1]
        next hl =>
          have h1 := (fst_core (State.lookup_core ..) hl).trans ht
          repeat' split
          all_goals simp [h1]

end Sys2Proof.Machine
end

section
/-! PROOF. A read of a line that neither the cache nor the merge buffer holds, by the entry of its block (R26, R56, R264). -/

namespace Sys2Proof.Machine

open Sys2Proof.Claims

theorem mergeMask_zero {old : Bytes} (new : Bytes) : mergeMask 0 old new = old := by
  refine List.ext_getElem (by simp [mergeMask]) fun i h1 h2 => ?_
  simp [mergeMask, bitSet, h2]

theorem State.cacheRead_miss {s : State} {c w line : Nat} (h : s.cached? c w line = none) : s.cacheRead c w line = (s, none) := by
  unfold State.cacheRead
  rw [State.lookup_miss h]

theorem State.mergeRead_miss {s : State} {c w line : Nat} (h : s.merge? c w line = none) : s.mergeRead c w line = (s, none) := by
  unfold State.mergeRead
  rw [h]

/-- The read of a line that waits at its channel. -/
def State.missedRead (s : State) (c off : Nat) (e : CatEntry) (cls : Nat) (who : Waiter) : PendRead :=
  { id := 0, coll := c, wing := (s.place c off).wing, line := 64 * (s.place c off).blk + (s.place c off).line, view := none, entry := e,
    cls := cls, waiter := who, merged := zeros 64, mergedMask := 0, sel := s.entrySel e,
    places := s.placesOf e (s.wanted e (s.place c off).line), at_ := 0, stage := .ingress, got := none }

/-- What the entry of its block makes of a read that finds nothing held. -/
def State.readByEntry (s : State) (c off : Nat) (e : CatEntry) (cls : Nat) (who : Waiter) : State :=
  let line := 64 * (s.place c off).blk + (s.place c off).line
  match e.tier with
  | .none => s.answer who c line (zeros 64) false
  | .lost => s.answer who c line (zeros 64) true
  | _ => if e.hdrDamage || !s.serves (s.place c off).wing (s.entrySel e) then s.answer who c line (zeros 64) true
    else s.queueRead (s.missedRead c off e cls who)

theorem State.readByEntry_queued {s : State} {c off cls : Nat} {e : CatEntry} {who : Waiter} (he : e.stored = true)
    (hh : e.hdrDamage = false) (hs : s.serves (s.place c off).wing (s.entrySel e) = true) :
    s.readByEntry c off e cls who = s.queueRead (s.missedRead c off e cls who) := by
  unfold State.readByEntry
  dsimp only
  split
  next ht => simp [CatEntry.stored, ht] at he
  next ht => simp [CatEntry.stored, ht] at he
  next => rw [if_neg (by simp [hh, hs])]

/-- The read path past the cache and the merge buffer (R26, R50). `u` is the state with the request metered. -/
theorem State.serveRead_missed {s u : State} {c off : Nat} {who : Waiter} {cls : Nat} (hup : s.wingUp (s.place c off).wing = true)
    (hu : s.meterFor who c (s.place c off).wing true = (u, cls)) (hp : u.place c off = s.place c off) (hn : u.noData c off = false)
    (hc : u.cached? c (s.place c off).wing (64 * (s.place c off).blk + (s.place c off).line) = none)
    (hm : u.merge? c (s.place c off).wing (64 * (s.place c off).blk + (s.place c off).line) = none) :
    s.serveRead c off who = u.readByEntry c off (u.entry c (s.place c off).wing (s.place c off).blk) cls who := by
  unfold State.serveRead
  dsimp only
  rw [hu]
  dsimp only
  rw [if_neg (by simp [hup]), if_neg (by simp [hn]), State.cacheRead_miss hc]
  dsimp only
  rw [State.mergeRead_miss hm, hc]
  dsimp only [Option.map_none, Held.of]
  unfold State.readByEntry State.missedRead
  rw [hp]
  dsimp only
  by_cases hl : (u.entry c (s.place c off).wing (s.place c off).blk).tier = .lost
  · rw [hl]
    dsimp only
    split <;> rfl
  · rw [if_neg (by simp [hl]), mergeMask_zero]
    rfl

/-- A read joins the requests of its channel (R250): it waits there under the next request number; no entry changes, and with nothing
queued no stored byte. -/
theorem State.queueRead_spec (s : State) (r : PendRead) :
    (∃ x ∈ (s.queueRead r).mem.reads, x.request = { r with id := s.fresh, at_ := s.tsc }.request) ∧
      (s.queueRead r).mem.cat = s.mem.cat ∧ (allDrained s → (s.queueRead r).mem.dram = s.mem.dram) := by
  unfold State.queueRead
  extract_lets s1
  have hw : (s1.wakeRank r.wing r.sel (s.readAddr r)).unworked = s1.unworked := State.wakeRank_unworked ..
  have hd : Dry s1 (s1.wakeRank r.wing r.sel (s.readAddr r)) := State.updChan_dry fun c h => by
    split
    · exact h
    · exact h
  generalize s1.wakeRank r.wing r.sel (s.readAddr r) = u at hw hd ⊢
  have hp := State.pump_unworked (u.updMem fun x =>
    { x with reads := x.reads ++ [{ r with id := s.fresh, at_ := s.tsc, stage := .ingress, got := none }] }) r.wing r.sel
  have hpd := State.pump_dry (u.updMem fun x =>
    { x with reads := x.reads ++ [{ r with id := s.fresh, at_ := s.tsc, stage := .ingress, got := none }] }) r.wing r.sel
  generalize (u.updMem fun x =>
    { x with reads := x.reads ++ [{ r with id := s.fresh, at_ := s.tsc, stage := .ingress, got := none }] }).pump r.wing r.sel = t at hp hpd ⊢
  refine ⟨?_, ?_, fun d => ?_⟩
  · have hm : ({ r with id := s.fresh, at_ := s.tsc, stage := .ingress, got := none } : PendRead).request ∈
        t.mem.reads.map PendRead.request := by
      rw [reads_of_unworked hp]
      exact List.mem_map_of_mem (List.mem_append_right _ List.mem_cons_self)
    exact List.mem_map.mp hm
  · exact (congrArg MemState.cat (mem_of_unworked hp) :).trans (congrArg MemState.cat (mem_of_unworked hw) :)
  · exact (hpd.dram (hd.dry d)).trans (hd.dram d)

end Sys2Proof.Machine
end

section
/-! PROOF. A job's streams and its ends (R164, R177, R178, R180, R187): O20. -/

namespace Sys2Proof.Machine

open Sys2Proof.Claims

/-! Field by field of the memory path's frame. -/

theorem core_wb {s t : State} (h : t.core = s.core) : t.wb = s.wb := congrArg (fun u => u.wb) h

theorem core_cmds {s t : State} (h : t.core = s.core) : t.mem.cmds = s.mem.cmds := congrArg (fun u => u.mem.cmds) h

theorem State.jobWrite_wb (s : State) (c off : Nat) (d : Bytes) (be : Nat) (poison : Bool) : (s.jobWrite c off d be poison).wb = s.wb :=
  core_wb (State.serveWrite_core ..)

/-! The ends of a job. -/

/-- The tiles of a job that ended are free (R177). -/
theorem State.endJob_tiles (s : State) (j : Job) (status detail : Nat) (line : Bool) :
    ∀ x ∈ (s.endJob j status detail line).wb.tiles, x.wing = j.wing → x.job ≠ some j.num := by
  intro x hx hw
  unfold State.endJob at hx
  obtain ⟨y, -, hy⟩ := List.mem_map.mp hx
  split at hy
  · rw [← hy]
    exact nofun
  next hno =>
    subst hy
    intro hj
    exact hno (by simp [hj, hw])

/-- How a job ends (R177). -/
theorem State.endJob_ends (s : State) (j : Job) (status detail : Nat) (line : Bool) :
    (s.endJob j status detail line).job? j.num = none ∧
      (∃ y ∈ (s.endJob j status detail line).wb.ended, y.num = j.num ∧ y.status = status) ∧
      ∀ x ∈ (s.endJob j status detail line).wb.tiles, x.wing = j.wing → x.job ≠ some j.num :=
  ⟨(s.endJob_wb j status detail line).1, (s.endJob_wb j status detail line).2, s.endJob_tiles j status detail line⟩

theorem State.job?_updJob {s : State} {n : Nat} {j : Job} {f : Job → Job} (hj : s.job? n = some j) (h : ∀ x, (f x).num = x.num) :
    (s.updJob n f).job? n = some (f j) := by
  have hu : (s.updJob n f).job? n = (s.job? n).map f := find?_updWhere fun x => by rw [h]
  rw [hu, hj]
  rfl

theorem State.endStopped_none {s : State} (h : ∀ y ∈ s.wb.jobs, y.ending = none) : s.endStopped = s := by
  unfold State.endStopped
  rw [List.filter_eq_nil_iff.mpr fun y hy => by simp [h y hy]]
  rfl

theorem State.job?_of_started {s : State} {n : Nat} {j : Job} (h : s.started? n = some j) :
    s.job? n = some j ∧ j.clearing = false ∧ j.ending = none := by
  unfold State.started? at h
  split at h
  next x hx =>
    split at h
    · cases h
    next hno =>
      cases h
      simp only [Bool.or_eq_true, not_or, Bool.not_eq_true, Option.isSome_eq_false_iff, Option.isNone_iff_eq_none] at hno
      exact ⟨hx, hno⟩
  next => cases h

/-- JOB_COMPLETION, JOB_FAULT and JOB_TIMEOUT (R177, R178, R187). -/
theorem jobEnds : JobEnds := by
  intro s j hj
  obtain ⟨hjob, -, hend⟩ := State.job?_of_started hj
  have hms : ms = 1000000 := rfl
  refine ⟨fun hnone hfin hbusy => ?_, fun hlib hgf hw hbusy => ?_, fun hl ht hbusy => ?_, fun hl ht hbusy => ?_, fun hl => ?_⟩
  · have hx : exec (.jobCompletion j.num) s = execJobCompletion j.num s := rfl
    rw [hx]
    unfold execJobCompletion
    rw [State.endStopped_none hnone]
    dsimp only
    rw [hj]
    dsimp only
    rw [if_pos (by simp [hfin, hbusy])]
    exact ⟨_, rfl, s.endJob_ends j _ 0 true⟩
  · have hx : exec (.jobFault j.num) s = execJobFault j.num s := rfl
    rw [hx]
    unfold execJobFault
    rw [hj]
    dsimp only
    rw [if_pos (by simp [hlib, hgf, hbusy]; simpa using hw)]
    exact ⟨_, rfl, s.endJob_ends j _ _ true⟩
  · have hx : exec (.jobTimeout j.num) s = execJobTimeout j.num s := rfl
    rw [hx]
    unfold execJobTimeout
    rw [hj]
    dsimp only
    rw [if_pos (by simp [hl, hms, ht])]
    unfold State.stopJob
    rw [if_neg (by simp [hbusy])]
    exact ⟨_, rfl, s.endJob_ends j _ _ true⟩
  · have hx : exec (.jobTimeout j.num) s = execJobTimeout j.num s := rfl
    rw [hx]
    unfold execJobTimeout
    rw [hj]
    dsimp only
    rw [if_pos (by simp [hl, hms, ht])]
    unfold State.stopJob
    rw [if_pos (by simp [hbusy])]
    exact ⟨_, rfl, rfl, State.job?_updJob hjob fun _ => rfl⟩
  · have hx : exec (.jobTimeout j.num) s = execJobTimeout j.num s := rfl
    rw [hx]
    unfold execJobTimeout
    rw [hj]
    dsimp only
    rw [if_neg (by simp [hl])]

/-! The streams of a job. -/

/-- A line handed to a running job (R163, R164). -/
theorem State.giveLine_spec {s : State} {n : Nat} {j : Job} (hj : s.job? n = some j) (o off : Nat) (d : Bytes) (poison : Bool) :
    s.giveLine n o off d poison = { s with wb := (s.giveLine n o off d poison).wb } ∧
      (s.giveLine n o off d poison).job? n = some { j with lines := j.lines ++ [⟨o, off, d, sramStore poison d, poison⟩] } := by
  have h1 : s.wb.jobs.find? (·.num == n) = some j := hj
  have h2 : (updWhere (fun x : Job => x.num == n)
      (fun x => { x with lines := x.lines ++ [⟨o, off, d, sramStore poison d, poison⟩] }) s.wb.jobs).find? (·.num == n) =
        (s.wb.jobs.find? (·.num == n)).map fun x => { x with lines := x.lines ++ [⟨o, off, d, sramStore poison d, poison⟩] } :=
    find?_updWhere fun _ => rfl
  unfold State.giveLine
  rw [h1]
  refine ⟨rfl, ?_⟩
  rw [h1] at h2
  exact h2

/-- A stream's read of a line that no partition holds and no loan serves (R164). -/
theorem State.jobStreamRead_missed {s : State} {j : Job} {o off c w : Nat} {e : CatEntry} (hj : s.started? j.num = some j)
    (hr : s.readable j o off = some c) (hw : ∀ r ∈ s.mem.reads, r.waiter ≠ .job j.num o off) (hl : j.line? o off = none)
    (ho : off % 64 = 0) (hd : libOf j.header ≠ some .delta) (hp : (s.place c off).wing = w) (hb : s.borrows j c w = false)
    (hn : s.noData c off = false) (hup : s.wingUp w = true)
    (hc : s.cached? c w (64 * (s.place c off).blk + (s.place c off).line) = none)
    (hm : s.merge? c w (64 * (s.place c off).blk + (s.place c off).line) = none) (he : s.entry c w (s.place c off).blk = e)
    (hok : (e.stored && (e.crcFailed || e.segDamage != 0)) = false) :
    exec (.jobStreamRead j.num o off) s = .next (s.readByEntry c off e 3 (.job j.num o off)) := by
  subst hp
  have hx : exec (.jobStreamRead j.num o off) s = execJobStreamRead j.num o off s := rfl
  have hwait : (s.mem.reads.any fun r => r.waiter == .job j.num o off) = false := List.any_eq_false.mpr fun r hrm => by simp [hw r hrm]
  rw [hx]
  unfold execJobStreamRead
  rw [hj]
  dsimp only
  rw [hr]
  dsimp only
  rw [hwait, hl, if_neg (by simp [ho]), if_neg (by simp [hd])]
  unfold State.streamLine
  dsimp only
  rw [he, if_neg (by rw [hup, Bool.true_and, hok]; exact nofun), if_neg (by simp [hb]),
    State.serveRead_missed (u := s) (cls := 3) hup rfl rfl hn hc hm, he]

/-- JOB_STREAM_READ and JOB_STREAM_WRITE (R164, R180). -/
theorem jobStreams : JobStreams := by
  intro s j o off c w e hj
  obtain ⟨hjob, -, -⟩ := State.job?_of_started hj
  refine ⟨fun hr hw hl ho hd hp hb hn hup hc hm he => ⟨fun ht => ?_, fun hst hcrc hh hseg hsv => ?_⟩, fun l hmem hnw hout hmask hsound hord => ?_⟩
  · have hok : (e.stored && (e.crcFailed || e.segDamage != 0)) = false := by simp [CatEntry.stored, ht]
    rw [State.jobStreamRead_missed hj hr hw hl ho hd hp hb hn hup hc hm he hok]
    unfold State.readByEntry
    rw [ht]
    exact ⟨_, rfl, State.giveLine_spec hjob o off (zeros 64) false⟩
  · have hok : (e.stored && (e.crcFailed || e.segDamage != 0)) = false := by simp [hcrc, hseg]
    rw [State.jobStreamRead_missed hj hr hw hl ho hd hp hb hn hup hc hm he hok, State.readByEntry_queued hst hh (by rw [hp, hsv])]
    obtain ⟨⟨r, hrm, hrr⟩, hcat, -⟩ := s.queueRead_spec (s.missedRead c off e 3 (.job j.num o off))
    refine ⟨_, r, rfl, hcat, hrm, ?_⟩
    have hk : (r.id, r.coll, r.wing, r.entry, r.cls, r.waiter) = (s.fresh, c, w, e, 3, .job j.num o off) := by
      rw [← hp]
      exact (congrArg (fun x : PendRead => (x.id, x.coll, x.wing, x.entry, x.cls, x.waiter)) hrr :)
    simpa only [Prod.mk.injEq] using hk
  · have hx : exec (.jobStreamWrite j.num o off) s = execJobStreamWrite j.num o off s := rfl
    have hbuf : s.checkBuffers j = s := by
      unfold State.checkBuffers
      dsimp only
      rw [List.filter_eq_nil_iff.mpr fun l hl => by simp [hsound l hl]]
      rfl
    rw [hx]
    unfold execJobStreamWrite
    rw [hj]
    dsimp only
    rw [hbuf, hjob]
    dsimp only [Option.getD_some]
    rw [if_neg (by simpa [hmem, hnw] using hord), hout]
    dsimp only
    rw [if_neg hmask]
    have hwb := core_wb (State.serveWrite_core (s.touchVectors j) j.coll off l.data l.mask l.poison (.job j.num o off) 0xFF)
    generalize (s.touchVectors j).serveWrite j.coll off l.data l.mask l.poison (.job j.num o off) 0xFF = u at hwb ⊢
    have hju : u.job? j.num = some j := by
      unfold State.job?
      rw [hwb]
      exact hjob
    exact ⟨_, _, rfl, State.job?_updJob hju fun _ => rfl, rfl, rfl⟩

/-- Settles O20: a write of the device leaves the jobs as they are, by the memory path's frame. -/
theorem jobsRunAndEnd : Obligations.JobsRunAndEnd := ⟨jobStreams, jobEnds⟩

end Sys2Proof.Machine
end

section
/-! PROOF. A job from its launch to its start (R168, R172-R176): O19. -/

namespace Sys2Proof.Machine

open Sys2Proof.Claims

theorem State.putCmd_wb (s : State) (x : Cmd) : (s.putCmd x).wb = s.wb := rfl

theorem State.endCmd_wb (s : State) (x : Cmd) (status detail result : Nat) : (s.endCmd x status detail result).wb = s.wb := by
  have h := s.endCmd_onlyNoted x status detail result
  unfold onlyNoted at h
  rw [h]

theorem State.bump_cmd? (s : State) (i j k n c : Nat) (src : CmdSrc) : (s.bump i j k n).cmd? c src = s.cmd? c src :=
  State.cmd?_congr (by rw [State.bump_mem]) c src

theorem State.endCmd_cmd? (s : State) (x : Cmd) (status detail result : Nat) :
    (s.endCmd x status detail result).cmd? x.coll x.src = some { x with status := status, detail := detail, result := result % 2 ^ 32 } :=
  (State.endCmd_ended rfl x status detail result).1

/-- The checks of the command Wing at a launch (R168). -/
theorem State.launchJob_eq (s : State) (x : Cmd) : State.launchJob x s =
    if fieldAt x.bytes 12 1 ∈ s.wingsOf x.coll ∧ s.wingUp (fieldAt x.bytes 12 1) = true ∧
        fieldAt x.bytes 16 8 % 64 = 0 ∧ fieldAt x.bytes 16 8 + 128 ≤ s.act.size x.coll then
      (if s.layoutImage (fieldAt x.bytes 8 4) = [] then s.endCmd x stNotFound 0 0 else s.putCmd { x with forwarded := true })
    else s.endCmd x stBadOperand 0 0 := by
  have hc : (!(s.wingsOf x.coll).contains (fieldAt x.bytes 12 1) || !s.wingUp (fieldAt x.bytes 12 1) || fieldAt x.bytes 16 8 % 64 != 0 ||
      decide (s.act.size x.coll < fieldAt x.bytes 16 8 + 128)) =
      !decide (fieldAt x.bytes 12 1 ∈ s.wingsOf x.coll ∧ s.wingUp (fieldAt x.bytes 12 1) = true ∧
        fieldAt x.bytes 16 8 % 64 = 0 ∧ fieldAt x.bytes 16 8 + 128 ≤ s.act.size x.coll) := by
    rw [Bool.eq_iff_iff]
    simp
    tauto
  unfold State.launchJob
  dsimp only
  rw [hc]
  by_cases h : fieldAt x.bytes 12 1 ∈ s.wingsOf x.coll ∧ s.wingUp (fieldAt x.bytes 12 1) = true ∧
      fieldAt x.bytes 16 8 % 64 = 0 ∧ fieldAt x.bytes 16 8 + 128 ≤ s.act.size x.coll
  · simp [h]
  · simp [h]

/-- JOB_LAUNCH (R168). -/
theorem launchChecks : LaunchChecks := by
  intro s x hr
  have hx : exec (.jobLaunch x.coll x.src) s = .next (s.runCmd x.coll x.src 7 State.launchJob) := rfl
  rw [hx, State.runCmd_runs hr, State.launchJob_eq]
  refine ⟨_, rfl, ?_⟩
  split
  · split
    · exact ⟨State.endCmd_mem .., State.endCmd_wb .., State.endCmd_ended rfl x _ 0 0⟩
    · exact ⟨rfl, rfl, State.cmd?_putCmd ..⟩
  · exact ⟨State.endCmd_mem .., State.endCmd_wb .., State.endCmd_ended rfl x _ 0 0⟩

/-- TILE_CLEAR_DONE (R176). -/
theorem State.startJob_spec {s : State} {n : Nat} {j : Job} (hj : s.job? n = some j) :
    s.startJob n = { s.wakeChannels with wb := (s.startJob n).wb } ∧
      (s.startJob n).wb.jobs = updWhere (·.num == n) (fun j => { j with clearing := false, started := s.tsc }) s.wb.jobs ∧
      ∀ x ∈ (s.startJob n).wb.tiles, x.wing = j.wing → x.idx ∈ j.tiles → x.last = some j.coll := by
  unfold State.startJob
  rw [hj]
  dsimp only
  refine ⟨rfl, by simp only [State.updJob], fun x hx hxw hxi => ?_⟩
  obtain ⟨y, -, hy⟩ := List.mem_map.mp hx
  split at hy
  next h =>
    rw [← hy]
  next hno =>
    subst hy
    exact absurd (by simp [hxw, hxi]) hno

theorem jobStarts : JobStarts := by
  intro s j hj hc
  have hx : exec (.tileClearDone j.num) s = execTileClearDone j.num s := rfl
  rw [hx]
  unfold execTileClearDone
  rw [hj]
  dsimp only
  rw [if_pos hc]
  obtain ⟨h1, h2, h3⟩ := State.startJob_spec hj
  refine ⟨_, rfl, h1, ?_, h3⟩
  have hu : (updWhere (·.num == j.num) (fun j : Job => { j with clearing := false, started := s.tsc }) s.wb.jobs).find? (·.num == j.num) =
      (s.wb.jobs.find? (·.num == j.num)).map fun j => { j with clearing := false, started := s.tsc } := find?_updWhere fun _ => rfl
  have hj' : s.wb.jobs.find? (·.num == j.num) = some j := hj
  rw [hj'] at hu
  unfold State.job?
  rw [h2, hu]
  rfl

/-! Admission. -/

theorem State.refuseJob_spec (s : State) (x : Cmd) (w detail : Nat) :
    (s.refuseJob x w detail).wb = s.wb ∧
      (s.refuseJob x w detail).cmd? x.coll x.src = some { x with status := 0x8006, detail := detail, result := 0 } := by
  unfold State.refuseJob
  exact ⟨(State.bump_wb ..).trans (State.endCmd_wb ..), (State.bump_cmd? ..).trans (State.endCmd_cmd? ..)⟩

/-- The slot of an admitted job is one of 16 (R174). -/
theorem freeSlot_lt (used : List Nat) (i : Nat) : ((List.range 16).filter fun i => !used.contains i).getD i 0 < 16 := by
  rw [List.getD_eq_getElem?_getD]
  rcases h : ((List.range 16).filter fun i => !used.contains i)[i]? with _ | y
  · simp
  · exact List.mem_range.mp (List.mem_filter.mp (List.mem_of_getElem? h)).1

/-- An admitted job runs, or has its tiles cleared first; its command ends DONE with its number (R173, R174, R176). -/
theorem State.admitJob_spec (v : State) (x : Cmd) (w : Nat) (h b : Bytes) (ts : List Nat) :
    ∃ j ∈ (v.admitJob x w h b ts).wb.jobs, j.coll = x.coll ∧ j.wing = w ∧ j.tiles = ts ∧ j.num / 16 % 4 = w % 4 ∧
      (∀ y ∈ v.wb.jobs, ∃ z ∈ (v.admitJob x w h b ts).wb.jobs, z.num = y.num) ∧
      (v.admitJob x w h b ts).cmd? x.coll x.src = some { x with status := 2, detail := 0, result := j.num % 2 ^ 32 } := by
  unfold State.admitJob
  extract_lets c used slots slot n num po m dirty job tiles wb0 wb s1 line1 s2
  have hnum : num / 16 % 4 = w % 4 := by
    have hslot : slot < 16 := freeSlot_lt used _
    have h1 : (slot + 16 * w + 64 * n) / 16 = w + 4 * n := by omega
    show (slot + 16 * w + 64 * n) / 16 % 4 = w % 4
    rw [h1, Nat.add_mul_mod_self_left]
  have hwb : s2.wb = wb := by
    unfold s2
    rw [State.bump_wb, State.endCmd_wb, State.jobWrite_wb]
  have hjobs : s2.wb.jobs = v.wb.jobs ++ [job] := by
    rw [hwb]
  have hcmd : s2.cmd? x.coll x.src = some { x with status := 2, detail := 0, result := job.num % 2 ^ 32 } := by
    unfold s2
    rw [State.bump_cmd?, State.endCmd_cmd?]
    rfl
  have hcoll : job.coll = x.coll ∧ job.wing = w ∧ job.tiles = ts ∧ job.num = num := ⟨rfl, rfl, rfl, rfl⟩
  clear_value s2 s1 wb job num
  obtain ⟨hc, hw, ht, hn⟩ := hcoll
  split
  · refine ⟨job, by rw [hjobs]; simp, hc, hw, ht, by rw [hn, hnum], fun y hy => ⟨y, by rw [hjobs]; simp [hy], rfl⟩, hcmd⟩
  · have hsome : (s2.job? num).isSome = true := List.find?_isSome.mpr ⟨job, by rw [hjobs]; simp, by simp [hn]⟩
    obtain ⟨j, hj⟩ := Option.isSome_iff_exists.mp hsome
    obtain ⟨h1, h2, -⟩ := State.startJob_spec hj
    have hin : ∀ y ∈ s2.wb.jobs, (if y.num = num then { y with clearing := false, started := s2.tsc } else y) ∈ (s2.startJob num).wb.jobs :=
      fun y hy => by
        rw [h2]
        refine List.mem_map.mpr ⟨y, hy, ?_⟩
        by_cases hyn : y.num = num <;> simp [hyn]
    have hjob := hin job (by rw [hjobs]; simp)
    rw [if_pos hn] at hjob
    refine ⟨_, hjob, hc, hw, ht, by dsimp only; rw [hn, hnum], fun y hy => ⟨_, hin y (by rw [hjobs]; simp [hy]), ?_⟩, ?_⟩
    · split <;> rfl
    · have hmem : (s2.startJob num).mem = s2.mem := by
        rw [h1]
        dsimp only
        unfold State.wakeChannels
        split <;> rfl
      exact (State.cmd?_congr (congrArg MemState.cmds hmem) ..).trans hcmd

/-- JOB_ADMISSION (R172-R174). -/
theorem jobAdmission : JobAdmission := by
  intro s u x w h b hu hw hh hne hup
  subst hw hh
  have hx : exec (.jobAdmission x.coll x.src) s = execJobAdmission x.coll x.src s := rfl
  have hd : exec (.jobAdmission x.coll x.src) s = .next (s.decideJob x) := by
    rw [hx]
    unfold execJobAdmission
    rw [hu]
  rw [hd]
  refine ⟨fun hl => ?_, fun v rest all ts hl hext hr hall hpar hops hplace => ?_⟩
  · unfold State.decideJob
    dsimp only
    rw [if_neg (by simp [hup]), if_neg (by simp [hne]), hl, if_pos rfl]
    exact ⟨_, rfl, u.refuseJob_spec x _ 0x0A⟩
  · subst hall
    unfold State.decideJob
    dsimp only
    rw [if_neg (by simp [hup]), if_neg (by simp [hne]), hl]
    dsimp only
    rw [if_neg (by simp), if_neg (by omega), hr]
    dsimp only
    rw [if_neg (by simp), if_neg (by simp [hpar]), if_neg (by simp [hops]), hplace]
    exact ⟨_, (v.admitJob_spec x _ _ _ ts).imp fun j hj => ⟨rfl, hj⟩⟩

/-- Settles O19: the write of a parameter block's line leaves the jobs and the commands, by the memory path's frame. -/
theorem jobsStart : Obligations.JobsStart := ⟨launchChecks, jobAdmission, jobStarts⟩

end Sys2Proof.Machine
end

section
/-! PROOF. What no request, job, command, docent or message of the device changes: the time, the package, the dies, the identity and the
editions but for the keys a commit has generated (the frame of an isolation, R447, and of a commit, R344-R348). -/

namespace Sys2Proof.Machine

open Sys2Proof.Claims

/-- The time, the package, the dies, the identity and the editions of a state. -/
def State.rim (s : State) : EdState × Pkg × Nat × List Die × IdState :=
  ({ s.ed with sessions := [], newKeys := [] }, s.pkg, s.tsc, s.dies.map Die.tagless, s.id)

theorem rim_of_core {s t : State} (h : t.core = s.core) : t.rim = s.rim :=
  (congrArg (fun u : State => (({ u.ed with newKeys := [] } : EdState), u.pkg, u.tsc, u.dies, u.id)) h :)

theorem rim_of_bare {s t : State} (h : t.bare = s.bare) : t.rim = s.rim := rim_of_core (core_of_bare h)

theorem rim_of_jobless {s t : State} (h : t.bare.jobless = s.bare.jobless) : t.rim = s.rim :=
  (congrArg (fun u : State => (({ u.ed with newKeys := [] } : EdState), u.pkg, u.tsc, u.dies.map Die.tagless, u.id)) h :)

/-- What the rim says of the editions. -/
theorem ed_of_rim {s t : State} (h : t.rim = s.rim) : t.ed = { s.ed with sessions := t.ed.sessions, newKeys := t.ed.newKeys } :=
  (congrArg (fun u => { u.1 with sessions := t.ed.sessions, newKeys := t.ed.newKeys }) h :)

theorem act_of_rim {s t : State} (h : t.rim = s.rim) : t.act = s.act := (congrArg (fun u => u.1.active) h :)

theorem pkg_of_rim {s t : State} (h : t.rim = s.rim) : t.pkg = s.pkg := (congrArg (fun u => u.2.1) h :)

theorem tsc_of_rim {s t : State} (h : t.rim = s.rim) : t.tsc = s.tsc := (congrArg (fun u => u.2.2.1) h :)

theorem id_of_rim {s t : State} (h : t.rim = s.rim) : t.id = s.id := (congrArg (fun u => u.2.2.2.2) h :)

theorem die?_of_tagless {s t : State} (h : t.dies.map Die.tagless = s.dies.map Die.tagless) (c : Nat) :
    (t.die? c).map Die.tagless = (s.die? c).map Die.tagless := by
  have hk (l : List Die) : (l.find? (·.code == c)).map Die.tagless = (l.map Die.tagless).find? (·.code == c) := by
    rw [List.find?_map]
    rfl
  unfold State.die?
  rw [hk, h, hk]

/-- A die keeps all but the fault of its Wing's cache tags. -/
theorem die?_of_rim {s t : State} (h : t.rim = s.rim) (c : Nat) : (t.die? c).map Die.tagless = (s.die? c).map Die.tagless :=
  die?_of_tagless (congrArg (fun u => u.2.2.2.1) h :) c

theorem die_of_rim {s t : State} (h : t.rim = s.rim) {c : Nat} {d : Die} (hd : s.die? c = some d) :
    ∃ e, t.die? c = some e ∧ e.tagless = d.tagless := by
  have hm := die?_of_rim h c
  rw [hd] at hm
  obtain ⟨e, he, hed⟩ := Option.map_eq_some_iff.mp hm
  exact ⟨e, he, hed⟩

/-! Jobs. -/

@[simp] theorem State.updJob_rim (s : State) (n : Nat) (f : Job → Job) : (s.updJob n f).rim = s.rim := rfl

@[simp] theorem State.updMem_rim (s : State) (f : MemState → MemState) : (s.updMem f).rim = s.rim := rfl

@[simp] theorem State.jobWrite_rim (s : State) (c off : Nat) (d : Bytes) (be : Nat) (poison : Bool) :
    (s.jobWrite c off d be poison).rim = s.rim :=
  rim_of_core (State.serveWrite_core ..)

@[simp] theorem State.event_rim (s : State) (sc : Scope) (t u c : Nat) (b : Bytes) : (s.event sc t u c b).rim = s.rim :=
  rim_of_bare (State.event_bare ..)

@[simp] theorem State.endJob_rim (s : State) (j : Job) (status detail : Nat) (line : Bool) : (s.endJob j status detail line).rim = s.rim := by
  unfold State.endJob
  extract_lets res img up s1 s2 reads s3
  have h1 : s1.rim = s.rim := by
    unfold s1
    split
    · exact State.jobWrite_rim ..
    · rfl
  have h2 : s2.rim = s1.rim := by
    unfold s2
    split
    · exact State.event_rim ..
    · rfl
  exact h2.trans h1

@[simp] theorem State.stopJob_rim (s : State) (j : Job) (status detail : Nat) (line : Bool) : (s.stopJob j status detail line).rim = s.rim := by
  unfold State.stopJob
  split
  · rfl
  · exact State.endJob_rim ..

@[simp] theorem State.abortJob_rim (s : State) (j : Job) (detail : Nat) (line : Bool) : (s.abortJob j detail line).rim = s.rim :=
  State.stopJob_rim ..

/-! A Wing leaves service (R447). -/

@[simp] theorem State.anchorLost_core (s : State) (e : CatEntry) : (s.anchorLost e).core = s.core := by
  unfold State.anchorLost
  split
  · exact State.anchorNotice_core ..
  · rfl

@[simp] theorem State.answer_rim (s : State) (who : Waiter) (c line : Nat) (d : Bytes) (poison : Bool) :
    (s.answer who c line d poison).rim = s.rim :=
  rim_of_jobless (State.answer_bare ..)

@[simp] theorem State.completeWrite_rim (s : State) (who : Waiter) : (s.completeWrite who).rim = s.rim :=
  rim_of_bare (State.completeWrite_bare ..)

@[simp] theorem State.failRequests_rim (s : State) (w : Nat) : (s.failRequests w).rim = s.rim := by
  unfold State.failRequests
  extract_lets rs ws s1 s2
  refine (foldl_projection (g := State.rim) ?_ _ _).trans ((foldl_projection (g := State.rim) ?_ _ _).trans rfl)
  · exact fun t x => State.completeWrite_rim ..
  · exact fun t r => (State.answer_rim ..).trans (rim_of_core (State.anchorLost_core ..))

@[simp] theorem State.rebind_rim (s : State) : s.rebind.rim = s.rim := rfl

@[simp] theorem State.stopDocents_rim (s : State) (die : Nat) : (s.stopDocents die).rim = s.rim := rfl

@[simp] theorem State.finishWrites_rim (s : State) : s.finishWrites.rim = s.rim := by
  unfold State.finishWrites
  refine (foldl_projection (g := State.rim) ?_ _ _).trans rfl
  exact fun t x => State.completeWrite_rim ..

@[simp] theorem State.dropLoans_rim (s : State) (w : Nat) : (s.dropLoans w).rim = s.rim := by
  unfold State.dropLoans
  exact State.finishWrites_rim ..

@[simp] theorem State.restChannels_rim (s : State) (w : Nat) (b : Bool) : (s.restChannels w b).rim = s.rim := by
  unfold State.restChannels
  extract_lets u
  have hu : u.rim = s.rim := by
    refine foldl_projection (g := State.rim) ?_ _ _
    exact fun t c => rim_of_core (State.forceChan_core ..)
  exact hu

@[simp] theorem State.startFreq_rim (s : State) : s.startFreq.rim = s.rim := rfl

@[simp] theorem State.endFreq_rim (s : State) (w : Nat) : (s.endFreq w).rim = s.rim := by
  unfold State.endFreq
  dsimp only
  split <;> rfl

@[simp] theorem State.rederive_rim (s : State) (w : Nat) : (s.rederive w).rim = s.rim := rim_of_bare (State.rederive_bare ..)

/-- A Wing's isolation changes its die, and the dies, the editions, the package and the time in nothing else (R446, R447). -/
theorem State.isolateWing_rim {s : State} {w : Nat} {d : Die} (hd : s.die? (wingDie w) = some d) (hp : d.present = true)
    (h1 : d.isoState ≠ 1) (h3 : d.isoState ≠ 3) (cause : Nat) :
    (s.isolateWing w cause).rim = (s.updDie (wingDie w) fun e =>
      { e with inService := false, isoState := 1, isoCause := cause, reachable := d.reachable && cause != 4 && cause != 8 }).rim := by
  unfold State.isolateWing
  rw [hd]
  dsimp -zeta only
  rw [if_neg (by simp [hp, h1, h3])]
  extract_lets near s1 s2 s3 s4 s5
  have h2 : s2.rim = s1.rim := State.failRequests_rim ..
  have h3 : s3.rim = s2.rim := by
    refine foldl_projection (g := State.rim) ?_ _ _
    exact fun t j => State.abortJob_rim ..
  have h4 : s4.rim = s3.rim := (State.dropLoans_rim ..).trans (State.stopDocents_rim ..)
  have h5 : ((s5.restChannels w near).endFreq w).rim = s5.rim := (State.endFreq_rim ..).trans (State.restChannels_rim ..)
  exact (State.rederive_rim ..).trans (h5.trans (h4.trans (h3.trans h2)))

theorem isolated_of_rim {s t : State} (h : t.rim = s.rim) {w cause : Nat} (hi : isolated s w cause) : isolated t w cause := by
  obtain ⟨d, hd, h1, h2, h3⟩ := hi
  obtain ⟨e, he, hed⟩ := die_of_rim h hd
  exact ⟨e, he, (congrArg Die.inService hed).trans h1, (congrArg Die.isoState hed).trans h2, (congrArg Die.isoCause hed).trans h3⟩

/-- A Wing's isolation (R446, R447). -/
theorem State.isolateWing_isolated {s : State} {w : Nat} {d : Die} (hd : s.die? (wingDie w) = some d) (hp : d.present = true)
    (h1 : d.isoState ≠ 1) (h3 : d.isoState ≠ 3) (cause : Nat) : isolated (s.isolateWing w cause) w cause := by
  refine isolated_of_rim (State.isolateWing_rim hd hp h1 h3 cause) ⟨_, State.die?_updDie_of hd fun _ => rfl, rfl, rfl, rfl⟩

end Sys2Proof.Machine
end

section
/-! PROOF. Telemetry and its loss, the rails and the pace comparator (R288, R289, R369-R373, R378, R379): O49. -/

namespace Sys2Proof.Machine

open Sys2Proof.Claims

theorem stewardRuns_running {s : State} (h : s.stewardRuns = true) : s.running = true := by
  unfold State.stewardRuns at h
  simp only [Bool.and_eq_true] at h
  exact h.1.1

/-- TELEMETRY_MESSAGE (R288, R289, R373). -/
theorem telemetryIsHeld : TelemetryIsHeld := by
  intro s die m d hr hf hd hp
  have hx : exec (.telemetryMessage die m) s = execTelemetryMessage die m s := rfl
  rw [hx]
  unfold execTelemetryMessage
  rw [hd]
  dsimp -zeta only
  rw [if_neg (by simp [hr, hf, hp])]
  extract_lets s1
  have h1 : s1.die? die = some { d with temp := m.temp, rings := m.rings, power := m.power, hash := m.hash, lastTelemetry := s.tsc,
                                        telemetryLost := false, vddHold := false } := State.die?_updDie_of hd fun _ => rfl
  refine ⟨fun h => ?_, fun w hw hin hi1 hi3 hph hh => ?_⟩
  · refine ⟨s1, _, ?_, rfl, h1, rfl, rfl, rfl, rfl, rfl, rfl, rfl, rfl⟩
    by_cases h4 : 4 ≤ die
    · have hdw : dieWing die = some (die - 4) := if_pos h4
      rw [hdw]
      dsimp only
      rw [if_neg]
      rcases h with h | h | h | h
      · omega
      · simp [h]
      · simp [h]
      · simp [h]
    · have hdw : dieWing die = none := if_neg h4
      rw [hdw]
  · subst hw
    have hdw : dieWing (w + 4) = some w := by simp [dieWing]
    rw [hdw]
    dsimp only
    rw [if_pos (by simp [hin, hph, hh])]
    refine ⟨_, rfl, ?_⟩
    exact State.isolateWing_isolated h1 hp hi1 hi3 5

/-- A Wing's rail faults (R372). -/
theorem State.railFault_isolates {s : State} {w : Nat} {d : Die} (hw : w < 4) (hd : s.die? (wingDie w) = some d) (hp : d.present = true)
    (h1 : d.isoState ≠ 1) (h3 : d.isoState ≠ 3) (status : Nat) : isolated (s.railFault w status) w 6 := by
  unfold State.railFault
  dsimp only
  rw [if_pos hw]
  exact State.isolateWing_isolated ((State.die?_dies (State.event_dies ..) _).trans hd) hp h1 h3 6

/-- A voltage ordered over PMBus is the die's (R371). -/
theorem State.setVdd_die? {s : State} {w : Nat} {d : Die} (hd : s.die? (wingDie w) = some d) (mv : Nat) :
    (s.setVdd w mv).die? (wingDie w) = some { d with vdd := mv } := by
  unfold State.setVdd
  rw [hd]
  dsimp only
  split
  next h => rw [hd, ← h]
  next => exact State.die?_updDie_of (f := fun d => { d with vdd := mv }) hd fun _ => rfl

theorem State.setVdd_mem_chans (s : State) (w mv : Nat) : (s.setVdd w mv).mem = s.mem ∧ (s.setVdd w mv).chans = s.chans := by
  unfold State.setVdd
  split
  · exact ⟨rfl, rfl⟩
  · split <;> exact ⟨rfl, rfl⟩

/-- A pace found low marks the die, and no more of it (R379). -/
theorem State.slowWing_die? {s : State} {w : Nat} {d : Die} (hd : s.die? (wingDie w) = some d) :
    (s.slowWing w).die? (wingDie w) = some { d with paceLow := true, goodRounds := 0 } ∧ (s.slowWing w).mem = s.mem ∧
      (s.slowWing w).chans = s.chans := by
  have h := State.die?_updDie_of (f := fun d => { d with paceLow := true, goodRounds := 0 }) hd fun _ => rfl
  unfold State.slowWing
  rw [hd]
  dsimp only
  split
  · exact ⟨h, rfl, rfl⟩
  · exact ⟨(State.die?_dies (State.watermark_dies ..) _).trans h, State.watermark_mem .., State.watermark_chans ..⟩

/-- PMB_ALERT, PMBUS_POLL, TELEMETRY_LOST, TELEMETRY_ISOLATION_TIMEOUT and PACE_COMPARATOR_ALERT. -/
theorem railsAndTelemetryLoss : RailsAndTelemetryLoss := by
  intro s w d hs hw hd hp
  have hr := stewardRuns_running hs
  have hms : ms = 1000000 := rfl
  have hpoll (l : List RailReading) : exec (.pmbusPoll l) s = execPmbusPoll l s := rfl
  have halert (rail status : Nat) : exec (.pmbAlert rail status) s = .next (s.railFault rail status) := by
    have hx : exec (.pmbAlert rail status) s = execPmbAlert rail status s := rfl
    rw [hx]
    exact congrArg Host.Outcome.next (if_pos hs)
  have hlost : exec (.telemetryLost (wingDie w)) s = execTelemetryLost (wingDie w) s := rfl
  have htime : exec (.telemetryIsolationTimeout w) s = execTelemetryIsolationTimeout w s := rfl
  have hpace (ring pace : Nat) : exec (.paceComparatorAlert ⟨w, ring⟩ pace) s = execPaceComparatorAlert ⟨w, ring⟩ pace s := rfl
  have hdw : dieWing (wingDie w) = some w := by simp [dieWing, wingDie]
  refine ⟨fun status h1 h3 => ⟨⟨_, halert .., State.railFault_isolates hw hd hp h1 h3 status⟩, fun v i => ?_⟩,
    fun rail status hrail he hst => ⟨⟨_, halert .., (State.railFault_begins_emergency status hrail hr he hst).1⟩, fun v i => ?_⟩,
    fun rail status v i => ?_, fun hin => ⟨fun hl ht => ?_, fun ht => ?_, fun ht h1 h3 => ?_, fun ring pace hlow hring => ?_, fun ring pace hhigh => ?_⟩⟩
  · refine ⟨_, (hpoll _).trans (congrArg Host.Outcome.next (if_neg (by simp [hs]))), ?_⟩
    exact State.railFault_isolates (s := s.readRail ⟨w, true, v, i, status, true⟩) hw hd hp h1 h3 status
  · refine ⟨_, (hpoll _).trans (congrArg Host.Outcome.next (if_neg (by simp [hs]))), ?_⟩
    exact (State.railFault_begins_emergency (s := s.draw.2) (Config.freeNat s.draw.1 % 65536) hrail hr he hst).1
  · exact (hpoll _).trans (congrArg Host.Outcome.next (if_neg (by simp [hs])))
  · rw [hlost]
    unfold execTelemetryLost
    rw [hd]
    dsimp only
    rw [if_neg (by simp [hs, hp, hin, hl, hms]; omega), hdw]
    dsimp only
    have h1 := State.die?_updDie_of (f := fun d => { d with telemetryLost := true }) hd fun _ => rfl
    have h2 := (State.die?_dies (State.event_dies (s.updDie (wingDie w) fun d => { d with telemetryLost := true }) .d 0x84 s.stewardSrc
      0xFFFF (leBytes 1 (wingDie w))) (wingDie w)).trans h1
    have h3 := State.setVdd_die? h2 900
    obtain ⟨hm, hc⟩ := State.setVdd_mem_chans ((s.updDie (wingDie w) fun d => { d with telemetryLost := true }).event .d 0x84 s.stewardSrc
      0xFFFF (leBytes 1 (wingDie w))) w 900
    exact ⟨_, _, rfl, State.die?_updDie_of (f := fun d => { d with vddHold := true }) h3 fun _ => rfl, rfl, rfl, rfl,
      hm.trans (State.event_mem ..), hc.trans (State.event_chans ..)⟩
  · rw [hlost, htime]
    unfold execTelemetryLost execTelemetryIsolationTimeout
    rw [hd]
    dsimp only
    rw [if_pos (by simp [hms, ht]), if_neg (by simp [hms]; omega)]
    exact ⟨rfl, rfl⟩
  · rw [htime]
    unfold execTelemetryIsolationTimeout
    rw [hd]
    dsimp only
    rw [if_pos (by simp [hr, hin, hms]; omega)]
    exact ⟨_, rfl, State.isolateWing_isolated hd hp h1 h3 7⟩
  · rw [hpace]
    unfold execPaceComparatorAlert
    rw [hd]
    dsimp -zeta only
    rw [if_neg (by simp [hs, hin]; omega)]
    extract_lets s1
    have h1 := State.setVdd_die? (State.die?_updDie_of (f := fun d => { d with rings := d.rings.set ring pace }) hd fun _ => rfl)
      (if d.vddHold then d.vdd else min 900 (d.vdd + 25))
    obtain ⟨hm, hc⟩ := State.setVdd_mem_chans (s.updDie (wingDie w) fun d => { d with rings := d.rings.set ring pace }) w
      (if d.vddHold then d.vdd else min 900 (d.vdd + 25))
    split
    · obtain ⟨k1, k2, k3⟩ := State.slowWing_die? h1
      exact ⟨_, _, rfl, k1, rfl, rfl, k2.trans hm, k3.trans hc⟩
    · exact ⟨_, _, rfl, h1, rfl, rfl, hm, hc⟩
  · rw [hpace]
    unfold execPaceComparatorAlert
    rw [hd]
    dsimp only
    rw [if_pos (by simp [hhigh])]

/-- Settles O49: an isolation keeps the dies but for what R446 says of its own (`isolateWing_rim`), and a rail that is no Wing's begins
the emergency sequence. -/
theorem telemetryAndRails : Obligations.TelemetryAndRails := ⟨telemetryIsHeld, railsAndTelemetryLoss⟩

end Sys2Proof.Machine
end

section
/-! PROOF. Orders to a channel and to a Wing by the Host port (R263, R266, R268, R446-R448): O41. -/

namespace Sys2Proof.Machine

open Sys2Proof.Claims

/-! Orders to a channel. -/

theorem orderRow : HostRow 0x2803 4 (lim 0x2803 4 4 1 5 4 0 1 1 3) where
  row := by decide
  subOk := by decide
  idxOk := by decide
  vis := by decide
  readable := by decide
  writable := by decide
  ty := by decide
  cursor := by decide

/-- An order to the selected channel: its effect. -/
theorem order_effect (s : State) (n : Nat) :
    (hostWriting s 0x2803 4 0 1).numEffect (hostPort s) 0x2803 4 (chanCursor s) n =
      (hostWriting s 0x2803 4 0 1).orderEntry (chanCursor s / 256) (chanCursor s % 256) n := rfl

theorem State.orderEntry_freeze {s : State} {w sel : Nat} {c : Chan} (hc : s.chan? w sel = some c) :
    s.orderEntry w sel 1 = if c.st = 0 ∨ c.st = 3 ∨ c.st = 6 then .error 6 else .ok (s.freeze w sel 4 0) := by
  unfold State.orderEntry
  rw [hc]
  rfl

theorem State.orderEntry_reenter {s : State} {w sel : Nat} {c : Chan} (hc : s.chan? w sel = some c) :
    s.orderEntry w sel 2 = if c.st = 3 ∨ c.st = 6 then .ok (s.queueTrigger (wingDie w) 2 sel none) else .error 6 := by
  unfold State.orderEntry
  rw [hc]
  rfl

theorem State.orderEntry_evacuate {s : State} {w sel : Nat} {c : Chan} (hc : s.chan? w sel = some c) :
    s.orderEntry w sel 3 = if c.st = 3 then .ok (s.queueTrigger (wingDie w) 2 (sel + 256) none) else .error 6 := by
  unfold State.orderEntry
  rw [hc]
  rfl

theorem State.queueTrigger_chans (s : State) (die code arg : Nat) (target : Option Nat) :
    (s.queueTrigger die code arg target).chans = s.chans := bare_chans (State.queueTrigger_bare ..)

/-- An order that queues a trigger of its channel's die. -/
theorem order_triggers {s u t : State} {die arg : Nat} (hu : u.mem = s.mem) (hc : u.chans = s.chans)
    (h : onlyWindow (u.queueTrigger die 2 arg none) t) : waits t die 2 arg ∧ t.mem = s.mem ∧ t.chans = s.chans := by
  obtain ⟨hmem, -, hdoc, -⟩ := onlyWindow_kept h
  refine ⟨waits_mono ?_ (u.queueTrigger_waits die 2 arg none), ?_, ?_⟩
  · rw [hdoc]
    exact List.Subset.refl _
  · rw [hmem, State.queueTrigger_mem, hu]
  · exact ((congrArg State.chans h :).trans (State.queueTrigger_chans ..)).trans hc

/-- The orders of OD 0x2803:04 (R263, R266, R268). -/
theorem channelOrders {s : State} {c : Chan} (hk : keyedAt s 0x2803) (hc : s.chan? (chanCursor s / 256) (chanCursor s % 256) = some c)
    (hg : s.dieGone (wingDie (chanCursor s / 256)) = false) :
    (c.st ≠ 0 → c.st ≠ 3 → c.st ≠ 6 → s.wingUp (chanCursor s / 256) = true → s.reserveHeld (chanCursor s / 256) (chanCursor s % 256) = true →
      ∃ t, exec (.freezeOrder (hostPort s)) s = .next t ∧ answered t (hostPort s) 0 [] ∧
        froze s t (chanCursor s / 256) (chanCursor s % 256) 4 c) ∧
    (c.st = 3 ∨ c.st = 6 → ∃ t, exec (.reenterOrder (hostPort s)) s = .next t ∧ answered t (hostPort s) 0 [] ∧
      waits t (wingDie (chanCursor s / 256)) 2 (chanCursor s % 256) ∧ t.mem = s.mem ∧ t.chans = s.chans) ∧
    (c.st = 3 → ∃ t, exec (.evacuateOrder (hostPort s)) s = .next t ∧ answered t (hostPort s) 0 [] ∧
      waits t (wingDie (chanCursor s / 256)) 2 (chanCursor s % 256 + 256) ∧ t.mem = s.mem ∧ t.chans = s.chans) ∧
    (c.st ≠ 3 → ∃ t, exec (.evacuateOrder (hostPort s)) s = .next t ∧ answered t (hostPort s) 6 [] ∧ onlyWindow s t) ∧
    (c.st ≠ 3 → c.st ≠ 6 → ∃ t, exec (.reenterOrder (hostPort s)) s = .next t ∧ answered t (hostPort s) 6 [] ∧ onlyWindow s t) ∧
    (c.st = 0 ∨ c.st = 3 ∨ c.st = 6 →
      ∃ t, exec (.freezeOrder (hostPort s)) s = .next t ∧ answered t (hostPort s) 6 [] ∧ onlyWindow s t) := by
  generalize hw : chanCursor s / 256 = w at hc hg ⊢
  generalize hsel : chanCursor s % 256 = sel at hc ⊢
  have hu : s.unavailable (lim 0x2803 4 4 1 5 4 0 1 1 3) ((s.cursors (hostPort s)).object 4) = false := by
    have h : s.dieGone (wingDie (chanCursor s / 256)) = false := by rw [hw]; exact hg
    exact h
  have heff (n : Nat) : (hostWriting s 0x2803 4 0 1).numEffect (hostPort s) 0x2803 4 (chanCursor s) n =
      (hostWriting s 0x2803 4 0 1).orderEntry w sel n := by rw [order_effect, hw, hsel]
  have hc' : (hostWriting s 0x2803 4 0 1).chan? w sel = some c := hc
  have done {n : Nat} {u : State} (hn : n < 256) (h1 : 1 ≤ n) (h3 : n ≤ 3) (h : (hostWriting s 0x2803 4 0 1).orderEntry w sel n = .ok u) :=
    host_done (u := u) orderRow hk.1 (fun _ => hk.2) hu hn h1 h3 ((heff n).trans h)
  have refused {n : Nat} (hn : n < 256) (h1 : 1 ≤ n) (h3 : n ≤ 3) (h : (hostWriting s 0x2803 4 0 1).orderEntry w sel n = .error 6) :=
    host_refused orderRow hk.1 (fun _ => hk.2) hu hn h1 h3 ((heff n).trans h)
  refine ⟨fun h0 h3 h6 hup hr => ?_, fun h => ?_, fun h => ?_, fun h => ?_, fun h3 h6 => ?_, fun h => ?_⟩
  · obtain ⟨t, ht, ha, ho⟩ := done (by decide) (by decide) (by decide)
      ((State.orderEntry_freeze hc').trans (if_neg (by simp [h0, h3, h6])))
    obtain ⟨z, hz, hfr⟩ := State.freeze_froze (s := hostWriting s 0x2803 4 0 1) 4 0 hc' h0 h3 h6 hup hr
    refine ⟨t, ht, ha, z, (State.chan?_chans (congrArg State.chans ho :) w sel).trans hz, ?_⟩
    obtain ⟨hmem, -⟩ := onlyWindow_kept ho
    rw [hmem]
    exact hfr
  · obtain ⟨t, ht, ha, ho⟩ := done (by decide) (by decide) (by decide) ((State.orderEntry_reenter hc').trans (if_pos h))
    exact ⟨t, ht, ha, order_triggers (s := s) (u := hostWriting s 0x2803 4 0 1) rfl rfl ho⟩
  · obtain ⟨t, ht, ha, ho⟩ := done (by decide) (by decide) (by decide) ((State.orderEntry_evacuate hc').trans (if_pos h))
    exact ⟨t, ht, ha, order_triggers (s := s) (u := hostWriting s 0x2803 4 0 1) rfl rfl ho⟩
  · exact refused (by decide) (by decide) (by decide) ((State.orderEntry_evacuate hc').trans (if_neg h))
  · exact refused (by decide) (by decide) (by decide) ((State.orderEntry_reenter hc').trans (if_neg (by simp [h3, h6])))
  · exact refused (by decide) (by decide) (by decide) ((State.orderEntry_freeze hc').trans (if_pos h))

/-! Orders to a Wing. -/

theorem wingRow {w : Nat} (hw : w < 4) : HostRow 0x8002 (w + 1) (lim 0x8002 1 4 1 5 0 0 1 1 2) where
  row := by
    have h : ∀ w : Fin 4, odRow 0x8002 (w.val + 1) = some (lim 0x8002 1 4 1 5 0 0 1 1 2) := by decide
    exact h ⟨w, hw⟩
  subOk := by omega
  idxOk := by decide
  vis := by decide
  readable := by decide
  writable := by decide
  ty := by decide
  cursor := by
    have h : ∀ w : Fin 4, cursorScope 0x8002 (w.val + 1) = none := by decide
    exact h ⟨w, hw⟩

/-- The stored lines, the waiting reads, the channels, and the Wings of the jobs. -/
def State.lodged (s : State) : List Host.Cell × List PendRead × List Chan × List Nat :=
  (s.mem.dram, s.mem.reads, s.chans, s.wb.jobs.map (·.wing))

theorem lodged_of_bare {s t : State} (h : t.bare = s.bare) : t.lodged = s.lodged :=
  (congrArg (fun u : State => (u.mem.dram, u.mem.reads, u.chans, u.wb.jobs.map (·.wing))) h :)

theorem State.answer_lodged (s : State) (who : Waiter) (c line : Nat) (d : Bytes) (poison : Bool) :
    (s.answer who c line d poison).lodged = s.lodged := by
  unfold State.answer
  split
  · split
    · exact lodged_of_bare ((State.bump_bare ..).trans (State.send_bare ..))
    · rfl
  · unfold State.giveLine
    split
    · rfl
    · refine congrArg (fun l => (s.mem.dram, s.mem.reads, s.chans, l)) (updWhere_map ?_)
      exact fun _ => rfl
  · split
    · split
      · split
        · exact lodged_of_bare ((State.lineMoved_bare ..).trans (State.send_bare ..))
        · rfl
      · rfl
    · rfl
  · rfl

theorem State.failRequests_lodged (s : State) (w : Nat) :
    (s.failRequests w).lodged = (s.updMem fun m => { m with reads := m.reads.filter (·.wing != w) }).lodged := by
  unfold State.failRequests
  extract_lets rs ws s1 s2
  refine (foldl_projection (g := State.lodged) ?_ _ _).trans ((foldl_projection (g := State.lodged) ?_ _ _).trans rfl)
  · exact fun t x => lodged_of_bare (State.completeWrite_bare ..)
  · intro t r
    refine (State.answer_lodged ..).trans ?_
    unfold State.anchorLost
    split
    · exact lodged_of_bare ((State.coalesceC_bare ..).trans (State.coalesceC_bare ..))
    · rfl

theorem State.dropLoans_lodged (s : State) (w : Nat) : (s.dropLoans w).lodged = s.lodged := by
  unfold State.dropLoans State.finishWrites
  refine (foldl_projection (g := State.lodged) ?_ _ _).trans rfl
  exact fun t x => lodged_of_bare (State.completeWrite_bare ..)

/-- An isolation of a Wing with no job and no queued write stores nothing, and its waiting reads end (R447). -/
theorem State.isolateWing_stores {s : State} {w : Nat} {d : Die} (hd : s.die? (wingDie w) = some d) (hp : d.present = true)
    (h1 : d.isoState ≠ 1) (h3 : d.isoState ≠ 3) (hj : ∀ j ∈ s.wb.jobs, j.wing ≠ w) (hc : ∀ x ∈ s.chans, x.wing = w → x.wq = []) (cause : Nat) :
    (s.isolateWing w cause).mem.dram = s.mem.dram ∧ (s.isolateWing w cause).mem.reads = s.mem.reads.filter (·.wing != w) := by
  unfold State.isolateWing
  rw [hd]
  dsimp -zeta only
  rw [if_neg (by simp [hp, h1, h3])]
  extract_lets near s1 s2 s3 s4 s5
  have h2 : s2.lodged = (s1.updMem fun m => { m with reads := m.reads.filter (·.wing != w) }).lodged := State.failRequests_lodged ..
  have hjobs : s2.wb.jobs.filter (·.wing == w) = [] := by
    refine List.filter_eq_nil_iff.mpr fun j hj2 hjw => ?_
    have hmap : s2.wb.jobs.map (·.wing) = s.wb.jobs.map (·.wing) := (congrArg (fun u => u.2.2.2) h2 :)
    have hmem : j.wing ∈ s.wb.jobs.map (·.wing) := by
      rw [← hmap]
      exact List.mem_map_of_mem hj2
    obtain ⟨k, hk, hkw⟩ := List.mem_map.mp hmem
    exact hj k hk (hkw.trans (by simpa using hjw))
  have h3 : s3 = s2 := by
    unfold s3
    rw [hjobs]
    rfl
  have h4 : s5.lodged = s2.lodged := by
    have h : s4.lodged = s3.lodged := (State.dropLoans_lodged ..).trans rfl
    rw [← h3, ← h]
    rfl
  have hrest : (s5.restChannels w near).mem = s5.mem := by
    have hwq : s5.chans.filter (fun c => c.wing == w && !c.wq.isEmpty) = [] := by
      refine List.filter_eq_nil_iff.mpr fun c hc5 h => ?_
      have hch : s5.chans = s.chans := (congrArg (fun u => u.2.2.1) (h4.trans h2) :)
      rw [hch] at hc5
      simp only [Bool.and_eq_true, beq_iff_eq] at h
      simp [hc c hc5 h.1] at h
    unfold State.restChannels
    rw [hwq]
    rfl
  have hrate := lodged_of_bare (((s5.restChannels w near).endFreq w).rederive_bare w)
  have hfreq : ((s5.restChannels w near).endFreq w).mem = s5.mem := by
    refine Eq.trans ?_ hrest
    unfold State.endFreq
    dsimp only
    split <;> rfl
  have h5 := h4.trans h2
  clear_value s5
  generalize ((s5.restChannels w near).endFreq w).rederive w = v at hrate ⊢
  generalize (s5.restChannels w near).endFreq w = u at hrate hfreq
  have hd5 : s5.mem.dram = s.mem.dram := (congrArg (fun u => u.1) h5 :)
  have hr5 : s5.mem.reads = s.mem.reads.filter (·.wing != w) := (congrArg (fun u => u.2.1) h5 :)
  have hdv : v.mem.dram = u.mem.dram := (congrArg (fun u => u.1) hrate :)
  have hrv : v.mem.reads = u.mem.reads := (congrArg (fun u => u.2.1) hrate :)
  rw [hfreq] at hdv hrv
  exact ⟨hdv.trans hd5, hrv.trans hr5⟩

theorem State.setLink_kept (s : State) (die i st : Nat) : (s.setLink die i st).mem = s.mem ∧ (s.setLink die i st).dies = s.dies := by
  unfold State.setLink
  dsimp only
  split <;> exact ⟨rfl, rfl⟩

/-- The die reset of a returning Wing empties its cache partitions; nothing is stored (R448 step 1). -/
theorem State.resetWing_kept (s : State) (w : Nat) :
    (s.resetWing w).mem = { s.mem with cache := s.mem.cache.filter (·.wing != w), wmb := s.mem.wmb.filter (·.wing != w),
                                       loans := s.mem.loans.filter (·.borrower != w) } ∧
      (s.resetWing w).dies = s.dies := by
  have h : ((s.resetWing w).mem, (s.resetWing w).dies) =
      ({ s.mem with cache := s.mem.cache.filter (·.wing != w), wmb := s.mem.wmb.filter (·.wing != w),
                    loans := s.mem.loans.filter (·.borrower != w) }, s.dies) := by
    unfold State.resetWing
    extract_lets die s1 ts s2 fresh
    refine (foldl_projection (g := fun u : State => (u.mem, u.dies)) ?_ _ _).trans rfl
    intro t i
    obtain ⟨h1, h2⟩ := t.setLink_kept die i 1
    dsimp only
    split <;> exact Prod.ext h1 h2
  exact ⟨congrArg Prod.fst h, congrArg Prod.snd h⟩

theorem State.returnEntry_of {s : State} {w : Nat} {d : Die} (hd : s.die? (wingDie w) = some d) :
    s.returnEntry w = if (!d.present || d.isoState != 1 || (d.isoCause == 4 && s.pkg.bridgeDown)) = true then .error 6
      else .ok ((s.updDie (wingDie w) fun d => { d with isoState := 2 }).resetWing w) := by
  unfold State.returnEntry
  rw [hd]

theorem State.isolateEntry_of {s : State} {w : Nat} {d : Die} (hd : s.die? (wingDie w) = some d) (hp : d.present = true) :
    s.isolateEntry w = .ok (s.isolateWing w 1) := by
  unfold State.isolateEntry
  rw [hd]
  dsimp only
  rw [if_neg (by simp [hp])]

theorem State.isolateWing_again {s : State} {w : Nat} {d : Die} (hd : s.die? (wingDie w) = some d) (h1 : d.isoState = 1) (cause : Nat) :
    s.isolateWing w cause = s := by
  unfold State.isolateWing
  rw [hd]
  dsimp only
  rw [if_pos (by simp [h1])]

/-- The orders of OD 0x8002 (R446-R448). -/
theorem wingOrders {s : State} {w : Nat} {d : Die} (hk : keyedAt s 0x8002) (hw : w < 4) (hd : s.die? (wingDie w) = some d)
    (hp : d.present = true) :
    (d.isoState ≠ 1 → d.isoState ≠ 3 → (∀ j ∈ s.wb.jobs, j.wing ≠ w) → (∀ x ∈ s.chans, x.wing = w → x.wq = []) →
      ∃ t e, exec (.wingIsolate (hostPort s) w) s = .next t ∧ answered t (hostPort s) 0 [] ∧
        t.die? (wingDie w) = some e ∧ e.isoState = 1 ∧ e.isoCause = 1 ∧ e.inService = false ∧ t.mem.dram = s.mem.dram ∧
        ∀ r ∈ t.mem.reads, r.wing ≠ w) ∧
    (d.isoState = 1 → (d.isoCause ≠ 4 ∨ s.pkg.bridgeDown = false) →
      (∃ t e, exec (.wingReturn (hostPort s) w) s = .next t ∧ answered t (hostPort s) 0 [] ∧ t.die? (wingDie w) = some e ∧
        e.isoState = 2 ∧ t.mem.dram = s.mem.dram ∧ (∀ l ∈ t.mem.cache, l.wing ≠ w)) ∧
      (∃ t, exec (.wingIsolate (hostPort s) w) s = .next t ∧ answered t (hostPort s) 0 [] ∧ onlyWindow s t)) ∧
    (d.isoState ≠ 1 → ∃ t, exec (.wingReturn (hostPort s) w) s = .next t ∧ answered t (hostPort s) 6 [] ∧ onlyWindow s t) := by
  have hx1 : exec (.wingIsolate (hostPort s) w) s = .next (s.dictWrite (hostPort s) 0x8002 (w + 1) 0 (leBytes 1 1)) := rfl
  have hx2 : exec (.wingReturn (hostPort s) w) s = .next (s.dictWrite (hostPort s) 0x8002 (w + 1) 0 (leBytes 1 2)) := rfl
  rw [hx1, hx2]
  have hd' : (hostWriting s 0x8002 (w + 1) 0 1).die? (wingDie w) = some d := hd
  have done {n : Nat} {u : State} (hn : n < 256) (h1 : 1 ≤ n) (h2 : n ≤ 2)
      (h : (hostWriting s 0x8002 (w + 1) 0 1).numEffect (hostPort s) 0x8002 (w + 1) 0 n = .ok u) :=
    host_done (u := u) (wingRow hw) hk.1 (fun _ => hk.2) rfl hn h1 h2 h
  have refused {n : Nat} (hn : n < 256) (h1 : 1 ≤ n) (h2 : n ≤ 2)
      (h : (hostWriting s 0x8002 (w + 1) 0 1).numEffect (hostPort s) 0x8002 (w + 1) 0 n = .error 6) :=
    host_refused (wingRow hw) hk.1 (fun _ => hk.2) rfl hn h1 h2 h
  have hpkg : (hostWriting s 0x8002 (w + 1) 0 1).pkg = s.pkg := rfl
  have hiso := State.isolateEntry_of hd' hp
  have hret := State.returnEntry_of hd'
  refine ⟨fun h1 h3 hj hc => ?_, fun h1 hb => ⟨?_, ?_⟩, fun h1 => ?_⟩
  · obtain ⟨t, ht, ha, ho⟩ := done (n := 1) (by decide) (by decide) (by decide) hiso
    obtain ⟨e, he, hin, hst, hca⟩ := State.isolateWing_isolated hd' hp h1 h3 1
    obtain ⟨hdram, hreads⟩ := State.isolateWing_stores hd' hp h1 h3 hj hc 1
    obtain ⟨hmem, -⟩ := onlyWindow_kept ho
    refine ⟨t, e, ht, ha, (State.die?_dies (congrArg State.dies ho :) _).trans he, hst, hca, hin, ?_, fun r hr => ?_⟩
    · exact (congrArg MemState.dram hmem :).trans hdram
    · rw [hmem, hreads] at hr
      simpa using (List.mem_filter.mp hr).2
  · obtain ⟨t, ht, ha, ho⟩ := done (n := 2) (by decide) (by decide) (by decide)
      (hret.trans (if_neg (by rw [hpkg]; rcases hb with h | h <;> simp [hp, h1, h])))
    obtain ⟨hmem, -⟩ := onlyWindow_kept ho
    obtain ⟨k1, k2⟩ := State.resetWing_kept ((hostWriting s 0x8002 (w + 1) 0 1).updDie (wingDie w) fun d => { d with isoState := 2 }) w
    rw [k1] at hmem
    refine ⟨t, _, ht, ha, (State.die?_dies ((congrArg State.dies ho :).trans k2) _).trans (State.die?_updDie_of hd' fun _ => rfl), rfl, ?_, fun l hl => ?_⟩
    · exact (congrArg MemState.dram hmem :)
    · rw [hmem] at hl
      simpa using (List.mem_filter.mp hl).2
  · obtain ⟨t, ht, ha, ho⟩ := done (n := 1) (by decide) (by decide) (by decide) (hiso.trans (congrArg Except.ok (State.isolateWing_again hd' h1 1)))
    exact ⟨t, ht, ha, ho⟩
  · exact refused (n := 2) (by decide) (by decide) (by decide) (hret.trans (if_pos (by simp [h1])))

/-- Settles O41: the orders of a channel and of a Wing by their rows and their effects. -/
theorem channelAndWingOrders : Obligations.ChannelAndWingOrders := by
  refine fun s => ⟨fun c w sel hk hw hsel hc hg => ?_, fun w d => wingOrders⟩
  subst hw hsel
  exact channelOrders hk hc hg

end Sys2Proof.Machine
end

section
/-! PROOF. What applying an edition leaves alone: the time, the package, the dies, and the editions' state but for the edition in force
(R344). -/

namespace Sys2Proof.Machine

open Sys2Proof.Claims

/-! The commands, jobs and forks a commit ends (R62, R179). -/

theorem State.commitJobs_rim (s : State) (old new : Edition) : (s.commitJobs old new).rim = s.rim := by
  refine foldl_projection (g := State.rim) ?_ _ _
  intro t j
  split
  · exact State.abortJob_rim ..
  · split
    · exact State.abortJob_rim ..
    · rfl

theorem State.dropBlock_core (s : State) (c w blk : Nat) : (s.dropBlock c w blk).1.core = s.core :=
  (State.zeroBlock_core ..).trans (State.forgetBlock_core ..)

theorem State.dropRange_core (s : State) (c lo hi : Nat) : (s.dropRange c lo hi).1.core = s.core := by
  refine (State.settle_core ..).trans (foldl_fst_projection (g := State.core) ?_ _ _)
  exact fun z k => State.dropBlock_core ..

theorem State.undoFork_rim (s : State) (f : ForkJob) : (s.undoFork f).rim = s.rim := by
  unfold State.undoFork
  split
  · rfl
  · dsimp only
    refine (State.updMem_rim ..).trans (rim_of_core (foldl_projection (g := State.core) ?_ _ _))
    exact fun t k => State.dropBlock_core ..

theorem State.undoPin_rim (s : State) (x : Cmd) : (s.undoPin x).rim = s.rim := by
  unfold State.undoPin
  extract_lets gal s1
  have h1 : s1.rim = s.rim := by
    refine foldl_projection (g := State.rim) ?_ _ _
    intro t k
    split
    · exact rim_of_core (State.updLot_core ..)
    · rfl
  exact h1

theorem State.endCmd_rim (s : State) (x : Cmd) (status detail result : Nat) : (s.endCmd x status detail result).rim = s.rim := by
  have h := s.endCmd_onlyNoted x status detail result
  unfold onlyNoted at h
  rw [h]
  rfl

theorem State.abortCmd_rim (s : State) (x : Cmd) : (s.abortCmd x).rim = s.rim := by
  unfold State.abortCmd
  refine (State.endCmd_rim ..).trans ((State.undoPin_rim ..).trans (foldl_projection (g := State.rim) ?_ _ _))
  exact fun t f => State.undoFork_rim ..

/-! Collections made and destroyed (R39, R45, R240). -/

theorem Transmits.rim {s t : State} (h : Transmits s t) : t.rim = s.rim := by
  rw [h.eq]
  rfl

theorem Transmits.mem {s t : State} (h : Transmits s t) : t.mem = s.mem := by rw [h.eq]

/-- A key goes to a Wing by messages alone (R240). -/
theorem State.sendKey_transmits (s : State) (c w : Nat) (k : BitVec 512) : Transmits s (s.sendKey c w k) := by
  unfold State.sendKey
  refine Transmits.foldl ?_ _ _
  intro t e
  split
  · exact .refl t
  · split
    · exact .refl t
    · split
      · exact State.sendData_transmits ..
      · exact .refl t

theorem sendKeys_transmits (c : Nat) (k : BitVec 512) (ws : List Nat) (s : State) :
    Transmits s (ws.foldl (fun s w => s.sendKey c w k) s) :=
  Transmits.foldl (fun t w => t.sendKey_transmits c w k) ws s

theorem State.collKey_rim (s : State) (c : Nat) (ws : List Nat) : (s.collKey c ws).2.rim = s.rim := by
  unfold State.collKey
  split
  · rfl
  · exact (sendKeys_transmits ..).rim

theorem State.createColl_rim (s : State) (c : Nat) : (s.createColl c).rim = s.rim := s.collKey_rim c _

theorem State.enterDc_rim (s : State) (v : DcEvent) : (s.enterDc v).rim = s.rim := by
  unfold State.enterDc
  extract_lets p empty s1 s2 r s3 s4
  have h2 : s2.rim = s.rim := by
    unfold s2
    split <;> rfl
  have h4 : s4.rim = s2.rim := rim_of_bare ((State.pme_onlyRecords (State.event_onlyRecords (.refl s2))).bare
    ((State.pme_wires ..).trans (State.raiseAs_wires ..)))
  split
  · split
    · exact (rim_of_bare ((State.signal_onlyRecords (.refl s4)).bare (State.signal_wires ..))).trans (h4.trans h2)
    · exact h4.trans h2
  · exact h4.trans h2

theorem State.tryPortAux_rim (p : Nat) (n : Nat) (s : State) : (State.tryPortAux p n s).rim = s.rim := by
  induction n generalizing s with
  | zero => rfl
  | succ n ih =>
    unfold State.tryPortAux
    split
    · exact (ih _).trans (State.enterDc_rim ..)
    · rfl

theorem State.tryPort_rim (s : State) (p : Nat) : (s.tryPort p).rim = s.rim := State.tryPortAux_rim ..

theorem State.dcEvent_rim (s : State) (x : Extent) (add : Bool) : (s.dcEvent x add).rim = s.rim := State.tryPort_rim ..

theorem State.offer_rim (s : State) (c p : Nat) (view : Bool) : (s.offer c p view).rim = s.rim := State.dcEvent_rim ..

theorem State.withdraw_rim (s : State) (x : Extent) (limit : Nat) : (s.withdraw x limit).rim = s.rim := by
  unfold State.withdraw
  split
  · exact State.tryPort_rim ..
  · split
    · exact State.tryPort_rim ..
    · exact State.dcEvent_rim ..
  · exact State.dcEvent_rim ..
  · rfl
  · rfl

theorem State.destroyColl_rim (s : State) (c limit : Nat) : (s.destroyColl c limit).rim = s.rim := by
  unfold State.destroyColl
  extract_lets s0 s1 gone s2
  have h0 : s0.rim = s.rim := by
    refine foldl_projection (g := State.rim) ?_ _ _
    exact fun t x => State.withdraw_rim ..
  exact h0

/-! Extents, pools, caches and bindings (R42, R51, R142, R192). -/

theorem State.syncExtents_rim (s : State) (old : Edition) : (s.syncExtents old).rim = s.rim := by
  unfold State.syncExtents
  extract_lets stale s1
  have h1 : s1.rim = s.rim := by
    refine foldl_projection (g := State.rim) ?_ _ _
    exact fun t x => State.withdraw_rim ..
  refine (foldl_projection (g := State.rim) ?_ _ _).trans h1
  intro t c
  refine foldl_projection (g := State.rim) ?_ _ _
  intro t p
  refine foldl_projection (g := State.rim) ?_ _ _
  intro t v
  split
  · exact State.offer_rim ..
  · rfl

theorem State.clearPools_rim (s : State) (old : Edition) : (s.clearPools old).rim = s.rim := by
  unfold State.clearPools
  refine foldl_projection (g := State.rim) ?_ _ _
  intro t c
  refine foldl_projection (g := State.rim) ?_ _ _
  intro t p
  split
  · rfl
  · dsimp only
    split
    · exact rim_of_core (State.dropRange_core ..)
    · rfl

theorem State.trimCaches_rim (s : State) : s.trimCaches.rim = s.rim := by
  unfold State.trimCaches
  refine foldl_projection (g := State.rim) ?_ _ _
  intro t c
  refine foldl_projection (g := State.rim) ?_ _ _
  intro t w
  split
  · exact rim_of_core (State.makeRoom_core ..)
  · rfl

theorem State.trimLoans_rim (s : State) : s.trimLoans.rim = s.rim := rfl

theorem State.trimPins_rim (s : State) : s.trimPins.rim = s.rim := rfl

theorem State.startRole_rim (s : State) (d : Nat) : (s.startRole d).rim = s.rim := by
  rw [State.startRole_frame]
  rfl

theorem State.endProgram_rim (s : State) (d : Nat) (c : Ctx) : (s.endProgram d c).rim = s.rim := by
  unfold State.endProgram
  dsimp only
  split
  · split
    · exact State.startRole_rim ..
    · rfl
  · rfl

theorem State.applyBindings_rim (s : State) (old : Edition) : (s.applyBindings old).rim = s.rim := by
  unfold State.applyBindings
  refine foldl_projection (g := State.rim) ?_ _ _
  intro t x
  dsimp only
  split
  · rfl
  · refine (State.startRole_rim ..).trans ?_
    split
    · exact (State.endProgram_rim ..).trans rfl
    · rfl

theorem State.orderFreq_rim (s : State) (f : Nat) : (s.orderFreq f).rim = s.rim := by
  unfold State.orderFreq
  split
  · rfl
  · dsimp only
    split <;> rfl

theorem State.syncFreq_rim (s : State) (old : Edition) : (s.syncFreq old).rim = s.rim := by
  unfold State.syncFreq
  split
  · rfl
  · exact State.orderFreq_rim ..

theorem State.rederiveAll_rim (s : State) : s.rederiveAll.rim = s.rim :=
  foldl_projection (g := State.rim) (fun t w => t.rederive_rim w) _ _

/-- An edition in force changes the rim in the edition in force alone (R344). -/
theorem State.applyFast_rim (s : State) (force new : Edition) :
    (s.applyFast force new).rim = (s.updEd fun e => { e with active := force }).rim := by
  unfold State.applyFast
  extract_lets old s0 s1 s2 s3 s4 s5
  have h0 : s0.rim = s.rim := by
    refine (foldl_projection (g := State.rim) ?_ _ _).trans ((State.commitJobs_rim ..).trans (rim_of_bare (State.settleBuckets_bare ..)))
    exact fun t x => State.abortCmd_rim ..
  have h1 : s1.rim = (s.updEd fun e => { e with active := force }).rim :=
    (congrArg (fun u : EdState × Pkg × Nat × List Die × IdState => ({ u.1 with active := force }, u.2)) h0 :)
  have h2 : s2.rim = s1.rim := by
    refine foldl_projection (g := State.rim) ?_ _ _
    exact fun t c => State.createColl_rim ..
  have h3 : s3.rim = s2.rim := by
    refine foldl_projection (g := State.rim) ?_ _ _
    exact fun t c => State.destroyColl_rim ..
  have h4 : s4.rim = s3.rim := (State.trimPins_rim ..).trans ((State.trimLoans_rim ..).trans ((State.trimCaches_rim ..).trans
    ((State.clearPools_rim ..).trans (State.syncExtents_rim ..))))
  have h5 : s5.rim = s4.rim := (State.syncFreq_rim ..).trans (State.applyBindings_rim ..)
  have h6 : (force.colls.foldl (fun s c => s.settle c) s5).rim = s5.rim := by
    refine foldl_projection (g := State.rim) ?_ _ _
    exact fun t c => rim_of_core (State.settle_core ..)
  exact (State.rederiveAll_rim ..).trans (h6.trans (h5.trans (h4.trans (h3.trans (h2.trans h1)))))

end Sys2Proof.Machine
end

section
/-! PROOF. Commits from their command to their end, and reverts (R289, R344-R348): O39. -/

namespace Sys2Proof.Machine

open Sys2Proof.Claims

theorem updEd_rim {s t : State} (h : t.rim = s.rim) {f : EdState → EdState} (hf : ∀ u : State, (u.updEd f).rim = (f u.rim.1, u.rim.2)) :
    (t.updEd f).rim = (s.updEd f).rim := by
  rw [hf, hf, h]

theorem held_of_rim {s t : State} (h : t.rim = s.rim) : t.ed.heldReqs = s.ed.heldReqs := (congrArg (fun u => u.1.heldReqs) h :)

/-! The command (R345, R347). -/

theorem commitRow : HostRow 0x7002 1 (num 0x7002 1 1 4 5 0 0 1) where
  row := by decide
  subOk := by decide
  idxOk := by decide
  vis := by decide
  readable := by decide
  writable := by decide
  ty := by decide
  cursor := by decide

/-- The keys of the collections an edition creates change nothing but what was sent, the Corridor and the keys held (R240, R345). -/
theorem State.prepareKeys_kept (s : State) (new : Edition) : (s.prepareKeys new).rim = s.rim ∧ (s.prepareKeys new).mem = s.mem := by
  have h : ((s.prepareKeys new).rim, (s.prepareKeys new).mem) = (s.rim, s.mem) := by
    unfold State.prepareKeys
    refine foldl_projection (g := fun u : State => (u.rim, u.mem)) ?_ _ _
    intro t c
    have hk := sendKeys_transmits c t.newKey.1 (t.namedWings new c) t.newKey.2
    exact Prod.ext (hk.rim :) (hk.mem :)
  exact ⟨congrArg Prod.fst h, congrArg Prod.snd h⟩

/-- COMMIT (R345, R347). -/
theorem commitCommand : CommitCommand := by
  intro s n hk hn
  have hhi : n ≤ (num 0x7002 1 1 4 5 0 0 1).hi := Nat.le_of_lt_succ hn
  have hms : ms = 1000000 := rfl
  have hcn : commitNotice = 5000000 := rfl
  generalize hw : hostWriting s 0x7002 1 0 8 = w
  have hed : w.ed = s.ed := by
    rw [← hw]
    rfl
  have hpkg : w.pkg = s.pkg := by
    rw [← hw]
    rfl
  have htsc : w.tsc = s.tsc := by
    rw [← hw]
    rfl
  have hmem : w.mem = s.mem := by
    rw [← hw]
    rfl
  have hx : exec (.commit (hostPort s) n) s = .next (s.dictWrite (hostPort s) 0x7002 1 0 (leBytes 8 n)) := rfl
  have heff : w.numEffect (hostPort s) 0x7002 1 0 n = w.commitEntry n := rfl
  have heff' : (hostWriting s 0x7002 1 0 8).numEffect (hostPort s) 0x7002 1 0 n = w.commitEntry n :=
    (congrArg (fun v : State => v.numEffect (hostPort s) 0x7002 1 0 n) hw).trans heff
  have refused {c : Nat} (h : w.commitEntry n = .error c) :=
    host_refused (c := c) commitRow hk.1 (fun _ => hk.2) rfl hn (Nat.zero_le _) hhi (heff'.trans h)
  rw [hx]
  unfold State.commitEntry at heff' refused
  dsimp only at heff' refused
  rw [hed, hpkg, htsc, hcn, hms] at heff' refused
  refine ⟨fun h3 hc h0 hin => ?_, fun hn0 hout => ?_, fun hn0 hno => ?_⟩
  · rw [if_neg (by rcases hin with h | ⟨hm, h1, h2⟩ <;> simp_all), if_neg (by simp [h3, hc, h0])] at heff'
    obtain ⟨t, ht, ha, ho⟩ := host_done commitRow hk.1 (fun _ => hk.2) rfl hn (Nat.zero_le _) hhi heff'
    obtain ⟨hrim, hkm⟩ := w.prepareKeys_kept (s.ed.staged.getD w.act)
    have hst := congrArg (fun e : EdState => e.staged) (ed_of_rim hrim)
    have hact := act_of_rim hrim
    generalize w.prepareKeys (s.ed.staged.getD w.act) = v at ho hkm hst hact
    have hte : t.ed = { v.ed with stagedState := 5, phase := 1, accepted := s.tsc, decision := 0, decisionDie := 0, lease := t.ed.lease,
                                  instant := if n = 0 then s.tsc + 5000000 else n } := (congrArg State.ed ho :)
    refine ⟨t, ht, ha, ?_, ?_, ?_, ?_, ?_, ?_⟩
    · rw [hte]
    · rw [hte]
    · rw [hte]
    · rw [hte, ← hed]
      exact hst
    · refine Eq.trans (congrArg EdState.active hte :) (hact.trans ?_)
      exact congrArg EdState.active hed
    · exact (onlyWindow_kept ho).1.trans (hkm.trans hmem)
  · refine refused (if_pos ?_)
    rcases hout with h | h | h <;> simp [hn0, h]
  · refine refused ((if_neg (by simp [hn0])).trans (if_pos ?_))
    rcases hno with h | h <;> simp [h]

/-! The question and the decision (R289, R345). -/

/-- A commit that fails before its instant leaves the editions as they were, and memory (R289, R345). -/
theorem State.failCommit_spec {s : State} {x : Edition} (hx : s.ed.staged = some x) (h5 : s.ed.stagedState = 5) (failure die : Nat) :
    (s.failCommit failure die).rim = (s.updEd fun e => { e with stagedState := 3, phase := 0, decision := 0, decisionDie := 0, lastCommit := 2,
                                                                failure := failure }).rim ∧ (s.failCommit failure die).mem = s.mem := by
  refine ⟨?_, (State.failCommit_pkg ..).2⟩
  unfold State.failCommit
  rw [hx]
  dsimp only
  rw [if_pos h5]
  exact (State.event_rim ..).trans rfl

/-- COMMIT_HASH_QUERY and COMMIT_DECISION (R289, R345). -/
theorem commitAgreement : CommitAgreement := by
  intro s x answers hr hx
  have hms : ms = 1000000 := rfl
  have fails (f die : Nat) (h5 : s.ed.stagedState = 5) : (s.failCommit f die).ed.stagedState = 3 ∧ (s.failCommit f die).ed.phase = 0 ∧
      (s.failCommit f die).ed.lastCommit = 2 ∧ (s.failCommit f die).ed.failure = f ∧ (s.failCommit f die).act = s.act ∧
      (s.failCommit f die).ed.staged = some x ∧ (s.failCommit f die).mem = s.mem := by
    obtain ⟨h, hm⟩ := State.failCommit_spec hx h5 f die
    have he := ed_of_rim h
    refine ⟨?_, ?_, ?_, ?_, (act_of_rim h).trans rfl, ?_, hm⟩ <;> rw [he]
    · rfl
    · rfl
    · rfl
    · rfl
    · exact hx
  refine ⟨fun hp hi => ?_, fun hp hi => ?_⟩
  · have hq : exec (.commitHashQuery answers) s = execCommitHashQuery answers s := rfl
    rw [hq]
    unfold execCommitHashQuery
    rw [hx]
    dsimp only
    rw [if_neg (by simp [hr, hp, hms]; omega)]
    refine ⟨fun hv => ?_, fun n d hv => ⟨fun hn => ?_, fun hn h5 => ?_⟩⟩
    · rw [hv]
      rfl
    · rw [hv]
      exact congrArg Host.Outcome.next (if_neg hn)
    · rw [hv]
      exact ⟨_, congrArg Host.Outcome.next (if_pos hn), fails 1 d h5⟩
  · have hq : exec .commitDecision s = execCommitDecision s := rfl
    rw [hq]
    unfold execCommitDecision
    rw [if_neg (by simp [hr, hp, hms]; omega)]
    exact ⟨fun hd => congrArg Host.Outcome.next (if_pos hd), fun hd h5 => ⟨_, congrArg Host.Outcome.next (if_neg hd), fails _ _ h5⟩⟩

/-! An edition takes force (R344, R346-R348). -/

/-- The committed edition is in force, the old one is PREVIOUS, and the new one awaits confirmation (R346). -/
theorem State.takeForce_commit (s : State) (old new : Edition) (n : Nat) :
    (s.takeForce old new n false).act = s.act ∧ (s.takeForce old new n false).ed.heldReqs = s.ed.heldReqs ∧
      (s.takeForce old new n false).ed.previous = some old ∧ (s.takeForce old new n false).ed.confirmed = false ∧
      (s.takeForce old new n false).ed.lastCommit = 1 ∧ (s.takeForce old new n false).ed.staged = none ∧
      (s.takeForce old new n false).ed.stagedState = 0 := by
  have h : (s.takeForce old new n false).rim = ((s.updEd EdState.unstaged).updEd fun e =>
      { e with previous := some old, confirmed := false, deadline := n + new.nat 0x7003 1 0 30000 * ms, lastCommit := 1,
               failure := 0, decision := 0, decisionDie := 0 }).rim := State.event_rim ..
  have he := ed_of_rim h
  refine ⟨(act_of_rim h).trans rfl, (held_of_rim h).trans rfl, ?_, ?_, ?_, ?_, ?_⟩ <;> rw [he] <;> rfl

/-- PREVIOUS is in force again, confirmed (R348). -/
theorem State.takeForce_revert (s : State) (old new : Edition) (n : Nat) :
    (s.takeForce old new n true).act = s.act ∧ (s.takeForce old new n true).ed.heldReqs = s.ed.heldReqs ∧
      (s.takeForce old new n true).ed.previous = none ∧ (s.takeForce old new n true).ed.confirmed = true ∧
      (s.takeForce old new n true).ed.lastCommit = 3 := by
  have h : (s.takeForce old new n true).rim = (s.updEd fun e =>
      { e with previous := none, confirmed := true, deadline := 0, lastCommit := 3 }).rim := State.event_rim ..
  have he := ed_of_rim h
  refine ⟨(act_of_rim h).trans rfl, (held_of_rim h).trans rfl, ?_, ?_, ?_⟩ <;> rw [he] <;> rfl

theorem State.takeForce_kept (s : State) (old new : Edition) (n : Nat) (revert : Bool) :
    (s.takeForce old new n revert).act = s.act ∧ (s.takeForce old new n revert).ed.heldReqs = s.ed.heldReqs := by
  cases revert with
  | false =>
    obtain ⟨h1, h2, -⟩ := s.takeForce_commit old new n
    exact ⟨h1, h2⟩
  | true =>
    obtain ⟨h1, h2, -⟩ := s.takeForce_revert old new n
    exact ⟨h1, h2⟩

theorem State.breakKey_kept (s : State) (cause : Nat) : (s.breakKey cause).act = s.act ∧ (s.breakKey cause).ed.heldReqs = s.ed.heldReqs := by
  unfold State.breakKey
  split
  · exact ⟨rfl, rfl⟩
  · extract_lets h s1
    have h1 : s1.rim = (s.updEd fun e => { e with holder := .free, lease := 0 }).rim :=
      rim_of_bare ((State.event_bare ..).trans (State.bump_bare ..))
    have hk : s1.act = s.act ∧ s1.ed.heldReqs = s.ed.heldReqs := ⟨(act_of_rim h1).trans rfl, (held_of_rim h1).trans rfl⟩
    split
    · split
      · exact hk
      · next x _ _ =>
        have h2 := (s1.updEd EdState.unstaged).event_rim .d 0x61 s.primarySrc 0xFFFF (leBytes 4 x.num)
        exact ⟨(act_of_rim h2).trans hk.1, (held_of_rim h2).trans hk.2⟩
    · exact hk

/-- The slow objects applied: the edition is in force whole (R344). -/
theorem State.applySlow_act (s : State) (new : Edition) : (s.applySlow new).act = new ∧ (s.applySlow new).ed.heldReqs = s.ed.heldReqs := by
  unfold State.applySlow
  extract_lets old s1
  have h : s1.rim = (s.updEd fun e => { e with active := new }).rim := State.applyFast_rim ..
  have hk : s1.act = new ∧ s1.ed.heldReqs = s.ed.heldReqs := ⟨(act_of_rim h).trans rfl, (held_of_rim h).trans rfl⟩
  clear_value s1
  split
  · obtain ⟨h1, h2⟩ := s1.breakKey_kept 3
    exact ⟨h1.trans hk.1, h2.trans hk.2⟩
  · exact hk

theorem State.releaseHeldReqs_nil {s : State} (h : s.ed.heldReqs = []) : s.releaseHeldReqs = s := by
  unfold State.releaseHeldReqs
  rw [h]
  have he : s.updEd (fun e => { e with heldReqs := [] }) = s := by
    unfold State.updEd
    rw [← h]
  exact he

/-- An edition at its instant (R345, R346, R348). -/
theorem State.reachInstant_commit (s : State) (new : Edition) (n : Nat) :
    (s.reachInstant new n false).act = mixEdition s.act new ∧ (s.reachInstant new n false).ed.previous = some s.act ∧
      (s.reachInstant new n false).ed.confirmed = false ∧ (s.reachInstant new n false).ed.lastCommit = 1 ∧
      (s.reachInstant new n false).ed.staged = none ∧ (s.reachInstant new n false).ed.stagedState = 0 ∧
      (s.reachInstant new n false).ed.quiescing = isSlow s.act new := by
  have ha := (act_of_rim (s.applyFast_rim (mixEdition s.act new) new)).trans rfl
  obtain ⟨h1, -, h2, h3, h4, h5, h6⟩ := (s.applyFast (mixEdition s.act new) new).takeForce_commit s.act new n
  have hact := h1.trans ha
  unfold State.reachInstant
  dsimp only
  generalize (s.applyFast (mixEdition s.act new) new).takeForce s.act new n false = u at *
  split
  next h => exact ⟨hact, h2, h3, h4, h5, h6, h.symm⟩
  next h => exact ⟨hact, h2, h3, h4, h5, h6, by simpa using h⟩

theorem State.reachInstant_revert (s : State) (new : Edition) (n : Nat) :
    (s.reachInstant new n true).act = mixEdition s.act new ∧ (s.reachInstant new n true).ed.previous = none ∧
      (s.reachInstant new n true).ed.confirmed = true ∧ (s.reachInstant new n true).ed.lastCommit = 3 := by
  have ha := (act_of_rim (s.applyFast_rim (mixEdition s.act new) new)).trans rfl
  obtain ⟨h1, -, h2, h3, h4⟩ := (s.applyFast (mixEdition s.act new) new).takeForce_revert s.act new n
  have hact := h1.trans ha
  unfold State.reachInstant
  dsimp only
  generalize (s.applyFast (mixEdition s.act new) new).takeForce s.act new n true = u at *
  split <;> exact ⟨hact, h2, h3, h4⟩

/-- A swap whole (R347, R348). -/
theorem State.swapWhole_act (s : State) (new : Edition) (n : Nat) (revert : Bool) :
    (s.swapWhole new n revert).act = new ∧ (s.swapWhole new n revert).ed.heldReqs = s.ed.heldReqs ∧
      (s.swapWhole new n revert).ed.quiescing = false ∧ (s.swapWhole new n revert).ed.quiesced = [] ∧
      (s.swapWhole new n revert).ed.incoming = none := by
  obtain ⟨h1, h2⟩ := s.applySlow_act new
  obtain ⟨k1, k2⟩ := (s.applySlow new).takeForce_kept s.act new n revert
  exact ⟨k1.trans h1, k2.trans h2, rfl, rfl, rfl⟩

/-- COMMIT_INSTANT and QUIESCED_SWAP (R289, R344-R347). -/
theorem commitTakesForce : CommitTakesForce := by
  intro s x hx hi
  have hq1 : exec .commitInstant s = execCommitInstant s := rfl
  have hq2 : exec .quiescedSwap s = execQuiescedSwap s := rfl
  have hinst (hm : s.pkg.mark ≠ 1) : ¬(!s.atInstant || s.pkg.mark == 1) = true := by simp [hi, hm]
  have hswap (hm : s.pkg.mark = 1) (hf : s.act.colls.any s.inFlight = false) :
      ¬(!s.atInstant || s.pkg.mark != 1 || s.act.colls.any s.inFlight) = true := by simp [hi, hm, hf]
  rw [hq1, hq2]
  unfold execCommitInstant execQuiescedSwap
  rw [hx]
  dsimp only
  refine ⟨fun hr => ⟨fun hm => ?_, fun hm hf hl => ?_⟩, fun d hr h5 => ⟨fun hm => ?_, fun hm hf hl => ?_⟩⟩
  · rw [if_neg (hinst hm), hr]
    exact ⟨_, rfl, s.reachInstant_commit x s.ed.instant⟩
  · rw [if_neg (hswap hm hf), hr]
    obtain ⟨h1, h2, -⟩ := s.swapWhole_act x s.ed.instant false
    dsimp only
    rw [State.releaseHeldReqs_nil (h2.trans hl)]
    obtain ⟨-, -, k1, k2, -, k3, -⟩ := (s.applySlow x).takeForce_commit s.act x s.ed.instant
    exact ⟨_, rfl, h1, k1, k2, k3⟩
  · rw [if_neg (hinst hm), hr]
    obtain ⟨h, -⟩ := State.failCommit_spec hx h5 4 d
    have he := ed_of_rim h
    exact ⟨_, rfl, (act_of_rim h).trans rfl, (congrArg EdState.staged he).trans hx, (congrArg EdState.stagedState he).trans rfl,
      (congrArg EdState.failure he).trans rfl⟩
  · rw [if_neg (hswap hm hf), hr]
    obtain ⟨h, -⟩ := State.failCommit_spec hx h5 4 d
    have he := ed_of_rim h
    dsimp only
    rw [State.releaseHeldReqs_nil ((held_of_rim h).trans hl)]
    exact ⟨_, rfl, (act_of_rim h).trans rfl, (congrArg EdState.staged he).trans hx, (congrArg EdState.stagedState he).trans rfl,
      (congrArg EdState.failure he).trans rfl⟩

/-- QUIESCE_COMPLETE and CONFIRM_DEADLINE (R344, R348). -/
theorem quiesceAndRevert : QuiesceAndRevert := by
  intro s x hr
  have hq1 : exec .quiesceComplete s = execQuiesceComplete s := rfl
  have hq2 : exec .confirmDeadline s = execConfirmDeadline s := rfl
  rw [hq1, hq2]
  unfold execQuiesceComplete execConfirmDeadline
  refine ⟨fun hin hq hd hl => ?_, fun hp hc hq ht => ?_⟩
  · rw [hin]
    dsimp only
    rw [if_neg (by simp [hr, hq, hd])]
    split
    · obtain ⟨h1, h2, h3⟩ := s.swapWhole_act x s.ed.deadline s.ed.reverting
      rw [State.releaseHeldReqs_nil (h2.trans hl)]
      exact ⟨_, rfl, h1, h3⟩
    · obtain ⟨h1, h2⟩ := s.applySlow_act x
      have hn := State.releaseHeldReqs_nil (s := (s.applySlow x).updEd fun e =>
        { e with quiescing := false, incoming := none, reverting := false, quiesced := [] }) (h2.trans hl)
      exact ⟨_, congrArg Host.Outcome.next hn, h1, rfl, rfl, rfl⟩
  · rw [hp]
    dsimp only
    rw [if_neg (by simp [hr, hc, hq, ht])]
    refine ⟨fun hm => ?_, fun hm => ?_⟩
    · rw [if_neg hm]
      exact ⟨_, rfl, s.reachInstant_revert x s.ed.deadline⟩
    · rw [if_pos hm]
      rfl

/-- Settles O39: applying an edition leaves the editions' state as it was but for the edition in force (`applyFast_rim`), so that a
commit's and a revert's own changes stand. -/
theorem commitsAndReverts : Obligations.CommitsAndReverts := ⟨commitCommand, commitAgreement, commitTakesForce, quiesceAndRevert⟩

end Sys2Proof.Machine
end

section
/-! PROOF. Ingest records (R115-R118): O17. -/

namespace Sys2Proof.Machine

open Sys2Proof.Claims

theorem core_ingest {s t : State} (h : t.core = s.core) : t.mem.ingest = s.mem.ingest := congrArg (fun u => u.mem.ingest) h

theorem State.bump_drops (s : State) (i j k n : Nat) : BlocksDropped s (s.bump i j k n) := by
  have h := State.bump_mem s i j k n
  exact .of_mem (by rw [h]) (by rw [h]) (by rw [h]) (by rw [h]) (by rw [h]) (by rw [h])

theorem State.updStream_drops (s : State) (k : Carrier) (f : IngestStream → IngestStream) : BlocksDropped s (s.updStream k f) :=
  .of_mem rfl rfl rfl rfl rfl rfl

/-- A block with no line left becomes ZERO, with none (R59). -/
theorem State.zeroBlock_vacant {s : State} {c w b : Nat} (h : s.blockLines c w b = []) : (s.zeroBlock c w b).vacant c w b := by
  have hstep := (State.recall_drops s c fun l => l / 64 == b).trans (State.putZero_drops _ c w b)
  refine BlocksDropped.vacant (State.freeRuns_drops ..) ⟨State.entry_putZero .., ?_⟩
  exact List.filter_eq_nil_iff.mpr fun l hl => List.filter_eq_nil_iff.mp h l (hstep.lines l hl)

theorem State.zeroBlock_drops (s : State) (c w b : Nat) : BlocksDropped s (s.zeroBlock c w b) :=
  ((State.recall_drops ..).trans (State.putZero_drops ..)).trans (State.freeRuns_drops ..)

theorem State.forgetBlock_lines (s : State) (c w b : Nat) : (s.forgetBlock c w b).blockLines c w b = [] := by
  refine List.filter_eq_nil_iff.mpr fun l hl hof => ?_
  have hl := (List.mem_filter.mp hl).2
  simp only [CacheLine.ofBlock, Bool.and_eq_true, beq_iff_eq] at hof
  simp [hof] at hl

/-- An accepted record stores its block by the memory path alone (R116). -/
theorem State.acceptRecord_core (s : State) (c : Nat) (r : Bytes) : (s.acceptRecord c r).core = s.core := by
  unfold State.acceptRecord
  dsimp only
  split
  · simp [-State.updColl_eq]
  · simp [-State.updColl_eq]

/-- An accepted record with the zero flag empties its block (R116). -/
theorem State.acceptRecord_zero {s : State} {c : Nat} {r : Bytes} (h : fieldAt r 3 1 = 1) :
    (s.acceptRecord c r).vacant c (s.place c (4096 * fieldAt r 8 8)).wing (fieldAt r 8 8) ∧ (s.acceptRecord c r).mem.dram = s.mem.dram := by
  unfold State.acceptRecord
  dsimp only
  rw [if_pos h]
  generalize (s.place c (4096 * fieldAt r 8 8)).wing = w
  generalize fieldAt r 8 8 = blk
  have hb := State.bump_drops (s.forgetBlock c w blk) 0x3009 1 c 1
  have hlines : ((s.forgetBlock c w blk).bump 0x3009 1 c 1).blockLines c w blk = [] :=
    List.filter_eq_nil_iff.mpr fun l hl => List.filter_eq_nil_iff.mp (s.forgetBlock_lines c w blk) l (hb.lines l hl)
  have hz := State.zeroBlock_drops ((s.forgetBlock c w blk).bump 0x3009 1 c 1) c w blk
  exact ⟨(State.settle_drops ..).vacant (State.zeroBlock_vacant hlines),
    ((((s.forgetBlock_drops c w blk).trans hb).trans hz).trans (State.settle_drops ..)).dram⟩

/-- A refused record is noted and counted; no entry, line or stored byte changes (R118). -/
theorem State.refuseRecord_spec (s : State) (k : Carrier) (c : Nat) (r : Bytes) (why : Nat) :
    ∃ u : State, u.mem.ingest = s.mem.ingest ∧ u.mem.cat = s.mem.cat ∧ u.mem.dram = s.mem.dram ∧ u.mem.cache = s.mem.cache ∧
      s.refuseRecord k c r why = u.updStream k fun x => { x with refused := x.refused + 1 } := by
  unfold State.refuseRecord
  extract_lets blk lobby w s1
  have hb : (s1.bump 0x3009 2 c 1).bare = s.bare := (State.bump_bare ..).trans (State.coalesceC_bare ..)
  have hm := bare_mem hb
  refine ⟨_, ?_, ?_, ?_, ?_, rfl⟩ <;> rw [hm]

theorem State.updStream_stream? {s : State} {k : Carrier} {x : IngestStream} {f : IngestStream → IngestStream} (hx : s.stream? k = some x)
    (h : ∀ y, (f y).carrier = y.carrier) : (s.updStream k f).stream? k = some (f x) := by
  have hu : (s.updStream k f).stream? k = (s.stream? k).map f := find?_updWhere fun y => by rw [h]
  rw [hu, hx]
  rfl

theorem State.stream?_congr {s t : State} (h : t.mem.ingest = s.mem.ingest) (k : Carrier) : t.stream? k = s.stream? k := by
  unfold State.stream?
  rw [h]

/-- The transfer goes on while it has not all arrived, or bytes of it are left (R310, R314). -/
theorem State.streamDone_goes {s : State} {k : Carrier} {y : IngestStream} (hy : s.stream? k = some y)
    (h : y.whole = false ∨ y.bytes ≠ []) : s.streamDone k = s := by
  unfold State.streamDone
  rw [hy]
  dsimp only
  rw [if_neg (by rcases h with h | h <;> simp [h])]

/-- A record stands only where bytes stand. -/
theorem IngestStream.front_nonempty {x : IngestStream} {n : Nat} (h : x.front = .record n) : x.bytes.isEmpty = false := by
  cases hb : x.bytes with
  | cons => rfl
  | nil =>
    unfold IngestStream.front at h
    rw [hb] at h
    dsimp only at h
    simp only [List.length_nil, Nat.ofNat_pos, decide_true, Bool.true_or, if_true] at h
    repeat' split at h
    all_goals exact absurd h (by simp)

/-- A record that passes its checks. -/
theorem State.ingestOne_accepted {s : State} {k : Carrier} {x : IngestStream} {n : Nat} (hx : s.stream? k = some x) (hf : x.front = .record n)
    (hc : s.checkRecord k x.coll (slice x.bytes 0 n) = (s, none)) :
    s.ingestOne k = (s.acceptRecord x.coll (slice x.bytes 0 n)).updStream k fun y => { y.advance n with accepted := y.accepted + 1 } := by
  unfold State.ingestOne
  rw [hx]
  dsimp only
  rw [if_neg (by simp [IngestStream.front_nonempty hf]), hf]
  dsimp only
  rw [hc]

/-- A record that fails one. -/
theorem State.ingestOne_refused {s : State} {k : Carrier} {x : IngestStream} {n why : Nat} (hx : s.stream? k = some x)
    (hf : x.front = .record n) (hc : s.checkRecord k x.coll (slice x.bytes 0 n) = (s, some why)) :
    s.ingestOne k = (s.refuseRecord k x.coll (slice x.bytes 0 n) why).updStream k fun y => y.advance n := by
  unfold State.ingestOne
  rw [hx]
  dsimp only
  rw [if_neg (by simp [IngestStream.front_nonempty hf]), hf]
  dsimp only
  rw [hc]

/-- Settles O17: a record's store is the memory path's, which leaves the streams (`acceptRecord_core`). -/
theorem ingestRecords : Obligations.IngestRecords := by
  intro s k x n ha hx hf hn hleft
  have hq : exec (.ingestRecord k) s = .next ((s.ingestOne k).streamDone k) := by
    have h : exec (.ingestRecord k) s = execIngestRecord k s := rfl
    rw [h]
    exact congrArg Host.Outcome.next (if_pos ha)
  have hgo (y : IngestStream) (h1 : y.whole = x.whole) (h2 : y.bytes = x.bytes.drop n) : y.whole = false ∨ y.bytes ≠ [] := by
    rw [h1, h2]
    refine hleft.imp_right fun h he => ?_
    have := List.drop_eq_nil_iff.mp he
    omega
  have hacc (hc : s.checkRecord k x.coll (slice x.bytes 0 n) = (s, none)) :
      (s.ingestOne k).streamDone k = (s.acceptRecord x.coll (slice x.bytes 0 n)).updStream k
          (fun y => { y.advance n with accepted := y.accepted + 1 }) ∧
        ((s.ingestOne k).streamDone k).stream? k = some { x.advance n with accepted := x.accepted + 1 } := by
    rw [State.ingestOne_accepted hx hf hc]
    have hy := State.updStream_stream? (f := fun y => { y.advance n with accepted := y.accepted + 1 })
      ((State.stream?_congr (core_ingest (s.acceptRecord_core x.coll (slice x.bytes 0 n))) k).trans hx) fun _ => rfl
    have hgone := State.streamDone_goes hy (hgo _ rfl rfl)
    exact ⟨hgone, (congrArg (fun u : State => u.stream? k) hgone).trans hy⟩
  rw [hq]
  refine ⟨fun hc => ?_, fun blk w hz hc hblk hw => ?_, fun why hc => ?_⟩
  · exact ⟨_, _, rfl, (hacc hc).2, rfl, rfl, rfl⟩
  · subst hblk hw
    rw [(hacc hc).1]
    obtain ⟨hv, hd⟩ := State.acceptRecord_zero (s := s) (c := x.coll) hz
    obtain ⟨h1, h2⟩ := (State.updStream_drops _ k fun y => { y.advance n with accepted := y.accepted + 1 }).vacant hv
    exact ⟨_, rfl, h1, h2, hd⟩
  · rw [State.ingestOne_refused hx hf hc]
    obtain ⟨u, hi, h1, h2, h3, hu⟩ := s.refuseRecord_spec k x.coll (slice x.bytes 0 n) why
    rw [hu]
    have hy := State.updStream_stream? (f := fun y => y.advance n) (State.updStream_stream?
      (f := fun x => { x with refused := x.refused + 1 }) ((State.stream?_congr hi k).trans hx) fun _ => rfl) fun _ => rfl
    rw [State.streamDone_goes hy (hgo _ rfl rfl)]
    exact ⟨_, _, rfl, h1, h2, h3, hy, rfl, rfl, rfl⟩

end Sys2Proof.Machine
end

section
/-! PROOF. Loans and recalls (R285, R286): O27. -/

namespace Sys2Proof.Machine

open Sys2Proof.Claims

/-! What a read does before memory is read. -/

/-- The channels, the stored lines, the entries and the loan directory. -/
def State.shelf (s : State) : List Chan × List Host.Cell × List CatEntry × List LoanDir :=
  (s.chans, s.mem.dram, s.mem.cat, s.mem.loanDir)

theorem shelf_of_jobless {s t : State} (h : t.bare.jobless = s.bare.jobless) : t.shelf = s.shelf :=
  (congrArg (fun u : State => (u.chans, u.mem.dram, u.mem.cat, u.mem.loanDir)) h :)

theorem shelf_of_bare {s t : State} (h : t.bare = s.bare) : t.shelf = s.shelf := shelf_of_jobless (congrArg State.jobless h)

@[simp] theorem State.bump_shelf (s : State) (i j k n : Nat) : (s.bump i j k n).shelf = s.shelf := shelf_of_bare (State.bump_bare ..)

@[simp] theorem State.event_shelf (s : State) (sc : Scope) (t u c : Nat) (b : Bytes) : (s.event sc t u c b).shelf = s.shelf :=
  shelf_of_bare (State.event_bare ..)

@[simp] theorem State.coalesceC_shelf (s : State) (k u c : Nat) (b : Bytes) : (s.coalesceC k u c b).shelf = s.shelf :=
  shelf_of_bare (State.coalesceC_bare ..)

theorem State.readSram_shelf (s : State) (die unit c : Nat) (b : Sram) : (s.readSram die unit c b).1.shelf = s.shelf := by
  unfold State.readSram
  dsimp only
  split
  · simp
  · split <;> simp

theorem State.lookup_shelf (s : State) (c w line : Nat) : (s.lookup c w line).1.shelf = s.shelf := by
  unfold State.lookup
  split
  · rfl
  · extract_lets a b n s1 t
    have h1 : s1.shelf = s.shelf := by simp [s1]
    split
    · exact h1
    · split <;> exact h1

theorem State.cacheRead_shelf (s : State) (c w line : Nat) : (s.cacheRead c w line).1.shelf = s.shelf := by
  have h := s.lookup_shelf c w line
  unfold State.cacheRead
  generalize s.lookup c w line = z at h ⊢
  obtain ⟨u, l⟩ := z
  cases l with
  | none => exact h
  | some l =>
    dsimp -zeta only
    extract_lets r bad fixed s1
    have h1 : s1.shelf = s.shelf := by
      simp only [s1, State.bump_shelf]
      exact h
    split
    · split
      · exact (State.event_shelf ..).trans h1
      · exact h1
    · exact h1
    · exact h1

theorem State.mergeRead_shelf (s : State) (c w line : Nat) : (s.mergeRead c w line).1.shelf = s.shelf := by
  unfold State.mergeRead
  split
  · rfl
  · exact (State.readSram_shelf ..).trans rfl

theorem State.meter_shelf (s : State) (c w p : Nat) (read : Bool) : (s.meter c w p read).1.shelf = s.shelf := by
  unfold State.meter
  dsimp only
  split
  · rfl
  · split
    · simp
    · rfl

theorem State.meterFor_shelf (s : State) (who : Waiter) (c w : Nat) (read : Bool) : (s.meterFor who c w read).1.shelf = s.shelf := by
  unfold State.meterFor
  split
  · exact State.meter_shelf ..
  · exact State.meter_shelf ..
  · rfl
  · rfl

theorem State.anchorLost_shelf (s : State) (e : CatEntry) : (s.anchorLost e).shelf = s.shelf := by
  unfold State.anchorLost State.anchorNotice
  split
  · simp
  · rfl

/-- What a read leaves of the stored lines and the loan directory: it is answered, or joins its channel's requests (R26, R50). -/
structure ReadServed (s t : State) : Prop where
  dir : t.mem.loanDir = s.mem.loanDir
  dram : allDrained s → t.mem.dram = s.mem.dram

theorem ReadServed.answer {s u : State} (h : u.shelf = s.shelf) (who : Waiter) (c line : Nat) (d : Bytes) (poison : Bool) :
    ReadServed s (u.answer who c line d poison) := by
  have ha := (shelf_of_jobless (u.answer_bare who c line d poison)).trans h
  exact ⟨(congrArg (fun x => x.2.2.2) ha :), fun _ => (congrArg (fun x => x.2.1) ha :)⟩

theorem State.queueRead_dir (s : State) (r : PendRead) : (s.queueRead r).mem.loanDir = s.mem.loanDir := by
  have h : ({ s with fresh := s.fresh + 1 } : State).mem.loanDir = s.mem.loanDir := rfl
  have hw : ∀ u : State, (u.wakeRank r.wing r.sel (s.readAddr r)).mem.loanDir = u.mem.loanDir := fun u =>
    (congrArg MemState.loanDir (mem_of_unworked (u.wakeRank_unworked ..)) :)
  have hp : ∀ u : State, (u.pump r.wing r.sel).mem.loanDir = u.mem.loanDir := fun u =>
    (congrArg MemState.loanDir (mem_of_unworked (u.pump_unworked ..)) :)
  exact (hp _).trans (hw _)

theorem ReadServed.queueRead {s u : State} (h : u.shelf = s.shelf) (r : PendRead) : ReadServed s (u.queueRead r) := by
  have hc : u.chans = s.chans := (congrArg (fun x => x.1) h :)
  refine ⟨(u.queueRead_dir r).trans (congrArg (fun x => x.2.2.2) h :), fun d => ?_⟩
  have du : allDrained u := by
    unfold allDrained
    rwa [hc]
  exact ((u.queueRead_spec r).2.2 du).trans (congrArg (fun x => x.2.1) h :)

theorem State.serveRead_served (s : State) (c off : Nat) (who : Waiter) : ReadServed s (s.serveRead c off who) := by
  unfold State.serveRead
  extract_lets pl w line m s' valid r mr s1 have_ e
  have hm : m.1.shelf = s.shelf := State.meterFor_shelf ..
  have h1 : s1.shelf = s.shelf := (State.mergeRead_shelf ..).trans ((State.cacheRead_shelf ..).trans hm)
  clear_value s1 m
  split
  · exact .answer (State.anchorLost_shelf ..) ..
  · split
    · exact .answer hm ..
    · split
      · exact .answer hm ..
      · split
        · exact .answer h1 ..
        · split
          · exact .answer h1 ..
          · split
            · exact .answer h1 ..
            · exact .answer h1 ..
            · split
              · exact .answer h1 ..
              · exact .queueRead h1 _

/-! The loan directory. -/

/-- LOAN_FILL_REQUEST with room in the directory (R285, R286). -/
theorem loanFill_lends {s : State} {b c line : Nat} {m : LoanMsg} (hm : s.loanMsg? 1 b c line = some m)
    (hroom : (s.dirOf (s.loanHome c)).length < 262144) :
    ∃ t d, exec (.loanFillRequest b c line) s = .next t ∧ d ∈ t.mem.loanDir ∧ d.coll = c ∧ d.line = line ∧ b ∈ d.borrowers ∧
      (allDrained s → t.mem.dram = s.mem.dram) := by
  have hq : exec (.loanFillRequest b c line) s = execLoanFillRequest b c line s := rfl
  have hask : s.loanAsk? b c line = some m := by
    unfold State.loanAsk?
    rw [hm]
  have hsize : loanDirSize = 262144 := rfl
  rw [hq]
  unfold execLoanFillRequest
  rw [hask]
  dsimp -zeta only
  extract_lets w have_ dir s0 held ds
  rw [if_neg (by simp [dir, w, hsize]; omega)]
  have hs := State.serveRead_served (s0.updMem fun x => { x with loanDir := ds }) c (s.offset c w (line / 64) (line % 64)) (.loan b)
  have hfind := find?_upsert (p := fun d : LoanDir => d.coll == c && d.line == line)
    (f := fun d => { d with borrowers := if d.borrowers.contains b then d.borrowers else d.borrowers ++ [b], lent := s.tsc })
    (dflt := ⟨c, line, [], 0⟩) (l := s.mem.loanDir) (fun _ => rfl) (by simp)
  obtain ⟨d, hd, hb⟩ : ∃ d, ds.find? (fun d : LoanDir => d.coll == c && d.line == line) = some d ∧ b ∈ d.borrowers := by
    refine ⟨_, hfind, ?_⟩
    dsimp only
    split
    next h => simpa using h
    next => simp
  have hkey := List.find?_some hd
  simp only [Bool.and_eq_true, beq_iff_eq] at hkey
  refine ⟨_, d, rfl, ?_, hkey.1, hkey.2, hb, fun d => hs.dram d⟩
  rw [hs.dir]
  exact List.mem_of_find?_eq_some hd

/-- LOAN_FILL_REPLY into a share that has room (R285). -/
theorem loanReply_places {s : State} {b c line : Nat} {m : LoanMsg} (hm : s.loanMsg? 2 b c line = some m) (hshare : 0 < s.act.loanShare c) :
    ∃ t, exec (.loanFillReply b c line) s = .next t ∧ t = { s with mem := { s.mem with loans := t.mem.loans, loanMsgs := t.mem.loanMsgs } } ∧
      ⟨b, c, line, m.data, sramStore m.poison m.data, m.poison, s.tsc⟩ ∈ t.mem.loans ∧ t.mem.loanMsgs = s.mem.loanMsgs.erase m := by
  have hq : exec (.loanFillReply b c line) s = execLoanFillReply b c line s := rfl
  rw [hq]
  unfold execLoanFillReply
  rw [hm]
  dsimp -zeta only
  extract_lets mine rest share old gone kept x loan
  rw [if_neg (by simp [share]; omega)]
  exact ⟨_, rfl, rfl, List.mem_append_right _ List.mem_cons_self, rfl⟩

/-- LOAN_RECALL (R286). -/
theorem loanRecall_drops {s : State} {b c line : Nat} {m : LoanMsg} (hm : s.loanMsg? 3 b c line = some m) :
    ∃ t, exec (.loanRecall b c line) s = .next t ∧ (∀ l ∈ t.mem.loans, ¬(l.borrower = b ∧ l.coll = c ∧ l.line = line)) ∧
      t.mem.loanMsgs = s.mem.loanMsgs.erase m ++ [{ m with kind := 4, data := [], poison := false }] ∧ t.mem.dram = s.mem.dram := by
  have hq : exec (.loanRecall b c line) s = execLoanRecall b c line s := rfl
  rw [hq]
  unfold execLoanRecall
  rw [hm]
  refine ⟨_, rfl, fun l hl => ?_, rfl, rfl⟩
  have h := (List.mem_filter.mp hl).2
  simp only [Bool.not_eq_true', Bool.and_eq_false_iff, beq_eq_false_iff_ne] at h
  tauto

theorem State.hostReadReq_mem (s : State) (p e : Nat) (fetch : Bool) (a n d : Nat) (ro : Bool) : (s.hostReadReq p e fetch a n d ro).mem = s.mem := by
  unfold State.hostReadReq
  split <;> rfl

theorem State.fetchNext_mem (s : State) (p i : Nat) : (s.fetchNext p i).mem = s.mem := by
  unfold State.fetchNext
  split
  · split
    · exact State.hostReadReq_mem ..
    · rfl
  · rfl

theorem State.finishDesc_mem (s : State) (p i status n : Nat) : (s.finishDesc p i status n).mem = s.mem := by
  unfold State.finishDesc
  split
  · rfl
  · split
    · rfl
    · extract_lets s1 s2 stop s3
      have h3 : s3.mem = s.mem := by
        unfold s3 s2
        split
        · exact State.event_mem ..
        · rfl
      split
      · exact h3
      · exact (State.fetchNext_mem ..).trans h3

theorem State.lineMoved_mem (s : State) (p i : Nat) (poison : Bool) : (s.lineMoved p i poison).mem = s.mem := by
  unfold State.lineMoved
  extract_lets s1
  have h1 : s1.mem = s.mem := State.bump_mem ..
  split
  · exact h1
  · split
    · exact h1
    · split
      · exact (State.finishDesc_mem ..).trans h1
      · exact h1

/-- A write that completes changes nothing of memory (R32, R313). -/
theorem State.completeWrite_mem (s : State) (who : Waiter) : (s.completeWrite who).mem = s.mem := by
  unfold State.completeWrite
  split
  · split <;> rfl
  · exact State.lineMoved_mem ..
  · rfl
  · rfl

/-- RECALL_ACK (R286). -/
theorem recallAck_leaves {s : State} {b c line : Nat} {m : LoanMsg} (hm : s.loanMsg? 4 b c line = some m)
    (hj : ∀ j ∈ s.wb.jobs, j.ending = none) :
    ∃ t, exec (.recallAck b c line) s = .next t ∧ (∀ d ∈ t.mem.loanDir, d.coll = c → d.line = line → b ∉ d.borrowers) ∧
      t.mem.loanMsgs = s.mem.loanMsgs.erase m ∧ t.mem.dram = s.mem.dram := by
  have hq : exec (.recallAck b c line) s = execRecallAck b c line s := rfl
  rw [hq]
  unfold execRecallAck
  rw [hm]
  dsimp -zeta only
  extract_lets ds
  have hf : ((((s.takeLoan m).updMem fun x => { x with loanDir := ds }).finishWrites).mem.loanDir,
      (((s.takeLoan m).updMem fun x => { x with loanDir := ds }).finishWrites).mem.loanMsgs,
      (((s.takeLoan m).updMem fun x => { x with loanDir := ds }).finishWrites).mem.dram,
      (((s.takeLoan m).updMem fun x => { x with loanDir := ds }).finishWrites).wb) = (ds, s.mem.loanMsgs.erase m, s.mem.dram, s.wb) := by
    unfold State.finishWrites
    refine (foldl_projection (g := fun u : State => (u.mem.loanDir, u.mem.loanMsgs, u.mem.dram, u.wb)) ?_ _ _).trans rfl
    intro t x
    have hw : (t.completeWrite x.waiter).wb = t.wb := (congrArg State.wb (t.completeWrite_bare x.waiter) :)
    rw [State.completeWrite_mem, hw]
  generalize ((s.takeLoan m).updMem fun x => { x with loanDir := ds }).finishWrites = u at hf ⊢
  obtain ⟨h1, h2, h3, h4⟩ : u.mem.loanDir = ds ∧ u.mem.loanMsgs = s.mem.loanMsgs.erase m ∧ u.mem.dram = s.mem.dram ∧ u.wb = s.wb := by
    simpa using hf
  rw [State.endStopped_none (s := u) (by rw [h4]; exact hj)]
  refine ⟨u, rfl, fun d hd hc hl hb => ?_, h2, h3⟩
  rw [h1] at hd
  obtain ⟨e, -, he⟩ := List.mem_map.mp (List.mem_filter.mp hd).1
  split at he
  · rw [← he] at hb
    simpa using (List.mem_filter.mp hb).2
  next hno =>
    subst he
    exact hno (by simp [hc, hl])

/-- Settles O27: a served read leaves the loan directory (`serveRead_served`), and a write that completes leaves memory. -/
theorem loansAreRecalled : Obligations.LoansAreRecalled := fun _ _ _ _ _ =>
  ⟨loanFill_lends, loanReply_places, loanRecall_drops, recallAck_leaves⟩

end Sys2Proof.Machine
end

section
/-! PROOF. Reads of a link: by the catalogue entry, of the compressed view, and their completion (R26, R56, R91, R92, R264): O11. -/

namespace Sys2Proof.Machine

open Sys2Proof.Claims

/-! How a read of a link ends. -/

theorem State.queueRead_dies (s : State) (r : PendRead) : (s.queueRead r).dies = s.dies := by
  unfold State.queueRead
  extract_lets s1
  have hw : (s1.wakeRank r.wing r.sel (s.readAddr r)).dies = s.dies :=
    (congrArg State.dies (s1.wakeRank_unworked r.wing r.sel (s.readAddr r)) :)
  refine Eq.trans (congrArg State.dies (State.pump_unworked ..) :) ?_
  exact hw

theorem storageKept_mem {s t : State} (h : storageKept s t) : t.mem = { s.mem with buckets := t.mem.buckets, windows := t.mem.windows } := h

/-- A read that is answered: no line, entry or queue of the storage changes, and its response is sent. -/
theorem read_answered {s u : State} {p hpa c line : Nat} {d : Bytes} {poison : Bool} (h : taken s p hpa) (hk : StorageKept (s.arrived 7 p) u) :
    let t := (u.answer (.port p) c line d poison).isolateTags
    t.mem.cat = s.mem.cat ∧ t.mem.dram = s.mem.dram ∧ storageKept s t ∧ t.out.getLast? = some (.memData p d poison (s.devLoad p)) := by
  have hlink : u.linkUp p = true := by
    rw [hk.linkUp]
    simpa using h.2.1
  have htag : u.dies.any (·.tagFault) = false := by simpa [hk.dies] using h.2.2.2
  have hm := hk.of_arrived
  dsimp only
  rw [State.answer_port_eq hlink, State.isolateTags_none (by exact htag)]
  refine ⟨?_, ?_, hm, by simp [hk.devLoad]⟩
  · exact (congrArg MemState.cat (storageKept_mem hm) :)
  · exact (congrArg MemState.dram (storageKept_mem hm) :)

/-- A read that joins its channel's requests. -/
theorem read_queued {s u : State} {p hpa : Nat} {r : PendRead} (h : taken s p hpa) (hk : StorageKept (s.arrived 7 p) u) :
    let t := (u.queueRead r).isolateTags
    t.mem.cat = s.mem.cat ∧ (allDrained s → t.mem.dram = s.mem.dram) ∧
      ∃ x ∈ t.mem.reads, x.request = { r with id := s.fresh, at_ := s.tsc }.request := by
  have htag : (u.queueRead r).dies.any (·.tagFault) = false := by
    rw [State.queueRead_dies]
    simpa [hk.dies] using h.2.2.2
  have hm := hk.of_arrived
  dsimp only
  rw [State.isolateTags_none htag]
  obtain ⟨⟨x, hx, hreq⟩, hcat, hdram⟩ := u.queueRead_spec r
  rw [hk.fresh, hk.tsc] at hreq
  refine ⟨hcat.trans (congrArg MemState.cat (storageKept_mem hm) :), fun d => (hdram ?_).trans (congrArg MemState.dram (storageKept_mem hm) :), x, hx, ?_⟩
  · unfold allDrained
    rw [hk.chans, State.arrived_chans]
    unfold State.wakeChannels
    split
    · intro y hy
      obtain ⟨z, hz, hzy⟩ := List.mem_map.mp hy
      split at hzy
      · exact hzy ▸ d z hz
      · exact hzy ▸ d z hz
    · exact d
  · simpa using hreq

/-! By the entry of its block. -/

theorem StorageKept.entrySel {s u : State} {p : Nat} (h : StorageKept (s.arrived 7 p) u) (e : CatEntry) : u.entrySel e = s.entrySel e := by
  unfold State.entrySel State.locate State.chanSlots State.depotBytes
  rw [h.pkg, State.arrived_pkg]

/-- CXL_MEM_READ of a line that is neither cached nor held (R26, R56, R264). -/
theorem readByEntry : ReadByEntry := by
  intro s p hpa c off w line e h ht hn hw hup hline hcache hmerge he
  subst hw hline he
  have hk : StorageKept (s.arrived 7 p) ((s.arrived 7 p).meterFor (.port p) c ((s.arrived 7 p).place c (off / 64 * 64)).wing true).1 :=
    State.meterFor_storageKept ..
  have hrun := exec_cxlMemRead_taken h
  rw [State.linkRead_data ht] at hrun
  rcases hu : (s.arrived 7 p).meterFor (.port p) c ((s.arrived 7 p).place c (off / 64 * 64)).wing true with ⟨u, cls⟩
  rw [hu] at hk
  have hpl : (s.arrived 7 p).place c (off / 64 * 64) = s.place c (off / 64 * 64) := State.arrived_place ..
  have hca (w l : Nat) : u.cached? c w l = s.cached? c w l := (hk.cached? c w l).trans (by unfold State.cached?; rw [State.arrived_mem])
  have hme (w l : Nat) : u.merge? c w l = s.merge? c w l := (hk.merge? c w l).trans (by unfold State.merge?; rw [State.arrived_mem])
  have hen (w b : Nat) : u.entry c w b = s.entry c w b := (hk.entry c w b).trans (by unfold State.entry; rw [State.arrived_mem])
  rw [State.serveRead_missed (by rwa [hpl, State.arrived_wingUp]) hu (hk.place ..) (by rwa [hk.noData, State.arrived_noData])
    (by rwa [hca, hpl]) (by rwa [hme, hpl]), hpl, hen] at hrun
  generalize he : s.entry c (s.place c (off / 64 * 64)).wing (s.place c (off / 64 * 64)).blk = e at hrun ⊢
  have hupl : u.place c (off / 64 * 64) = s.place c (off / 64 * 64) := (hk.place ..).trans hpl
  have hserves := hk.serves (s.place c (off / 64 * 64)).wing (s.entrySel e)
  have answers (d : Bool) (hr : u.readByEntry c (off / 64 * 64) e cls (.port p) = u.answer (.port p) c
      (64 * (s.place c (off / 64 * 64)).blk + (s.place c (off / 64 * 64)).line) (zeros 64) d) :
      ∃ t, exec (.cxlMemRead p hpa) s = .next t ∧ t.mem.cat = s.mem.cat ∧ t.mem.dram = s.mem.dram ∧ storageKept s t ∧
        t.out.getLast? = some (.memData p (zeros 64) d (s.devLoad p)) := by
    rw [hr] at hrun
    exact ⟨_, hrun, read_answered h hk⟩
  by_cases h0 : e.tier = .none
  · obtain ⟨t, ht, hcat, hdram, hrest⟩ := answers false (by unfold State.readByEntry; rw [h0, hupl])
    exact ⟨t, ht, hcat, fun _ => hdram, fun _ => hrest, fun hl => absurd (h0.symm.trans hl) (by decide),
      fun hs => absurd hs (by simp [CatEntry.stored, h0]), fun hs => absurd hs (by simp [CatEntry.stored, h0])⟩
  by_cases hl : e.tier = .lost
  · obtain ⟨t, ht, hcat, hdram, hrest⟩ := answers true (by unfold State.readByEntry; rw [hl, hupl])
    exact ⟨t, ht, hcat, fun _ => hdram, fun hn => absurd hn h0, fun _ => hrest,
      fun hs => absurd hs (by simp [CatEntry.stored, hl]), fun hs => absurd hs (by simp [CatEntry.stored, hl])⟩
  by_cases hs : e.hdrDamage = false ∧ s.serves (s.place c (off / 64 * 64)).wing (s.entrySel e) = true
  · have hst : e.stored = true := by
      cases ht : e.tier <;> simp_all [CatEntry.stored]
    rw [State.readByEntry_queued hst hs.1 (by rw [hupl, hk.entrySel, hserves]; exact hs.2)] at hrun
    obtain ⟨hcat, hdram, x, hx, hreq⟩ := read_queued (r := u.missedRead c (off / 64 * 64) e cls (.port p)) h hk
    have hf {β : Type} (g : PendRead → β) (hg : ∀ y : PendRead, g y.request = g y) :
        g x = g { u.missedRead c (off / 64 * 64) e cls (.port p) with id := s.fresh, at_ := s.tsc } := by
      rw [← hg x, hreq, hg]
    refine ⟨_, hrun, hcat, hdram, fun hn => absurd hn h0, fun hn => absurd hn hl, fun _ hbad => ?_, fun _ _ _ => ⟨x, hx, ?_⟩⟩
    · rcases hbad with hb | hb
      · exact absurd (hs.1.symm.trans hb) (by decide)
      · exact absurd (hs.2.symm.trans hb) (by decide)
    · refine ⟨hf PendRead.id fun _ => rfl, hf PendRead.coll fun _ => rfl, (hf PendRead.wing fun _ => rfl).trans ?_,
        (hf PendRead.line fun _ => rfl).trans ?_, hf PendRead.view fun _ => rfl, hf PendRead.entry fun _ => rfl,
        (hf PendRead.sel fun _ => rfl).trans (hk.entrySel e), hf PendRead.waiter fun _ => rfl⟩
      · exact congrArg Place.wing hupl
      · exact congrArg (fun x => 64 * x.blk + x.line) hupl
  · have hbad : (e.hdrDamage || !u.serves (u.place c (off / 64 * 64)).wing (u.entrySel e)) = true := by
      rw [hupl, hk.entrySel, hserves]
      cases hd : e.hdrDamage <;> simp_all
    obtain ⟨t, ht, hcat, hdram, hrest⟩ := answers true (by
      unfold State.readByEntry
      dsimp only
      split
      next h => exact absurd h h0
      next h => exact absurd h hl
      next => rw [if_pos hbad, hupl])
    exact ⟨t, ht, hcat, fun _ => hdram, fun hn => absurd hn h0, fun hn => absurd hn hl, fun _ _ => hrest, fun _ h1 h2 => absurd ⟨h1, h2⟩ hs⟩

/-! The compressed view. -/

theorem State.wakeChannels_writeQueue (s : State) (w sel : Nat) : s.wakeChannels.writeQueue w sel = s.writeQueue w sel := by
  unfold State.wakeChannels
  split
  · unfold State.writeQueue State.chan?
    dsimp only
    rw [find?_updWhere_if (f := fun c : Chan => { c with st := 2, selfRefresh := false }) fun _ => rfl]
    cases s.chans.find? (fun c => c.wing == w && c.sel == sel) with
    | none => rfl
    | some c =>
      by_cases h : c.st = 8
      · simp [h]
      · simp [h]
  · rfl

theorem StorageKept.plainLine {s u : State} {p : Nat} (h : StorageKept (s.arrived 7 p) u) (e : CatEntry) (j : Nat) :
    u.plainLine e j = s.plainLine e j := by
  have hq (w sel : Nat) : u.writeQueue w sel = s.writeQueue w sel := by
    rw [← s.wakeChannels_writeQueue]
    unfold State.writeQueue State.chan?
    rw [h.chans, State.arrived_chans]
  have hm := storageKept_mem h.of_arrived
  have hact : u.act = s.act := h.act.trans (by unfold State.act; rw [State.arrived_ed])
  unfold State.plainLine State.crypt State.rawLine State.key State.locate State.chanSlots State.depotBytes
  rw [h.pkg, State.arrived_pkg, hact, hm]
  simp only [hq]

theorem StorageKept.viewLen {s u : State} {p : Nat} (h : StorageKept (s.arrived 7 p) u) (e : CatEntry) : u.viewLen e = s.viewLen e := by
  unfold State.viewLen
  rw [h.plainLine]

theorem exec_compressedViewRead {s : State} {p hpa c off : Nat} (h : taken s p hpa) (ht : s.target p hpa = .view c off) :
    exec (.compressedViewRead p hpa) s = .next ((s.arrived 7 p).serveView p c off).isolateTags := by
  have hx : exec (.compressedViewRead p hpa) s = execCompressedViewRead p hpa s := rfl
  have hr : s.linkRead p hpa = (s.arrived 7 p).serveView p c off := by
    have hat := s.arrived_target 7 p p hpa
    rw [ht] at hat
    unfold State.linkRead
    dsimp only
    rw [show s.wakeChannels.bump 0x1101 7 p 1 = s.arrived 7 p from rfl, hat]
  rw [hx, ← hr]
  unfold execCompressedViewRead
  rw [ht]
  exact congrArg Host.Outcome.next (State.orHold_taken h _ _)

/-- The read of a line of the compressed view that waits at its channel. -/
def State.viewRead (s : State) (c w blk j : Nat) (e : CatEntry) (header : Bool) (cls : Nat) (who : Waiter) : PendRead :=
  { id := 0, coll := c, wing := w, line := if header then 0 else 64 * blk + j + 1, view := some j, entry := e, cls := cls,
    waiter := who, merged := [], mergedMask := 0, sel := s.entrySel e,
    places := s.placesOf e [if header then 0 else j + 1], at_ := 0, stage := .ingress, got := none }

/-- What the entry of its block makes of a read of the compressed view (R91, R92). -/
def State.viewByEntry (s : State) (c w blk j : Nat) (e : CatEntry) (header : Bool) (cls : Nat) (who : Waiter) : State :=
  match e.tier with
  | .lost => s.answer who c 0 (zeros 64) true
  | .none => s.answer who c 0 (if header then zeroHeader (s.act.fmt c) else zeros 64) false
  | _ =>
    if header then
      if e.hdrDamage || !s.serves w (s.entrySel e) then s.answer who c 0 (zeros 64) true
      else s.queueRead (s.viewRead c w blk j e header cls who)
    else if s.viewLen e ≤ 64 * j then s.answer who c 0 (zeros 64) false
    else if !s.serves w (s.entrySel e) then s.answer who c 0 (zeros 64) true
    else s.queueRead (s.viewRead c w blk j e header cls who)

theorem State.serveView_entry {s u : State} {p c off cls blk w : Nat} (hin : ¬(off < viewH (s.act.size c) ∧ s.act.size c / 64 ≤ off))
    (hblk : (if off < viewH (s.act.size c) then off / 64 else (off - viewH (s.act.size c)) / 4096) = blk)
    (hw : (s.place c (blk * 4096)).wing = w) (hup : s.wingUp w = true) (hu : s.meterFor (.port p) c w true = (u, cls))
    (hl : ∀ l ∈ u.blockLines c w blk, l.dirty = false ∧ l.queued = false) (hm : u.blockMerges c w blk = []) :
    s.serveView p c off = u.viewByEntry c w blk ((off - viewH (s.act.size c)) % 4096 / 64) (u.entry c w blk)
      (decide (off < viewH (s.act.size c))) cls (.port p) := by
  unfold State.serveView
  dsimp only
  rw [if_neg hin, hblk, hw, if_neg (by simp [hup]), hu]
  dsimp only
  rw [State.writeBackBlock_clean hm hl]
  have hk : StorageKept s u := by
    have h := s.meterFor_storageKept (.port p) c w true
    rwa [hu] at h
  unfold State.viewByEntry State.viewRead
  rw [hk.act] <;> rfl

/-- COMPRESSED_VIEW_READ (R91, R92). -/
theorem compressedViewByEntry : CompressedViewByEntry := by
  intro s p hpa c off blk w e h ht hblk hsize hlt hw hup hl hm he
  subst he
  have hk : StorageKept (s.arrived 7 p) ((s.arrived 7 p).meterFor (.port p) c w true).1 := State.meterFor_storageKept ..
  have hrun := exec_compressedViewRead h ht
  rcases hu : (s.arrived 7 p).meterFor (.port p) c w true with ⟨u, cls⟩
  rw [hu] at hk
  have hact : (s.arrived 7 p).act = s.act := by
    unfold State.act
    rw [State.arrived_ed]
  have huact : u.act = s.act := hk.act.trans hact
  have hmem := storageKept_mem hk.of_arrived
  have hen : u.entry c w blk = s.entry c w blk := by
    unfold State.entry
    rw [hmem]
  have hin : ¬(off < viewH (s.act.size c) ∧ s.act.size c / 64 ≤ off) := by
    rintro ⟨h1, h2⟩
    rw [if_pos h1] at hblk
    omega
  have hserve : (s.arrived 7 p).serveView p c off = u.viewByEntry c w blk ((off - viewH (s.act.size c)) % 4096 / 64) (s.entry c w blk)
      (decide (off < viewH (s.act.size c))) cls (.port p) := by
    rw [← hen, ← hact]
    refine State.serveView_entry (by rwa [hact]) (by rwa [hact]) (by rwa [State.arrived_place]) (by rwa [State.arrived_wingUp]) hu ?_ ?_
    · unfold State.blockLines at hl ⊢
      rw [hmem]
      exact hl
    · unfold State.blockMerges at hm ⊢
      rw [hmem]
      exact hm
  rw [hserve] at hrun
  generalize s.entry c w blk = e at hrun ⊢
  refine ⟨fun h0 => ?_, fun h0 => ?_, fun hst hd hs hpart => ?_⟩
  · have hv : u.viewByEntry c w blk ((off - viewH (s.act.size c)) % 4096 / 64) e (decide (off < viewH (s.act.size c))) cls (.port p) =
        u.answer (.port p) c 0 (if off < viewH (s.act.size c) then zeroHeader (s.act.fmt c) else zeros 64) false := by
      unfold State.viewByEntry
      rw [h0, huact]
      simp only [decide_eq_true_eq]
    rw [hv] at hrun
    exact ⟨_, hrun, (read_answered h hk).2.2⟩
  · have hv : u.viewByEntry c w blk ((off - viewH (s.act.size c)) % 4096 / 64) e (decide (off < viewH (s.act.size c))) cls (.port p) =
        u.answer (.port p) c 0 (zeros 64) true := by
      unfold State.viewByEntry
      rw [h0]
    rw [hv] at hrun
    exact ⟨_, hrun, (read_answered h hk).2.2⟩
  · have hus : u.serves w (u.entrySel e) = true := by rw [hk.entrySel, hk.serves]; exact hs
    have hv : u.viewByEntry c w blk ((off - viewH (s.act.size c)) % 4096 / 64) e (decide (off < viewH (s.act.size c))) cls (.port p) =
        u.queueRead (u.viewRead c w blk ((off - viewH (s.act.size c)) % 4096 / 64) e (decide (off < viewH (s.act.size c))) cls (.port p)) := by
      unfold State.viewByEntry
      split
      next h0 => simp [CatEntry.stored, h0] at hst
      next h0 => simp [CatEntry.stored, h0] at hst
      next =>
        split
        next => rw [if_neg (by simp [hd, hus])]
        next hno =>
          have hlen : ¬ u.viewLen e ≤ 64 * ((off - viewH (s.act.size c)) % 4096 / 64) := by
            rw [hk.viewLen]
            have := hpart.resolve_left (by simpa using hno)
            omega
          rw [if_neg hlen, if_neg (by simp [hus])]
    rw [hv] at hrun
    obtain ⟨hcat, -, x, hx, hreq⟩ := read_queued (r := u.viewRead c w blk ((off - viewH (s.act.size c)) % 4096 / 64) e
      (decide (off < viewH (s.act.size c))) cls (.port p)) h hk
    have hf {β : Type} (g : PendRead → β) (hg : ∀ y : PendRead, g y.request = g y) :
        g x = g { u.viewRead c w blk ((off - viewH (s.act.size c)) % 4096 / 64) e (decide (off < viewH (s.act.size c))) cls (.port p)
                  with id := s.fresh, at_ := s.tsc } := by
      rw [← hg x, hreq, hg]
    exact ⟨_, x, hrun, hcat, hx, hf PendRead.id fun _ => rfl, hf PendRead.coll fun _ => rfl, hf PendRead.wing fun _ => rfl,
      hf (fun y => y.view.isSome) fun _ => rfl, hf PendRead.entry fun _ => rfl, hf PendRead.waiter fun _ => rfl⟩

/-! A read returns from its channel (R26). -/

theorem State.linkOf_wires (s : State) (p : Nat) : s.linkOf p = (s.wires.find? (·.port == p)).map (·.link) := by
  unfold State.wires State.linkOf
  rw [List.find?_map, Option.map_map]
  rfl

theorem linkOf_of_core {s t : State} (h : t.core = s.core) (p : Nat) : t.linkOf p = s.linkOf p := by
  have hw : t.wires = s.wires := congrArg State.fn h
  rw [State.linkOf_wires, hw, ← State.linkOf_wires]

theorem reads_of_core {s t : State} (h : t.core = s.core) : t.mem.reads.map PendRead.request = s.mem.reads.map PendRead.request :=
  congrArg (fun u => u.mem.reads) h

theorem State.allocClean_core (s : State) (c w line : Nat) (d : Bytes) : (s.allocClean c w line d).core = s.core := by
  unfold State.allocClean
  split
  · rfl
  · split
    next hx => exact (State.putLine_core ..).trans (fst_core (s.makeRoom_core c w 1) hx)
    next hx => exact fst_core (s.makeRoom_core c w 1) hx

theorem State.allocHdr_core (s : State) (e : CatEntry) : (s.allocHdr e).core = s.core := by
  unfold State.allocHdr
  split
  · rfl
  · dsimp only
    split
    · rfl
    · split
      next hx => exact (State.putLine_core ..).trans (fst_core (s.makeRoom_core e.coll e.wing 1) hx)
      next hx => exact fst_core (s.makeRoom_core e.coll e.wing 1) hx

/-- The line a returned read fetches. -/
def State.returned (s : State) (r : PendRead) : Fetch :=
  match r.got with
  | some g => ⟨s, g.1, g.2, 0⟩
  | none => s.fetchRead r

theorem State.returned_core (s : State) (r : PendRead) : (s.returned r).s.core = s.core := by
  unfold State.returned
  split
  · rfl
  · exact s.fetchRead_core r

/-- A returned read waits no more, and is answered (R26). -/
theorem State.completeRead_port {s : State} {r : PendRead} {p : Nat} (hw : r.waiter = .port p) (hup : s.linkUp p = true) :
    (∀ x ∈ (s.completeRead r).mem.reads, x.id ≠ r.id) ∧
      (s.completeRead r).out.getLast? = some (.memData p (if (s.returned r).poison then zeros 64 else
        if r.view.isSome then (s.returned r).data else mergeMask r.mergedMask (s.returned r).data r.merged) (s.returned r).poison
        ((s.completeRead r).devLoad p)) := by
  unfold State.completeRead
  extract_lets f s1 data keep s2 hurt bad
  have hf : f = s.returned r := rfl
  have hbad : bad = (s.returned r).poison := by
    have h : hurt = false := by
      unfold hurt
      rw [hw]
    unfold bad
    rw [h, hf, Bool.or_false]
  have h1 : s1.core = (s.updMem fun m => { m with reads := m.reads.filter (·.id != r.id) }).core := by
    have hm : s1.core = { (s.returned r).s.core with mem := { (s.returned r).s.core.mem with reads :=
        (s1.mem.reads.map PendRead.request) } } := rfl
    have hr : s1.mem.reads.map PendRead.request = ((s.returned r).s.mem.reads.map PendRead.request).filter (·.id != r.id) := by
      rw [List.filter_map]
      rfl
    rw [hm, hr, State.returned_core, reads_of_core (s.returned_core r), List.filter_map]
    rfl
  have h2 : s2.core = s1.core := by
    unfold s2
    split
    · exact (State.allocClean_core ..).trans (State.allocHdr_core ..)
    · rfl
  have hup2 : s2.linkUp p = true := by
    rw [State.linkUp_congr (linkOf_of_core (h2.trans h1) p)]
    exact hup
  clear_value s2 s1
  rw [hw, hbad]
  have hpump := (s2.answer (.port p) r.coll r.line (if (s.returned r).poison then zeros 64 else data) (s.returned r).poison).pump_unworked r.wing r.sel
  have hout := State.answer_port_out hup2 r.coll r.line (if (s.returned r).poison then zeros 64 else data) (s.returned r).poison
  have hmem := State.answer_port_mem hup2 r.coll r.line (if (s.returned r).poison then zeros 64 else data) (s.returned r).poison
  have hreads := reads_of_core (h2.trans h1)
  generalize s2.answer (.port p) r.coll r.line (if (s.returned r).poison then zeros 64 else data) (s.returned r).poison = u at hpump hout hmem ⊢
  generalize u.pump r.wing r.sel = t at hpump ⊢
  have htr : t.mem.reads.map PendRead.request = s2.mem.reads.map PendRead.request := by
    rw [reads_of_unworked hpump, hmem]
  have htw : t.mem.writes = s2.mem.writes := 
    (congrArg MemState.writes (mem_of_unworked hpump) :).trans (congrArg MemState.writes hmem :)
  refine ⟨fun x hx => ?_, ?_⟩
  · have hin : x.request ∈ t.mem.reads.map PendRead.request := List.mem_map_of_mem hx
    rw [htr, hreads] at hin
    obtain ⟨y, hy, hyx⟩ := List.mem_map.mp hin
    have hid : x.id = y.id := (congrArg PendRead.id hyx :).symm
    rw [hid]
    simpa using (List.mem_filter.mp hy).2
  · have ho : t.out = u.out := (congrArg State.out hpump :)
    have hload : t.devLoad p = s2.devLoad p := by
      have hlen (l : List PendRead) : (l.filter (·.waiter == .port p)).length = ((l.map PendRead.request).filter (·.waiter == .port p)).length := by
        rw [List.filter_map, List.length_map]
        rfl
      unfold State.devLoad State.tracked
      rw [hlen t.mem.reads, htr, ← hlen, htw]
    rw [ho, hout, hload, List.getLast?_concat]
    rfl

/-- CHANNEL_READ_COMPLETE (R26). -/
theorem readsReturn : ReadsReturn := by
  intro s r p hr hw hup hp
  have hx : exec (.channelReadComplete r.id) s = execChannelReadComplete r.id s := rfl
  rw [hx]
  unfold execChannelReadComplete
  rw [hr]
  dsimp only
  rw [hw, hp]
  dsimp only
  obtain ⟨h1, h2⟩ := State.completeRead_port hw hup
  refine ⟨s.completeRead r, _, _, by simp, h1, h2, fun h => if_pos h, fun h hg hv => ?_⟩
  rw [if_neg (by simp [h]), if_neg (by simp [hv])]
  unfold State.returned
  rw [hg]

/-- Settles O11: a read past the cache and the merge buffer is answered or joins its channel by its entry; a returned read is answered,
the links standing through the memory path (`linkOf_of_core`). -/
theorem linkReads : Obligations.LinkReads := ⟨readByEntry, readsReturn, compressedViewByEntry⟩

end Sys2Proof.Machine
end

section
/-! PROOF. Power-up: the reset's end, the firmware slots and the release of the Wings (R415-R430): O54. -/

namespace Sys2Proof.Machine

open Sys2Proof.Claims

/-! The rim of what a start runs (R203, R240, R422, R425). -/

theorem State.startRoles_rim (s : State) (die : Nat) : (s.startRoles die).rim = s.rim := by
  refine foldl_projection (g := State.rim) ?_ _ _
  exact fun t x => (State.startRole_rim ..).trans rfl

theorem State.fillChannel_rim (s : State) (w sel : Nat) : (s.fillChannel w sel).rim = s.rim :=
  rim_of_core ((State.dropLines_core ..).trans (State.forceChan_core ..))

theorem State.endFill_rim (s : State) : s.endFill.rim = s.rim := by
  refine (foldl_projection (g := State.rim) ?_ _ _ :)
  exact fun t c => State.fillChannel_rim ..

theorem State.reserveKey_rim (s : State) (w : Nat) : (s.reserveKey w).rim = s.rim := by
  unfold State.reserveKey
  split
  · rfl
  · exact (State.sendKey_transmits ..).rim

/-- A break of the key changes the editions alone of the rim (R340). -/
theorem State.breakKey_rim (s : State) (cause : Nat) : (s.breakKey cause).rim.2 = s.rim.2 := by
  unfold State.breakKey
  split
  · rfl
  · extract_lets h s1
    have h1 : s1.rim.2 = s.rim.2 :=
      (congrArg Prod.snd (State.event_rim ..)).trans ((congrArg Prod.snd (rim_of_bare (State.bump_bare ..))).trans rfl)
    split
    · split
      · exact h1
      · exact (congrArg Prod.snd (State.event_rim ..)).trans h1
    · exact h1

theorem State.applySlow_rim (s : State) (new : Edition) : (s.applySlow new).rim.2 = s.rim.2 := by
  have h := congrArg Prod.snd (s.applyFast_rim new new)
  unfold State.applySlow
  dsimp only
  split
  · exact (State.breakKey_rim ..).trans h
  · exact h

/-- An edition is in force, confirmed and alone, in `t`; of the rest of the rim of `s` a start's edition changes its status (R422, R425). -/
def InForce (s t : State) : Prop :=
  t.ed.confirmed = true ∧ t.ed.previous = none ∧ ∃ n, t.rim.2 = (s.updPkg fun p => { p with bootStatus := n }).rim.2

theorem State.bootEdition_inForce (s : State) : InForce s s.bootEdition := by
  unfold State.bootEdition
  extract_lets none_ r
  refine ⟨rfl, rfl, r.2, ?_⟩
  have h := congrArg Prod.snd (s.applyFast_rim r.1 r.1)
  exact (congrArg (fun u : Pkg × Nat × List Die × IdState => ({ u.1 with bootStatus := r.2 }, u.2)) h :)

theorem State.restoreEdition_inForce (s : State) : InForce s s.restoreEdition := by
  unfold State.restoreEdition
  extract_lets s1
  have h1 : s1.rim.2 = s.rim.2 := by
    unfold s1
    split
    · exact State.applySlow_rim ..
    · rfl
  have h := (s1.updEd fun e => { e with confirmed := true, previous := none }).syncExtents_rim s1.act
  refine ⟨?_, ?_, s.pkg.bootStatus, (congrArg Prod.snd h).trans h1⟩ <;> rw [ed_of_rim h] <;> rfl

theorem InForce.of_rim {s t u : State} (h : InForce s t) (hu : u.rim = t.rim) : InForce s u := by
  obtain ⟨hc, hp, n, hn⟩ := h
  have he := ed_of_rim hu
  refine ⟨?_, ?_, n, (congrArg Prod.snd hu).trans hn⟩ <;> rw [he]
  · exact hc
  · exact hp

/-! The end of the reset (R415, R424). -/

theorem State.dropCollections_kept (s : State) : s.dropCollections.pkg = s.pkg ∧ s.dropCollections.fn = s.fn ∧
    s.dropCollections.mem.dram = s.mem.dram := ⟨rfl, rfl, rfl⟩

theorem State.retainDepot_kept (s : State) : s.retainDepot.fn = s.fn ∧ s.retainDepot.mem.dram = s.mem.dram ∧
    s.retainDepot.pkg = { s.pkg with bootLost := s.retainDepot.pkg.bootLost } := ⟨rfl, rfl, rfl⟩

/-- The link ports whose PERST_N is asserted stay as they are at a start. -/
theorem perst_kept {l : List Fn} {p : Fn → Bool} {f : Fn}
    (h : f ∈ l.map fun f => if !f.perst && p f then { f with link := 1 } else f) (hp : f.perst = true) : f ∈ l := by
  obtain ⟨g, hg, rfl⟩ := List.mem_map.mp h
  split at hp
  next hc => simp_all
  next hc => rwa [if_neg hc]

/-- PKG_RESET_DEASSERT (R415, R424, R425). -/
theorem State.startUp_spec (s : State) {node mode : Nat} (hm : mode < 4) (hn : node < 16) :
    (s.startUp node mode).pkg.inReset = false ∧ (s.startUp node mode).pkg.nodeId = node ∧ (s.startUp node mode).pkg.bootMode = mode ∧
      (s.startUp node mode).pkg.start = s.startKind mode ∧ (s.startUp node mode).mem.dram = s.mem.dram ∧
      (s.startKind mode = 1 → (s.startUp node mode).mem.colls = [] ∧ (s.startUp node mode).mem.keys = [] ∧
        (s.startUp node mode).mem.cmds = [] ∧ (s.startUp node mode).act.colls = []) ∧
      ∀ f ∈ (s.startUp node mode).fn, f.perst = true → f ∈ s.fn := by
  unfold State.startUp
  extract_lets k first s1 s2 s3
  have h1 : s1.fn = s.fn ∧ s1.mem = s.mem ∧ s1.pkg.inReset = false ∧ s1.pkg.nodeId = node ∧ s1.pkg.bootMode = mode ∧ s1.pkg.start = k :=
    ⟨rfl, rfl, rfl, Nat.mod_eq_of_lt hn, Nat.mod_eq_of_lt hm, rfl⟩
  have h2 : s2.fn = s1.fn ∧ s2.mem.dram = s1.mem.dram ∧ s2.pkg.inReset = s1.pkg.inReset ∧ s2.pkg.nodeId = s1.pkg.nodeId ∧
      s2.pkg.bootMode = s1.pkg.bootMode ∧ s2.pkg.start = s1.pkg.start := by
    unfold s2
    split
    · exact ⟨rfl, rfl, rfl, rfl, rfl, rfl⟩
    · split <;> exact ⟨rfl, rfl, rfl, rfl, rfl, rfl⟩
  have hcold (h : k = 1) : s2 = s1.dropCollections := (if_neg (by simp [h])).trans (if_neg (by simp [h]))
  have h3 : s3 = { s2 with dies := s3.dies } := by
    unfold s3
    split <;> rfl
  clear_value s3 s1
  obtain ⟨hf1, hm1, hr1, hn1, hb1, hk1⟩ := h1
  obtain ⟨hf2, hm2, hr2, hn2, hb2, hk2⟩ := h2
  have hp : s3.pkg = s2.pkg := (congrArg State.pkg h3 :)
  have hmem : s3.mem = s2.mem := (congrArg State.mem h3 :)
  have hfn : s3.fn = s2.fn := (congrArg State.fn h3 :)
  have hed : s3.ed = s2.ed := (congrArg State.ed h3 :)
  refine ⟨?_, ?_, ?_, ?_, ?_, fun h => ?_, fun f hf hpe => ?_⟩
  · exact (congrArg Pkg.inReset hp).trans (hr2.trans hr1)
  · exact (congrArg Pkg.nodeId hp).trans (hn2.trans hn1)
  · exact (congrArg Pkg.bootMode hp).trans (hb2.trans hb1)
  · exact (congrArg Pkg.start hp).trans (hk2.trans hk1)
  · exact (congrArg MemState.dram hmem).trans (hm2.trans (congrArg MemState.dram hm1))
  · have hc := hcold h
    refine ⟨(congrArg MemState.colls hmem).trans ?_, (congrArg MemState.keys hmem).trans ?_, (congrArg MemState.cmds hmem).trans ?_,
      (congrArg (fun e : EdState => e.active.colls) hed).trans ?_⟩ <;> rw [hc] <;> rfl
  · have := perst_kept hf hpe
    rwa [hfn, hf2, hf1] at this

/-! The firmware (R419, R427). -/

theorem sendHellos_kept (l : List CPort) (s : State) :
    l.foldl (fun s p => s.sendHello p.die p.idx) s = { s with out := (l.foldl (fun s p => s.sendHello p.die p.idx) s).out } := by
  induction l generalizing s with
  | nil => rfl
  | cons p l ih => exact (ih _).trans rfl

/-- The programs of a start leave the package but for the boot edition's status, and the identity; FILL alone leaves all but the docents. -/
theorem State.startPrograms_spec (s : State) :
    (∃ n, s.startPrograms.rim.2 = (s.updPkg fun p => { p with bootStatus := n }).rim.2) ∧
      (s.pkg.bootMode < 2 → s.startPrograms.mem = s.mem ∧ s.startPrograms.ed = s.ed) := by
  obtain ⟨-, -, hb⟩ := s.bootEdition_inForce
  unfold State.startPrograms
  split
  · exact ⟨⟨s.pkg.bootStatus, rfl⟩, fun _ => ⟨rfl, rfl⟩⟩
  · split
    · refine ⟨?_, fun h => by omega⟩
      have hroles : (s.pkg.asm.dies.foldl (fun s d => s.startRoles d) s.bootEdition).rim = s.bootEdition.rim := by
        refine foldl_projection (g := State.rim) ?_ _ _
        exact fun t d => State.startRoles_rim ..
      rw [hroles]
      exact hb
    · split
      · exact ⟨hb, fun h => by omega⟩
      · exact ⟨⟨s.pkg.bootStatus, rfl⟩, fun _ => ⟨rfl, rfl⟩⟩

theorem State.initChannels_kept (s : State) : s.initChannels = { s with chans := s.initChannels.chans } := by
  unfold State.initChannels
  by_cases h : s.pkg.bootMode = 1
  · simp [h]
  · simp [h]

/-- The firmware of a slot runs (R427). -/
theorem State.runFirmware_spec (s : State) (slot : Nat) :
    bootedFrom (s.runFirmware slot) slot ∧ (s.runFirmware slot).pkg.phase = (if s.pkg.bootMode = 0 then 3 else 5) ∧
      (s.runFirmware slot).id.svn = s.slotField slot 8 4 ∧
      (s.pkg.bootMode < 2 → (s.runFirmware slot).mem = s.mem ∧ (s.runFirmware slot).ed = s.ed) := by
  unfold State.runFirmware
  extract_lets ok s1 si pw ids s2 s3
  have hc := s1.initChannels_kept
  have h3 : s3 = { s2 with out := s3.out } := sendHellos_kept ..
  have hp : s3.pkg = s1.pkg := (congrArg State.pkg h3).trans (congrArg State.pkg hc :)
  have hm : s3.mem = s.mem := (congrArg State.mem h3).trans (congrArg State.mem hc :)
  have he : s3.ed = s.ed := (congrArg State.ed h3).trans (congrArg State.ed hc :)
  have hi : s3.id.svn = s.slotField slot 8 4 := congrArg (fun u : State => u.id.svn) h3
  clear_value s3
  obtain ⟨⟨n, hn⟩, hk⟩ := (s3.updDie s.pkg.primary fun d => { d with inService := true }).startPrograms_spec
  have hpk : _ = { s3.pkg with bootStatus := n } := congrArg Prod.fst hn
  have hid : _ = s3.id := congrArg (fun u => u.2.2.2) hn
  rw [hp] at hpk
  have hpk' : (State.startPrograms (s3.updDie s.pkg.primary fun d => { d with inService := true })).pkg = { s1.pkg with bootStatus := n } := hpk
  refine ⟨⟨congrArg Pkg.fwRunning hpk', congrArg Pkg.fwSlot hpk'⟩, congrArg Pkg.phase hpk', (congrArg IdState.svn hid).trans hi, fun h => ?_⟩
  have hb : s3.pkg.bootMode < 2 := by rwa [hp]
  exact ⟨(hk hb).1.trans hm, (hk hb).2.trans he⟩

/-! The release of the Wings (R427, R429). -/

theorem wingUp_of_tagless {s t : State} (h : t.dies.map Die.tagless = s.dies.map Die.tagless) (w : Nat) : t.wingUp w = s.wingUp w := by
  have hm := die?_of_tagless h (wingDie w)
  unfold State.wingUp
  generalize t.die? (wingDie w) = a at hm
  generalize s.die? (wingDie w) = b at hm
  cases a <;> cases b <;> simp_all [Die.tagless]

/-- Dies that keep their code, changed one by one. -/
theorem die?_map (s : State) {f : Die → Die} (hf : ∀ d, (f d).code = d.code) (c : Nat) :
    ({ s with dies := s.dies.map f } : State).die? c = (s.die? c).map f := by
  unfold State.die?
  rw [List.find?_map]
  refine congrArg (fun p => (s.dies.find? p).map f) (funext fun d => ?_)
  exact congrArg (· == c) (hf d)

/-- The edition of a start takes force, and every Wing that can be released enters service (R422, R425, R429). -/
theorem State.releaseWings_spec (s : State) :
    s.releaseWings.pkg.phase = 4 ∧ s.releaseWings.ed.confirmed = true ∧ s.releaseWings.ed.previous = none ∧
      ∀ w, s.releaseWings.wingUp w = match s.die? (wingDie w) with
        | some d => d.present && ((s.pkg.asm.wings.filter s.releasable).contains w || d.inService)
        | none => false := by
  unfold State.releaseWings
  extract_lets ws out s1 enter s2 s3 s4
  have h1 : s1.rim = s.rim := s.endFill_rim
  have h3 : s3.rim = (s2.updPkg fun p => { p with phase := 4, releaseMs := s.tsc / ms }).rim := by
    refine foldl_projection (g := State.rim) ?_ _ _
    exact fun t w => State.reserveKey_rim ..
  have h4 : InForce s3 s4 := by
    unfold s4
    split
    · exact s3.restoreEdition_inForce
    · exact s3.bootEdition_inForce
  have h5 : ((s.pkg.asm.lobbies ++ ws.map wingDie).foldl (fun s d => s.startRoles d) s4.rebind).rim = s4.rim := by
    refine (foldl_projection (g := State.rim) ?_ _ _).trans s4.rebind_rim
    exact fun t d => State.startRoles_rim ..
  have hu := h4.of_rim ((State.rederiveAll_rim ..).trans h5)
  obtain ⟨hconf, hprev, n, hn⟩ := hu
  refine ⟨?_, hconf, hprev, fun w => ?_⟩
  · have hp3 := congrArg Pkg.phase (pkg_of_rim h3)
    have hpn := congrArg (fun u : Pkg × Nat × List Die × IdState => u.1.phase) hn
    exact hpn.trans hp3
  · have hd := congrArg (fun u : Pkg × Nat × List Die × IdState => u.2.2.1) hn
    have hd3 := congrArg (fun u : EdState × Pkg × Nat × List Die × IdState => u.2.2.2.1) h3
    have hcode (d : Die) : (enter d).code = d.code := by
      unfold enter
      split
      · rfl
      · split
        · rfl
        · split
          · rfl
          · split <;> rfl
    have henter (d : Die) (hc : d.code = wingDie w) : (enter d).present = d.present ∧ (enter d).inService = (ws.contains w || d.inService) := by
      have hw : d.code - 4 = w := by rw [hc]; exact Nat.add_sub_cancel ..
      unfold enter
      rw [if_neg (by rw [hc]; exact Nat.not_lt.mpr (Nat.le_add_left ..)), hw]
      split
      next h => exact ⟨rfl, by rw [h]; rfl⟩
      next h =>
        rw [Bool.not_eq_true] at h
        rw [h, Bool.false_or]
        split
        · exact ⟨rfl, rfl⟩
        · split <;> exact ⟨rfl, rfl⟩
    rw [wingUp_of_tagless (hd.trans hd3) w]
    have hs2 : s2.die? (wingDie w) = (s1.die? (wingDie w)).map enter := die?_map s1 hcode _
    have hs1 := die?_of_rim h1 (wingDie w)
    have hwu : (s2.updPkg fun p => { p with phase := 4, releaseMs := s.tsc / ms }).wingUp w = s2.wingUp w := rfl
    rw [hwu]
    unfold State.wingUp
    rw [hs2]
    cases h : s1.die? (wingDie w) with
    | none =>
      rw [h] at hs1
      rw [Option.map_eq_none_iff.mp hs1.symm]
      rfl
    | some d =>
      rw [h] at hs1
      obtain ⟨e, he, hed⟩ := Option.map_eq_some_iff.mp hs1.symm
      obtain ⟨hp, hi⟩ := henter d (by simpa using List.find?_some h)
      rw [he]
      have hpe : e.present = d.present := (congrArg Die.present hed :)
      have hie : e.inService = d.inService := (congrArg Die.inService hed :)
      dsimp only [Option.map]
      rw [hp, hi, hpe, hie]

/-! The statement. -/

theorem execPkgResetDeassert_eq (s : State) (node mode : Nat) :
    exec (.pkgResetDeassert node mode) s = .next (if s.pkg.mainPower && s.pkg.inReset then s.startUp node mode else s) := rfl

theorem execWingRelease_eq (s : State) : exec .wingRelease s =
    .next (if s.accepting && s.pkg.phase == 3 && !s.pkg.asm.wings.any s.comingUp && s.pkg.asm.wings.any s.releasable then s.releaseWings else s) :=
  rfl

/-- A slot that is not valid is noted, and the boot has failed when it was the last one to try (R419). -/
theorem firmwareSlot_invalid {s : State} {slot : Nat} (hr : s.running = true) (hfw : s.pkg.fwRunning = false)
    (hb : s.pkg.bootFailed = false) (hph : s.pkg.phase = 0) (hslot : slot < 2) (hv : s.slotValid slot = false) :
    ∃ t, exec (.firmwareSlotVerified slot) s = .next t ∧ t = { s with pkg := t.pkg } ∧ t.pkg.fwRunning = false ∧
      slot ∈ t.pkg.slotsTried ∧ (s.pkg.bootMode ≠ 1 → (1 - slot) ∈ s.pkg.slotsTried → t.pkg.bootFailed = true) ∧
      (s.pkg.bootMode ≠ 1 → s.pkg.slotsTried = [] → t.pkg.bootFailed = false) ∧
      (s.pkg.bootMode = 1 → slot = 1 → t.pkg.bootFailed = true) := by
  have hx : exec (.firmwareSlotVerified slot) s = execFirmwareSlotVerified slot s := rfl
  rw [hx]
  unfold execFirmwareSlotVerified
  have hnb : s.boots slot = false := by simp [State.boots, hv]
  rw [if_neg (by simp [hr, hfw, hb, hph]; omega), if_neg (by simp [hnb]), if_neg (by simp [hv])]
  unfold State.updPkg
  dsimp only
  generalize htr : (if s.pkg.slotsTried.contains slot then s.pkg.slotsTried else s.pkg.slotsTried ++ [slot]) = tried
  have hin : slot ∈ tried := by
    rw [← htr]
    split
    next h => simpa using h
    next h => simp
  have hsub : ∀ x ∈ s.pkg.slotsTried, x ∈ tried := by
    rw [← htr]
    split
    next h => exact fun x hx => hx
    next h => exact fun x hx => List.mem_append_left _ hx
  refine ⟨_, rfl, rfl, hfw, hin, fun hm hother => ?_, fun hm hnil => ?_, fun hm h1 => ?_⟩
  · have hother' := hsub _ hother
    have hlen : 2 ≤ tried.length := by
      match tried, hin, hother' with
      | [], hin, _ => exact absurd hin List.not_mem_nil
      | [x], hin, hother' =>
        have := List.mem_singleton.mp hin
        have := List.mem_singleton.mp hother'
        omega
      | _ :: _ :: _, _, _ => simp
    exact (if_neg hm).trans (decide_eq_true hlen)
  · have hlen : ¬2 ≤ tried.length := by
      rw [← htr, hnil]
      simp
    exact (if_neg hm).trans (decide_eq_false hlen)
  · rw [h1] at hin
    exact (if_pos hm).trans (List.contains_iff_mem.mpr hin)

/-- Settles O54: an edition of a start changes of the package its status alone, and of the dies nothing but tag faults. -/
theorem powerUp : Obligations.PowerUp := by
  intro s node mode slot hmode hnode
  refine ⟨fun hp hr => ?_, fun h => ?_, fun hr hfw hb hph hslot hbm => ⟨fun hboots => ?_, fun hv hnb => ?_, fun hv => ?_⟩, fun h => ?_,
    fun ha hph hup hrel => ?_⟩
  · obtain ⟨h1, h2, h3, h4, h5, h6, h7⟩ := s.startUp_spec hmode hnode
    refine ⟨_, (execPkgResetDeassert_eq ..).trans (congrArg Host.Outcome.next (if_pos (by simp [hp, hr]))), h1, h2, h3, h4.trans ?_, h5,
      fun haon => h6 (if_pos (by simp [haon])), fun f hf hpe => ⟨f, h7 f hf hpe, rfl⟩⟩
    unfold State.startKind
    simp
  · exact (execPkgResetDeassert_eq ..).trans (congrArg Host.Outcome.next (if_neg (by rcases h with h | h <;> simp [h])))
  · have hx : exec (.firmwareSlotVerified slot) s = execFirmwareSlotVerified slot s := rfl
    refine ⟨_, hx.trans (congrArg Host.Outcome.next ((if_neg (by simp [hr, hfw, hb, hph]; omega)).trans (if_pos hboots))), s.runFirmware_spec slot⟩
  · have hx : exec (.firmwareSlotVerified slot) s = execFirmwareSlotVerified slot s := rfl
    exact hx.trans (congrArg Host.Outcome.next ((if_neg (by simp [hr, hfw, hb, hph]; omega)).trans
      ((if_neg (by simp [hnb])).trans (if_pos hv))))
  · exact firmwareSlot_invalid hr hfw hb hph hslot hv
  · exact (execWingRelease_eq s).trans (congrArg Host.Outcome.next (if_neg (by simp [h])))
  · obtain ⟨h4, hconf, hprev, hwing⟩ := s.releaseWings_spec
    refine ⟨_, (execWingRelease_eq s).trans (congrArg Host.Outcome.next (if_pos (by simp only [ha, hph, hup, hrel]; rfl))), h4, hconf, hprev,
      fun w hw hr => ?_, fun w hw hr hoff => ?_⟩
    · rw [hwing]
      have hd : ∃ d, s.die? (wingDie w) = some d ∧ d.present = true := by
        unfold State.releasable at hr
        cases hd : s.die? (wingDie w) <;> simp_all
      obtain ⟨d, hd, hp⟩ := hd
      rw [hd]
      simp [hp, hw, hr]
    · rw [hwing]
      cases hd : s.die? (wingDie w) with
      | none => rfl
      | some d =>
        have hc : d.code = wingDie w := by simpa using List.find?_some hd
        have hi := List.all_eq_true.mp hoff d (List.mem_of_find?_eq_some hd)
        simp_all

end Sys2Proof.Machine
end

section
/-! PROOF. A line written in place over memory that is not listed in rising order (R33, R34): the refutation of O10. -/

namespace Sys2Proof.Machine

open Sys2Proof.Claims

/-! A byte listed out of order. -/

/-- A write leaves every other byte as it reads, in whatever order memory lists them. -/
theorem memRead_memWrite_ne {m : List Host.Cell} {a b : Nat} (h : b ≠ a) (v : Byte) : memRead (memWrite m a v) b = memRead m b := by
  induction m with
  | nil =>
    unfold memWrite
    split
    · rfl
    · exact if_neg (Ne.symm h)
  | cons x t ih =>
    obtain ⟨x, y⟩ := x
    unfold memWrite
    split
    · simp only [memRead, ih]
    · split
      next hx =>
        subst hx
        split <;> simp [memRead, Ne.symm h]
      next hx =>
        split <;> simp [memRead, Ne.symm h]

theorem memRead_memWriteN_ne {bs : Bytes} {m : List Host.Cell} {a b : Nat} (h : b < a ∨ a + bs.length ≤ b) :
    memRead (memWriteN m a bs) b = memRead m b := by
  induction bs generalizing m a with
  | nil => rfl
  | cons v bs ih =>
    rw [List.length_cons] at h
    exact (ih (by omega)).trans (memRead_memWrite_ne (by omega) v)

/-- Memory lists byte 65 before a byte 64 that is 1: a write of 0 to byte 64 does not find it. -/
def Shadowed : List Host.Cell → Prop
  | [] => False
  | (x, _) :: t => (x < 64 ∧ Shadowed t) ∨ (x = 65 ∧ memRead t 64 = 1)

theorem Shadowed.write {m : List Host.Cell} (h : Shadowed m) {a : Nat} (ha : a < 64 ∨ 65 < a) (v : Byte) : Shadowed (memWrite m a v) := by
  induction m with
  | nil => exact h.elim
  | cons x t ih =>
    obtain ⟨x, y⟩ := x
    unfold memWrite
    rcases h with ⟨hx, ht⟩ | ⟨rfl, ht⟩
    · split
      · exact .inl ⟨hx, ih ht⟩
      · split
        next hxa =>
          split
          · exact ht
          · exact .inl ⟨by omega, ht⟩
        next hxa =>
          split
          · exact .inl ⟨hx, ht⟩
          · exact .inl ⟨by omega, .inl ⟨hx, ht⟩⟩
    · split
      · exact .inr ⟨rfl, (memRead_memWrite_ne (by omega) v).trans ht⟩
      · rw [if_neg (by omega)]
        split
        · exact .inr ⟨rfl, ht⟩
        · exact .inl ⟨by omega, .inr ⟨rfl, ht⟩⟩

theorem Shadowed.writeN {bs : Bytes} {m : List Host.Cell} (h : Shadowed m) {a : Nat} (ha : a + bs.length ≤ 64 ∨ 65 < a) :
    Shadowed (memWriteN m a bs) := by
  induction bs generalizing m a with
  | nil => exact h
  | cons v bs ih =>
    rw [List.length_cons] at ha
    exact ih (h.write (by omega) v) (by omega)

theorem Shadowed.zero {m : List Host.Cell} (h : Shadowed m) : memRead (memWrite m 64 0) 64 = 1 := by
  induction m with
  | nil => exact h.elim
  | cons x t ih =>
    obtain ⟨x, y⟩ := x
    unfold memWrite
    rcases h with ⟨hx, ht⟩ | ⟨rfl, ht⟩
    · rw [if_pos hx]
      exact (if_neg (by omega)).trans (ih ht)
    · rw [if_neg (by omega), if_neg (by omega), if_pos rfl]
      exact (if_neg (by omega)).trans ht

/-! A line stored at a channel that nothing waits at. -/

/-- Nothing waits at a channel, it is not paused, and no flip is armed there. -/
def Quiet (s : State) (w sel : Nat) : Prop :=
  ∃ x, s.chan? w sel = some x ∧ bitSet x.flip.ctl 0 = false ∧ x.wq = [] ∧ s.paused w sel = false ∧ s.mem.reads = []

theorem Quiet.writeQueue {s : State} {w sel : Nat} (h : Quiet s w sel) : s.writeQueue w sel = [] := by
  obtain ⟨x, hx, -, hq, -⟩ := h
  unfold State.writeQueue
  rw [hx]
  exact hq

theorem Quiet.rawLine {s : State} {w sel : Nat} (h : Quiet s w sel) (a : Nat) :
    (s.rawLine w sel a).1 = memReadN s.mem.dram (chanBase w sel 0 + a) 64 := by
  unfold State.rawLine
  rw [h.writeQueue]
  rfl

theorem Quiet.storeLine {s : State} {w sel : Nat} (h : Quiet s w sel) (a c : Nat) (off : Option Nat) (d : Bytes) (poison : Bool) (cls : Nat)
    (blk : Option Nat) : s.storeLine w sel a c off d poison cls blk =
      s.setRawLine w sel a (freshLine (isDepot sel) d poison).1 (freshLine (isDepot sel) d poison).2 := by
  have hq := h.writeQueue
  obtain ⟨x, hx, hf, -, hp, hr⟩ := h
  unfold State.storeLine
  rw [hx]
  dsimp only
  rw [if_neg (by simp [Flip.matches, hf])]
  unfold State.queueWrite State.issueWrites
  simp [hq, hp, hr]

theorem Quiet.setRawLine {s : State} {w sel : Nat} (h : Quiet s w sel) (a : Nat) (d k : Bytes) : Quiet (s.setRawLine w sel a d k) w sel := by
  obtain ⟨x, hx, hf, hq, hp, hr⟩ := h
  exact ⟨_, State.chan?_updChan_of hx fun _ => ⟨rfl, rfl⟩, hf, hq, hp, hr⟩

theorem xts_length (decrypt : Bool) (key : BitVec 512) (tweak j0 : Nat) (data : Bytes) : (xts decrypt key tweak j0 data).length ≤ data.length := by
  unfold xts
  rw [List.length_flatMap]
  refine (List.sum_le_card_nsmul _ 16 ?_).trans ?_
  · intro n hn
    obtain ⟨i, -, rfl⟩ := List.mem_map.mp hn
    dsimp only
    unfold xorBytes
    rw [List.length_zipWith, leBytes_length]
    exact Nat.min_le_right ..
  · rw [List.length_map, List.length_range, smul_eq_mul]
    exact Nat.div_mul_le_self ..

/-- The segment ends of a header are 2 bytes each. -/
theorem segmentEnds_length (segs : List (Nat × Bytes)) (acc : Nat × Bytes) :
    (segs.foldl (fun (acc : Nat × Bytes) s => (acc.1 + s.2.length, acc.2 ++ leBytes 2 (acc.1 + s.2.length))) acc).2.length =
      acc.2.length + 2 * segs.length := by
  induction segs generalizing acc with
  | nil => rfl
  | cons x segs ih =>
    rw [List.foldl_cons, ih, List.length_append, leBytes_length, List.length_cons]
    omega

theorem rawForm_header_length (b : Bytes) : (rawForm b).header.length = 64 := by
  have hn : ((segments b).map fun s => (0, s)).length = 16 := by simp [segments]
  unfold rawForm mkForm setSlice
  simp only [List.length_append, List.length_drop, slice_length, leBytes_length, segmentEnds_length, hn, List.length_cons, List.length_nil,
    zeros, List.length_replicate]

/-- A payload line is written in place behind the header line, on a channel where nothing waits (R33, R79, R80). -/
theorem Quiet.writeRawLine {s : State} {e : CatEntry} {l sel a0 a : Nat} (h : Quiet s e.wing sel) (hloan : s.mem.loanDir = [])
    (hcopy : e.copySlot = none) (h0 : s.locate e.tier e.site e.slot 0 = (sel, a0)) (h1 : s.locate e.tier e.site e.slot (l + 1) = (sel, a))
    (data : Bytes) :
    ∃ e' header check, (s.writeRawLine e l data false) = ((s.putEntry e').setRawLine e.wing sel a0 header check).setRawLine e.wing sel a
      (s.crypt false e.coll e.wing e.origin (l + 1) data) (lineCheck (isDepot sel) (s.crypt false e.coll e.wing e.origin (l + 1) data)) ∧
      header.length ≤ 64 := by
  have hrecall : s.recallBlock e.coll e.blk = s := by
    unfold State.recallBlock State.recall
    rw [hloan]
    exact State.bump_zero ..
  have hcap : s.captureReads e = s := by
    obtain ⟨-, -, -, -, -, hr⟩ := h
    unfold State.captureReads
    rw [hr]
    rfl
  unfold State.writeRawLine
  rw [hcap]
  extract_lets s0 payload f e' k put s1 s2
  have hs1 : s1 = s.putEntry e' := by
    unfold s1 s0
    rw [hrecall]
  have hput : put s1 e.tier e.site e.slot = (s1.setRawLine e.wing sel a0 (freshLine (isDepot sel) (s1.crypt false e.coll e.wing e.origin 0 f.header) false).1
      (freshLine (isDepot sel) (s1.crypt false e.coll e.wing e.origin 0 f.header) false).2).setRawLine e.wing sel a
        (freshLine (isDepot sel) (s1.crypt false e.coll e.wing e.origin (l + 1) data) false).1
        (freshLine (isDepot sel) (s1.crypt false e.coll e.wing e.origin (l + 1) data) false).2 := by
    have hq1 : Quiet s1 e.wing sel := by rw [hs1]; exact h
    have e0 : s1.locate e.tier e.site e.slot 0 = (sel, a0) := by rw [hs1]; exact h0
    have e1 : s1.locate e.tier e.site e.slot (l + 1) = (sel, a) := by rw [hs1]; exact h1
    unfold put
    dsimp only
    rw [e0, e1]
    dsimp only
    rw [hq1.storeLine, (hq1.setRawLine ..).storeLine]
  refine ⟨e', (freshLine (isDepot sel) (s1.crypt false e.coll e.wing e.origin 0 f.header) false).1,
    (freshLine (isDepot sel) (s1.crypt false e.coll e.wing e.origin 0 f.header) false).2, ?_, ?_⟩
  · rw [hcopy]
    dsimp only
    unfold s2
    rw [hput, hs1]
    rfl
  · exact (xts_length ..).trans (le_of_eq (rawForm_header_length _))

/-! A line leaves the cache by a write in place. -/

/-- What the statement asks of a dirty line that is written in place at its channel (R33). -/
structure InPlace (s : State) (l : CacheLine) (e : CatEntry) (sel a : Nat) : Prop where
  cached : s.cached? l.coll l.wing l.line = some l
  leaves : l.canLeave = true
  raw : s.act.kind l.coll = 1
  entry : s.entry l.coll l.wing (l.line / 64) = e
  serves : s.stuck e = false
  dirty : l.dirty = true
  nonzero : s.leavesZero l.coll l.wing (l.line / 64) = false
  depot : e.tier = .depot
  single : e.copySlot = none
  sound : e.hdrDamage = false
  own : s.shared e = false
  settled : s.moving e = false
  whole : l.valid = fullMask
  clean : l.poison = false
  data : l.data.length = 64
  check : l.check = sramStore false l.data
  place : s.locate e.tier e.site e.slot (l.line % 64 + 1) = (sel, a)
  depotBytes : s.depotBytes ≤ 2 ^ 40 ∧ 0 < s.depotBytes

/-- What the statement says of it. -/
theorem InPlace.of_claim {s : State} {l : CacheLine} {e : CatEntry} {sel a : Nat} (h : InPlace s l e sel a) (hclaim : LinesLeave)
    (hq : Quiet s l.wing sel) : ((ran (.lineLeavesCache l.coll l.wing l.line) s).rawLine l.wing sel a).1 =
      s.crypt false l.coll l.wing e.origin (l.line % 64 + 1) l.data := by
  obtain ⟨x, hx, hf, -⟩ := hq
  obtain ⟨-, -, hwrite⟩ := hclaim s l e h.cached h.leaves h.raw h.entry h.serves
  obtain ⟨t, hrun, hraw, -⟩ := hwrite x sel a h.dirty h.nonzero h.depot h.single h.sound h.own h.settled h.whole h.clean h.data h.check h.place
    hx hf h.depotBytes.1 h.depotBytes.2
  rw [← ran_of_exec hrun, hraw]
  rfl

/-- A whole line that replaces another is that line. -/
theorem mergeMask_full {d : Bytes} (h : d.length = 64) : mergeMask fullMask (zeros 64) d = d := by
  have hbit : ∀ i < 64, bitSet fullMask i = true := by decide
  refine List.ext_getElem (by simp [mergeMask, zeros, h]) fun i h1 h2 => ?_
  rw [h] at h2
  simp [mergeMask, hbit i h2, h, h2]

/-- What the model does. -/
theorem InPlace.leaveRaw {s : State} {l : CacheLine} {e : CatEntry} {sel a : Nat} (h : InPlace s l e sel a) :
    s.leaveRaw l = ((s.writeRawLine e (l.line % 64) l.data false).heat e 1).depart l.coll l.wing (l.line / 64)
      (·.isFor l.coll l.wing l.line) := by
  have hout : s.outgoing l = (s, l) := by
    have hclean := s.readSram_clean (wingDie l.wing) 0xF0 l.coll l.data
    unfold Sram.store at hclean
    rw [← h.check] at hclean
    unfold State.outgoing
    rw [hclean]
    dsimp only
    rw [Bool.or_false]
  unfold State.leaveRaw
  dsimp only
  rw [hout, h.entry]
  dsimp only
  rw [if_neg (by simp [h.serves]), if_neg (by simp [h.nonzero]), if_neg (by simp [h.dirty]), h.depot]
  dsimp only
  rw [if_neg (by simp [h.sound]), if_neg (by simp [h.own, h.settled]), if_pos (by simp [h.whole]), h.whole, h.clean]
  dsimp only
  rw [mergeMask_full h.data]
  rfl

theorem State.depart_rawLine (s : State) (c w blk : Nat) (p : CacheLine → Bool) : (s.depart c w blk p).rawLine = s.rawLine := by
  unfold State.depart
  split <;> rfl

theorem State.heat_rawLine (s : State) (e : CatEntry) (n : Nat) : (s.heat e n).rawLine = s.rawLine := by
  unfold State.heat
  split <;> rfl

/-- The state it leaves: the line is stored behind its header line, and in the channel nothing waits. -/
theorem InPlace.run {s : State} {l : CacheLine} {e : CatEntry} {sel a a0 : Nat} (h : InPlace s l e sel a) (hq : Quiet s l.wing sel)
    (hloan : s.mem.loanDir = []) (h0 : s.locate e.tier e.site e.slot 0 = (sel, a0)) (hname : e.coll = l.coll ∧ e.wing = l.wing) :
    ∃ header check check', header.length ≤ 64 ∧ ((ran (.lineLeavesCache l.coll l.wing l.line) s).rawLine l.wing sel a).1 =
      memReadN (memWriteN (memWriteN (memWriteN (memWriteN s.mem.dram (chanBase l.wing sel 0 + a0) header) (checkAddr l.wing sel a0) check)
        (chanBase l.wing sel 0 + a) (s.crypt false l.coll l.wing e.origin (l.line % 64 + 1) l.data)) (checkAddr l.wing sel a) check')
          (chanBase l.wing sel 0 + a) 64 := by
  obtain ⟨hcoll, hwing⟩ := hname
  have hrun : exec (.lineLeavesCache l.coll l.wing l.line) s = .next (s.leaveRaw l) := by
    have hx : exec (.lineLeavesCache l.coll l.wing l.line) s = execLineLeavesCache l.coll l.wing l.line s := rfl
    have hqueued : l.queued = false := by
      have := h.leaves
      unfold CacheLine.canLeave at this
      simp_all
    rw [hx]
    unfold execLineLeavesCache State.leave
    rw [h.cached]
    dsimp only
    rw [if_pos h.leaves, if_neg (by simp [hqueued]), if_neg (by simp [h.raw])]
  rw [← ran_of_exec hrun, h.leaveRaw]
  rw [← hwing] at hq ⊢
  obtain ⟨e', header, check, hw, hlen⟩ := hq.writeRawLine hloan h.single h0 h.place l.data
  refine ⟨header, check, lineCheck (isDepot sel) (s.crypt false e.coll e.wing e.origin (l.line % 64 + 1) l.data), hlen, ?_⟩
  rw [hw, ← hcoll]
  have hq' : Quiet (((s.putEntry e').setRawLine e.wing sel a0 header check).setRawLine e.wing sel a
      (s.crypt false e.coll e.wing e.origin (l.line % 64 + 1) l.data)
      (lineCheck (isDepot sel) (s.crypt false e.coll e.wing e.origin (l.line % 64 + 1) l.data))) e.wing sel :=
    Quiet.setRawLine (Quiet.setRawLine (s := s.putEntry e') hq a0 header check) a _ _
  rw [State.depart_rawLine, State.heat_rawLine, hq'.rawLine]
  rfl

/-! The counterexample. -/

/-- The bytes of a line whose encryption under the key of `serving` begins with a byte 0. -/
def zeroingData : Bytes := 238 :: zeros 63

/-- A dirty line with these bytes: line 0 of collection 5 on Wing 0. -/
def zeroingLine : CacheLine :=
  { CacheLine.empty 5 0 0 with data := zeroingData, check := sramStore false zeroingData, valid := fullMask, dirty := true }

/-- Its block stands in Depot slot 0, so that the line goes to byte 64 of its channel. -/
def zeroingEntry : CatEntry := { CatEntry.zero 5 0 0 with tier := .depot, slot := 0, slots := 1 }

/-- The package in service holds the line, and memory lists byte 65 before byte 64. -/
def servingDirty : State :=
  serving.updMem fun m => { m with cache := [zeroingLine], cat := [zeroingEntry], dram := [(65, 1), (64, 1)] }

theorem zeroingLine_inPlace : InPlace servingDirty zeroingLine zeroingEntry 0 64 := by
  constructor <;> decide +kernel

theorem servingDirty_quiet : Quiet servingDirty 0 0 := by
  have hx : servingDirty.chan? 0 0 = some { Chan.reset 0 0 with st := 2 } := by decide +kernel
  exact ⟨_, hx, by decide, by decide, by decide +kernel, rfl⟩

theorem crypt_zeroingData : (servingDirty.crypt false 5 0 0 1 zeroingData).head? = some 0 := by decide +kernel

/-- A shadowed byte 64 survives a line stored over it that begins with a byte 0. -/
theorem Shadowed.line {m : List Host.Cell} {header check line check' : Bytes} (h : Shadowed m) (hh : header.length ≤ 64)
    (hl : line.head? = some 0) :
    memRead (memWriteN (memWriteN (memWriteN (memWriteN m 0 header) (2 ^ 40) check) 64 line) (2 ^ 40 + 16) check') 64 = 1 := by
  have hfar : 64 < 2 ^ 40 + 16 := by decide
  rw [memRead_memWriteN_ne (.inl hfar)]
  cases line with
  | nil => cases hl
  | cons v line =>
    obtain rfl : v = 0 := by simpa using hl
    have hnext : 64 < 64 + 1 := by decide
    have hbase : 0 + header.length ≤ 64 := by omega
    have hcheck : 65 < 2 ^ 40 := by decide
    exact (memRead_memWriteN_ne (.inl hnext)).trans ((h.writeN (.inl hbase)).writeN (.inr hcheck)).zero

/-- Refutes O10: over memory that does not list its bytes in rising order, a zero byte of the encrypted line does not take out the byte
listed there. -/
theorem not_linesAndCells : ¬ Obligations.LinesAndCells := by
  intro h
  obtain ⟨header, check, check', hlen, hrun⟩ :=
    zeroingLine_inPlace.run servingDirty_quiet rfl (a0 := 0) (by decide +kernel) ⟨rfl, rfl⟩
  have hclaim := zeroingLine_inPlace.of_claim h.1 servingDirty_quiet
  have hc : (servingDirty.crypt false zeroingLine.coll zeroingLine.wing zeroingEntry.origin (zeroingLine.line % 64 + 1) zeroingLine.data).head? =
      some 0 := crypt_zeroingData
  have hm : Shadowed servingDirty.mem.dram := .inr ⟨rfl, rfl⟩
  rw [hclaim] at hrun
  generalize servingDirty.crypt false zeroingLine.coll zeroingLine.wing zeroingEntry.origin (zeroingLine.line % 64 + 1) zeroingLine.data = line
    at hc hrun
  have hkept := hm.line (check := check) (check' := check') hlen hc
  have hread := congrArg List.head? hrun
  rw [hc] at hread
  exact absurd (Option.some.inj (hread.trans (congrArg some hkept))) (by decide)

end Sys2Proof.Machine
end
